-- ==== Sys2Proof/Word.lean ====
section
/-!
DEFINITION. The word types of the KZD-7128 model and their plainest arithmetic (00_scope.md, R3, R8).
-/

namespace Sys2Proof

/-- One byte. -/
abbrev Byte := BitVec 8
/-- A 16-bit field. -/
abbrev Half := BitVec 16
/-- A 32-bit register or instruction word. -/
abbrev Word := BitVec 32
/-- A 64-bit register pair or address. -/
abbrev Dword := BitVec 64

/-- A master identity (01_anatomy.md, R16, Table 1-10). -/
abbrev Master := BitVec 8

/-- A sparse table: keys strictly rising, no entry equal to the default its reader names. -/
abbrev Tab (α : Type) := List (Nat × α)

/-- One more, wrapping at the width ("wraps", 00_scope.md). -/
def wrapInc {w : Nat} (x : BitVec w) : BitVec w := x + 1#w

/-- One more, staying at the maximum ("saturates", 00_scope.md). -/
def satInc {w : Nat} (x : BitVec w) : BitVec w :=
  if x = BitVec.allOnes w then x else x + 1#w

end Sys2Proof
end

