-- ==== Sys2Proof/Syntax.lean ====
section
/-!
DEFINITION. The commands of the KZD-7128 as a block: one constructor per row of spec/opcode_table.json with the
operands its happening carries. Script and control processor instructions carry the 32-bit word as fetched.
-/

namespace Sys2Proof

/-- A pronoun number (00_scope.md, Table 0-4). -/
abbrev PrnNum := BitVec 20

/-- The core that issues a script instruction: a slot's script, or the control processor (07 R184, R231). -/
inductive Core where
  | engine (slot : BitVec 9)
  | control
deriving DecidableEq, Repr

/-- What the host does to its own memory before an access: stores bytes, makes a range answer with an error
(DETAIL as 06 R162 codes it), or repairs a range. -/
inductive HostStore where
  | bytes (addr : BitVec 60) (data : List Byte)
  | fault (addr : BitVec 60) (len : BitVec 60) (detail : Byte)
  | repair (addr : BitVec 60)
deriving DecidableEq, Repr

/-- The error a mover's data fetch returns (06 R173, Table 6-10 ERROR). -/
inductive FetchError where
  | unsupported | abort | timeout | poisoned | ecc | parity
deriving DecidableEq, Repr

/-- What an arrival report belongs to: a transfer of a mover, or the effect holding the release pipeline (05 R132). -/
inductive Arrival where
  | transfer (id : BitVec 32)
  | release
deriving DecidableEq, Repr

/-- A host access through a BAR: offset, length in bytes, and the bytes of a write (09 R280 to R283). -/
structure BarAccess where
  write : Bool
  off   : BitVec 35
  len   : BitVec 13
  data  : List Byte
deriving DecidableEq, Repr

/-- A namespace of an attached NVMe controller, as Identify Namespace gives it (08 R245). -/
structure NsInfo where
  nsid   : BitVec 32
  /-- log2 of the formatted LBA data size -/
  shift  : BitVec 8
  blocks : BitVec 64
  /-- it has metadata or end-to-end protection -/
  hasMeta : Bool
deriving DecidableEq, Repr

/-- A memory BAR of a device function, as sizing it finds it; its I/O BARs are left unassigned (08 Table 8-6). -/
structure DevBar where
  index : BitVec 3
  /-- log2 of its size -/
  shift : BitVec 6
deriving DecidableEq, Repr

/-- A function of a device, as its configuration space describes it (08 R239). -/
structure DevFunc where
  num     : BitVec 3
  bars    : List DevBar := []
  /-- max payload size supported, as PCI Express codes it: 128 bytes times 2 to this power -/
  payload : BitVec 3 := 0
  /-- entries of its MSI-X table -/
  vectors : BitVec 12 := 0
deriving DecidableEq, Repr

/-- What enumeration finds below a P port (08 R239). -/
structure DeviceInfo where
  /-- function 0 has a Type 1 header -/
  bridge  : Bool
  /-- functions present, in ascending order -/
  funcs   : List DevFunc
  /-- function 0 to 7 that is an NVMe controller -/
  nvme    : Option (BitVec 3)
  /-- queue pairs the controller grants, and its MDTS as log2 of 4 KiB pages; 0 for no limit -/
  pairs   : BitVec 8
  mdts    : BitVec 8
  spaces  : List NsInfo
deriving DecidableEq, Repr

/-- A port's next step of training (08 R236): the state it reaches, its rate and width when up, and the device. -/
structure LinkUp where
  state  : BitVec 3
  rate   : BitVec 4
  width  : BitVec 3
  device : DeviceInfo
deriving DecidableEq, Repr

/-- A device memory request to buffer DRAM (08 R240). -/
inductive InboundReq where
  | read (addr : BitVec 64) (len : BitVec 13)
  | write (addr : BitVec 64) (data : List Byte)
deriving DecidableEq, Repr

/-- PCI Express error messages (08 R238). -/
inductive PcieErr where
  | correctable | nonFatal | fatal
deriving DecidableEq, Repr

/-- A KDL frame (08 Table 8-17), its payload, and the CRC-32C of its trailer. -/
structure KdlFrame where
  type   : Byte
  flags  : Byte := 0
  seqVc  : BitVec 16 := 0
  length : BitVec 16 := 0
  device : Byte := 0
  verb   : Byte := 0
  mod    : Byte := 0
  index  : Byte := 0
  opId   : BitVec 16 := 0
  value  : BitVec 32 := 0
  tag    : BitVec 48 := 0
  detail : Byte := 0
  last   : Byte := 0
  payload : List Byte := []
  crc    : BitVec 32 := 0
deriving DecidableEq, Repr

/-- A message on Malid Link: TYPE, PARAM and body (11 R337, Table 11-1). -/
structure TwinMsg where
  type  : Byte
  param : BitVec 64
  body  : List Byte
deriving DecidableEq, Repr

/-- A flit on Malid Link (11 R336): its header fields, its payload bytes and the CRC it carries; one of an uncorrectable
codeword comes with no good CRC. -/
structure Flit where
  seq  : BitVec 12
  bulk : Bool := false
  null : Bool := false
  nak  : Bool := false
  ackSeq : BitVec 12 := 0
  ackValid : Bool := false
  payload : List Byte := []
  crc : BitVec 32 := 0
deriving DecidableEq, Repr

/-! ### Power, faults, resets, pins -/

/-- The strap balls and RESET_N at a power-on (16 R463, R474). -/
structure Straps where
  hostSplit : Bool
  twinId    : Bool
  testmode  : Bool
  resetLow  : Bool
deriving DecidableEq, Repr

/-- A boot image slot as the ROM finds it on the flash (13 Table 13-6), with the outcomes of R404's three checks on
its key, signature and payload. -/
structure Image where
  readError : Bool := false
  magic   : Word
  format  : Half
  flags   : Half
  length  : Word
  svn     : Word
  seq     : Dword
  entry   : Word
  zeros   : Bool
  keyOk   : Bool
  sigOk   : Bool
  hashOk  : Bool
  payload : List Byte
deriving DecidableEq, Repr

/-- Whose access met an error in engine local SRAM (14 Table 14-1, R489). -/
inductive ErrUser where
  | nobody
  /-- a data access of the script on a slot -/
  | script (slot : BitVec 9)
  /-- an instruction fetch of the script on a slot -/
  | fetch (slot : BitVec 9)
  /-- a single read of the CCW next on a slot: its own fetch, or a read its check makes -/
  | ccw (slot : BitVec 9) (inside : Bool)
  /-- the table base of the MOVREQ with this word -/
  | request (c : Core) (w : BitVec 32)
  /-- a mover's data fetch -/
  | mover (m : BitVec 3) (ctx : BitVec 6)
  /-- the result record of a mover's transfer -/
  | record (m : BitVec 3) (ctx : BitVec 6)
deriving DecidableEq, Repr

/-- Where an uncorrectable error is found, by structure of 14 Table 14-1. -/
inductive ErrSite where
  | tcm (off : BitVec 19)
  | sram (addr : BitVec 22) (user : ErrUser)
  /-- engine, way index, and the slot whose fetch met it -/
  | icache (engine : BitVec 5) (way : BitVec 16) (slot : Option (BitVec 9))
  | slot (k : BitVec 9)
  | record (prn : PrnNum)
  /-- staged data of the pronoun's open clause, in this block -/
  | staged (prn : PrnNum) (block : BitVec 18)
  /-- staged data of an effect of a numbered clause -/
  | committed (number : Dword) (effect : BitVec 16) (block : BitVec 18)
  | directory (way : BitVec 16)
  /-- the registry entry of the lock at this CTM offset -/
  | lock (off : BitVec 32) (entry : BitVec 13)
  | key (n : BitVec 12)
  | mover (m : BitVec 3)
  | quad (q : BitVec 5)
  | dram (line : BitVec 29)
  | mram (off : BitVec 25)
  | logic
deriving DecidableEq, Repr

/-- A banked record or area of the persistent store (12 Table 12-7, R387). -/
inductive StoreRec where
  | reservation | twin | subsystem | board | retirements | keys | saveArea
  | lifecycle (third : Bool)
deriving DecidableEq, Repr

/-- A host configuration write that bears on the part's own behaviour (09 R297, Table 9-1): the bits it leaves. -/
inductive CfgWrite where
  /-- Bus Master Enable -/
  | busMaster (on : Bool)
  /-- Memory Space Enable of a PF -/
  | memorySpace (on : Bool)
  /-- VF Memory Space Enable, in a PF's SR-IOV capability -/
  | vfMemorySpace (on : Bool)
  /-- Max Payload Size and Max Read Request Size, as PCI Express codes them -/
  | sizes (payload read : BitVec 3)
  /-- MSI-X Enable and the function mask -/
  | msix (enable mask : Bool)
  | pmeEnable (on : Bool)
  | vfEnable (on : Bool)
  /-- ASPM Control: L1 -/
  | aspm (on : Bool)
deriving DecidableEq, Repr

/-- The commands: one constructor per row of spec/opcode_table.json, in its order. -/
inductive Instr where
  /-- CCW_FETCH (R19) -/
  | ccwFetch (slot : BitVec 9)
  /-- WRITE (R269) -/
  | verbWrite (slot : BitVec 9)
  /-- READ (R269) -/
  | verbRead (slot : BitVec 9)
  /-- SENSE (R269) -/
  | verbSense (slot : BitVec 9)
  /-- MOVE (R160) -/
  | verbMove (slot : BitVec 9)
  /-- FILL (R164) -/
  | verbFill (slot : BitVec 9)
  /-- COMPARE (R37) -/
  | verbCompare (slot : BitVec 9)
  /-- CONTROL (R269) -/
  | verbControl (slot : BitVec 9)
  /-- JUMP (R25) -/
  | verbJump (slot : BitVec 9)
  /-- LOOP (R34) -/
  | verbLoop (slot : BitVec 9)
  /-- NOP (R23) -/
  | verbNop (slot : BitVec 9)
  /-- WAIT (R36) -/
  | verbWait (slot : BitVec 9)
  /-- SIGNAL (R35) -/
  | verbSignal (slot : BitVec 9)
  /-- SCRIPT (R39) -/
  | verbScript (slot : BitVec 9)
  /-- ABANDON (R115) -/
  | verbAbandon (slot : BitVec 9)
  /-- POST (R48) -/
  | verbPost (slot : BitVec 9)
  /-- HALT (R26) -/
  | verbHalt (slot : BitVec 9)
  /-- DOOM_ENTRIES_RETURNED (R91) -/
  | doomEntriesReturned (prn : PrnNum)
  /-- CONFLICT_RERUN (R113) -/
  | conflictRerun (prn : PrnNum)
  /-- CLB_RECORD_WAIT_END (R107) -/
  | clbRecordWaitEnd
  /-- CTM_COMMITTED_WAIT_END (R100) -/
  | ctmCommittedWaitEnd (c : Core)
  /-- FULL_STOP_ADMIT (R131) -/
  | fullStopAdmit
  /-- FS_RESERVATION_WRITE (R125) -/
  | fsReservationWrite
  /-- RELEASE_ISSUE (R132) -/
  | releaseIssue
  /-- DOORBELL_WRITE (R69) -/
  | doorbellWrite (fn : Master) (off : BitVec 20) (bytes : List Byte) (env : List HostStore)
  /-- PLACEMENT (R78) -/
  | placement
  /-- RECORD_LOAD_DONE (R79) -/
  | recordLoadDone (slot : BitVec 9)
  /-- BUDGET_END (R213) -/
  | budgetEnd (slot : BitVec 9)
  /-- WAIT_TIMEOUT (R36) -/
  | waitTimeout (prn : PrnNum)
  /-- MOVER_ISSUE_STALL_END (R153) -/
  | moverIssueStallEnd (c : Core)
  /-- MOVER_READ_TURN (R156) -/
  | moverReadTurn (m : BitVec 3)
  /-- MOVER_WRITE_TURN (R156) -/
  | moverWriteTurn (m : BitVec 3)
  /-- BARRIER_READBACK_DONE (R161) -/
  | barrierReadbackDone (w : Arrival) (detail : Byte)
  /-- MOVER_FETCH_ERROR (R173) -/
  | moverFetchError (m : BitVec 3) (ctx : BitVec 6) (err : FetchError) (multi : Bool)
  /-- REINIT (R176) -/
  | mvReinit (m : BitVec 3)
  /-- MOVER_REINIT_DONE (R176) -/
  | moverReinitDone (m : BitVec 3)
  /-- RESUME_HELD (R176) -/
  | resumeHeld (m : BitVec 3)
  /-- CLOSE (R176) -/
  | mvClose (m : BitVec 3)
  /-- MV_HOLD_CLEAR (R175) -/
  | mvHoldClear (v : Word)
  /-- ARB_CUTOFF (R179) -/
  | arbCutoff (a : BitVec 5) (input : BitVec 5)
  /-- ARB_STARVE (R183) -/
  | arbStarve (a : BitVec 5) (input : BitVec 5)
  /-- ARB_SWAP (R182) -/
  | arbSwap (a : BitVec 5) (v : Word)
  /-- ADD (R199) -/
  | scAdd (c : Core) (w : Word)
  /-- SUB (R199) -/
  | scSub (c : Core) (w : Word)
  /-- AND (R198) -/
  | scAnd (c : Core) (w : Word)
  /-- OR (R198) -/
  | scOr (c : Core) (w : Word)
  /-- XOR (R198) -/
  | scXor (c : Core) (w : Word)
  /-- ANDN (R198) -/
  | scAndn (c : Core) (w : Word)
  /-- SHL (R199) -/
  | scShl (c : Core) (w : Word)
  /-- SHR (R199) -/
  | scShr (c : Core) (w : Word)
  /-- SAR (R199) -/
  | scSar (c : Core) (w : Word)
  /-- ROL (R199) -/
  | scRol (c : Core) (w : Word)
  /-- ROR (R199) -/
  | scRor (c : Core) (w : Word)
  /-- MUL (R199) -/
  | scMul (c : Core) (w : Word)
  /-- MULHS (R199) -/
  | scMulhs (c : Core) (w : Word)
  /-- MULHU (R199) -/
  | scMulhu (c : Core) (w : Word)
  /-- DIVS (R199) -/
  | scDivs (c : Core) (w : Word)
  /-- DIVU (R199) -/
  | scDivu (c : Core) (w : Word)
  /-- REMS (R199) -/
  | scRems (c : Core) (w : Word)
  /-- REMU (R199) -/
  | scRemu (c : Core) (w : Word)
  /-- MIN (R198) -/
  | scMin (c : Core) (w : Word)
  /-- MAX (R198) -/
  | scMax (c : Core) (w : Word)
  /-- MINU (R198) -/
  | scMinu (c : Core) (w : Word)
  /-- MAXU (R198) -/
  | scMaxu (c : Core) (w : Word)
  /-- NEG (R199) -/
  | scNeg (c : Core) (w : Word)
  /-- NOT (R198) -/
  | scNot (c : Core) (w : Word)
  /-- BREV (R199) -/
  | scBrev (c : Core) (w : Word)
  /-- BREVB (R199) -/
  | scBrevb (c : Core) (w : Word)
  /-- PAR8 (R199) -/
  | scPar8 (c : Core) (w : Word)
  /-- PAR32 (R199) -/
  | scPar32 (c : Core) (w : Word)
  /-- CLZ (R198) -/
  | scClz (c : Core) (w : Word)
  /-- POPC (R198) -/
  | scPopc (c : Core) (w : Word)
  /-- BSWAP (R199) -/
  | scBswap (c : Core) (w : Word)
  /-- CRCB (R205) -/
  | scCrcb (c : Core) (w : Word)
  /-- CRCH (R205) -/
  | scCrch (c : Core) (w : Word)
  /-- CRCW (R205) -/
  | scCrcw (c : Core) (w : Word)
  /-- CRCB_M (R206) -/
  | scCrcbM (c : Core) (w : Word)
  /-- CRCH_M (R206) -/
  | scCrchM (c : Core) (w : Word)
  /-- CRCW_M (R206) -/
  | scCrcwM (c : Core) (w : Word)
  /-- ADDI (R202) -/
  | scAddi (c : Core) (w : Word)
  /-- ANDI (R202) -/
  | scAndi (c : Core) (w : Word)
  /-- ORI (R202) -/
  | scOri (c : Core) (w : Word)
  /-- XORI (R202) -/
  | scXori (c : Core) (w : Word)
  /-- SHLI (R199) -/
  | scShli (c : Core) (w : Word)
  /-- SHRI (R199) -/
  | scShri (c : Core) (w : Word)
  /-- SARI (R199) -/
  | scSari (c : Core) (w : Word)
  /-- RORI (R199) -/
  | scRori (c : Core) (w : Word)
  /-- MOVL (R202) -/
  | scMovl (c : Core) (w : Word)
  /-- MOVH (R202) -/
  | scMovh (c : Core) (w : Word)
  /-- LDB (R203) -/
  | scLdb (c : Core) (w : Word)
  /-- LDBU (R203) -/
  | scLdbu (c : Core) (w : Word)
  /-- LDH (R203) -/
  | scLdh (c : Core) (w : Word)
  /-- LDHU (R203) -/
  | scLdhu (c : Core) (w : Word)
  /-- LDW (R203) -/
  | scLdw (c : Core) (w : Word)
  /-- STB (R203) -/
  | scStb (c : Core) (w : Word)
  /-- STH (R203) -/
  | scSth (c : Core) (w : Word)
  /-- STW (R203) -/
  | scStw (c : Core) (w : Word)
  /-- LDCBU (R204) -/
  | scLdcbu (c : Core) (w : Word)
  /-- LDCHU (R204) -/
  | scLdchu (c : Core) (w : Word)
  /-- LDCW (R204) -/
  | scLdcw (c : Core) (w : Word)
  /-- STCB (R204) -/
  | scStcb (c : Core) (w : Word)
  /-- STCH (R204) -/
  | scStch (c : Core) (w : Word)
  /-- STCW (R204) -/
  | scStcw (c : Core) (w : Word)
  /-- CMP (R201) -/
  | scCmp (c : Core) (w : Word)
  /-- CMPI (R201) -/
  | scCmpi (c : Core) (w : Word)
  /-- PLOG (R201) -/
  | scPlog (c : Core) (w : Word)
  /-- BR (R207) -/
  | scBr (c : Core) (w : Word)
  /-- CALL (R208) -/
  | scCall (c : Core) (w : Word)
  /-- CALLL (R209) -/
  | scCalll (c : Core) (w : Word)
  /-- JR (R207) -/
  | scJr (c : Core) (w : Word)
  /-- RET (R208) -/
  | scRet (c : Core) (w : Word)
  /-- RETL (R209) -/
  | scRetl (c : Core) (w : Word)
  /-- REP (R210) -/
  | scRep (c : Core) (w nxt : Word)
  /-- REPI (R212) -/
  | scRepi (c : Core) (w nxt : Word)
  /-- END (R214) -/
  | scEnd (c : Core) (w : Word)
  /-- TRAP (R223) -/
  | scTrap (c : Core) (w : Word)
  /-- TRET (R225) -/
  | scTret (c : Core) (w : Word)
  /-- MFS (R192) -/
  | scMfs (c : Core) (w : Word)
  /-- MTS (R215) -/
  | scMts (c : Core) (w : Word)
  /-- ICINV (R189) -/
  | scIcinv (c : Core) (w : Word)
  /-- LOCK (R119) -/
  | scLock (c : Core) (w : Word)
  /-- UNLOCK (R119) -/
  | scUnlock (c : Core) (w : Word)
  /-- MOVREQ (R217) -/
  | scMovreq (c : Core) (w : Word)
  /-- MOVWT (R220) -/
  | scMovwt (c : Core) (w : Word)
  /-- WAIT_INSTR (R221) -/
  | scWaitInstr (c : Core) (w : Word)
  /-- SIGNAL_INSTR (R222) -/
  | scSignalInstr (c : Core) (w : Word)
  /-- RBLD (R232) -/
  | cpRbld (w : Word)
  /-- RBST (R232) -/
  | cpRbst (w : Word)
  /-- MFC (R321) -/
  | cpMfc (w : Word)
  /-- MTC (R321) -/
  | cpMtc (w : Word)
  /-- IRET (R322) -/
  | cpIret (w : Word)
  /-- WFI (R322) -/
  | cpWfi (w : Word)
  /-- FENCE (R232) -/
  | cpFence (w : Word)
  /-- INTERRUPT_ENTRY (R322) -/
  | interruptEntry
  /-- IC_CLAIM_N (R319) -/
  | icClaimN (who : Master)
  /-- IC_CLAIM_F (R319) -/
  | icClaimF (who : Master)
  /-- IC_COMPLETE_N (R319) -/
  | icCompleteN (who : Master) (v : Word)
  /-- IC_COMPLETE_F (R319) -/
  | icCompleteF (who : Master) (v : Word)
  /-- CE_ICINV (R189) -/
  | ceIcinv (n : BitVec 5)
  /-- PORT_LINK_UP (R236) -/
  | portLinkUp (q : BitVec 5) (p : BitVec 2) (link : LinkUp)
  /-- PORT_LINK_DOWN (R273) -/
  | portLinkDown (q : BitVec 5) (p : BitVec 2) (cause : BitVec 4)
  /-- INBOUND_MEMORY_REQUEST (R240) -/
  | inboundMemoryRequest (q : BitVec 5) (p : BitVec 2) (req : InboundReq)
  /-- INBOUND_MSIX_WRITE (R242) -/
  | inboundMsixWrite (q : BitVec 5) (p : BitVec 2) (fn : Byte) (vector : BitVec 11)
  /-- PCIE_ERROR_MESSAGE (R238) -/
  | pcieErrorMessage (q : BitVec 5) (p : BitVec 2) (sev : PcieErr)
  /-- CQ_SCAN_TIMER (R243) -/
  | cqScanTimer (q : BitVec 5) (p : BitVec 2) (pair : BitVec 7)
  /-- NVME_RESUBMIT (R249) -/
  | nvmeResubmit (op : BitVec 32)
  /-- RING_SCAN_TIMER (R251) -/
  | ringScanTimer (q : BitVec 5) (p : BitVec 2) (ring : BitVec 4)
  /-- DEVICE_OPERATION_END (R270) -/
  | deviceOperationEnd (op : BitVec 32) (data : List Byte) (ok : Bool)
  /-- ETH_FRAME_RX (R255) -/
  | ethFrameRx (q : BitVec 5) (p : BitVec 2) (bytes : List Byte) (good : Bool)
  /-- PAUSE_FRAME_RX (R260) -/
  | pauseFrameRx (q : BitVec 5) (p : BitVec 2) (bytes : List Byte)
  /-- ETH_FRAME_TX_DONE (R253) -/
  | ethFrameTxDone (q : BitVec 5) (p : BitVec 2)
  /-- KDL_SIGNAL_DETECT (R262) -/
  | kdlSignalDetect (q : BitVec 5) (p : BitVec 2)
  /-- KDL_TS1_RX (R261) -/
  | kdlTs1Rx (q : BitVec 5) (p : BitVec 2) (inverted : Bool)
  /-- KDL_TS2_RX (R262) -/
  | kdlTs2Rx (q : BitVec 5) (p : BitVec 2)
  /-- KDL_SKP_RX (R261) -/
  | kdlSkpRx (q : BitVec 5) (p : BitVec 2)
  /-- KDL_EIOS_RX (R261) -/
  | kdlEiosRx (q : BitVec 5) (p : BitVec 2)
  /-- KDL_TRAIN_TIMEOUT (R262) -/
  | kdlTrainTimeout (q : BitVec 5) (p : BitVec 2)
  /-- KDL_CONFIG_TIMEOUT (R262) -/
  | kdlConfigTimeout (q : BitVec 5) (p : BitVec 2)
  /-- KDL_RETRY_DELAY (R262) -/
  | kdlRetryDelay (q : BitVec 5) (p : BitVec 2)
  /-- KDL_BLOCK_LOCK_LOSS (R262) -/
  | kdlBlockLockLoss (q : BitVec 5) (p : BitVec 2)
  /-- KDL_INIT (R263) -/
  | kdlInit (q : BitVec 5) (p : BitVec 2) (f : KdlFrame)
  /-- KDL_IDLE (R263) -/
  | kdlIdle (q : BitVec 5) (p : BitVec 2) (f : KdlFrame)
  /-- KDL_DATA (R267) -/
  | kdlData (q : BitVec 5) (p : BitVec 2) (f : KdlFrame)
  /-- KDL_STATUS (R268) -/
  | kdlStatus (q : BitVec 5) (p : BitVec 2) (f : KdlFrame)
  /-- KDL_ATTN (R268) -/
  | kdlAttn (q : BitVec 5) (p : BitVec 2) (f : KdlFrame)
  /-- KDL_ACK (R264) -/
  | kdlAck (q : BitVec 5) (p : BitVec 2) (f : KdlFrame)
  /-- KDL_NAK (R264) -/
  | kdlNak (q : BitVec 5) (p : BitVec 2) (f : KdlFrame)
  /-- KDL_CREDIT (R266) -/
  | kdlCredit (q : BitVec 5) (p : BitVec 2) (f : KdlFrame)
  /-- KDL_UNDEFINED_FRAME (R265) -/
  | kdlUndefinedFrame (q : BitVec 5) (p : BitVec 2) (f : KdlFrame)
  /-- KDL_REPLAY_TIMEOUT (R264) -/
  | kdlReplayTimeout (q : BitVec 5) (p : BitVec 2)
  /-- OP_TIMEOUT_EXPIRY (R268) -/
  | opTimeoutExpiry (op : BitVec 32)
  /-- KDL_BUSY_RESEND (R268) -/
  | kdlBusyResend (op : BitVec 32)
  /-- QUAD_CONFIG_WRITE (R235) -/
  | quadConfigWrite (who : Master) (q : BitVec 5) (v : Word)
  /-- BAR0_ACCESS (R281) -/
  | bar0Access (fn : Master) (acc : BarAccess) (env : List HostStore)
  /-- BAR2_ACCESS (R282) -/
  | bar2Access (fn : Master) (acc : BarAccess) (env : List HostStore)
  /-- REGISTER_WRITE (R4) -/
  | registerWrite (who : Master) (off : BitVec 22) (v : Word)
  /-- TIME_TICK_LO_READ (R12) -/
  | timeTickLoRead (who : Master) (off : BitVec 22)
  /-- COUNTER_READ_CLEAR (R4) -/
  | counterReadClear (who : Master) (off : BitVec 22)
  /-- HF_ADM_CFG_WRITE (R285) -/
  | hfAdmCfgWrite (fn : Master) (v : Word)
  /-- HF_ADM_SQ_TAIL_WRITE (R286) -/
  | hfAdmSqTailWrite (fn : Master) (v : Word) (env : List HostStore)
  /-- HF_ADM_RQ_HEAD_WRITE (R286) -/
  | hfAdmRqHeadWrite (fn : Master) (v : Word)
  /-- HF_SQ_HEAD_WRITE (R292) -/
  | hfSqHeadWrite (fn : Master) (n : BitVec 12) (v : Word)
  /-- HF_MOD_WRITE (R295) -/
  | hfModWrite (fn : Master) (n : BitVec 11) (v : Word)
  /-- MODERATION_TIMER_EXPIRY (R295) -/
  | moderationTimerExpiry (fn : Master) (n : BitVec 11)
  /-- VECTOR_UNMASK (R295) -/
  | vectorUnmask (fn : Master) (n : BitVec 11)
  /-- ASPM_L1_ENTRY (R299) -/
  | aspmL1Entry (link : Bool)
  /-- D3HOT_ENTRY (R298) -/
  | d3hotEntry (pf : Bool)
  /-- D0_ENTRY (R299) -/
  | d0Entry (pf : Bool)
  /-- IDENTIFY (R289) -/
  | admIdentify (fn : Master) (pkt : BitVec 512)
  /-- CONFIGURE (R448) -/
  | admConfigure (fn : Master) (pkt : BitVec 512)
  /-- RESET_DEVICE (R446) -/
  | admResetDevice (fn : Master) (pkt : BitVec 512)
  /-- SLEEP (R369) -/
  | admSleep (fn : Master) (pkt : BitVec 512)
  /-- VF_CONFIG (R291) -/
  | admVfConfig (fn : Master) (pkt : BitVec 512)
  /-- QUAD_CONFIG (R234) -/
  | admQuadConfig (fn : Master) (pkt : BitVec 512)
  /-- PORT_REGION (R240) -/
  | admPortRegion (fn : Master) (pkt : BitVec 512)
  /-- NVME_QUEUES (R243) -/
  | admNvmeQueues (fn : Master) (pkt : BitVec 512)
  /-- NS_ADD (R245) -/
  | admNsAdd (fn : Master) (pkt : BitVec 512)
  /-- NS_REMOVE (R245) -/
  | admNsRemove (fn : Master) (pkt : BitVec 512)
  /-- RING_SET (R250) -/
  | admRingSet (fn : Master) (pkt : BitVec 512)
  /-- RING_CLEAR (R250) -/
  | admRingClear (fn : Master) (pkt : BitVec 512)
  /-- ETH_UNICAST (R255) -/
  | admEthUnicast (fn : Master) (pkt : BitVec 512)
  /-- ETH_MULTICAST (R255) -/
  | admEthMulticast (fn : Master) (pkt : BitVec 512)
  /-- FLOW_ADD (R258) -/
  | admFlowAdd (fn : Master) (pkt : BitVec 512)
  /-- FLOW_DELETE (R258) -/
  | admFlowDelete (fn : Master) (pkt : BitVec 512)
  /-- BUCKET_SET (R259) -/
  | admBucketSet (fn : Master) (pkt : BitVec 512)
  /-- BIND (R63) -/
  | admBind (fn : Master) (pkt : BitVec 512)
  /-- UNBIND (R67) -/
  | admUnbind (fn : Master) (pkt : BitVec 512)
  /-- MODIFY (R82) -/
  | admModify (fn : Master) (pkt : BitVec 512)
  /-- START_COMMAND (R72) -/
  | admStart (fn : Master) (pkt : BitVec 512)
  /-- HALT_COMMAND (R73) -/
  | admHalt (fn : Master) (pkt : BitVec 512)
  /-- RESUME_COMMAND (R32) -/
  | admResume (fn : Master) (pkt : BitVec 512)
  /-- CLEAR (R76) -/
  | admClear (fn : Master) (pkt : BitVec 512)
  /-- PRONOUN_RESET (R77) -/
  | admPronounReset (fn : Master) (pkt : BitVec 512)
  /-- QUERY (R87) -/
  | admQuery (fn : Master) (pkt : BitVec 512)
  /-- REPLAY (R146) -/
  | admReplay (fn : Master) (pkt : BitVec 512)
  /-- EXPORT_SAVED (R147) -/
  | admExportSaved (fn : Master) (pkt : BitVec 512)
  /-- DISCARD_SAVED (R147) -/
  | admDiscardSaved (fn : Master) (pkt : BitVec 512)
  /-- CLAUSE_TUNE (R289) -/
  | admClauseTune (fn : Master) (pkt : BitVec 512)
  /-- SQ_CREATE (R56) -/
  | admSqCreate (fn : Master) (pkt : BitVec 512)
  /-- SQ_DELETE (R289) -/
  | admSqDelete (fn : Master) (pkt : BitVec 512)
  /-- SQ_QUERY (R289) -/
  | admSqQuery (fn : Master) (pkt : BitVec 512)
  /-- EVENT_ROUTE (R304) -/
  | admEventRoute (fn : Master) (pkt : BitVec 512)
  /-- MBX_BIND (R324) -/
  | admMbxBind (fn : Master) (pkt : BitVec 512)
  /-- KEY_IMPORT (R410) -/
  | admKeyImport (fn : Master) (pkt : BitVec 512)
  /-- KEY_ERASE (R411) -/
  | admKeyErase (fn : Master) (pkt : BitVec 512)
  /-- KEY_INFO (R289) -/
  | admKeyInfo (fn : Master) (pkt : BitVec 512)
  /-- LIFECYCLE_REQUEST (R399) -/
  | admLifecycleRequest (fn : Master) (pkt : BitVec 512)
  /-- TWIN_PAIR (R341) -/
  | admTwinPair (fn : Master) (pkt : BitVec 512)
  /-- TWIN_UNPAIR (R361) -/
  | admTwinUnpair (fn : Master) (pkt : BitVec 512)
  /-- TWIN_FENCE (R355) -/
  | admTwinFence (fn : Master) (pkt : BitVec 512)
  /-- TWIN_TAKEOVER (R358) -/
  | admTwinTakeover (fn : Master) (pkt : BitVec 512)
  /-- TWIN_STATUS (R340) -/
  | admTwinStatus (fn : Master) (pkt : BitVec 512)
  /-- SELF_TEST (R458) -/
  | admSelfTest (fn : Master) (pkt : BitVec 512) (fails : List (BitVec 4 × Word))
  /-- LINK_TEST (R459) -/
  | admLinkTest (fn : Master) (pkt : BitVec 512)
  /-- LINK_TEST_END (R459) -/
  | linkTestEnd (failed : Word)
  /-- LOG_READ (R444) -/
  | admLogRead (fn : Master) (pkt : BitVec 512)
  /-- CJ_INPUT_EDGE (R306) -/
  | cjInputEdge (n : Byte)
  /-- CONJUNCTION_ACT (R314) -/
  | conjunctionAct (n : Byte) (k : BitVec 3)
  /-- INHIBIT_DISARM (R312) -/
  | inhibitDisarm (n : Byte)
  /-- GPIO_INPUT_EDGE (R302) -/
  | gpioInputEdge (pin : BitVec 4) (high : Bool) (ns : BitVec 32)
  /-- MBX_POST (R326) -/
  | mbxPost (who : Master) (m : BitVec 6)
  /-- MBX_ACK (R327) -/
  | mbxAck (who : Master) (m : BitVec 6)
  /-- HELLO (R342) -/
  | twHello (body : List Byte)
  /-- AUTH (R343) -/
  | twAuth (body : List Byte)
  /-- HEARTBEAT (R348) -/
  | twHeartbeat (param : Dword) (body : List Byte)
  /-- HEARTBEAT_SEND (R348) -/
  | twHeartbeatSend
  /-- ALIGNMENT_TIMEOUT (R349) -/
  | twAlignmentTimeout
  /-- MIRROR_ACK (R127) -/
  | twMirrorAck (param : Dword)
  /-- FENCE_MSG (R354) -/
  | twFenceMsg (param : Dword)
  /-- FENCE_ACK (R355) -/
  | twFenceAck (param : Dword)
  /-- LAUNCH (R350) -/
  | twLaunch (param : Dword) (body : List Byte)
  /-- LAUNCH_ACK (R350) -/
  | twLaunchAck (param : Dword) (body : List Byte)
  /-- LAUNCH_TICK (R350) -/
  | twLaunchTick (action : Byte)
  /-- LAUNCH_RETRY (R350) -/
  | twLaunchRetry (action : Byte)
  /-- MAILBOX (R339) -/
  | twMailbox (param : Dword) (body : List Byte)
  /-- REG_REQ (R339) -/
  | twRegReq (param : Dword) (body : List Byte)
  /-- REG_RESP (R338) -/
  | twRegResp (param : Dword) (body : List Byte)
  /-- CTM_COPY (R345) -/
  | twCtmCopy (param : Dword) (body : List Byte)
  /-- CTM_WRITE (R345) -/
  | twCtmWrite (param : Dword) (body : List Byte)
  /-- MIRROR (R346) -/
  | twMirror (param : Dword) (body : List Byte)
  /-- RELEASED (R347) -/
  | twReleased (param : Dword)
  /-- MALID_UNDEF_MESSAGE (R337) -/
  | twMalidUndefMessage (type : Byte) (bulk : Bool)
  /-- MALID_FLIT_RX (R336) -/
  | twMalidFlitRx (f : Flit)
  /-- MALID_REPLAY_TIMEOUT (R336) -/
  | twMalidReplayTimeout
  /-- MALID_TRAIN_TIMEOUT (R335) -/
  | twMalidTrainTimeout
  /-- JOIN_LINK_TIMEOUT (R343) -/
  | twJoinLinkTimeout
  /-- JOIN_ALIGN_TIMEOUT (R343) -/
  | twJoinAlignTimeout
  /-- TWIN_LOSS (R351) -/
  | twTwinLoss
  /-- FENCE_IN_ASSERT (R353) -/
  | twFenceInAssert (ns : BitVec 32) (held : Bool)
  /-- PIN_FENCE_COMPLETE (R355) -/
  | twPinFenceComplete
  /-- LINK_FENCE_TIMEOUT (R355) -/
  | twLinkFenceTimeout
  /-- HANDBACK (R362) -/
  | twHandback (who : Master) (v : Word)
  /-- WAKE_IN_FALL (R371) -/
  | wakeInFall (ns : BitVec 32)
  /-- WAKE_TIMER_EXPIRY (R371) -/
  | wakeTimerExpiry
  /-- DEEP_SLEEP_PREREQ_MET (R376) -/
  | deepSleepPrereqMet
  /-- D3_WAIT_TIMEOUT (R376) -/
  | d3WaitTimeout
  /-- HU_STATUS_FRAME (R377) -/
  | huStatusFrame (good : Bool) (hv vcap : BitVec 12)
  /-- ISOLATED_LINK_LOSS (R377) -/
  | isolatedLinkLoss
  /-- POWER_FAIL_DECLARED (R379) -/
  | powerFailDeclared
  /-- HV_OVERVOLTAGE (R379) -/
  | hvOvervoltage
  /-- FAIL_LINE_EDGE (R382) -/
  | failLineEdge
  /-- DRAIN_END (R382) -/
  | drainEnd
  /-- CAPACITANCE_CHECK_TIMER (R380) -/
  | capacitanceCheckTimer
  /-- CAPACITANCE_CHECK_REQUEST (R381) -/
  | capacitanceCheckRequest
  /-- CHARGE_STOP (R381) -/
  | chargeStop
  /-- CHARGE_RESUME (R381) -/
  | chargeResume
  /-- CAPACITANCE_CHECK_DONE (R380) -/
  | capacitanceCheckDone (fall : BitVec 12) (us : BitVec 32)
  /-- CHARGER_TIMEOUT (R378) -/
  | chargerTimeout
  /-- HOLDUP_DIE_START (R469) -/
  | holdupDieStart
  /-- HV_OK_SETTLED (R469) -/
  | hvOkSettled
  /-- BUS_RETURN_TO_HV_IN (R470) -/
  | busReturnToHvIn
  /-- KEY_RESERVATION_WRITE (R412) -/
  | keyReservationWrite
  /-- NEW_NONCE (R398) -/
  | newNonce
  /-- EXTEST (R415) -/
  | extest
  /-- SAMPLE_PRELOAD (R415) -/
  | samplePreload (cells : List Bool)
  /-- IDCODE (R415) -/
  | idcode
  /-- CLAMP (R415) -/
  | clamp
  /-- HIGHZ (R415) -/
  | highz
  /-- DBG_MBX (R416) -/
  | dbgMbx
  /-- BYPASS (R415) -/
  | bypass
  /-- DBG_STATUS (R416) -/
  | dbgStatus
  /-- CHALLENGE (R418) -/
  | challenge (level : Byte)
  /-- DBG_UNLOCK (R418) -/
  | dbgUnlock (key sig : List Byte)
  /-- RELOCK (R419) -/
  | relock (level : Byte)
  /-- READ32 (R417) -/
  | read32 (off : Word)
  /-- WRITE32 (R417) -/
  | write32 (off v : Word)
  /-- READ_MEM (R417) -/
  | readMem (addr : Dword) (len : Word)
  /-- WRITE_MEM (R417) -/
  | writeMem (addr : Dword) (len : Word) (bytes : List Byte)
  /-- TRACE_READ (R416) -/
  | traceRead (off : Word)
  /-- CHALLENGE_EXPIRY (R418) -/
  | challengeExpiry
  /-- TRST_N_ASSERT (R419) -/
  | trstNAssert (ns : BitVec 32)
  /-- UNCORRECTABLE_ERROR (R427) -/
  | uncorrectableError (site : ErrSite) (multi : Bool)
  /-- CORRECTED_ERROR (R429) -/
  | correctedError (code : BitVec 4) (unit : BitVec 9) (loc : BitVec 32)
  /-- CONTROL_PROCESSOR_FAULT (R434) -/
  | controlProcessorFault
  /-- PERSISTENT_COPY_CRC_FAILURE (R432) -/
  | persistentCopyCrcFailure (rec : StoreRec) (copyB : Bool)
  /-- FENCE_SLOT (R433) -/
  | fenceSlot (n : BitVec 9)
  /-- FENCE_ENGINE (R433) -/
  | fenceEngine (n : BitVec 9)
  /-- FENCE_MOVER (R433) -/
  | fenceMover (n : BitVec 9)
  /-- FENCE_QUAD (R433) -/
  | fenceQuad (n : BitVec 9)
  /-- FENCE_CACHE_BANK (R433) -/
  | fenceCacheBank (n : BitVec 9)
  /-- FLT_RETIRE (R430) -/
  | fltRetire (v : Word)
  /-- LOG_FLUSH (R444) -/
  | logFlush
  /-- TEMP_SENSOR_READ (R467) -/
  | tempSensorRead (logic dram holdup : Byte)
  /-- THERMTRIP (R466) -/
  | thermtrip (logic dram holdup : BitVec 9)
  /-- POWER_ON_RESET (R474) -/
  | powerOnReset (straps : Straps)
  /-- FIRMWARE_READY (R492) -/
  | firmwareReady (a b : Image)
  /-- RESET_N (R446) -/
  | resetN (ns : BitVec 32)
  /-- DEVICE_PERST (R453) -/
  | devicePerst (ns : BitVec 32)
  /-- LINK_PERST (R450) -/
  | linkPerst (link : Bool) (ns : BitVec 32)
  /-- FUNCTION_LEVEL_RESET (R450) -/
  | functionLevelReset (fn : Master)
  /-- ENGINE_RESET (R451) -/
  | engineReset (who : Master) (v : Word)
  /-- WATCHDOG_EXPIRY (R446) -/
  | watchdogExpiry
  /-- WATCHDOG_KICK (R460) -/
  | watchdogKick (who : Master) (v : Word)
  /-- RAIL_LOSS (R475) -/
  | railLoss
  /-- PERST_DEASSERT (R453) -/
  | perstDeassert (link : Bool)
  /-- RESET_N_RELEASE (R474) -/
  | resetNRelease
  /-- HOST_LINK_UP (R276) -/
  | hostLinkUp (link : Bool) (rate : BitVec 3) (width : BitVec 5) (flit : Bool)
  /-- HOST_LINK_DOWN (R301) -/
  | hostLinkDown (link : Bool)
  /-- CONFIG_SPACE_WRITE (R297) -/
  | configSpaceWrite (fn : Master) (w : CfgWrite)
  /-- HOLDUP_DIE_STOP (R469) -/
  | holdupDieStop
  /-- MALID_LINK_ACTIVE (R335) -/
  | malidLinkActive
  /-- MALID_RETRY_DELAY (R335) -/
  | malidRetryDelay
  /-- PAUSE_TIMER_EXPIRY (R260) -/
  | pauseTimerExpiry (q : BitVec 5) (p : BitVec 2) (queues : BitVec 8)
  /-- PORT_RECOVERY_ENTRY (R236) -/
  | portRecoveryEntry (q : BitVec 5) (p : BitVec 2)
  /-- PORT_LOW_POWER_ENTRY (R238) -/
  | portLowPowerEntry (q : BitVec 5) (p : BitVec 2)
  /-- FENCE_TICK (R354) -/
  | fenceTick
  /-- REGION_COPY_SENT (R342) -/
  | regionCopySent
  /-- KEY_BANK_WRITTEN (R412) -/
  | keyBankWritten
  /-- LINK_TEST_LAUNCH (R459) -/
  | linkTestLaunch
  /-- KDL_INIT_SEND (R262) -/
  | kdlInitSend (q : BitVec 5) (p : BitVec 2)
deriving DecidableEq, Repr

end Sys2Proof
end

