-- ==== Sys2Proof/Decode.lean ====
section
/-!
DEFINITION. Words that spell commands: spec/opcode_table.json gives no row any bits, so no word spells one.
-/

namespace Sys2Proof

/-- The command a word of the opcode table spells. -/
def decodeTableWord (_nbits _w : Nat) : Option Instr := none

end Sys2Proof
end

