-- ==== Sys2Proof/Machine/Alu.lean ====
section
/-!
DEFINITION. The pure datapath of the script instruction set: fields of an instruction word (07 R195, R196,
Table 7-3), arithmetic and logic (R199 to R202), CRC steps (R205), and the encoding legality of each opcode (R196, R197).
-/

namespace Sys2Proof.Machine

/-! ### Fields (Table 7-3) -/

def opcOf (w : Word) : BitVec 6 := w.extractLsb' 22 6
def rdOf (w : Word) : Nat := (w.extractLsb' 17 5).toNat
def rs1Of (w : Word) : Nat := (w.extractLsb' 12 5).toNat
def rs2Of (w : Word) : Nat := (w.extractLsb' 7 5).toNat
def fnOf (w : Word) : BitVec 7 := w.extractLsb' 0 7
def imm12Of (w : Word) : BitVec 12 := w.extractLsb' 0 12
def imm16Of (w : Word) : BitVec 16 := w.extractLsb' 0 16
def off22Of (w : Word) : BitVec 22 := w.extractLsb' 0 22
/-- pd, pa of formats C, P and L -/
def pdOf (w : Word) : Nat := (w.extractLsb' 19 3).toNat
/-- cond, ps1, pb -/
def condOf (w : Word) : BitVec 3 := w.extractLsb' 16 3
/-- rs1 of formats C and L -/
def crs1Of (w : Word) : Nat := (w.extractLsb' 11 5).toNat
/-- rs2 of format C (register) -/
def crs2Of (w : Word) : Nat := (w.extractLsb' 6 5).toNat
def imm11Of (w : Word) : BitVec 11 := w.extractLsb' 0 11
def ps2Of (w : Word) : Nat := (w.extractLsb' 13 3).toNat
/-- fn of format P -/
def pfnOf (w : Word) : BitVec 3 := w.extractLsb' 10 3
def predOf (w : Word) : Nat := (w.extractLsb' 28 3).toNat
def senseOf (w : Word) : Bool := w.getLsbD 31

/-! ### Arithmetic (R199, R200) -/

/-- signed overflow of an exact sum or difference -/
def outOfSigned (x : Int) : Bool := decide (x < -2147483648) || decide (2147483647 < x)

def aluAdd (a b : Word) : Word × Bool := (a + b, outOfSigned (a.toInt + b.toInt))
def aluSub (a b : Word) : Word × Bool := (a - b, outOfSigned (a.toInt - b.toInt))
def aluNeg (a : Word) : Word × Bool := (0 - a, a == 0x80000000#32)

def aluShl (a b : Word) : Word := if 32 ≤ b.toNat then 0 else a <<< b.toNat
def aluShr (a b : Word) : Word := if 32 ≤ b.toNat then 0 else a >>> b.toNat
def aluSar (a b : Word) : Word :=
  if 32 ≤ b.toNat then (if a.msb then 0xFFFFFFFF else 0) else a.sshiftRight b.toNat
def aluRol (a b : Word) : Word := a.rotateLeft (b.toNat % 32)
def aluRor (a b : Word) : Word := a.rotateRight (b.toNat % 32)

def aluMul (a b : Word) : Word := a * b
/-- high half of the signed product -/
def aluMulhs (a b : Word) : Word := BitVec.ofInt 32 ((a.toInt * b.toInt) / 4294967296)
/-- high half of the unsigned product -/
def aluMulhu (a b : Word) : Word := BitVec.ofNat 32 ((a.toNat * b.toNat) / 4294967296)

/-- Signed division: quotient, remainder, V, DZ (R199); the DIVIDE trap is the caller's. -/
def aluDivs (a b : Word) : Word × Word × Bool × Bool :=
  if b = 0 then (0xFFFFFFFF, a, false, true)
  else if a = 0x80000000#32 ∧ b = 0xFFFFFFFF#32 then (0x80000000, 0, true, false)
  else (BitVec.ofInt 32 (a.toInt.tdiv b.toInt), BitVec.ofInt 32 (a.toInt.tmod b.toInt), false, false)

/-- Unsigned division: quotient, remainder, DZ. -/
def aluDivu (a b : Word) : Word × Word × Bool :=
  if b = 0 then (0xFFFFFFFF, a, true)
  else (BitVec.ofNat 32 (a.toNat / b.toNat), BitVec.ofNat 32 (a.toNat % b.toNat), false)

def aluMin (a b : Word) : Word := if a.toInt ≤ b.toInt then a else b
def aluMax (a b : Word) : Word := if a.toInt ≤ b.toInt then b else a
def aluMinu (a b : Word) : Word := if a.toNat ≤ b.toNat then a else b
def aluMaxu (a b : Word) : Word := if a.toNat ≤ b.toNat then b else a

/-- the number of one bits among the low n bits -/
def onesBelow {k : Nat} (v : BitVec k) : Nat → Nat
  | 0 => 0
  | n + 1 => onesBelow v n + (if v.getLsbD n then 1 else 0)

def aluPopc (a : Word) : Word := BitVec.ofNat 32 (onesBelow a 32)

/-- leading zeros of the low n bits -/
def leadingZeros {k : Nat} (v : BitVec k) : Nat → Nat
  | 0 => 0
  | n + 1 => if v.getLsbD n then 0 else leadingZeros v n + 1

def aluClz (a : Word) : Word := BitVec.ofNat 32 (leadingZeros a 32)

/-- reverse of the low n bits of v -/
def reverseBits (v : Nat) : Nat → Nat
  | 0 => 0
  | n + 1 => (v % 2) * 2 ^ n + reverseBits (v / 2) n

def aluBrev (a : Word) : Word := BitVec.ofNat 32 (reverseBits a.toNat 32)
/-- byte i of a word -/
def byteOf (a : Word) (i : Nat) : Byte := a.extractLsb' (8 * i) 8
/-- a word from its four bytes, lowest first -/
def wordOf (b0 b1 b2 b3 : Byte) : Word := b3 ++ b2 ++ b1 ++ b0
def revByte (b : Byte) : Byte := BitVec.ofNat 8 (reverseBits b.toNat 8)
def aluBrevb (a : Word) : Word :=
  wordOf (revByte (byteOf a 0)) (revByte (byteOf a 1)) (revByte (byteOf a 2)) (revByte (byteOf a 3))
def aluBswap (a : Word) : Word := wordOf (byteOf a 3) (byteOf a 2) (byteOf a 1) (byteOf a 0)
/-- parity of the low n bits -/
def parity {k : Nat} (v : BitVec k) (n : Nat) : Bool := onesBelow v n % 2 == 1
def aluPar8 (a : Word) : Word :=
  BitVec.ofNat 32 ((if parity (byteOf a 0) 8 then 1 else 0) + (if parity (byteOf a 1) 8 then 2 else 0)
    + (if parity (byteOf a 2) 8 then 4 else 0) + (if parity (byteOf a 3) 8 then 8 else 0))
def aluPar32 (a : Word) : Word := if parity a 32 then 1 else 0

/-- Compare conditions (R201). -/
def condHolds (c : BitVec 3) (a b : Word) : Bool :=
  match c.toNat with
  | 0 => a == b
  | 1 => a != b
  | 2 => decide (a.toInt < b.toInt)
  | 3 => decide (b.toInt ≤ a.toInt)
  | 4 => decide (a.toNat < b.toNat)
  | 5 => decide (b.toNat ≤ a.toNat)
  | 6 => (a &&& b) != 0
  | _ => (a &&& b) == 0

/-- Predicate logic (R201). -/
def plogOf (fn : BitVec 3) (x y : Bool) : Bool :=
  match fn.toNat with
  | 0 => x && y
  | 1 => x || y
  | 2 => xor x y
  | 3 => x && !y
  | 4 => true
  | 5 => false
  | 6 => x
  | _ => !x

/-! ### CRC steps (R205, Table 6-7) -/

/-- n bit steps of a reflected CRC over the bits of byte, lowest first -/
def crcReflected (poly : Nat) : Nat → Nat → Nat → Nat
  | 0, s, _ => s
  | n + 1, s, byte =>
    crcReflected poly n ((s / 2) ^^^ (if (s ^^^ byte) % 2 = 1 then poly else 0)) (byte / 2)

/-- n shifts of a CRC of the given width, highest bit first -/
def crcForward (poly width : Nat) : Nat → Nat → Nat
  | 0, s => s
  | n + 1, s =>
    crcForward poly width n
      (((s * 2) ^^^ (if 2 ^ (width - 1) ≤ s then poly else 0)) % 2 ^ width)

/-- reversed CRC-32C polynomial 0x1EDC6F41 -/
def polyCastagnoli : Nat := reverseBits 0x1EDC6F41 32
/-- reversed CRC-32 polynomial 0x04C11DB7 -/
def polyIeee : Nat := reverseBits 0x04C11DB7 32

/-- One byte step with polynomial 0 CRC-32C, 1 CRC-32, 2 CRC-16/CCITT, 3 CRC-64/ECMA-182. -/
def crcStep (kind : Nat) (s : Nat) (b : Byte) : Nat :=
  match kind with
  | 0 => crcReflected polyCastagnoli 8 s b.toNat
  | 1 => crcReflected polyIeee 8 s b.toNat
  | 2 => crcForward 0x1021 16 8 ((s % 65536) ^^^ (b.toNat * 256))
  | _ => crcForward 0x42F0E1EBA9EA3693 64 8 (s ^^^ (b.toNat * 2 ^ 56))

def crcBytes (kind : Nat) (s : Nat) (l : List Byte) : Nat := l.foldl (crcStep kind) s

def crcInit (kind : Nat) : Nat :=
  match kind with | 0 => 0xFFFFFFFF | 1 => 0xFFFFFFFF | 2 => 0xFFFF | _ => 0
def crcFinal (kind : Nat) (s : Nat) : Nat :=
  match kind with | 0 => s ^^^ 0xFFFFFFFF | 1 => s ^^^ 0xFFFFFFFF | _ => s

/-- The CRC of a string under Table 6-7. -/
def crcOf (kind : Nat) (l : List Byte) : Nat := crcFinal kind (crcBytes kind (crcInit kind) l)
/-- CRC-32C of a string (used by the save area and the banks, R141). -/
def crc32c (l : List Byte) : Word := BitVec.ofNat 32 (crcOf 0 l)

/-! ### Encoding legality (R195 to R198, R201, R206, R210, R216) -/

/-- ALU functions of Table 7-5 -/
def aluFns : List Nat :=
  [0x00, 0x01, 0x02, 0x03, 0x04, 0x05, 0x08, 0x09, 0x0A, 0x0B, 0x0C, 0x10, 0x11, 0x12, 0x14, 0x15, 0x16, 0x17,
   0x18, 0x19, 0x1A, 0x1B, 0x20, 0x21, 0x22, 0x23, 0x24, 0x25, 0x26, 0x27, 0x28,
   0x30, 0x31, 0x32, 0x34, 0x35, 0x36]
/-- the unary functions, whose rs2 must be zero -/
def aluUnary : List Nat := [0x20, 0x21, 0x22, 0x23, 0x24, 0x25, 0x26, 0x27, 0x28]

/-- Opcodes of Table 7-4. -/
def opcodes : List Nat :=
  [0x01, 0x02, 0x03, 0x04, 0x05, 0x06, 0x07, 0x08, 0x09, 0x0A, 0x10, 0x11, 0x12, 0x13, 0x14, 0x15, 0x16, 0x17,
   0x18, 0x19, 0x1A, 0x1B, 0x1C, 0x1D, 0x20, 0x21, 0x22, 0x28, 0x29, 0x2A, 0x2B, 0x2C, 0x2D, 0x2E, 0x2F,
   0x30, 0x31, 0x32, 0x33, 0x34, 0x35, 0x36, 0x37, 0x38, 0x39, 0x3A, 0x3C, 0x3D, 0x3E, 0x3F]

/-- the read-write special registers an MTS may name, and the defined numbers (Table 7-2) -/
def mtsLegal (n : Nat) : Bool := n == 0 || n == 1 || n == 2 || n == 4 || n == 6 || n == 7
def mfsLegal (n : Nat) : Bool := decide (n ≤ 14)
/-- control registers (Table 10-8); c7 is read-only -/
def mfcLegal (n : Nat) : Bool := decide (n ≤ 7)
def mtcLegal (n : Nat) : Bool := decide (n ≤ 6)

/-- CRC forms with crc = 3, and a memory form's rs1 equal to rd (R206). -/
def crcRegsLegal (crc : Nat) (fn rd rs1 : Nat) : Bool :=
  let memForm := decide (0x34 ≤ fn)
  if crc = 3 then
    rd % 2 == 0 && rd != 0 &&
    (if memForm then rs1 != rd && rs1 != rd + 1 else rs1 % 2 == 0)
  else (!memForm) || rs1 != rd

/-- ALU group legality: a defined fn, a zero rs2 on unary forms, the CRC rules. -/
def aluLegal (crc : Nat) (w : Word) : Bool :=
  let fn := (fnOf w).toNat
  aluFns.contains fn &&
  (!(aluUnary.contains fn) || rs2Of w == 0) &&
  (!(decide (0x30 ≤ fn)) || crcRegsLegal crc fn (rdOf w) (rs1Of w))

/-- Predicate logic legality (R201). -/
def plogLegal (w : Word) : Bool :=
  pdOf w != 0 && (w.extractLsb' 0 10) == 0#10 &&
  (let f := (pfnOf w).toNat
   if f = 4 ∨ f = 5 then condOf w == 0 && ps2Of w == 0
   else if f = 6 ∨ f = 7 then ps2Of w == 0 else true)

/-- Encoding checks of one instruction word: every cause of ILLEGAL but the pair rule of R211, on an engine or on
the control processor, with the crc polynomial at issue and the handler and interrupt state. -/
def encLegal (control : Bool) (crc : Nat) (inHandler inInterrupt : Bool) (w : Word) : Bool :=
  let low22 := w.extractLsb' 0 22
  match (opcOf w).toNat with
  | 0x01 => aluLegal crc w
  | 0x02 | 0x03 | 0x04 | 0x05 | 0x06 | 0x07 | 0x08 | 0x09 => true
  | 0x0A => true
  | 0x10 | 0x11 | 0x12 | 0x13 | 0x14 | 0x15 | 0x16 | 0x17 => true
  | 0x18 | 0x19 | 0x1A | 0x1B | 0x1C | 0x1D => true
  | 0x20 => pdOf w != 0 && (w.extractLsb' 0 6) == 0#6
  | 0x21 => pdOf w != 0
  | 0x22 => plogLegal w
  | 0x28 | 0x29 | 0x2A => true
  | 0x2B => rdOf w == 0 && rs2Of w == 0 && fnOf w == 0
  | 0x2C | 0x2D => low22 == 0#22
  | 0x2E => (w.extractLsb' 8 13) == 0#13
  | 0x2F => !control && (w.extractLsb' 1 21) == 0#21
  | 0x30 => (w.extractLsb' 17 5) == 0#5 && (w.extractLsb' 6 6) == 0#6
  | 0x31 => inHandler && (w.extractLsb' 1 21) == 0#21
  | 0x32 => rs1Of w == 0 && fnOf w == 0 && mfsLegal (rs2Of w)
  | 0x33 => rdOf w == 0 && fnOf w == 0 && mtsLegal (rs2Of w)
  | 0x34 => !control && low22 == 0#22
  | 0x35 => !control && pdOf w != 0 && condOf w != 0 && pdOf w != (condOf w).toNat && (w.extractLsb' 0 11) == 0#11
  | 0x36 => !control && pdOf w != 0 && condOf w == 0 && (w.extractLsb' 0 11) == 0#11
  | 0x37 => rs2Of w == 0 && fnOf w == 0
  | 0x38 => rs2Of w == 0 && (w.extractLsb' 1 6) == 0#6
  | 0x39 => !control && (w.extractLsb' 0 4) == 0#4
  | 0x3A => (w.extractLsb' 17 4) == 0#4 && (w.extractLsb' 0 12) == 0#12
  | 0x3C | 0x3D => control
  | 0x3E =>
    control && (if fnOf w = 0 then mfcLegal (rs2Of w)
                else if fnOf w = 1 then mtcLegal (rs2Of w) else false)
  | 0x3F =>
    control && (if fnOf w = 0 then inInterrupt else decide ((fnOf w).toNat ≤ 2))
  | _ => false

/-- The instructions that may not follow a repeat (R211); IRET and WFI, fn 0 and 1 of opcode 0x3F, on the control
processor. -/
def repeatForbidden (ctl : Bool) (w : Word) : Bool :=
  let o := (opcOf w).toNat
  [0x28, 0x29, 0x2A, 0x2B, 0x2C, 0x2D, 0x2E, 0x2F, 0x30, 0x31, 0x34, 0x35, 0x36, 0x37, 0x38, 0x39].contains o ||
  (ctl && o == 0x3F && decide ((fnOf w).toNat ≤ 1))

end Sys2Proof.Machine
end

