-- ==== Sys2Proof/Machine/Crypto.lean ====
section
/-!
DEFINITION. The standard algorithms the transform stage names (06 R165, Table 6-6): AES-256 (FIPS 197), GCM
(SP 800-38D), XTS (IEEE 1619), CTR (SP 800-38A), SHA-256 (FIPS 180-4), HMAC-SHA-256 (FIPS 198-1). Byte strings are
lists, first byte first.
-/

namespace Sys2Proof.Machine

/-! ### Bytes and numbers -/

/-- n bytes of a number, lowest first -/
def toLE : Nat → Nat → List Byte
  | 0, _ => []
  | n + 1, v => BitVec.ofNat 8 (v % 256) :: toLE n (v / 256)
/-- the number of a string, lowest byte first -/
def ofLE : List Byte → Nat
  | [] => 0
  | b :: t => b.toNat + 256 * ofLE t
def toBE (n v : Nat) : List Byte := (toLE n v).reverse
def ofBE (l : List Byte) : Nat := ofLE l.reverse
def xorBytes (a b : List Byte) : List Byte := List.zipWith (· ^^^ ·) a b
/-- the first n bytes, zeros after the end -/
def padTo (n : Nat) (l : List Byte) : List Byte := (l ++ List.replicate n 0#8).take n

/-- a list cut into pieces of k, with fuel -/
def chunksFuel {α : Type} (k : Nat) : Nat → List α → List (List α)
  | 0, _ => []
  | f + 1, l => if l.isEmpty then [] else l.take k :: chunksFuel k f (l.drop k)
def chunksOf {α : Type} (k : Nat) (l : List α) : List (List α) := chunksFuel k l.length l

/-! ### AES-256 -/

/-- multiplication by x in GF(2^8) -/
def xtime (a : Byte) : Byte := (a <<< 1) ^^^ (if a.getLsbD 7 then 0x1B else 0)
def gmulFuel : Nat → Byte → Byte → Byte
  | 0, _, _ => 0
  | n + 1, a, b => (if b.getLsbD 0 then a else 0) ^^^ gmulFuel n (xtime a) (b >>> 1)
def gmul (a b : Byte) : Byte := gmulFuel 8 a b
/-- a to the power 254, the inverse in GF(2^8) -/
def ginv (a : Byte) : Byte :=
  let a2 := gmul a a
  let a3 := gmul a2 a
  let a6 := gmul a3 a3
  let a12 := gmul a6 a6
  let a15 := gmul a12 a3
  let a30 := gmul a15 a15
  let a60 := gmul a30 a30
  let a120 := gmul a60 a60
  let a126 := gmul a120 a6
  let a127 := gmul a126 a
  gmul a127 a127
def sbox (a : Byte) : Byte :=
  let b := ginv a
  b ^^^ b.rotateLeft 1 ^^^ b.rotateLeft 2 ^^^ b.rotateLeft 3 ^^^ b.rotateLeft 4 ^^^ 0x63
def invSbox (a : Byte) : Byte := ginv (a.rotateLeft 1 ^^^ a.rotateLeft 3 ^^^ a.rotateLeft 6 ^^^ 0x05)

/-- Key expansion of AES-256: words 8 to 59 from the last eight, newest first. -/
def aesExpand : Nat → Nat → Byte → List (List Byte) → List (List Byte)
  | 0, _, _, ws => ws
  | n + 1, i, rcon, ws =>
    let prev := ws.headD []
    let back := ws.getD 7 []
    let t :=
      if i % 8 = 0 then xorBytes ((prev.drop 1 ++ prev.take 1).map sbox) [rcon, 0, 0, 0]
      else if i % 8 = 4 then prev.map sbox else prev
    aesExpand n (i + 1) (if i % 8 = 0 then xtime rcon else rcon) (xorBytes back t :: ws)
/-- the fifteen round keys of a 32-byte key -/
def aesRoundKeys (key : List Byte) : List (List Byte) :=
  let ws := (aesExpand 52 8 0x01 (chunksOf 4 key).reverse).reverse
  (chunksOf 4 ws).map List.flatten

def shiftRows (s : List Byte) : List Byte :=
  (List.range 16).map fun i => s.getD ((i + 4 * (i % 4)) % 16) 0
def invShiftRows (s : List Byte) : List Byte :=
  (List.range 16).map fun i => s.getD ((i + 16 - 4 * (i % 4)) % 16) 0
def mixColumn (m0 m1 m2 m3 : Byte) (c : List Byte) : List Byte :=
  let a := c.getD 0 0; let b := c.getD 1 0; let d := c.getD 2 0; let e := c.getD 3 0
  [gmul m0 a ^^^ gmul m1 b ^^^ gmul m2 d ^^^ gmul m3 e, gmul m3 a ^^^ gmul m0 b ^^^ gmul m1 d ^^^ gmul m2 e,
   gmul m2 a ^^^ gmul m3 b ^^^ gmul m0 d ^^^ gmul m1 e, gmul m1 a ^^^ gmul m2 b ^^^ gmul m3 d ^^^ gmul m0 e]
def mixColumns (s : List Byte) : List Byte := ((chunksOf 4 s).map (mixColumn 2 3 1 1)).flatten
def invMixColumns (s : List Byte) : List Byte := ((chunksOf 4 s).map (mixColumn 14 11 13 9)).flatten

def aesRounds : List (List Byte) → List Byte → List Byte
  | [], s => s
  | [k], s => xorBytes (shiftRows (s.map sbox)) k
  | k :: ks, s => aesRounds ks (xorBytes (mixColumns (shiftRows (s.map sbox))) k)
/-- One AES-256 block encryption. -/
def aesEncrypt (key : BitVec 256) (block : List Byte) : List Byte :=
  match aesRoundKeys (toLE 32 key.toNat) with
  | [] => block
  | k :: ks => aesRounds ks (xorBytes block k)
def aesInvRounds : List (List Byte) → List Byte → List Byte
  | [], s => s
  | [k], s => xorBytes ((invShiftRows s).map invSbox) k
  | k :: ks, s => aesInvRounds ks (invMixColumns (xorBytes ((invShiftRows s).map invSbox) k))
/-- One AES-256 block decryption. -/
def aesDecrypt (key : BitVec 256) (block : List Byte) : List Byte :=
  match (aesRoundKeys (toLE 32 key.toNat)).reverse with
  | [] => block
  | k :: ks => aesInvRounds ks (xorBytes block k)

/-! ### CTR and GCM -/

/-- the keystream of the counter block c over n blocks; the whole block counts, modulo 2^128 -/
def ctrStream (key : BitVec 256) : Nat → Nat → List Byte
  | 0, _ => []
  | n + 1, c => aesEncrypt key (toBE 16 (c % 2 ^ 128)) ++ ctrStream key n (c + 1)
def blocksFor (n : Nat) : Nat := (n + 15) / 16
/-- AES-256-CTR of a whole stream from an initial counter block (R167). -/
def ctrCrypt (key : BitVec 256) (iv : List Byte) (l : List Byte) : List Byte :=
  xorBytes l (ctrStream key (blocksFor l.length) (ofBE iv))

/-- GCM's counter advances its low 32 bits alone. -/
def gcmStream (key : BitVec 256) (iv : List Byte) : Nat → Nat → List Byte
  | 0, _ => []
  | n + 1, c => aesEncrypt key (iv ++ toBE 4 (c % 2 ^ 32)) ++ gcmStream key iv n (c + 1)
/-- multiplication in GCM's field: x, v, and the number of bits left, highest bit first -/
def ghashMulFuel (x : Nat) : Nat → Nat → Nat → Nat
  | 0, _, z => z
  | n + 1, v, z =>
    ghashMulFuel x n (if v % 2 = 1 then (v / 2) ^^^ (0xE1 * 2 ^ 120) else v / 2)
      (if (x / 2 ^ n) % 2 = 1 then z ^^^ v else z)
def ghashMul (x y : Nat) : Nat := ghashMulFuel x 128 y 0
def ghash (h : Nat) (blocks : List (List Byte)) : Nat :=
  blocks.foldl (fun y b => ghashMul (y ^^^ ofBE (padTo 16 b)) h) 0
/-- the GCM text of a stream: encryption and decryption alike (96-bit IV) -/
def gcmCrypt (key : BitVec 256) (iv l : List Byte) : List Byte :=
  xorBytes l (gcmStream key iv (blocksFor l.length) 2)
/-- the GCM tag over additional data and ciphertext -/
def gcmTag (key : BitVec 256) (iv aad c : List Byte) : List Byte :=
  let h := ofBE (aesEncrypt key (List.replicate 16 0))
  let lens := toBE 8 (8 * aad.length) ++ toBE 8 (8 * c.length)
  let y := ghash h (chunksOf 16 aad ++ chunksOf 16 c ++ [lens])
  xorBytes (toBE 16 y) (aesEncrypt key (iv ++ toBE 4 1))

/-! ### XTS -/

/-- the next tweak: multiplication by x in GF(2^128), little-endian (IEEE 1619) -/
def xtsNext (t : Nat) : Nat := ((t * 2) % 2 ^ 128) ^^^ (if 2 ^ 127 ≤ t then 0x87 else 0)
def xtsBlocks (f : List Byte → List Byte) : Nat → List (List Byte) → List Byte
  | _, [] => []
  | t, b :: bs =>
    let tw := toLE 16 t
    xorBytes (f (xorBytes b tw)) tw ++ xtsBlocks f (xtsNext t) bs
/-- one data unit of whole blocks -/
def xtsUnit (enc : Bool) (key key2 : BitVec 256) (unit : Nat) (l : List Byte) : List Byte :=
  xtsBlocks (if enc then aesEncrypt key else aesDecrypt key)
    (ofLE (aesEncrypt key2 (toLE 16 unit))) (chunksOf 16 l)
def xtsUnits (enc : Bool) (key key2 : BitVec 256) : Nat → List (List Byte) → List Byte
  | _, [] => []
  | u, x :: xs => xtsUnit enc key key2 u x ++ xtsUnits enc key key2 (u + 1) xs
/-- XTS of whole blocks of a stream of data units of du bytes from the given unit number -/
def xtsCrypt (enc : Bool) (key key2 : BitVec 256) (du first : Nat) (l : List Byte) : List Byte :=
  xtsUnits enc key key2 first (chunksOf du l)

/-! ### SHA-256 and HMAC -/

def isqrtFuel : Nat → Nat → Nat → Nat
  | 0, _, r => r
  | f + 1, n, r => let b := 2 ^ f; isqrtFuel f n (if (r + b) * (r + b) ≤ n then r + b else r)
def icbrtFuel : Nat → Nat → Nat → Nat
  | 0, _, r => r
  | f + 1, n, r =>
    let b := 2 ^ f
    icbrtFuel f n (if (r + b) * (r + b) * (r + b) ≤ n then r + b else r)
/-- the first 64 primes -/
def sha256Primes : List Nat :=
  [2, 3, 5, 7, 11, 13, 17, 19, 23, 29, 31, 37, 41, 43, 47, 53, 59, 61, 67, 71, 73, 79, 83, 89, 97, 101, 103, 107,
   109, 113, 127, 131] ++
  [137, 139, 149, 151, 157, 163, 167, 173, 179, 181, 191, 193, 197, 199, 211, 223, 227, 229, 233, 239, 241, 251,
   257, 263, 269, 271, 277, 281, 283, 293, 307, 311]
/-- first 32 bits of the fraction of the square root -/
def sha256H0 : List Word :=
  (sha256Primes.take 8).map fun p => BitVec.ofNat 32 (isqrtFuel 40 (p * 2 ^ 64) 0)
/-- first 32 bits of the fraction of the cube root -/
def sha256K : List Word :=
  sha256Primes.map fun p => BitVec.ofNat 32 (icbrtFuel 40 (p * 2 ^ 96) 0)
def ror32 (x : Word) (n : Nat) : Word := x.rotateRight n
/-- message schedule, newest word first -/
def sha256Schedule : Nat → List Word → List Word
  | 0, ws => ws
  | n + 1, ws =>
    let w15 := ws.getD 14 0; let w2 := ws.getD 1 0
    let s0 := ror32 w15 7 ^^^ ror32 w15 18 ^^^ (w15 >>> 3)
    let s1 := ror32 w2 17 ^^^ ror32 w2 19 ^^^ (w2 >>> 10)
    sha256Schedule n ((ws.getD 15 0 + s0 + ws.getD 6 0 + s1) :: ws)
def sha256Round (st : List Word) (kw : Word × Word) : List Word :=
  let a := st.getD 0 0; let b := st.getD 1 0; let c := st.getD 2 0; let d := st.getD 3 0
  let e := st.getD 4 0; let f := st.getD 5 0; let g := st.getD 6 0; let h := st.getD 7 0
  let t1 := h + (ror32 e 6 ^^^ ror32 e 11 ^^^ ror32 e 25) + ((e &&& f) ^^^ (~~~e &&& g)) + kw.1 + kw.2
  let t2 := (ror32 a 2 ^^^ ror32 a 13 ^^^ ror32 a 22) + ((a &&& b) ^^^ (a &&& c) ^^^ (b &&& c))
  [t1 + t2, a, b, c, d + t1, e, f, g]
def sha256Block (h : List Word) (blk : List Byte) : List Word :=
  let w0 := (chunksOf 4 blk).map fun x => BitVec.ofNat 32 (ofBE x)
  let ws := (sha256Schedule 48 w0.reverse).reverse
  List.zipWith (· + ·) h ((List.zip sha256K ws).foldl sha256Round h)
/-- SHA-256 digest, 32 bytes in FIPS 180-4 order. -/
def sha256 (m : List Byte) : List Byte :=
  let z := (119 - m.length % 64) % 64
  let p := m ++ [0x80] ++ List.replicate z 0#8 ++ toBE 8 (8 * m.length)
  (((chunksOf 64 p).foldl sha256Block sha256H0).map fun w => toBE 4 w.toNat).flatten
/-- HMAC-SHA-256 with a 256-bit key. -/
def hmacSha256 (key : BitVec 256) (m : List Byte) : List Byte :=
  let k := padTo 64 (toLE 32 key.toNat)
  sha256 (k.map (· ^^^ 0x5C) ++ sha256 (k.map (· ^^^ 0x36) ++ m))

end Sys2Proof.Machine
end

