-- ==== Sys2Proof/Machine/Ethernet.lean ====
section
/-!
DEFINITION. Ethernet frames as byte strings (08 R253 to R259): where the headers lie, checksums, the tag bytes inserted
at PREFIX_OFF, the classifier's key. A frame runs from the destination address to the payload's end, FCS removed.
-/

namespace Sys2Proof.Machine

def byteAt (f : List Byte) (i : Nat) : Nat := (f.getD i 0).toNat
/-- 16 bits in network order -/
def be16 (f : List Byte) (i : Nat) : Nat := byteAt f i * 256 + byteAt f (i + 1)
def has (f : List Byte) (n : Nat) : Bool := decide (n ≤ f.length)
def subBytes (f : List Byte) (i n : Nat) : List Byte := (f.drop i).take n

/-- What the headers of a frame are. -/
structure Parse where
  /-- outer and inner VLAN identifiers, 0 if untagged -/
  outer : Nat := 0
  inner : Nat := 0
  /-- offset of the L3 header -/
  l3    : Nat := 14
  /-- 0 other, 4 IPv4, 6 IPv6 -/
  ip    : Nat := 0
  proto : Nat := 0
  /-- offset after the IP header, when it is whole -/
  l4    : Nat := 14
  /-- a UDP (17) or TCP (6) header is whole and readable -/
  ports : Bool := false
  frag  : Bool := false
  ext   : Bool := false
deriving DecidableEq, Repr

/-- IPv6 extension headers: hop-by-hop, routing, fragment, ESP, AH, destination options, mobility -/
def ipv6Ext (n : Nat) : Bool := [0, 43, 44, 50, 51, 60, 135].contains n

/-- a TCP header with its options is whole (R256) -/
def tcpWhole (f : List Byte) (o : Nat) : Bool := has f (o + 20) && has f (o + 4 * (byteAt f (o + 12) / 16))
/-- Headers after the tags (R256). -/
def parseL3 (f : List Byte) (outer inner o ty : Nat) : Parse :=
  let b : Parse := { outer := outer, inner := inner, l3 := o, l4 := o }
  if ty = 0x0800 then
    let ihl := 4 * (byteAt f o % 16)
    if byteAt f o / 16 = 4 ∧ 20 ≤ ihl ∧ o + ihl ≤ f.length then
      let frag := decide (be16 f (o + 6) % 0x4000 ≠ 0)
      let pr := byteAt f (o + 9)
      let whole := (pr == 17 && has f (o + ihl + 8)) || (pr == 6 && tcpWhole f (o + ihl))
      { b with ip := 4, proto := pr, l4 := o + ihl, frag := frag, ports := whole && !frag }
    else b
  else if ty = 0x86DD then
    if byteAt f o / 16 = 6 ∧ o + 40 ≤ f.length then
      let pr := byteAt f (o + 6)
      let ext := ipv6Ext pr
      let whole := (pr == 17 && has f (o + 48)) || (pr == 6 && tcpWhole f (o + 40))
      { b with ip := 6, proto := pr, l4 := o + 40, ext := ext, ports := whole && !ext }
    else b
  else b

/-- Headers of a frame, up to two tags (R252, R256). A cut header counts as absent with every one after it. -/
def parseFrame (f : List Byte) : Parse :=
  let t0 := be16 f 12
  if f.length < 14 then {}
  else if (t0 = 0x8100 ∨ t0 = 0x88A8) ∧ 18 ≤ f.length then
    let v0 := be16 f 14 % 4096
    let t1 := be16 f 16
    if t1 = 0x8100 ∧ 22 ≤ f.length then parseL3 f v0 (be16 f 18 % 4096) 22 (be16 f 20)
    else parseL3 f v0 0 18 t1
  else if t0 = 0x8100 ∨ t0 = 0x88A8 then {}
  else parseL3 f 0 0 14 t0

/-! ### Checksums -/

def sum16 : List Byte → Nat
  | [] => 0
  | [a] => a.toNat * 256
  | a :: b :: t => a.toNat * 256 + b.toNat + sum16 t
def foldFuel : Nat → Nat → Nat
  | 0, x => x
  | n + 1, x => if x < 65536 then x else foldFuel n (x % 65536 + x / 65536)
/-- the one's complement sum -/
def onesSum (l : List Byte) : Nat := foldFuel 8 (sum16 l)
def checksum (l : List Byte) : Nat := 65535 - onesSum l

def put16 (f : List Byte) (i v : Nat) : List Byte := f.take i ++ toBE 2 v ++ f.drop (i + 2)

/-- length of the L4 part as the IP header gives it -/
def l4Len (f : List Byte) (p : Parse) : Nat :=
  if p.ip = 4 then be16 f (p.l3 + 2) - (p.l4 - p.l3) else be16 f (p.l3 + 4)
def pseudo (f : List Byte) (p : Parse) : List Byte :=
  (if p.ip = 4 then subBytes f (p.l3 + 12) 8 else subBytes f (p.l3 + 8) 32) ++ toBE 2 p.proto ++ toBE 2 (l4Len f p)
/-- offset of the L4 checksum -/
def l4SumAt (p : Parse) : Nat := p.l4 + (if p.proto = 17 then 6 else 16)
def l4Sum (f : List Byte) (p : Parse) : Nat := checksum (pseudo f p ++ subBytes f p.l4 (l4Len f p))
def ipSumGood (f : List Byte) (p : Parse) : Bool :=
  p.ip != 4 || onesSum (subBytes f p.l3 (p.l4 - p.l3)) == 65535
/-- present L4 checksum is good, not checked, or absent (R255) -/
def l4SumGood (f : List Byte) (p : Parse) : Bool :=
  !p.ports || (p.proto == 17 && p.ip == 4 && be16 f (l4SumAt p) == 0) || l4Sum f p == 0
def setIpSum (f : List Byte) (p : Parse) : List Byte :=
  if p.ip = 4 then
    let z := put16 f (p.l3 + 10) 0
    put16 z (p.l3 + 10) (checksum (subBytes z p.l3 (p.l4 - p.l3)))
  else f
def setL4Sum (f : List Byte) (p : Parse) : List Byte :=
  if p.ports then
    let z := put16 f (l4SumAt p) 0
    let c := l4Sum z p
    put16 z (l4SumAt p) (if c = 0 ∧ p.proto = 17 then 65535 else c)
  else f
/-- WRITE 0x01: both checksums of the frame as sent (R253) -/
def setSums (f : List Byte) : List Byte := let p := parseFrame f; setL4Sum (setIpSum f p) p

/-- The tag bytes placed into a frame, with FIXUP (R254). -/
def insertTag (f : List Byte) (tag : BitVec 48) (replayed fixup : Bool) (o : Nat) : List Byte :=
  let pre := toLE 6 tag.toNat ++ [if replayed then 1 else 0, 0]
  let o := min o f.length
  let p := parseFrame f
  let f' := f.take o ++ pre ++ f.drop o
  let fits := p.ports && p.proto == 17 && !p.ext && (p.ip == 4 || p.ip == 6) && decide (p.l4 + 8 ≤ o)
  if fixup && fits then
    let lenAt := if p.ip = 4 then p.l3 + 2 else p.l3 + 4
    let f1 := put16 f' lenAt (be16 f' lenAt + 8)
    let f2 := put16 f1 (p.l4 + 4) (be16 f1 (p.l4 + 4) + 8)
    let f3 := setIpSum f2 p
    if be16 f3 (p.l4 + 6) = 0 then f3 else setL4Sum f3 p
  else f'

def padFrame (f : List Byte) : List Byte := f ++ List.replicate (60 - f.length) 0#8
/-- the frame with its FCS, the CRC-32 of Table 6-7 (R253) -/
def withFcs (f : List Byte) : List Byte := f ++ toLE 4 (crcOf 1 f)

/-- READ 0x01: where the payload starts (Table 8-20). -/
def payloadAt (f : List Byte) : Nat :=
  let p := parseFrame f
  if p.ports then (if p.proto = 17 then p.l4 + 8 else p.l4 + 4 * (byteAt f (p.l4 + 12) / 16))
  else if p.ip ≠ 0 then p.l4 else p.l3

/-! ### Classification (R255 to R259) -/

/-- multicast table bit of an address (R255) -/
def multicastBit (f : List Byte) : Nat := crcOf 1 (f.take 6) / 2 ^ 23

/-- The 44-byte key (Table 8-11). -/
def flowKey (quad port : Nat) (mask : BitVec 7) (f : List Byte) : List Byte :=
  let p := parseFrame f
  let on (i : Nat) (l : List Byte) : List Byte := if mask.getLsbD i then l else List.replicate l.length 0#8
  let src := if p.ip = 4 then padTo 16 (subBytes f (p.l3 + 12) 4) else if p.ip = 6 then subBytes f (p.l3 + 8) 16
             else List.replicate 16 0#8
  let dst := if p.ip = 4 then padTo 16 (subBytes f (p.l3 + 16) 4) else if p.ip = 6 then subBytes f (p.l3 + 24) 16
             else List.replicate 16 0#8
  let sp := if p.ports then subBytes f p.l4 2 else [0, 0]
  let dp := if p.ports then subBytes f (p.l4 + 2) 2 else [0, 0]
  [BitVec.ofNat 8 quad, BitVec.ofNat 8 (port + (if p.ip = 4 then 4 else if p.ip = 6 then 8 else 0))]
    ++ on 0 (toLE 2 p.outer) ++ on 1 (toLE 2 p.inner) ++ on 2 [BitVec.ofNat 8 p.proto] ++ [0]
    ++ on 3 src ++ on 4 dst ++ on 5 sp ++ on 6 dp

end Sys2Proof.Machine
end

