-- ==== Sys2Proof/Machine/TypesChannel.lean ====
section
/-!
DEFINITION. State of pronouns, scripts, clauses, the full-stop unit, movers and arbiters (02 to 07 of the spec).
A field's default is its reset value.
-/

namespace Sys2Proof.Machine

/-- Pronoun states (R61, Table 3-3). -/
inductive PState where
  | unbound | idle | queued | active | waiting | parenthesis | halting | checked
deriving DecidableEq, Repr

/-- A loop stack entry: LOOP CCW address and remaining count (R34). -/
structure LoopEnt where
  addr : Dword
  remaining : Word
deriving DecidableEq, Repr

/-- A repeat in progress: iterations left, and whether REPI began it (R210, R212). -/
structure Repeat where
  left : Nat
  interruptible : Bool
deriving DecidableEq, Repr

/-- The register state of a script, and of the control processor (R184, Table 7-2). -/
structure Regs where
  /-- g1 to g31; an unlisted register is 0; g0 is never listed (R190) -/
  g    : Tab Word := []
  /-- p1 to p7 in [7:1]; bit 0 is kept 0 here and reads as 1 (R191) -/
  p    : BitVec 8 := 0
  v    : Bool := false
  dz   : Bool := false
  lk   : Word := 0
  th   : Word := 0
  tc   : Byte := 0
  tpc  : Word := 0
  tval : Word := 0
  crc  : BitVec 2 := 0
  /-- return stack, newest first, at most 8 entries (R208) -/
  rs   : List Word := []
  pc   : Word := 0
  rep  : Option Repeat := none
  inHandler : Bool := false
deriving DecidableEq, Repr

/-- Why a script's slot is not ready: its instruction has issued and waits (R100, R99, R103, R153, R214, R220). -/
inductive Stall where
  /-- a CTM access waits for a committed line (R100) -/
  | committed (w : Word)
  /-- a CTM access waits for a doomed clause's entries (R99, R103) -/
  | entries (w : Word)
  /-- MOVREQ waits for room in the request queue or for a mover (R152, R153) -/
  | issue (w : Word)
  /-- MOVWT waits for its transfer (R220) -/
  | ticket (w : Word)
  /-- END waits for outstanding requests (R214) -/
  | ending (w : Word)
  /-- a script WAIT is in progress (R221) -/
  | waiting (rd : Nat)
deriving DecidableEq, Repr

/-- A script on or off its slot (R193, R194). -/
structure Script where
  regs  : Regs
  /-- the SCRIPT CCW's ADDR (R188) -/
  base  : Dword
  /-- the SCRIPT CCW's COUNT -/
  count : Word
  /-- budget left -/
  left  : Word
  stall : Option Stall := none
deriving DecidableEq, Repr

/-- A mover request ticket (R219, R220). -/
inductive Ticket where
  | free
  /-- the transfer of this number is in progress -/
  | busy (id : Nat)
  /-- ended with the MOVWT result of Table 7-9 and its DETAIL -/
  | done (result : Byte) (detail : Byte)
deriving DecidableEq, Repr

/-- The copy of a transform profile a transfer uses (R165, R166). -/
structure Profile where
  ctl    : Word := 0
  keys   : Word := 0
  salt   : Word := 0
  result : Dword := 0
deriving DecidableEq, Repr

/-- One CCW as fetched, with what its check read (R21, R38, R40). -/
structure Ccw where
  addr  : Dword
  verb  : Byte
  mod   : Byte
  flags : BitVec 16
  count : Word
  opnd  : Dword
  /-- descriptor source, or the index table base when IDX is set without a descriptor -/
  src   : Dword := 0
  /-- descriptor destination -/
  dst   : Dword := 0
  /-- index table base (R40) -/
  base  : Dword := 0
deriving DecidableEq, Repr

/-- How far the current CCW has come. -/
inductive Phase where
  /-- fetched and checked; its verb has not executed -/
  | ready
  /-- CLB waits for a clause record (R107) -/
  | clbWait
  /-- its transfer is stalled at issue (R152, R153) -/
  | issue
  /-- its transfer is in a mover (R150) -/
  | moving
  /-- its device operation is outstanding (R270) -/
  | device (op : Nat)
  /-- the last bytes are written; arrival of a barred write is awaited (R33, R161) -/
  | barrier
  /-- its script runs (R39) -/
  | script
  /-- in its WAIT (R36) -/
  | wait
  /-- a WAIT that ended off the slot, with or without a skip, by an attention or not (R52): the chain goes on at the next
  placement (R25, R36) -/
  | ended (skip attn : Bool)
  /-- the rest of its data chain is fetched from this address once the notice of its last CCW is written (R27, R57) -/
  | fetching (next : Dword)
  /-- its full stop waits (R131) -/
  | fullStop
deriving DecidableEq, Repr

/-- The CCW, or data chain, in progress on a pronoun (R19, R27). -/
structure Cur where
  items : List Ccw
  phase : Phase := .ready
  prof  : Option Profile := none
  /-- RESULT of the flow entry or bucket of an Ethernet binding, read at the check (08 R254) -/
  flow  : Word := 0
  /-- the mover carrying its data phase -/
  mover : Option Nat := none
deriving DecidableEq, Repr

/-- What follows once a status word held by a full queue has been written (R57). -/
inductive Fin where
  /-- a notice: the CCW goes on to its PAR suspension or executes -/
  | notice (par : Bool)
  /-- the CCW has ended: the chain continues at this address -/
  | goOn (next : Dword)
  /-- the chain has ended -/
  | chainEnd
  /-- the pronoun enters CHECKED with this word's KIND -/
  | checked (kind : Byte)
  /-- a halt has acted -/
  | halted
  /-- nothing further -/
  | done
deriving DecidableEq, Repr

/-- A WAIT in progress (R36, R221). -/
structure Waiting where
  mask   : Byte
  /-- the tick at which it times out; none without timeout -/
  expiry : Option Nat
  /-- a script's WAIT: the destination register -/
  script : Option Nat
deriving DecidableEq, Repr

/-- An abort due on a pronoun whose clause was doomed (R112 to R116). -/
structure Rerun where
  reason : Byte
  clb    : Dword
  count  : Word := 0
  loops  : List LoopEnt
  begin_ : Nat
  /-- the begin numbers of the clauses that doomed it (R113) -/
  doomers : List Nat := []
  /-- taken at a CCW boundary: the pronoun's retry waits only for the doomers -/
  counted : Bool := false
  /-- RETRY_LIMIT as it stood at the CLB (03 R82) -/
  limit   : BitVec 4 := 0
deriving DecidableEq, Repr

/-- A pronoun record with its private part (R60, Table 3-2). -/
structure Pron where
  state        : PState := .unbound
  runLevel     : BitVec 3 := 0
  retryLimit   : BitVec 4 := 0
  retryCount   : BitVec 4 := 0
  autoStart    : Bool := false
  startPending : Bool := false
  moverHold    : Bool := false
  affinity     : Word := 0
  statusQueue  : BitVec 12 := 0
  resumeMask   : Byte := 0
  waitOverflow : Byte := 0
  waitPending  : Word := 0
  wakeInput    : BitVec 3 := 0
  wakeCause    : BitVec 3 := 0
  checkKind    : Byte := 0
  seq          : Half := 0
  lastPc       : Byte := 0
  lastAbort    : Byte := 0
  hostFn       : Byte := 0
  startAddr    : Dword := 0
  ccwAddr      : Dword := 0
  residual     : Word := 0
  framesIn     : Word := 0
  lastTag      : BitVec 48 := 0
  starts       : Word := 0
  /-- BINDING0 to BINDING3, record bytes 0x40 to 0x7F -/
  binds        : BitVec 512 := 0
  loops        : List LoopEnt := []
  pendStart    : Dword := 0
  script       : Option Script := none
  tickets      : Tab Ticket := []
  cur          : Option Cur := none
  /-- the mover whose check holds it; 8 once that mover has checked again (R174 to R176) -/
  checkedBy    : Option Nat := none
  /-- resumed at a PAR CCW or after a mover check, or re-run: the next fetch honours no PAR and posts no notice (R32, R112, R175) -/
  again        : Bool := false
  wait         : Option Waiting := none
  /-- what follows once no word of it waits for space in its queue (R57) -/
  fin          : Option Fin := none
  rerun        : Option Rerun := none
  /-- UNBIND accepted, its committed clauses not yet released (R67) -/
  unbinding    : Bool := false
  /-- RESET waits for accepted transfers (R77) -/
  resetting    : Bool := false
  /-- device attentions queued, by the quad and port they came from, oldest first (R36, R67) -/
  attn         : List (Nat × Nat) := []
  /-- a limit its script's request exceeded off the slot: the check is due at the next placement (R104) -/
  limitDue     : Option Byte := none
  /-- its clause is fenced, or the unit it ran on: structure code due at the next placement or boundary (R435) -/
  fenceDue     : Option Byte := none
deriving DecidableEq, Repr

/-- Effect kinds and bodies (Table 5-7). -/
inductive EffBody where
  /-- a run of host memory at this IOVA -/
  | host (iova : Dword)
  /-- a device operation on a binding index with its staged operation image -/
  | dev (bind : BitVec 2) (image : BitVec 128)
  /-- a CTM line at this CTM address -/
  | ctm (addr : Dword)
  /-- a SIGNAL: MOD and ADDR, and the engine that executed it (R326) -/
  | signal (mod : Byte) (addr : Dword) (engine : BitVec 5)
  /-- a status word, PHASE and TICK to be filled in at release -/
  | status (w : BitVec 256)
deriving DecidableEq, Repr

/-- Effect states (R140). -/
inductive EffState where
  | pending | issued | done
deriving DecidableEq, Repr

/-- One effect descriptor with its staged data (R96, Table 5-7). -/
structure Effect where
  body  : EffBody
  bar   : Bool := false
  data  : List Byte := []
  /-- address of the CCW that staged it (R135) -/
  ccw   : Dword := 0
  state : EffState := .pending
  /-- the verb that staged a device operation -/
  verb  : Byte := 0
  /-- its position among its clause's effects in staging order (R96, 08 R267) -/
  idx   : Nat := 0
  /-- its staged data has an uncorrectable error (R135, DETAIL 0x03) -/
  bad   : Bool := false
deriving DecidableEq, Repr

/-- An open or doomed clause (R89 to R91). -/
structure Clause where
  begin_  : Nat
  prn     : Nat
  clb     : Dword
  /-- COUNT of the CLB CCW (R174) -/
  count   : Word := 0
  loops   : List LoopEnt
  effects : List Effect := []
  /-- counts of Table 4-3 -/
  nEffects : Nat := 0
  staged  : Nat := 0
  ranges  : Nat := 0
  /-- read set and write set, CTM line numbers -/
  reads   : List Nat := []
  writes  : List Nat := []
  /-- doom reason, none while OPEN -/
  doom    : Option Byte := none
  /-- begin numbers of the clauses that doomed it -/
  doomers : List Nat := []
  /-- staging space and directory entries returned -/
  returned : Bool := false
  /-- RETRY_LIMIT as it stood at the CLB (03 R82) -/
  limit   : BitVec 4 := 0
deriving DecidableEq, Repr

/-- A numbered, unreleased clause (R127, R130, Table 5-6). -/
structure NClause where
  number  : Nat
  prn     : Nat
  mirrored : Bool := false
  committed : Bool := false
  hostFn  : Byte := 0
  staged  : Nat := 0
  sq      : Nat := 0
  clb     : Dword := 0
  binds   : BitVec 512 := 0
  effects : List Effect := []
  /-- write-set lines still unreleased (R100) -/
  replayed : Bool := false
  /-- taken over from the peer (R358) -/
  peer    : Bool := false
deriving DecidableEq, Repr

/-- A full stop waiting to be admitted (R131). -/
structure FsWait where
  prn  : Nat
  /-- what the CCW's end does once the number is taken -/
  fin  : Fin
deriving DecidableEq, Repr

/-- A saved commit area's header and content, as plain data (R141, Tables 5-4 to 5-7). -/
structure Save where
  seq    : Nat
  cause  : Byte
  paired : Bool
  peerLost : Bool
  clauses : List NClause
  /-- pronoun and CLB CCW address -/
  lost   : List (Nat × Dword)
  tick   : Dword
  limit  : Nat
deriving DecidableEq, Repr

/-- A commit save area as the boot scan finds it (R141, R142). -/
inductive SaveArea where
  | empty
  /-- the save it was to hold, of this sequence number, is cut short or spoilt (R149) -/
  | invalid (seq : Nat)
  | valid (v : Save)
deriving DecidableEq, Repr

/-- Where a segment's bytes come from. -/
inductive Source where
  /-- an address with its space nibble -/
  | mem (addr : Dword)
  /-- an index table at this address, its base and log2 of the element size (R40) -/
  | table (addr : Dword) (base : Dword) (lg : Nat)
  /-- the pattern byte of a FILL -/
  | pattern (b : Byte)
  /-- data received from the device operation of this number -/
  | device (op : Nat)
deriving DecidableEq, Repr

/-- Where a segment's bytes go. -/
inductive Dest where
  | mem (addr : Dword)
  | table (addr : Dword) (base : Dword) (lg : Nat)
  /-- the quad's transmit or data buffer, for the binding -/
  | device (bind : BitVec 2)
  /-- counted and discarded (R29) -/
  | discard
  /-- the second operand of a COMPARE (R164) -/
  | operand (addr : Dword)
deriving DecidableEq, Repr

/-- One CCW's share of a transfer. -/
structure Seg where
  src : Source
  dst : Dest
  len : Nat
deriving DecidableEq, Repr

/-- Fetched, unwritten data: segment, offset in it, bytes (and a COMPARE's second operand). -/
structure Chunk where
  seg : Nat
  off : Nat
  bytes : List Byte
  other : List Byte := []
deriving DecidableEq, Repr

/-- Who queued a transfer (R150). -/
inductive Origin where
  /-- the data phase of the pronoun's current CCW -/
  | ccw (prn : Nat)
  /-- a script's MOVREQ with its ticket and the address of its OUT field -/
  | ticket (prn : Nat) (t : Nat) (block : Nat)
  /-- the control processor's MOVREQ -/
  | firmware (t : Nat) (block : Nat)
deriving DecidableEq, Repr

/-- The transform state of a transfer (R166, R167). -/
structure Xform where
  prof   : Profile
  /-- the result record as read at the start, empty before (R167) -/
  record : List Byte := []
  /-- address of the result record -/
  at_    : Dword := 0
  /-- key and second key at the check -/
  key    : BitVec 256 := 0
  key2   : BitVec 256 := 0
  /-- the IV or counter in use -/
  iv     : List Byte := []
  /-- input stream so far, and how many bytes of output are written -/
  input  : List Byte := []
  out    : Nat := 0
deriving DecidableEq, Repr

/-- A transfer (R150 to R171). -/
structure Transfer where
  id     : Nat
  origin : Origin
  master : Byte
  fn     : Byte
  /-- begin number of the clause it works for -/
  clause : Option Nat := none
  segs   : List Seg
  bar    : Bool := false
  compare : Bool := false
  xf     : Option Xform := none
  /-- read position: segment and bytes of it fetched -/
  rseg   : Nat := 0
  roff   : Nat := 0
  buf    : List Chunk := []
  /-- bytes written (or compared) so far -/
  moved  : Nat := 0
  /-- offset of the first differing byte of a COMPARE -/
  differ : Option Nat := none
  /-- bytes gathered for a device operation -/
  gather : List Byte := []
  /-- pages of the inbound region that its data buffer holds (08 R241) -/
  pages  : List Nat := []
  /-- lines of index tables held: segment, address in the space, bytes (R163) -/
  lines  : List (Nat × Nat × List Byte) := []
  /-- host runs to be staged: segment, IOVA and bytes, in order (R96) -/
  runs   : List (Nat × Dword × List Byte) := []
  /-- the write side is done and arrival is awaited (R161) -/
  arrival : Bool := false
  /-- read-side error found at an element (R41): stop after what is buffered -/
  fault  : Bool := false
  /-- it is cancelled or its staged output discarded (R111) -/
  dead   : Bool := false
deriving DecidableEq, Repr

/-- One mover (Tables 6-1, 6-10). -/
structure Mover where
  /-- the request queue, oldest first, at most 1,024 -/
  queue  : List Transfer := []
  /-- the 64 contexts -/
  ctx    : List (Nat × Transfer) := []
  /-- rotation pointers of the read and write engines: the context served last -/
  rlast  : Nat := 63
  wlast  : Nat := 63
  ready  : Bool := true
  check  : Bool := false
  fenced : Bool := false
  reinit : Bool := false
  addr   : Dword := 0
  source : BitVec 3 := 0
  multi  : Bool := false
  error  : BitVec 3 := 0
  fn     : Byte := 0
  checks : Word := 0
deriving DecidableEq, Repr

/-- One fabric arbiter (Table 6-18). -/
structure Arb where
  hold    : BitVec 11 := 0x40
  starve  : Byte := 0
  /-- requester identity at each input; empty stands for the default map (R181) -/
  map     : List Nat := []
  cutoff  : Bool := false
  starved : BitVec 23 := 0
  cutoffs : Word := 0
deriving DecidableEq, Repr

/-- One slot of an engine (R78, R79, Table 7-12). -/
structure Slot where
  /-- the pronoun placed on it -/
  prn     : Option Nat := none
  /-- the record load is outstanding (R79) -/
  loading : Bool := false
  rsov    : Bool := true
  dzt     : Bool := false
deriving DecidableEq, Repr

/-- Engines and slots. -/
structure Ce where
  slots  : Tab Slot := []
  /-- cached code lines per engine (R189): line numbers with their space nibble, and the 64 bytes as fetched -/
  icache : Tab (List (Nat × List Byte)) := []
  /-- CEn_TRAPS -/
  traps  : Tab Word := []
  /-- the slot of each engine that issued last (R185) -/
  last   : Tab Nat := []
deriving DecidableEq, Repr

/-- The control processor (R231 to R233, Table 10-8). -/
structure Cp where
  regs    : Regs := {}
  /-- g1 to g15 of the bank not in use (R322) -/
  shadow  : Tab Word := []
  nie     : Bool := false
  fie     : Bool := false
  nvec    : Word := 0
  fvec    : Word := 0
  nepc    : Word := 0
  fepc    : Word := 0
  nsave   : Word := 0
  fsave   : Word := 0
  /-- a repeat interrupted between iterations, at normal and at fast entry (R212, R321) -/
  nrep    : Option Repeat := none
  frep    : Option Repeat := none
  inNormal : Bool := false
  inFast  : Bool := false
  /-- WFI has stopped issue (R322) -/
  wfi     : Bool := false
  /-- the boot has handed over to the firmware (R405) -/
  running : Bool := false
  /-- a control processor fault stopped the pair (R233) -/
  faulted : Bool := false
  tickets : Tab Ticket := []
  stall   : Option Stall := none
deriving DecidableEq, Repr

/-- One set of the pronoun cache: tags and dirty marks, least recently used first (R84). -/
structure Way where
  tag   : Nat
  dirty : Bool
deriving DecidableEq, Repr

/-- Scheduler and pronoun cache (03_pronouns.md). -/
structure Sched where
  configured : Bool := false
  prnBase    : BitVec 7 := 0
  prnLocked  : Bool := false
  ctmBase    : Byte := 0
  ctmSize    : Byte := 0
  moverLimit : BitVec 4 := 8
  dbReject   : Bool := false
  dbIgnored  : Word := 0
  dbRejected : Word := 0
  hits       : Dword := 0
  misses     : Dword := 0
  /-- run-level queues, oldest first (R78) -/
  runq       : Tab (List Nat) := []
  recs       : Tab Pron := []
  /-- the pronoun-table copy of each record in buffer DRAM (R58, R84) -/
  table      : Tab Pron := []
  cache      : Tab (List Way) := []
  /-- wait-input events discarded for UNBOUND pronouns (R35) -/
  waitDiscarded : Nat := 0
  /-- pronouns none of whose engines is in service (R440) -/
  stranded   : List Nat := []
  /-- status words waiting for space: queue, pronoun and word, oldest first (R54, R57) -/
  words      : List (Nat × Nat × BitVec 256) := []
deriving DecidableEq, Repr

/-- Clause unit (04_clauses.md). -/
structure Cls where
  beginNext : Nat := 1
  clauses   : List Clause := []
  /-- pronouns held at CLB for a record (R107) -/
  clbWait   : List Nat := []
  aborts    : Tab Word := []
  /-- lock registry: CTM offset, owner, broken (R119) -/
  locks     : List (Nat × Nat × Bool) := []
  lockFull  : Bool := false
  lockBroken : Word := 0
  /-- mirror words of broken locks that wait for a committed line: CTM offset and word (R100, R121) -/
  mirrorDue : List (Nat × Word) := []
deriving DecidableEq, Repr

/-- Full-stop unit (05_full_stop_and_replay.md). -/
structure Fs where
  next      : Nat := 1
  limit     : Nat := 4294967297
  window    : List NClause := []
  waiting   : List FsWait := []
  saveInvalid : Bool := false
  /-- the pending save and its area, 0 A, 1 B (R142) -/
  pendingSave : Option (Nat × Save) := none
  relErrors : Word := 0
  lostUnbound : Word := 0
  /-- the function and TAG of the REPLAY in progress, clauses replayed, dropped and words posted (R146) -/
  replay    : Option (Byte × Half × Nat × Nat × Nat) := none
  /-- numbering held by a takeover (R143) -/
  takeHold  : Bool := false
  /-- an issued BAR effect holds the pipeline: clause number and effect index (R132) -/
  barHold   : Option (Nat × Nat) := none
  watermark : Word := 0
  /-- release stopped: a drain or a fence (R139, R356) -/
  stopped   : Bool := false
deriving DecidableEq, Repr

/-- Movers, transform profiles and arbiters (06_movers.md). -/
structure Mv where
  movers  : Tab Mover := []
  /-- engine map as changed: engine, primary and alternate (Table 6-2) -/
  map     : Tab (Nat × Nat) := []
  window  : BitVec 4 := 8
  nextId  : Nat := 0
  profiles : Tab Profile := []
  arbs    : Tab Arb := []
deriving DecidableEq, Repr

end Sys2Proof.Machine
end

