-- ==== Sys2Proof/Machine/TypesHost.lean ====
section
/-!
DEFINITION. State of the host port, the status queues, the conjunction fabric, the interrupt controller and the
mailboxes (09_host_port.md, 10_conjunctions_interrupts_mailboxes.md). A field's default is its reset value.
-/

namespace Sys2Proof.Machine

/-- One MSI-X vector of a function: its moderation register HF_MODn (R295) and its MSI-X table entry. -/
structure Vec where
  /-- HF_MODn.COUNT (Table 9-4) -/
  count   : BitVec 8 := 1
  /-- HF_MODn.TIME (Table 9-4) -/
  time    : BitVec 16 := 0
  /-- HF_MODn.PENDING (Table 9-4) -/
  pending : BitVec 8 := 0
  /-- the TIME timer runs since the first event after the last message (R295) -/
  timing  : Bool := false
  /-- MSI-X table entry: message address (PCI Express) -/
  addr    : Dword := 0
  /-- MSI-X table entry: message data -/
  data    : Word := 0
  /-- MSI-X table entry: vector control mask bit; PCI Express resets it to 1 -/
  masked  : Bool := true
  /-- MSI-X pending bit -/
  pba     : Bool := false
deriving DecidableEq, Repr

/-- Why an admin reply is held (R67, R146, R288, R369, R459), or that it is held no longer. -/
inductive HeldWhy where
  /-- UNBIND of the pronoun: its committed clauses must release (R67) -/
  | unbind (prn : Nat)
  /-- HALT of the pronoun: it must leave HALTING (R288) -/
  | halt (prn : Nat)
  /-- RESET of the pronoun: its accepted transfers must end (R77) -/
  | reset (prn : Nat)
  /-- SLEEP: the wake or the abandonment (R369) -/
  | sleep
  /-- REPLAY: the lost words, the releases and the consumed marker (R146) -/
  | replay
  /-- LINK_TEST: the test's end (R459) -/
  | linkTest
  /-- a key bank write (R410, R411) -/
  | keyBank
  /-- TWIN_UNPAIR: its launch must be acknowledged (R361) -/
  | unpair
  /-- the reply is formed and waits for room in the reply ring (R286) -/
  | room (reply : BitVec 256)
deriving DecidableEq, Repr

/-- A command whose reply is held. -/
structure Held where
  fn  : Master
  tag : Half
  why : HeldWhy
deriving DecidableEq, Repr

/-- One host function: its function-local block (Table 9-4), its admin queue and its configuration state. -/
structure Func where
  sqBase   : Dword := 0
  rqBase   : Dword := 0
  /-- HF_ADM_CFG.SIZE -/
  size     : BitVec 4 := 4
  /-- HF_ADM_CFG.VECTOR -/
  vector   : BitVec 11 := 0
  enable   : Bool := false
  tail     : BitVec 12 := 0
  head     : BitVec 12 := 0
  ready    : Bool := false
  fetchErr : Bool := false
  wrReject : Bool := false
  pendAtSleep : Bool := false
  sqHead   : BitVec 12 := 0
  /-- producer index of the reply ring -/
  prod     : BitVec 12 := 0
  /-- the phase bit the reply ring's present pass writes (R285) -/
  phase    : Bool := true
  /-- packets fetched and not started (R286) -/
  fetched  : List (BitVec 512) := []
  /-- the queue stopped on a failed fetch or reply write (R286) -/
  stopped  : Bool := false
  vecs     : Tab Vec := []
  /-- MSI-X function mask bit of the capability -/
  fmask    : Bool := false
  /-- MSI-X Enable bit of the capability -/
  msixEn   : Bool := false
  d3hot    : Bool := false
  bme      : Bool := false
  pmeEn    : Bool := false
  /-- VF Enable of a PF's SR-IOV capability; for a VF unused -/
  vfEnable : Bool := false
  /-- Memory Space Enable, and of a PF's SR-IOV capability VF Memory Space Enable (R278) -/
  mse      : Bool := false
  vfMse    : Bool := false
  /-- Max Payload Size and Max Read Request Size set by the host, as PCI Express codes and resets them -/
  mps      : BitVec 3 := 0
  mrrs     : BitVec 3 := 2
  /-- a VF's pronoun range (VF_CONFIG, R291) -/
  prnFirst : Nat := 0
  prnCount : Nat := 0
  /-- a VF's status-queue range -/
  sqFirst  : Nat := 0
  sqCount  : Nat := 0
deriving DecidableEq, Repr

/-- A status queue (R56, R292, R293). -/
structure SQueue where
  owner : Master
  base  : Dword
  log2  : Nat
  vec   : Nat
  prod  : Nat
  cons  : Nat
  /-- the phase bit now written -/
  phase : Bool
  full  : Bool
deriving DecidableEq, Repr

/-- A host link (Table 9-5). -/
structure HLink where
  /-- 0 down, 1 to 6 for 2.5 to 64 GT/s -/
  rate  : BitVec 3 := 0
  flit  : Bool := false
  width : BitVec 5 := 0
  /-- the link is in L1 (R299) -/
  l1    : Bool := false
  /-- ASPM L1 enabled by the host (R299) -/
  aspm  : Bool := false
deriving DecidableEq, Repr

/-- Host port state. -/
structure Hp where
  funcs  : Tab Func := []
  sqs    : List (Nat × SQueue) := []
  /-- HOST_SPLIT as sampled: two x8 links (R277) -/
  split  : Bool := false
  linkA  : HLink := {}
  linkB  : HLink := {}
  /-- event-source routes: source, function, vector (R304) -/
  routes : List (Nat × Master × Nat) := []
  held   : List Held := []
  /-- the function whose admin queue had the last turn (R287) -/
  turn   : Option Master := none
deriving DecidableEq, Repr

/-- One conjunction (Table 10-5). -/
structure Cj where
  en        : Bool := false
  group     : BitVec 4 := 0
  owner     : Master := 0
  sec       : Bool := false
  /-- CJn_SRCA as written: SRC0, USE0, SRC1, USE1 -/
  srcA      : Word := 0
  srcB      : Word := 0
  tgt       : Tab Word := []
  fired     : Bool := false
  loop      : Bool := false
  blocked   : Bool := false
  saturated : Bool := false
  denied    : Bool := false
  armed     : Bool := false
  deliveries : BitVec 16 := 0
deriving DecidableEq, Repr

/-- A capture (Table 10-5). -/
structure Cap where
  tick : Dword := 0
  count : BitVec 4 := 0
  overflow : Bool := false
deriving DecidableEq, Repr

/-- A mailbox (R324 to R330, Table 10-11). -/
structure Mbx where
  sender   : Master := 0
  receiver : Master := 0
  valid    : Bool := false
  locked   : Bool := false
  /-- the 32 message bytes, byte 0 the lowest -/
  data     : BitVec 256 := 0
  full     : Bool := false
  orphan   : Bool := false
  crossed  : Bool := false
  aborted  : Bool := false
  refused  : Bool := false
  postEpoch : BitVec 16 := 0
deriving DecidableEq, Repr

/-- The presented or in-service source of one interrupt class (R318 to R320). -/
structure IcClass where
  presented : Option Nat := none
  /-- the six-cycle masking window after the latch is open (R320) -/
  window    : Bool := false
  /-- the presented source was masked inside its window: it stays presented until claimed (R320) -/
  stuck     : Bool := false
  service   : Option Nat := none
deriving DecidableEq, Repr

/-- Conjunction fabric, interrupt controller and mailboxes. -/
structure Evt where
  cj       : Tab Cj := []
  /-- CJ_GRP_EN [15:0] -/
  grpEn    : BitVec 16 := 0xFFFF
  loops    : Word := 0
  /-- deferred acts: conjunction and target word, oldest first (R315) -/
  deferred : List (Nat × Word) := []
  /-- acts delivered and not yet applied: conjunction, k, target word (R307) -/
  acts     : List (Nat × Nat × Word) := []
  /-- conjunctions whose input has risen and whose edge is not yet handled (R306) -/
  edges    : List Nat := []
  lost     : Bool := false
  caps     : Tab Cap := []
  icPend   : BitVec 1024 := 0
  icEn     : BitVec 1024 := 0
  /-- IC_CLASSk: 1 fast -/
  icCls    : BitVec 1024 := 0
  normal   : IcClass := {}
  fast     : IcClass := {}
  mbx      : Tab Mbx := []
  epochs   : Tab (BitVec 16) := []
deriving DecidableEq, Repr

end Sys2Proof.Machine
end

