-- ==== Sys2Proof/Machine/TypesLink.lean ====
section
/-!
DEFINITION. State of the link quads (08_link_quads.md). A field's default is its reset value.
-/

namespace Sys2Proof.Machine

/-- Whose operation it is. -/
inductive OpOwner where
  /-- the current CCW of a pronoun -/
  | ccw (prn : Nat)
  /-- an effect of a numbered clause, by number and position in its descriptor list -/
  | effect (number : Nat) (pos : Nat)
  /-- nobody waits for it any longer -/
  | loose
deriving DecidableEq, Repr

inductive OpKind where
  | nvme | ring | eth | kdl
deriving DecidableEq, Repr

inductive OpStage where
  /-- waits for a queue entry, a credit or a transmit turn -/
  | queued
  /-- handed to the device -/
  | issued
  /-- in a busy wait before it is sent again (R249, R268) -/
  | busyWait
  /-- ended: DEV_STATUS, DETAIL and residual -/
  | ended (dev : Byte) (detail : Byte) (resid : Nat)
deriving DecidableEq, Repr

/-- An outstanding device operation (R267, R269, R270). -/
structure DevOp where
  id    : Nat
  q     : Nat
  p     : Nat
  kind  : OpKind
  owner : OpOwner
  verb  : Byte
  mod   : Nat
  /-- the 16 bytes of the binding -/
  bind  : BitVec 128
  count : Nat
  /-- bytes to send -/
  data  : List Byte := []
  /-- bytes received -/
  rx    : List Byte := []
  /-- the device offered more than the count (R28) -/
  long  : Bool := false
  stage : OpStage := .queued
  /-- resubmissions so far -/
  tries : Nat := 0
  /-- NVMe: queue pair (0 admin), opcode, first LBA, block count, FUA -/
  qid   : Nat := 0
  opcode : Byte := 0
  lba   : Nat := 0
  blocks : Nat := 0
  fua   : Bool := false
  /-- NVMe command identifier, KDL OP_ID, or ring entry index -/
  cid   : Nat := 0
  /-- pages of the inbound region its data buffer and PRP list hold -/
  pages : List Nat := []
  /-- bytes 24 to 63 of an admin command the firmware issues (R244) -/
  cmd   : List Byte := []
  /-- exactly-once tag, position and replayed mark of a released effect (R136, R267) -/
  tag   : Option (BitVec 48) := none
  index : Byte := 0
  replay : Bool := false
deriving DecidableEq, Repr

/-- A namespace entry (Table 8-8). -/
structure NsEntry where
  nsid   : Nat
  tagCarry : Bool
  append : Bool
  shift  : Nat
  base   : Nat
  blocks : Nat
  cursor : Nat := 0
deriving DecidableEq, Repr

/-- An NVMe I/O queue pair in buffer DRAM (R243). -/
structure NvPair where
  entries : Nat
  sqBase  : Nat
  cqBase  : Nat
  sqTail  : Nat := 0
  sqHead  : Nat := 0
  cqHead  : Nat := 0
  phase   : Bool := true
  nextCid : Nat := 0
deriving DecidableEq, Repr

/-- A generic-function ring (Table 8-9, R251). -/
structure Ring where
  /-- the 48 bytes of the entry -/
  entry  : BitVec 384
  /-- next entry to post, oldest entry not done, and whether entries are outstanding -/
  prod   : Nat := 0
  done   : Nat := 0
  busy   : Nat := 0
  /-- completion ring position and phase seen next (mode 0) -/
  comp   : Nat := 0
  phase  : Bool := true
  /-- done, unread completions: entry index and its bytes, oldest first -/
  unread : List (Nat × List Byte) := []
deriving DecidableEq, Repr

/-- The P side of a port. -/
structure PPort where
  /-- inbound region in units of 64 MiB: base and size; size 0 for none (R240) -/
  base   : Nat := 0
  size   : Nat := 0
  device : Option DeviceInfo := none
  /-- assigned memory BARs: function, BAR and offset in the port's 4 GiB outbound window (R239) -/
  bars   : List (Nat × Nat × Nat) := []
  /-- max payload size in use, in bytes (Table 8-6) -/
  payload : Nat := 128
  pairs  : List (Nat × NvPair) := []
  spaces : List NsEntry := []
  rings  : List (Nat × Ring) := []
  /-- pages in use by operations -/
  used   : List Nat := []
deriving DecidableEq, Repr

/-- The E side of a port. -/
structure EPort where
  /-- unicast addresses by index 0 to 15: the six bytes as in the packet, first byte lowest -/
  uni    : Tab (Option (BitVec 48)) := []
  /-- multicast table -/
  multi  : BitVec 512 := 0
  bucketBase : BitVec 17 := 0
  bucketShift : BitVec 5 := 0
  bucketEn : Bool := false
  /-- transmit queues 0 to 7: operation and frame without FCS, oldest first -/
  txq    : Tab (List (Nat × List Byte)) := []
  /-- the frame leaving the MAC -/
  sending : Option (Nat × List Byte) := none
  /-- transmit queues paused -/
  paused : BitVec 8 := 0
deriving DecidableEq, Repr

/-- The K side of a port (Table 8-16, R262 to R268). -/
structure KPort where
  inverted : Bool := false
  /-- consecutive TS1 or TS2 received, TS2 received, and whether TS2 are sent -/
  tsRx   : Nat := 0
  ts2Rx  : Nat := 0
  /-- TS2 sent, one for each set received since they began (both ends run at one block rate) -/
  ts2Tx  : Nat := 0
  initRx : Bool := false
  initTx : Bool := false
  /-- negotiated maximum payload -/
  maxPay : Nat := 0
  txSeq  : BitVec 12 := 0
  rxSeq  : BitVec 12 := 0
  nakSent : Bool := false
  /-- unacknowledged sequenced frames, oldest first -/
  replay : List KdlFrame := []
  /-- sequenced frames waiting for credit or for ACTIVE, oldest first -/
  waiting : List KdlFrame := []
  stalls : Nat := 0
  /-- ticks of the last RETRAINs, newest first -/
  retrains : List Nat := []
  /-- credits per channel: limit received, consumed, limit advertised, received -/
  limit  : Tab Word := []
  used   : Tab Word := []
  given  : Tab Word := []
  taken  : Tab Word := []
  nextOp : BitVec 16 := 0
  /-- it failed training and waits for its retry (Table 8-16) -/
  failed : Bool := false
deriving DecidableEq, Repr

/-- One port. -/
structure Port where
  /-- Table 8-3 -/
  state  : BitVec 3 := 0
  rate   : BitVec 4 := 0
  width  : BitVec 3 := 0
  cause  : BitVec 4 := 0
  /-- counters by 32 times their profile, and number (Table 8-23) -/
  ctr    : Tab Nat := []
  pp     : PPort := {}
  ep     : EPort := {}
  kp     : KPort := {}
deriving DecidableEq, Repr

/-- One quad (Tables 8-1, 8-5, 8-14). -/
structure Quad where
  profile : BitVec 2 := 0
  arrange : BitVec 2 := 0
  fec     : BitVec 2 := 0
  portEn  : BitVec 4 := 0
  rxInv   : BitVec 4 := 0
  txInv   : BitVec 4 := 0
  opTimeout : BitVec 24 := 0x2710
  busyRetries : BitVec 4 := 3
  keymask : BitVec 7 := 0x7F
  rxQuota : Byte := 0x40
  pause   : BitVec 2 := 0
  ports   : Tab Port := []
  xoff    : Bool := false
  /-- firmware set it OFF after an uncorrectable error, or a link test holds it -/
  testing : Bool := false
deriving DecidableEq, Repr

/-- A received frame in its quad's buffer: the bytes without FCS, for a pronoun (R260). -/
structure RxFrame where
  q     : Nat
  p     : Nat
  prn   : Nat
  bytes : List Byte
deriving DecidableEq, Repr

/-- Quads, operations and the flow table (R257). -/
structure Links where
  quads  : Tab Quad := []
  /-- received frames not yet read, in arrival order -/
  rx     : List RxFrame := []
  ops    : List DevOp := []
  nextOp : Nat := 0
  flowBase : BitVec 9 := 0
  flowSize : BitVec 3 := 0
  flowEn : Bool := false
  /-- the link test accepted: launch tick, quads, whether it runs (15 R459) -/
  test   : Option (Dword × Word × Bool) := none
deriving DecidableEq, Repr

end Sys2Proof.Machine
end

