-- ==== Sys2Proof/Machine/TypesPart.lean ====
section
/-!
DEFINITION. State of the part as a whole: memories and the register base block (01), the twin (11), power and the
hold-up die (12), security and debug (13), faults (14), resets (15), pins (16). A field's default is its reset value.
-/

namespace Sys2Proof.Machine

/-- The register base block (01 R12, 09 R283). -/
structure Dev where
  /-- TICK_COUNT (R12) -/
  tick  : Dword := 0
  /-- the captured upper half of each _LO/_HI pair, by the _HI register's offset (R12) -/
  hiCap : Tab Word := []
  /-- WRITE_REJECT: one bit per block (Table 9-2) -/
  wrj   : BitVec 17 := 0
deriving DecidableEq, Repr

/-- How a host access fails (R162): an error completion with its status field, a timeout, a poisoned completion. -/
structure HostFault where
  base   : Nat
  len    : Nat
  detail : Byte
deriving DecidableEq, Repr

/-- Memories (01 R13 to R15). Unlisted bytes read 0x00. -/
structure Mem where
  /-- usable buffer DRAM, the CTM region and the tables included -/
  dram   : Tab Byte := []
  /-- poisoned 64-byte DRAM lines, by line number (14 R431) -/
  poison : List Nat := []
  /-- engine local memories, by local address (R13) -/
  loc    : Tab Byte := []
  /-- control processor TCM (07 R231) -/
  tcm    : Tab Byte := []
  /-- host memory, the host's own -/
  host   : Tab Byte := []
  /-- host ranges whose accesses end in an error (the host's own) -/
  hostFaults : List HostFault := []
deriving DecidableEq, Repr

/-- A proposed or accepted launch (11 R350). -/
structure Launch where
  action : Byte
  tick   : Dword
  /-- this part proposed it -/
  mine   : Bool
  /-- accepted by the receiver -/
  acked  : Bool := false
deriving DecidableEq, Repr

/-- Twin pairing (11_twin_pairing.md). -/
structure Twin where
  /-- the TWIN_ID ball (R332) -/
  id       : Bool := false
  /-- Table 11-2 -/
  state    : BitVec 4 := 0
  /-- the state LINKING was entered from (Table 11-3) -/
  before   : BitVec 4 := 0
  /-- it entered FENCED while running: left only by a reset (R341) -/
  fencedRunning : Bool := false
  /-- Malid Link: 0 DOWN, 1 TRAIN, 2 ACTIVE (R335) -/
  link     : BitVec 2 := 0
  aligned  : Bool := false
  /-- consecutive measurements with |offset| at most 2, and above 2 (R349) -/
  good     : Nat := 0
  bad      : Nat := 0
  fenceOut : Bool := false
  fenceIn  : Bool := false
  ownLow   : Bool := true
  ownHigh  : Bool := false
  tookOver : Bool := false
  failCause : BitVec 4 := 0
  timeout  : BitVec 14 := 0x00C8
  fenceMode : BitVec 2 := 2
  autoFence : Bool := true
  key      : BitVec 12 := 0
  split    : BitVec 20 := 0x80000
  storeBase : BitVec 9 := 0
  ctmBase  : BitVec 7 := 0
  /-- TWIN_QMAP entries by peer quad: LOCAL in [4:0], VALID in [7] -/
  qmap     : Tab Byte := []
  /-- last offset and round trip in ticks (R348) -/
  theta    : Int := 0
  delta    : Nat := 0
  mark     : Nat := 0
  /-- counters of Table 11-7 -/
  ctr      : Tab Word := []
  /-- join: JOIN option, HELLO bodies sent and received, AUTH verified, the tick step due, regions copied (R342) -/
  joinOpt  : Bool := false
  hello    : List Byte := []
  peerHello : List Byte := []
  authOk   : Bool := false
  stepped  : Bool := false
  copied   : Bool := false
  /-- serial number recorded at the last join (R341) -/
  peerSerial : Dword := 0
  /-- the peer's CTM size in 256 MiB units -/
  peerCtm  : Byte := 0
  /-- the peer's reservation LIMIT as last reported (R358) -/
  peerLimit : Nat := 0
  /-- PARAM of the last HEARTBEAT received and its arrival tick (R348) -/
  hbParam  : Dword := 0
  hbAt     : Dword := 0
  launches : List Launch := []
  /-- the launch tick of action 0x02 has passed: later numbers commit unpaired (R361) -/
  unpairing : Bool := false
  /-- peer clauses mirrored here: stored, and held for want of room (R346) -/
  shadow   : List NClause := []
  shadowWait : List NClause := []
  /-- where a stored record lies in the shadow store: number, offset and length (R346) -/
  places   : List (Nat × Nat × Nat) := []
  /-- highest number received in unbroken order -/
  rxMark   : Nat := 0
  /-- the released mark last sent (R347) -/
  sentMark : Nat := 0
  /-- takeover mark reported by the twin at join (R146) -/
  peerMark : Nat := 0
  peerTook : Bool := false
  /-- the fence in progress: 1 link, 2 link then pins, 3 pins (R355) -/
  fencing  : BitVec 2 := 0
  /-- a takeover whose effects are being issued (R358) -/
  taking   : Bool := false
  /-- the tick at which a received FENCE stops the part (R354) -/
  stopAt   : Option Dword := none
  /-- link-level sequencing (R336) -/
  txSeq    : BitVec 12 := 0
  rxSeq    : BitVec 12 := 0
  nakSent  : Bool := false
  replay   : List Flit := []
  stalls   : Nat := 0
  /-- messages waiting for the link or for the replay buffer, oldest first -/
  txq      : List TwinMsg := []
  /-- bytes of messages begun and not yet in a flit, by class (R337) -/
  restCtl  : List Byte := []
  restBulk : List Byte := []
  /-- values returned by REG_RESP (R338) -/
  regResp  : List (Dword × Word) := []
  /-- pairing was in force when it entered FENCED, and the peer was then lost (R356, 05 Table 5-5) -/
  wasPaired : Bool := false
  wasLost  : Bool := false
  /-- launch actions refused and to be proposed again (R350) -/
  wants    : List Byte := []
  /-- step 6 of a join is done (R342) -/
  mirrorsSent : Bool := false
  /-- a handback copies its region (R362) -/
  handing  : Bool := false
  /-- a join has completed since the boot (05 R144) -/
  joined   : Bool := false
  /-- ticks since identity 1 last corrected its count (R348) -/
  slew     : Nat := 0
deriving DecidableEq, Repr

/-! ### The persistent store (12 R386 to R388) -/

/-- One copy of a banked record as a read finds it (R388). -/
inductive Copy (α : Type) where
  | empty | invalid
  | valid (seq : Nat) (v : α)
deriving DecidableEq, Repr

/-- A banked record: bank A and bank B (R387). -/
structure Banked (α : Type) where
  a : Copy α := .empty
  b : Copy α := .empty
deriving DecidableEq, Repr

/-- The lifecycle record body (13 Table 13-2). -/
structure LcRec where
  state     : Byte := 1
  wipePending : Bool := false
  wipeDram  : Bool := false
  transitions : Half := 0
  minSvn    : Word := 0
  serial    : Dword := 0
  ownerHash : BitVec 384 := 0
  bootHash  : BitVec 384 := 0
  debugHash : BitVec 384 := 0
deriving DecidableEq, Repr

/-- The twin record: range ownership, the registers of 11 Table 11-8 and the serial recorded at join (R387, R333). -/
structure TwinRec where
  ownLow   : Bool
  ownHigh  : Bool
  timeout  : BitVec 14
  fenceMode : BitVec 2
  autoFence : Bool
  key      : BitVec 12
  split    : BitVec 20
  storeBase : BitVec 9
  ctmBase  : BitVec 7
  qmap     : Tab Byte
  peerSerial : Dword
  tookOver : Bool
  /-- takeover mark (R358) -/
  mark     : Nat
  /-- the size of the region a takeover took over (R359) -/
  peerCtm  : Byte
deriving DecidableEq, Repr

/-- Board values of the hold-up fields (15 Table 15-5): HU_CFG0 to HU_CFG2 and NEED. -/
structure HuRec where
  cfg0 : Word
  cfg1 : Word
  cfg2 : Word
  need : Half
deriving DecidableEq, Repr

/-- A recorded retirement: Table 14-1 code, unit and location (14 R430). -/
structure Retired where
  code : Nat
  unit : Nat
  loc  : Nat
deriving DecidableEq, Repr

/-- A key vault entry (13 R407, R412): USE, key, invocation counter and RESERVED_COUNT. -/
structure VKey where
  use   : Half
  key   : BitVec 256
  count : Nat
  reserved : Nat
deriving DecidableEq, Repr

/-- A log entry (14 Table 14-6); DATA as the words it holds, the rest zero. -/
structure LogEntry where
  seq  : Dword := 0
  tick : Dword := 0
  code : Byte := 0
  str  : Byte := 0xFF
  unit : Half := 0
  addr : Dword := 0
  data : List Byte := []
deriving DecidableEq, Repr

/-- The persistent store: what outlives every reset. -/
structure Nv where
  areaA : SaveArea := .empty
  areaB : SaveArea := .empty
  /-- slot 0, the full-stop reservation record: LIMIT (05 R125) -/
  resv  : Banked Nat := {}
  /-- slot 1 -/
  twin  : Banked TwinRec := {}
  /-- slot 2, subsystem vendor and device IDs -/
  subsys : Banked Word := {}
  /-- slot 4 (15 Table 15-5) -/
  retire : Banked (List Retired) := {}
  /-- slot 5 -/
  board : Banked HuRec := {}
  keys  : Banked (List (Nat × VKey)) := {}
  /-- the three copies of the lifecycle record (13 R393) -/
  lc0   : Copy LcRec := .valid 1 {}
  lc1   : Copy LcRec := .valid 1 {}
  lc2   : Copy LcRec := .valid 1 {}
  /-- PWR_DRAINS, kept in the configuration bank (12 Table 12-8) -/
  drains : Word := 0
  /-- the log ring by entry number, and the number of the next entry -/
  log   : Tab LogEntry := []
  logHead : Nat := 0
  logSeq : Nat := 0
  /-- bytes a debugger has written, by offset (13 R417) -/
  raw   : Tab (Option Byte) := []
deriving DecidableEq, Repr

/-! ### Lifecycle, keys and debug (13) -/

/-- The TAP (13 R415). -/
structure Tap where
  ir : Byte := 0x02
  /-- the boundary register as preloaded or sampled -/
  boundary : List Bool := []
  /-- outputs follow the boundary register, or are high impedance -/
  drives : Bool := false
  hiz    : Bool := false
deriving DecidableEq, Repr

structure Sec where
  vault : List (Nat × VKey) := []
  /-- debug level: 0 CLOSED, 1 OBSERVE, 2 OPEN -/
  level : BitVec 2 := 0
  unsealOff : Bool := false
  lockout : Bool := false
  fails : BitVec 5 := 0
  lcInvalid : Bool := false
  nonce : Option (BitVec 256) := none
  /-- the outstanding challenge: its nonce and level -/
  chal  : Option (BitVec 256 × Byte) := none
  /-- SEC_BOOT_STATUS -/
  slotB : Bool := false
  fallback : Bool := false
  resA  : BitVec 3 := 0
  resB  : BitVec 3 := 0
  /-- a key bank being written: its content once complete (R411, R412) -/
  bankDue : Option (List (Nat × VKey)) := none
  /-- keys whose warning at 0xFFF0_0000 has pulsed (R412) -/
  warned : List Nat := []
  tap   : Tap := {}
  /-- the debug mailbox register's response: status and data (R416) -/
  mbxStatus : Byte := 0
  mbxData : List Byte := []
deriving DecidableEq, Repr

/-! ### Faults (14) -/

/-- A tracked location (14 R429). -/
structure Track where
  code : Nat
  unit : Nat
  loc  : Nat
  count : Nat
deriving DecidableEq, Repr

structure Flt where
  /-- fenced slots, engines, quads and pronoun-cache banks (R433) -/
  slots   : List Nat := []
  engines : List Nat := []
  quads   : List Nat := []
  banks   : List Nat := []
  /-- the staging SRAM is fenced for open clauses (R439) -/
  staging : Bool := false
  cpFaultLast : Bool := false
  trackFull : Bool := false
  repairOut : Bool := false
  stageLow  : Bool := false
  threshold : Byte := 8
  capStr  : BitVec 4 := 0
  capUnit : BitVec 9 := 0
  capMulti : Bool := false
  capAddr : Dword := 0
  capTick : Dword := 0
  ue : Word := 0
  ce : Word := 0
  retiredCount : Word := 0
  tmr : Word := 0
  traceLost : Word := 0
  /-- oldest first -/
  tracker : List Track := []
  retired : List Retired := []
  /-- entries gathered and not yet written (R444), and the SEQ of the next entry -/
  logBuf : List LogEntry := []
  logSeq : Nat := 0
  /-- the firmware trace ring (R444) -/
  trace : Tab Byte := []
deriving DecidableEq, Repr

/-! ### Power, resets and pins (12, 15, 16) -/

/-- Sleep stages (12 Table 12-1, R376). -/
inductive Sleep where
  | awake
  /-- DEEP SLEEP entry waits for D3hot and L1 -/
  | entering
  | standby | deep
deriving DecidableEq, Repr

/-- A request of the host: an access through a BAR, a PowerState or another configuration write (09, 12 R375). -/
inductive HostReq where
  | bar0 (a : BarAccess)
  | bar2 (a : BarAccess)
  | doorbell (off : Nat) (bytes : List Byte)
  | power (d3hot : Bool)
  | config (w : CfgWrite)
  /-- Initiate Function Level Reset (15 R450) -/
  | flr
deriving DecidableEq, Repr

/-- A doorbell word, expiry or host request held for the wake (R370, R373, R375). -/
inductive HeldAct where
  | word (fn : Master) (w : Word)
  | timeout (prn : Nat)
  | request (fn : Master) (r : HostReq)
deriving DecidableEq, Repr

/-- A reset that restarts the control processor (15 Table 15-1), by its LAST_KIND. -/
inductive ResetKind where
  | powerOn | resetN | perst | firmware | watchdog | lifecycle
deriving DecidableEq, Repr

/-- A drain in progress (12 Table 12-5): its CAUSE, its save, and the reset that follows it. -/
structure Drain where
  cause : Byte
  save  : Option Save
  reset : Option ResetKind
deriving DecidableEq, Repr

structure Pwr where
  sleep   : Sleep := .awake
  /-- the entry in progress is that of STANDBY (R370) -/
  light   : Bool := false
  /-- the part has left a sleep or its entry and no tick has passed (R371) -/
  woke    : Bool := false
  /-- SLEEP's wake-source mask -/
  mask    : BitVec 12 := 0
  drain   : Option Drain := none
  /-- a power failure was declared: the logic is held in reset after the drain -/
  failed  : Bool := false
  aborted : Bool := false
  lastDeep : Bool := false
  cause   : BitVec 12 := 0
  wakeTimer : Word := 0
  imageBase : BitVec 9 := 0
  imageSet : Bool := false
  d3wait  : Byte := 0x64
  held    : List HeldAct := []
  psInvalid : Word := 0
  gpioDir : BitVec 16 := 0
  gpioOut : BitVec 16 := 0
  gpioPull : Word := 0
  /-- pulse acts in progress: ticks left by pin (the model's own, log entry 21) -/
  pulses  : Tab Nat := []
  tempLogic : Byte := 0
  tempDram : Byte := 0
  tempHu  : Byte := 0
  dramHot : Bool := false
  trip    : Bool := false
deriving DecidableEq, Repr

/-- The hold-up die and its HU fields (12 R377 to R381, 16 R469). -/
structure Hu where
  on      : Bool := false
  /-- the bus: 0 both gates off, 1 HV_IN, 2 the bank -/
  gate    : BitVec 2 := 0
  failLine : Bool := false
  linkOk  : Bool := false
  holdupOk : Bool := false
  charging : Bool := false
  chargeOff : Bool := false
  chargerFault : Bool := false
  checking : Bool := false
  /-- the check is repeating with 4 ms (R380) -/
  again   : Bool := false
  cfg0    : Word := 0x21E001C5
  cfg1    : Word := 0x43C00A00
  cfg2    : Word := 0x00000E10
  need    : Half := 0
  hv      : BitVec 12 := 0
  vcap    : BitVec 12 := 0
  cap     : Half := 0
  capValid : Bool := false
deriving DecidableEq, Repr

structure Rst where
  kind    : ResetKind := .powerOn
  drained : Bool := false
  dramWiped : Bool := false
  fwReady : Bool := false
  /-- the ROM serves the admin queues (13 R406) -/
  rom     : Bool := false
  /-- steps 2 to 7 of the boot have run (15 Table 15-4) -/
  booted  : Bool := false
  wdog    : Half := 0
  warm    : Half := 0
  flrDropped : Word := 0
  /-- the logic holds itself in reset (12 Table 12-5 step 6, 16 R475) -/
  held    : Bool := false
  /-- admin-queue register writes held until step 8 ends: function, register 0 to 4, value (R492) -/
  heldAdm : List (Nat × Nat × Word) := []
deriving DecidableEq, Repr

/-- Levels at balls the part reads (16 Table 16-3), at their pulls until a command changes them. -/
structure Pins where
  hostSplit : Bool := false
  twinId   : Bool := false
  testmode : Bool := false
  resetLow : Bool := false
  /-- PERST0_N and PERST1_N are asserted -/
  perst0   : Bool := true
  perst1   : Bool := true
  /-- TESTMODE as sampled at step 1 -/
  testHold : Bool := false
  /-- what the board drives on the GPIO pins -/
  gpio     : BitVec 16 := 0
deriving DecidableEq, Repr

end Sys2Proof.Machine
end

