-- ==== Sys2Proof/Machine/State.lean ====
section
/-!
DEFINITION. The state of the part as plain data, with its value after reset, and the reasons a step can stop.
-/

namespace Sys2Proof.Machine

/-- A setting of a device function (08 R239, R242, Table 8-6). -/
inductive DevSetup where
  /-- a memory BAR lies at this offset of the port's outbound window -/
  | bar (index off : Nat)
  /-- Memory Space Enable and Bus Master Enable set, MSI-X enabled, INTx and MSI left disabled -/
  | enable
  /-- max payload size and max read request size, in bytes -/
  | sizes (payload read : Nat)
  /-- reporting of correctable, non-fatal and fatal errors enabled -/
  | errors
  /-- this MSI-X table entry is given its address in the port's message window -/
  | vector (i : Nat)
deriving DecidableEq, Repr

/-- What the part sends to the outside (log entry 4). -/
inductive Out where
  /-- an MSI-X message: function, vector, address, data (09 R295) -/
  | msix (fn : Master) (vec : Nat) (addr : Dword) (data : Word)
  /-- a PME message of a function (09 R299) -/
  | pme (fn : Master)
  /-- the value a register read returned to its master -/
  | value (who : Master) (v : Word)
  /-- the completion of a host access: successful or Unsupported Request, its bytes, poisoned or not (09 R281, R282) -/
  | completion (fn : Master) (ok : Bool) (data : List Byte) (poisoned : Bool)
  /-- a frame handed to the wire of an E port, with its FCS (08 R253) -/
  | frame (q p : Nat) (bytes : List Byte)
  /-- a PAUSE frame, or a PFC frame for all eight priorities, with this pause time (08 R260) -/
  | pause (q p : Nat) (pfc : Bool) (time : Nat)
  /-- a KDL frame sent by a port: header, payload and CRC (08 R263) -/
  | kdl (q p : Nat) (bytes : List Byte)
  /-- a KDL ordered set sent by a port: its 16 bytes (08 R261) -/
  | ordered (q p : Nat) (bytes : List Byte)
  /-- a memory write of a P port to its device: function, BAR, offset, value (08 R243, R251) -/
  | barWrite (q p : Nat) (fn bar off : Nat) (v : Word)
  /-- a memory read of a P port from its device: function, BAR, offset, length (08 R269) -/
  | barRead (q p : Nat) (fn bar off len : Nat)
  /-- a configuration request of a P port to its device: function, kind, offset and value (08 R269) -/
  | devRequest (q p : Nat) (fn kind off : Nat) (v : Word)
  /-- what enumeration sets in a function of a device (08 R239, R242) -/
  | devSetup (q p : Nat) (fn : Nat) (what : DevSetup)
  /-- the completion of a device's read of buffer DRAM (08 R240) -/
  | inbound (q p : Nat) (ok : Bool) (data : List Byte) (poisoned : Bool)
  /-- the 256 bytes of a flit sent on Malid Link (11 R336) -/
  | flit (bytes : List Byte)
deriving DecidableEq, Repr

/-- The state of the block. -/
structure State where
  dev   : Dev := {}
  mem   : Mem := {}
  hp    : Hp := {}
  evt   : Evt := {}
  sched : Sched := {}
  cls   : Cls := {}
  fs    : Fs := {}
  mv    : Mv := {}
  ce    : Ce := {}
  cp    : Cp := {}
  lk    : Links := {}
  tw    : Twin := {}
  nv    : Nv := {}
  sec   : Sec := {}
  flt   : Flt := {}
  pwr   : Pwr := {}
  hu    : Hu := {}
  rst   : Rst := {}
  pins  : Pins := {}
  /-- free values drawn so far (the model's own, log entry 3) -/
  free  : Nat := 0
  /-- what the part has sent to the outside, newest last (the model's own, log entry 4) -/
  out   : List Out := []
  /-- the commands waiting, first in first out -/
  pending : List Instr := []
deriving DecidableEq, Repr

/-- Reasons a step ends in a fault. -/
inductive Fault where
  /-- Raised by ResetRows.lean, TwinRows.lean, EventRows.lean and SecurityRows.lean for a pulse at RESET_N, PERST0_N, PERST1_N,
  FENCE_IN, WAKE_IN_N, a GPIO input or TRST_N of a length the board must not produce, between the ones 16 R479 ignores and
  recognises; safe. -/
  | forbiddenPulse
deriving DecidableEq, Repr

/-- Reasons a step is refused. -/
inductive Refusal where
  /-- Raised by Dispatch.lean for a command without a meaning; safe. -/
  | notModelled (mnemonic : String)
deriving DecidableEq, Repr

/-- The part right after a power-on reset, its boot at step 1 (15 Table 15-4): every field's default is its reset value,
and nothing is queued. -/
def State.reset : State := {}

end Sys2Proof.Machine
end

