-- ==== Sys2Proof/Machine/Ops.lean ====
section
/-!
DEFINITION. The named operations over tables, memories, registers' rejects, event sources and host messages that
every family shares.
-/

namespace Sys2Proof.Machine

/-! ### Sparse tables -/

/-- the value at a key, or the default -/
def tget {α : Type} (d : α) : Tab α → Nat → α
  | [], _ => d
  | (k', v) :: t, k => if k = k' then v else tget d t k

/-- store a value, keeping keys rising and the default unlisted -/
def tset {α : Type} [DecidableEq α] (d : α) (k : Nat) (v : α) : Tab α → Tab α
  | [] => if v = d then [] else [(k, v)]
  | (k', v') :: t =>
    if k < k' then (if v = d then (k', v') :: t else (k, v) :: (k', v') :: t)
    else if k = k' then (if v = d then t else (k, v) :: t)
    else (k', v') :: tset d k v t

def tmod {α : Type} [DecidableEq α] (d : α) (k : Nat) (f : α → α) (t : Tab α) : Tab α :=
  tset d k (f (tget d t k)) t

/-- remove and insert in sorted lists of numbers -/
def linsert (n : Nat) : List Nat → List Nat
  | [] => [n]
  | m :: t => if n < m then n :: m :: t else if n = m then m :: t else m :: linsert n t

/-- replace the first entry with a key in an unordered association list, or add it -/
def aset {α : Type} (k : Nat) (v : α) : List (Nat × α) → List (Nat × α)
  | [] => [(k, v)]
  | (k', v') :: t => if k = k' then (k, v) :: t else (k', v') :: aset k v t
def aget {α : Type} (l : List (Nat × α)) (k : Nat) : Option α := (l.find? (fun p => p.1 == k)).map (·.2)
def adel {α : Type} (k : Nat) (l : List (Nat × α)) : List (Nat × α) := l.filter (fun p => p.1 != k)

/-- bits of a word as a number -/
def bitsAt {w : Nat} (v : BitVec w) (lo len : Nat) : Nat := (v.toNat / 2 ^ lo) % 2 ^ len
def b2n (b : Bool) : Nat := if b then 1 else 0
/-- store bit i -/
def setBit {w : Nat} (v : BitVec w) (i : Nat) (b : Bool) : BitVec w :=
  if b then v ||| BitVec.ofNat w (2 ^ i) else v &&& ~~~(BitVec.ofNat w (2 ^ i))
/-- store a field of len bits at lo -/
def setField {w : Nat} (v : BitVec w) (lo len : Nat) (x : Nat) : BitVec w :=
  (v &&& ~~~(BitVec.ofNat w ((2 ^ len - 1) * 2 ^ lo))) ||| BitVec.ofNat w ((x % 2 ^ len) * 2 ^ lo)

/-! ### Bytes of memory -/

/-- the byte an unlisted address reads as (R413; log entry 2) -/
def emptyByte : Byte := 0

def getBytes (t : Tab Byte) (a : Nat) : Nat → List Byte
  | 0 => []
  | n + 1 => tget emptyByte t a :: getBytes t (a + 1) n
def putBytes (t : Tab Byte) (a : Nat) : List Byte → Tab Byte
  | [] => t
  | b :: bs => putBytes (tset emptyByte a b t) (a + 1) bs

/-- usable buffer DRAM in bytes, 30 GiB (R13) -/
def dramSize : Nat := 0x780000000
def unit256 : Nat := 0x10000000
/-- CTM size in bytes; 0 before CONFIGURE (R13) -/
def ctmBytes (s : State) : Nat := s.sched.ctmSize.toNat * unit256
/-- first byte of the CTM region in buffer DRAM -/
def ctmStart (s : State) : Nat := s.sched.ctmBase.toNat * unit256
/-- first byte of the pronoun and script frame tables, 384 MiB (R58, R59) -/
def prnStart (s : State) : Nat := s.sched.prnBase.toNat * unit256
def prnTablesLen : Nat := 0x18000000
def overlaps (a n b m : Nat) : Bool := decide (a < b + m) && decide (b < a + n)

/-- the space nibble of an address and the offset in it (R13) -/
def spaceOf (a : Dword) : Nat := (a.extractLsb' 60 4).toNat
def offOf (a : Dword) : Nat := (a.extractLsb' 0 60).toNat
/-- a defined space nibble (Table 1-9) -/
def spaceLegal (a : Dword) : Bool := let x := spaceOf a; x == 0 || x == 8 || x == 9 || x == 0xA
/-- the pronoun's range was taken over from the peer (11 R333, R359) -/
def takenOver (s : State) (prn : Nat) : Bool :=
  s.tw.tookOver && prn != 0 && (decide (prn < s.tw.split.toNat) == s.tw.id)
/-- CTM offsets of the taken-over region are kept apart from the part's own by this offset (11 R359) -/
def shadowOff : Nat := 2 ^ 40
/-- a pronoun's CTM offset in the directory's numbering -/
def ctmOff (s : State) (prn a : Nat) : Nat := if takenOver s prn then a + shadowOff else a
/-- CTM size a pronoun sees (11 R359) -/
def ctmSizeFor (s : State) (prn : Nat) : Nat :=
  if takenOver s prn then s.tw.peerCtm.toNat * unit256 else ctmBytes s
/-- the DRAM byte behind a CTM offset -/
def ctmPhys (s : State) (a : Nat) : Nat :=
  if shadowOff ≤ a then s.tw.ctmBase.toNat * unit256 + (a - shadowOff) else ctmStart s + a
/-- local memory of a fenced engine is out of range (14 R433) -/
def localGone (s : State) (o n : Nat) : Bool := s.flt.engines.any fun e => overlaps o n (0x20000 * e) 0x20000
/-- n bytes at a lie in the range of its space for a pronoun (R13, R14, R59) -/
def inRange (s : State) (prn : Nat) (a : Dword) (n : Nat) : Bool :=
  let o := offOf a
  match spaceOf a with
  | 0 => decide (o + n ≤ 2 ^ 60)
  | 8 => decide (o + n ≤ dramSize) && !(overlaps o n (ctmStart s) (ctmBytes s))
         && !(s.sched.configured && overlaps o n (prnStart s) prnTablesLen)
  | 9 => decide (o + n ≤ ctmSizeFor s prn)
  | 0xA => decide (o + n ≤ 0x400000) && !(localGone s o n)
  | _ => false

/-- a DRAM byte range meets a poisoned line (R431) -/
def dramPoisoned (s : State) (o n : Nat) : Bool := s.mem.poison.any fun l => overlaps o n (64 * l) 64
/-- the error a host access of n bytes at an IOVA meets -/
def hostFault (s : State) (o n : Nat) : Option Byte :=
  (s.mem.hostFaults.find? fun f => overlaps o n f.base f.len).map (·.detail)

/-- Why a single read fails: a host error with its DETAIL, or an uncorrectable error of buffer DRAM. -/
inductive ReadErr where
  | host (detail : Byte)
  | ecc
deriving DecidableEq, Repr

/-- n bytes at an address, as released, with no clause merged in (R19). -/
def readMem (s : State) (prn : Nat) (a : Dword) (n : Nat) : Except ReadErr (List Byte) :=
  let o := offOf a
  match spaceOf a with
  | 0 => match hostFault s o n with
    | some d => .error (.host d)
    | none => .ok (getBytes s.mem.host o n)
  | 8 => if dramPoisoned s o n then .error .ecc else .ok (getBytes s.mem.dram o n)
  | 9 =>
    let o := ctmPhys s (ctmOff s prn o)
    if dramPoisoned s o n then .error .ecc else .ok (getBytes s.mem.dram o n)
  | _ => .ok (getBytes s.mem.loc o n)

/-- a write of whole lines repairs their poison -/
def healPoison (p : List Nat) (o n : Nat) : List Nat :=
  p.filter fun l => !(decide (o ≤ 64 * l) && decide (64 * l + 64 ≤ o + n))

def writeDram (s : State) (o : Nat) (l : List Byte) : State :=
  { s with mem := { s.mem with dram := putBytes s.mem.dram o l, poison := healPoison s.mem.poison o l.length } }
def writeLoc (s : State) (o : Nat) (l : List Byte) : State :=
  { s with mem := { s.mem with loc := putBytes s.mem.loc o l } }
def writeTcm (s : State) (o : Nat) (l : List Byte) : State :=
  { s with mem := { s.mem with tcm := putBytes s.mem.tcm o l } }
def writeHostRaw (s : State) (o : Nat) (l : List Byte) : State :=
  { s with mem := { s.mem with host := putBytes s.mem.host o l } }

/-- What the host did to its own memory before an access. -/
def hostStore (s : State) : HostStore → State
  | .bytes a l => writeHostRaw s a.toNat l
  | .fault a n d => { s with mem := { s.mem with hostFaults := s.mem.hostFaults ++ [{ base := a.toNat, len := n.toNat, detail := d }] } }
  | .repair a => { s with mem := { s.mem with hostFaults := s.mem.hostFaults.filter fun f => !(overlaps a.toNat 1 f.base f.len) } }
def hostStores (s : State) (l : List HostStore) : State := l.foldl hostStore s

def emit (s : State) (o : Out) : State := { s with out := s.out ++ [o] }

/-! ### Master identities (R16, Table 1-10) -/

def isPf (m : Master) : Bool := m == 0x40 || m == 0x41
def isVf (m : Master) : Bool := decide (0x48 ≤ m.toNat) && decide (m.toNat ≤ 0x87)
def isFn (m : Master) : Bool := isPf m || isVf m
def isCe (m : Master) : Bool := decide (0x10 ≤ m.toNat) && decide (m.toNat ≤ 0x2F)
def masterLegal (m : Master) : Bool := m == 0 || isCe m || isFn m || m == 0x90 || m == 0xF0
/-- a VF's PF; a PF is its own -/
def pfOf (m : Master) : Master :=
  if decide (0x48 ≤ m.toNat) && decide (m.toNat ≤ 0x67) then 0x40
  else if decide (0x68 ≤ m.toNat) && decide (m.toNat ≤ 0x87) then 0x41 else m

/-! ### What runs (07 R231, 11 R356, 12 Tables 12-2, 12-5) -/

/-- the part is FENCED (11 R356) -/
def isFenced (s : State) : Bool := s.tw.state == 6
/-- the logic is powered and no drain runs -/
def logicRuns (s : State) : Bool := s.pwr.drain.isNone && !s.rst.held
/-- slots execute and pronouns are placed -/
def enginesRun (s : State) : Bool := logicRuns s && s.pwr.sleep == .awake && !(isFenced s)
/-- the movers run -/
def moversRun (s : State) : Bool := enginesRun s
/-- the control processor is powered: until step 6 of a sleep entry -/
def controlRuns (s : State) : Bool := logicRuns s && (s.pwr.sleep == .awake || s.pwr.sleep == .entering)

/-- retirements of a structure's unit (14 R430) -/
def retiredOf (s : State) (code unit : Nat) : Nat := (s.flt.retired.filter fun r => r.code == code && r.unit == unit).length
/-- retired ways of a set of 16 ways: ways are numbered set by set (14 Table 14-1) -/
def retiredWays (s : State) (code unit set : Nat) : Nat :=
  (s.flt.retired.filter fun r => r.code == code && r.unit == unit && r.loc / 16 == set).length

/-! ### Functions and vectors (09) -/

def getFunc (s : State) (m : Master) : Func := tget {} s.hp.funcs m.toNat
def setFunc (s : State) (m : Master) (f : Func) : State :=
  { s with hp := { s.hp with funcs := tset {} m.toNat f s.hp.funcs } }
def modFunc (s : State) (m : Master) (g : Func → Func) : State := setFunc s m (g (getFunc s m))
/-- vectors a function has: 2,048 for a PF, 64 for a VF (Table 9-1) -/
def vecCount (m : Master) : Nat := if isPf m then 2048 else 64
def getVec (s : State) (m : Master) (n : Nat) : Vec := tget {} (getFunc s m).vecs n
def setVec (s : State) (m : Master) (n : Nat) (v : Vec) : State :=
  modFunc s m fun f => { f with vecs := tset {} n v f.vecs }
/-- the link that carries a function: link A in x16, else by its PF (R277) -/
def fnLink (s : State) (m : Master) : HLink :=
  if s.hp.split && pfOf m == 0x41 then s.hp.linkB else s.hp.linkA

end Sys2Proof.Machine
end

