-- ==== Sys2Proof/Machine/Events.lean ====
section
/-!
DEFINITION. Event sources, the interrupt controller's presentation, MSI-X messages and status queues: the shared
operations of 09_host_port.md R292 to R299 and 10_conjunctions_interrupts_mailboxes.md R301 to R320.
-/

namespace Sys2Proof.Machine

/-! ### MSI-X (R294 to R299) -/

/-- the part may issue requests as the function: D0, Bus Master Enable, link up (R297) -/
def canIssue (s : State) (m : Master) : Bool :=
  !(getFunc s (pfOf m)).d3hot && (getFunc s m).bme && (fnLink s m).rate != 0

/-- A vector's message may be sent: a FENCED part issues no host request but admin replies, with their message (11 R356). -/
def mayMessage (s : State) (m : Master) (n : Nat) : Bool :=
  canIssue s m && (!(isFenced s) || n == (getFunc s m).vector.toNat)

/-- a link in L1 returns to L0 for a message (R299) -/
def exitL1 (s : State) (m : Master) : State :=
  if s.hp.split && pfOf m == 0x41 then { s with hp := { s.hp with linkB := { s.hp.linkB with l1 := false } } }
  else { s with hp := { s.hp with linkA := { s.hp.linkA with l1 := false } } }

/-- the message itself: PENDING returns to 0 (R295) -/
def sendMsg (s : State) (m : Master) (n : Nat) : State :=
  let v := getVec s m n
  let s := setVec s m n { v with pending := 0, timing := false, pba := false }
  emit (exitL1 s m) (.msix m n v.addr v.data)

/-- a vector's message falls due (R295, R297, R299) -/
def fallDue (s : State) (m : Master) (n : Nat) : State :=
  let pf := pfOf m
  let f := getFunc s m
  let v := getVec s m n
  if (getFunc s pf).d3hot then
    let s := setFunc s m { f with pendAtSleep := true }
    if (getFunc s pf).pmeEn then emit s (.pme pf) else s
  else if !(mayMessage s m n) then s
  else if v.masked || f.fmask || !f.msixEn then setVec s m n { v with pba := true }
  else sendMsg s m n

/-- a vector at or above its COUNT falls due (R295) -/
def evalVec (s : State) (m : Master) (n : Nat) : State :=
  let v := getVec s m n
  if v.pending != 0 && decide (v.count.toNat ≤ v.pending.toNat) then fallDue s m n else s

/-- one moderation event on a vector (R294, R295) -/
def countEvent (s : State) (m : Master) (n : Nat) : State :=
  let v := getVec s m n
  let s := setVec s m n
    { v with pending := satInc v.pending, timing := v.timing || (v.pending == 0 && v.time != 0) }
  evalVec s m n

/-! ### Interrupt controller presentation (R317 to R320) -/

/-- the highest set bit below n -/
def topBit {w : Nat} (v : BitVec w) : Nat → Option Nat
  | 0 => none
  | n + 1 => if v.getLsbD n then some n else topBit v n

/-- one class evaluated against its eligible sources (R318, R320) -/
def icPresent (pend elig : BitVec 1024) (c : IcClass) : IcClass :=
  match c.service with
  | some _ => { c with presented := none, window := false, stuck := false }
  | none =>
    let top := topBit elig 1024
    match c.presented with
    | none => match top with
      | none => { c with window := false }
      | some t => { c with presented := some t, window := true }
    | some p =>
      let keeps := elig.getLsbD p || ((c.window || c.stuck) && pend.getLsbD p)
      let kept := { c with stuck := c.stuck || !(elig.getLsbD p) }
      match top with
      | none => if keeps then kept else { c with presented := none, window := false, stuck := false }
      | some t =>
        if keeps && decide (t ≤ p) then kept else { c with presented := some t, window := true, stuck := false }

/-- both classes evaluated -/
def icEval (s : State) : State :=
  let e := s.evt
  { s with evt := { e with
      normal := icPresent e.icPend (e.icPend &&& e.icEn &&& ~~~e.icCls) e.normal
      fast   := icPresent e.icPend (e.icPend &&& e.icEn &&& e.icCls) e.fast } }

/-- the masking window of R320 has passed -/
def icCloseWindows (s : State) : State :=
  icEval { s with evt := { s.evt with normal := { s.evt.normal with window := false }
                                      fast := { s.evt.fast with window := false } } }

/-! ### Conjunction inputs (R301, R306) -/

/-- the level at each pin: what the part drives on outputs, else what the board drives (16 R467) -/
def gpioLevels (s : State) : BitVec 16 := (s.pwr.gpioDir &&& s.pwr.gpioOut) ||| (~~~s.pwr.gpioDir &&& s.pins.gpio)
/-- the sources a conjunction's input is the OR of: those with their USE bit -/
def cjSources (c : Cj) : List Nat :=
  (if c.srcA.getLsbD 15 then [bitsAt c.srcA 0 10] else []) ++ (if c.srcA.getLsbD 31 then [bitsAt c.srcA 16 10] else []) ++
  (if c.srcB.getLsbD 15 then [bitsAt c.srcB 0 10] else []) ++ (if c.srcB.getLsbD 31 then [bitsAt c.srcB 16 10] else [])
/-- sources not connected never pulse (Table 10-1) -/
def connected (n : Nat) : Bool := !((decide (329 ≤ n) && decide (n ≤ 351)) || (decide (368 ≤ n) && decide (n ≤ 511)))
/-- some selected source is a pin that is high at these levels: the pulses of the others have ended (R302) -/
def cjHigh (levels : BitVec 16) (c : Cj) : Bool :=
  (cjSources c).any fun n => decide (240 ≤ n) && decide (n ≤ 255) && levels.getLsbD (n - 240)
/-- the input of each conjunction that selects one of these sources rises, unless a pin held it high before -/
def raiseInputs (s : State) (before : BitVec 16) (ns : List Nat) : State :=
  let hit := (s.evt.cj.filter fun e => (cjSources e.2).any (fun n => connected n && ns.contains n) && !(cjHigh before e.2)).map (·.1)
  if hit.isEmpty then s else { s with evt := { s.evt with edges := hit.foldl (fun l n => linsert n l) s.evt.edges } }

/-- An occurrence as the interrupt controller and the routes see it (R304, R317). -/
def occur (s : State) (n : Nat) : State :=
  let s := icEval { s with evt := { s.evt with icPend := setBit s.evt.icPend n true } }
  match s.hp.routes.find? (fun r => r.1 == n) with
  | some (_, m, v) => countEvent s m v
  | none => s
/-- One occurrence of an event source, not a pin: its pending bit, its route and the conjunctions that select it (R302,
R304, R306, R317). -/
def pulse (s : State) (n : Nat) : State := occur (raiseInputs s (gpioLevels s) [n]) n

/-- an RC error counter that stood at this value counts once more: source 301 marks its saturation (14 R443, R445) -/
def rcPulse (old : Word) (s : State) : State := if old + 1 = BitVec.allOnes 32 then pulse s 301 else s

/-- a rejected write to the block of this WRITE_REJECT bit (R6, R283) -/
def reject (s : State) (blk : Nat) : State :=
  pulse { s with dev := { s.dev with wrj := setBit s.dev.wrj blk true } } 1023
/-- a rejected write to a function-local block (R283) -/
def rejectHf (s : State) (m : Master) : State :=
  pulse (modFunc s m fun f => { f with wrReject := true }) 1023

/-! ### Host memory and status queues (R50 to R57, R292, R293) -/

/-- a posted write to host memory as a function; an address in a failing range is lost -/
def hostWrite (s : State) (o : Nat) (l : List Byte) : State :=
  match hostFault s o l.length with
  | some _ => s
  | none => writeHostRaw s o l

def getSq (s : State) (n : Nat) : Option SQueue := aget s.hp.sqs n
def setSq (s : State) (n : Nat) (q : SQueue) : State :=
  { s with hp := { s.hp with sqs := aset n q s.hp.sqs } }

def sqFull (q : SQueue) : Bool := (q.prod + 1) % 2 ^ q.log2 == q.cons
/-- a word can be written now: room, the owner may issue requests, and the part is not FENCED (R57, R297, 11 R356) -/
def sqRoom (s : State) (n : Nat) : Bool :=
  match getSq s n with
  | some q => !(sqFull q) && canIssue s q.owner && !(isFenced s)
  | none => false

/-- One status word written to its queue, with PHASE and TICK filled in (R50, R55, R56, R293, R294). -/
def sqWrite (s : State) (n : Nat) (w : BitVec 256) : State :=
  match getSq s n with
  | none => s
  | some q =>
    let w := setBit w 31 q.phase
    let w := setField w 224 32 (s.dev.tick.toNat % 2 ^ 32)
    let s := hostWrite s (offOf q.base + 32 * q.prod) (toLE 32 w.toNat)
    let prod := (q.prod + 1) % 2 ^ q.log2
    let q := { q with prod := prod, phase := if prod == 0 then !q.phase else q.phase }
    let full := sqFull q
    let s := setSq s n { q with full := full }
    let s := countEvent s q.owner q.vec
    if full then fallDue (pulse s 91) q.owner q.vec else s

/-- Everything a status word says (R50, Table 2-8); PHASE, SEQ and TICK come later. -/
structure SWord where
  kind  : Byte
  ccw   : Dword := 0
  resid : Word := 0
  dev   : Byte := 0
  chan  : Byte := 0
  pc    : Byte := 0
  det   : Byte := 0
deriving DecidableEq, Repr

def chanIncorrect : Byte := 0x01
def chanProgram : Byte := 0x02
def chanHost : Byte := 0x04
def chanMover : Byte := 0x08
def chanAbort : Byte := 0x10
def chanMismatch : Byte := 0x20
def chanLost : Byte := 0x40
def chanTransform : Byte := 0x80
def devDone : Byte := 0x01
def devUnit : Byte := 0x02
def devBusy : Byte := 0x04
def devAttention : Byte := 0x08
def devTimeout : Byte := 0x10
/-- a device status without ATTENTION, which stops nothing (Table 2-10) -/
def devOutcome (dev : Byte) : Byte := dev &&& ~~~devAttention

/-- the 32 bytes of a status word (Table 2-8) -/
def encodeWord (prn : Nat) (w : SWord) (seq : Half) : BitVec 256 :=
  let head := BitVec.ofNat 32 (prn % 2 ^ 20 + (w.kind.toNat % 128) * 2 ^ 24)
  (0#32 ++ seq ++ 0#48 ++ w.det ++ w.pc ++ w.chan ++ w.dev ++ w.resid ++ w.ccw ++ head : BitVec 256)
/-- FSV and TAG of a clause's word (R50) -/
def wordTag (w : BitVec 256) (tag : Nat) : BitVec 256 := setBit (setField w 160 48 tag) 20 true
def wordReleased (w : BitVec 256) : BitVec 256 := setBit w 21 true
def wordReplayed (w : BitVec 256) : BitVec 256 := setBit w 22 true

end Sys2Proof.Machine
end

