-- ==== Sys2Proof/Machine/Records.lean ====
section
/-!
DEFINITION. Admin replies (09 R286 to R289), pronoun records, the pronoun cache, slots and run-level queues
(03 R58 to R87): the shared operations.
-/

namespace Sys2Proof.Machine

/-! ### Status replies (Table 9-7) -/

/-- the 32 bytes of a reply; SQ_HEAD and PHASE are filled in when it is written -/
def encodeReply (tag status : Half) (field : Byte) (result : BitVec 192) : BitVec 256 :=
  (result ++ 0#8 ++ field ++ 0#16 ++ status ++ tag : BitVec 256)

/-- entries in each ring of a function -/
def ringSize (f : Func) : Nat := 2 ^ f.size.toNat
/-- the reply ring has room (R286) -/
def replyRoom (f : Func) : Bool := (f.prod.toNat + 1) % ringSize f != f.head.toNat

/-- READY clears once ENABLE is clear and the last reply is settled (R285) -/
def settleReady (s : State) (m : Master) : State :=
  let f := getFunc s m
  if f.enable || !f.ready || s.hp.held.any fun h => h.fn == m then s else setFunc s m { f with ready := false }
/-- write one formed reply, or keep it until there is room; a stopped queue writes none (R286) -/
def putReply (s : State) (m : Master) (r : BitVec 256) : State :=
  let f := getFunc s m
  if !f.ready || f.stopped then s
  else if !(replyRoom f && canIssue s m) then
    { s with hp := { s.hp with held := s.hp.held ++ [{ fn := m, tag := r.extractLsb' 0 16, why := .room r }] } }
  else
    let r := setBit (setField r 32 16 f.sqHead.toNat) 56 f.phase
    let a := offOf f.rqBase + 32 * f.prod.toNat
    match hostFault s a 32 with
    | some _ => setFunc s m { f with fetchErr := true, stopped := true }
    | none =>
      let s := writeHostRaw s a (toLE 32 r.toNat)
      let prod := (f.prod.toNat + 1) % ringSize f
      let s := setFunc s m { f with prod := BitVec.ofNat 12 prod, phase := if prod == 0 then !f.phase else f.phase }
      countEvent s m f.vector.toNat

def reply (s : State) (m : Master) (tag status : Half) (field : Byte) (result : BitVec 192) : State :=
  putReply s m (encodeReply tag status field result)

/-- replies kept for room are written in order (R286) -/
def flushReplies (s : State) (m : Master) : State :=
  let due := s.hp.held.filter fun h => h.fn == m && (match h.why with | .room _ => true | _ => false)
  let s := { s with hp := { s.hp with held := s.hp.held.filter fun h => !(due.contains h) } }
  settleReady (due.foldl (fun s h => match h.why with | .room r => putReply s m r | _ => s) s) m

/-- the replies held for this reason are written (R288) -/
def finishHeld (s : State) (why : HeldWhy) (status : Half) (result : BitVec 192) : State :=
  let due := s.hp.held.filter fun h => h.why == why
  let s := { s with hp := { s.hp with held := s.hp.held.filter fun h => !(h.why == why) } }
  due.foldl (fun s h => settleReady (reply s h.fn h.tag status 0 result) h.fn) s

def hold (s : State) (m : Master) (tag : Half) (why : HeldWhy) : State :=
  { s with hp := { s.hp with held := s.hp.held ++ [{ fn := m, tag := tag, why := why }] } }

/-! ### Records -/

def getP (s : State) (n : Nat) : Pron := tget {} s.sched.recs n
def getSlot (s : State) (k : Nat) : Slot := tget {} s.ce.slots k
/-- the slot a pronoun is on -/
def slotOf (s : State) (n : Nat) : Option Nat :=
  (s.ce.slots.find? fun e => e.2.prn == some n).map (·.1)
def cacheSet (s : State) (n : Nat) : List Way := tget [] s.sched.cache (n % 4096)
def putCacheSet (s : State) (n : Nat) (l : List Way) : State :=
  { s with sched := { s.sched with cache := tset [] (n % 4096) l s.sched.cache } }
def cached (s : State) (n : Nat) : Bool := (cacheSet s n).any fun w => w.tag == n / 4096
/-- Where the changed record is held: its slot, its cache way, now dirty, or the pronoun table (R87). DESIGN CHOICE (log
entry 115): such a change is no use of the record for the cache's replacement. -/
def noteRecord (s : State) (n : Nat) (p : Pron) : State :=
  if (slotOf s n).isSome then s
  else if cached s n then
    putCacheSet s n ((cacheSet s n).map fun w => if w.tag == n / 4096 then { w with dirty := true } else w)
  else { s with sched := { s.sched with table := tset {} n p s.sched.table } }
def setP (s : State) (n : Nat) (p : Pron) : State :=
  noteRecord { s with sched := { s.sched with recs := tset {} n p s.sched.recs } } n p
def modP (s : State) (n : Nat) (f : Pron → Pron) : State := setP s n (f (getP s n))

def isBound (p : Pron) : Bool := p.state != .unbound
/-- ACTIVE or HALTING on its slot -/
def running (p : Pron) : Bool := p.state == .active || p.state == .halting
/-- CLAUSE_OPEN's clause (R60, R89): the pronoun's clause record, doomed or not -/
def clauseOf (s : State) (n : Nat) : Option Clause := s.cls.clauses.find? fun c => c.prn == n
def openClause (s : State) (n : Nat) : Option Clause :=
  s.cls.clauses.find? fun c => c.prn == n && c.doom.isNone

/-! ### The pronoun cache (R84, R85) -/

/-- the record leaves the cache for its slot (R85) -/
def cacheTake (s : State) (n : Nat) : State :=
  putCacheSet s n ((cacheSet s n).filter fun w => w.tag != n / 4096)
/-- the record enters the cache as most recently used; the least recently used way goes, written back if dirty (R84); a
fenced bank holds nothing, and its records go to the table (14 R433) -/
def cachePut (s : State) (n : Nat) (dirty : Bool) : State :=
  let l := cacheSet s n
  let was := l.any fun w => w.tag == n / 4096 && w.dirty
  let l := l.filter (fun w => w.tag != n / 4096) ++ [{ tag := n / 4096, dirty := dirty || was }]
  if s.flt.banks.contains (n % 8) then
    (if dirty then { s with sched := { s.sched with table := tset {} n (getP s n) s.sched.table } } else s)
  else if decide (l.length + retiredWays s 4 (n % 8) (n % 4096 / 8) ≤ 16) then putCacheSet s n l
  else
    let s := putCacheSet s n (l.drop 1)
    match l.head? with
    | some w =>
      let v := w.tag * 4096 + n % 4096
      if w.dirty then { s with sched := { s.sched with table := tset {} v (getP s v) s.sched.table } } else s
    | none => s

/-! ### Slots (R78 to R80) -/

def setSlot (s : State) (k : Nat) (x : Slot) : State :=
  { s with ce := { s.ce with slots := tset {} k x s.ce.slots } }
/-- the pronoun on a slot with its record loaded -/
def slotPron (s : State) (k : Nat) : Option Nat :=
  let x := getSlot s k
  if x.loading then none else x.prn
def engineOf (k : Nat) : Nat := k / 16
/-- the record goes back to the cache and the slot is free (R80, R85) -/
def leaveSlot (s : State) (n : Nat) : State :=
  match slotOf s n with
  | none => s
  | some k => cachePut (setSlot s k { getSlot s k with prn := none, loading := false }) n true

/-- where a pronoun's script frame stands: behind the 256 MiB of records (R58) -/
def frameAt (s : State) (n : Nat) : Nat := prnStart s + 0x10000000 + 128 * n
/-- g0 to g31 as a script frame holds them. DESIGN CHOICE (log entry 109): in register order, g0 first. -/
def frameBytes (r : Regs) : List Byte := ((List.range 32).map fun i => toLE 4 (tget 0 r.g i).toNat).flatten
/-- a script's general registers go to its frame as it leaves its slot inside its CCW (07 R194) -/
def saveFrame (s : State) (n : Nat) : State :=
  match (getP s n).script with
  | some sc => writeDram s (frameAt s n) (frameBytes sc.regs)
  | none => s

/-! ### Run-level queues (R78) -/

def runq (s : State) (l : Nat) : List Nat := tget [] s.sched.runq l
def dequeue (s : State) (n : Nat) : State :=
  { s with sched := { s.sched with
      runq := (List.range 8).foldl (fun t l => tset [] l ((tget [] t l).filter (· != n)) t) s.sched.runq } }
/-- to the tail of its level, with its record brought into the cache (R78, R85) -/
def enqueue (s : State) (n : Nat) : State :=
  let s := dequeue s n
  let l := (getP s n).runLevel.toNat
  let s := { s with sched := { s.sched with runq := tset [] l (runq s l ++ [n]) s.sched.runq } }
  cachePut s n false

/-- QUEUED: STARTS counts it from IDLE, PARENTHESIS or WAITING (R60, Table 3-2), and not from CHECKED -/
def toQueued (s : State) (n : Nat) (cause : BitVec 3) : State :=
  enqueue (modP s n fun p =>
    { p with state := .queued, starts := if p.state == .checked then p.starts else wrapInc p.starts, wakeCause := cause }) n

/-- a start at an address: the loop stack is empty (Table 3-8, R72) -/
def startAt (s : State) (n : Nat) (a : Dword) (cause : BitVec 3) : State :=
  toQueued (modP s n fun p => { p with ccwAddr := a, loops := [], startPending := false, pendStart := 0 }) n cause

/-- IDLE reached; a pending start queues the pronoun at once (R72). DESIGN CHOICE (log entry 100): STARTS counts that start,
as R72 has the pronoun reach IDLE first. -/
def toIdle (s : State) (n : Nat) : State :=
  let p := getP s n
  let s := setP s n { p with state := .idle, cur := none, script := none, tickets := [], loops := [], wait := none,
                             moverHold := false, checkedBy := none, again := false, rerun := none, fin := none, limitDue := none }
  if p.startPending then startAt s n p.pendStart 5 else s

/-! ### Status words of a pronoun (R48, R49, R55, R57) -/

/-- a word of the pronoun waits for space (R57) -/
def wordsHeld (s : State) (n : Nat) : Bool := s.sched.words.any fun w => w.2.1 == n
def setWords (s : State) (l : List (Nat × Nat × BitVec 256)) : State := { s with sched := { s.sched with words := l } }
/-- Post a word's bits directly: the next SEQ, then to its queue, or held, behind what waits there, until there is space
(R54, R57). Answers whether it was written. -/
def postBits (s : State) (n sq : Nat) (bits : BitVec 256) : State × Bool :=
  let p := getP s n
  let bits := setField bits 208 16 p.seq.toNat
  let s := setP s n { p with seq := wrapInc p.seq }
  if !(s.sched.words.any fun w => w.1 == sq) && sqRoom s sq then (sqWrite s sq bits, true)
  else (setWords s (s.sched.words ++ [(sq, n, bits)]), false)
def postDirect (s : State) (n : Nat) (w : SWord) : State × Bool :=
  postBits s n (getP s n).statusQueue.toNat (encodeWord n w 0)

/-! ### Wait counters (R60 0x0C, R36, Table 3-12) -/

def waitCount (p : Pron) (i : Nat) : Nat := bitsAt p.waitPending (4 * i) 4
/-- one more pending, saturating at 15 with WAIT_OVERFLOW; answers whether it was at 15 -/
def waitAdd (p : Pron) (i : Nat) : Pron × Bool :=
  if waitCount p i = 15 then ({ p with waitOverflow := setBit p.waitOverflow i true }, true)
  else ({ p with waitPending := setField p.waitPending (4 * i) 4 (waitCount p i + 1) }, false)
def waitTake (p : Pron) (i : Nat) : Pron :=
  { p with waitPending := setField p.waitPending (4 * i) 4 (waitCount p i - 1), wakeInput := BitVec.ofNat 3 i }
/-- the highest selected input below n with a pending count -/
def waitTop (p : Pron) (mask : Byte) : Nat → Option Nat
  | 0 => none
  | n + 1 => if mask.getLsbD n && decide (0 < waitCount p n) then some n else waitTop p mask n

end Sys2Proof.Machine
end

