-- ==== Sys2Proof/Machine/TwinLink.lean ====
section
/-!
DEFINITION. Sending on Malid Link (11 R336 to R338), the CTM_WRITE mirror (R345) and the pairing tests that other
families ask for.
-/

namespace Sys2Proof.Machine

/-- numbers taken now commit on acknowledgement (Table 11-2, R361) -/
def isPaired (s : State) : Bool := s.tw.state == 3 || (s.tw.state == 7 && !s.tw.unpairing)
/-- MIRROR and CTM_WRITE run (R345, R346) -/
def isMirroring (s : State) : Bool := s.tw.state == 3 || s.tw.state == 7
/-- step 5 of a join has begun (R345) -/
def isCopying (s : State) : Bool := s.tw.state == 2 && s.tw.copied

def twinCount (s : State) (i : Nat) : State :=
  rcPulse (tget 0 s.tw.ctr i) { s with tw := { s.tw with ctr := tmod 0 i satInc s.tw.ctr } }

/-! ### Messages and flits (R336, R337) -/

def isBulk (type : Byte) : Bool := decide (0x20 ≤ type.toNat)
/-- the line a CTM_COPY or CTM_WRITE names by its PARAM, as this part numbers it (Table 11-1) -/
def paramLine (p : Dword) : Nat := p.toNat / 64 + if p.getLsbD 0 then shadowOff / 64 else 0
/-- the body of a message as it is sent: a CTM_COPY reads its line then (R345) -/
def sentBody (s : State) (m : TwinMsg) : List Byte :=
  if m.type = 0x20 then getBytes s.mem.dram (ctmPhys s (64 * paramLine m.param)) 64 else m.body
/-- a message as bytes -/
def msgBytes (s : State) (m : TwinMsg) : List Byte :=
  let b := sentBody s m
  [m.type, 0, 0, 0] ++ toLE 4 b.length ++ toLE 8 m.param.toNat ++ b
/-- a flit's header word -/
def flitHead (f : Flit) : Nat :=
  f.seq.toNat + 2 ^ 12 * b2n f.bulk + 2 ^ 13 * b2n f.null + 2 ^ 14 * b2n f.nak + 2 ^ 16 * f.ackSeq.toNat + 2 ^ 28 * b2n f.ackValid
/-- header and payload, 252 bytes -/
def flitBody (f : Flit) : List Byte := toLE 4 (flitHead f) ++ padTo 248 f.payload
def flitGood (f : Flit) : Bool := f.crc == crc32c (flitBody f)
/-- A flit goes out with the acknowledgement of the moment (R336). -/
def putFlit (s : State) (f : Flit) : State :=
  let b := flitBody { f with ackSeq := s.tw.rxSeq - 1, ackValid := true }
  emit s (.flit (b ++ toLE 4 (crc32c b).toNat))
/-- one sequenced flit sent -/
def sendFlit (s : State) (bulk : Bool) (l : List Byte) : State :=
  let f : Flit := { seq := s.tw.txSeq, bulk := bulk, payload := l }
  putFlit { s with tw := { s.tw with txSeq := wrapInc s.tw.txSeq, replay := s.tw.replay ++ [f] } } f

/-! ### Packing (R336, R337) -/

def restOf (s : State) (bulk : Bool) : List Byte := if bulk then s.tw.restBulk else s.tw.restCtl
def setRest (s : State) (bulk : Bool) (l : List Byte) : State :=
  if bulk then { s with tw := { s.tw with restBulk := l } } else { s with tw := { s.tw with restCtl := l } }
/-- something of this class waits to be sent -/
def classWaits (s : State) (bulk : Bool) : Bool := !(restOf s bulk).isEmpty || s.tw.txq.any fun m => isBulk m.type == bulk
/-- the oldest message of a class, and the others -/
def takeMsg (bulk : Bool) : List TwinMsg → Option (TwinMsg × List TwinMsg)
  | [] => none
  | m :: ms =>
    if isBulk m.type == bulk then some (m, ms)
    else match takeMsg bulk ms with
      | some (x, r) => some (x, m :: r)
      | none => none
/-- Messages of a class follow one another until a flit is full; a message has 16 bytes at least, so 16 fill one. -/
def fillFlit (bulk : Bool) : Nat → State → State
  | 0, s => s
  | f + 1, s =>
    if 248 ≤ (restOf s bulk).length then s
    else match takeMsg bulk s.tw.txq with
      | none => s
      | some (m, q) => fillFlit bulk f (setRest { s with tw := { s.tw with txq := q } } bulk (restOf s bulk ++ msgBytes s m))
/-- the next flit of a class; where no message follows, the rest of it is zero -/
def sendClass (s : State) (bulk : Bool) : State :=
  let s := fillFlit bulk 16 s
  let l := restOf s bulk
  sendFlit (setRest s bulk (l.drop 248)) bulk (padTo 248 (l.take 248))
/-- flits are sent, control before bulk at each flit boundary, while the replay buffer has room (R336) -/
def pumpFlits : Nat → State → State
  | 0, s => s
  | f + 1, s =>
    if classWaits s false then pumpFlits f (sendClass s false)
    else if classWaits s true then pumpFlits f (sendClass s true) else s
def twinPump (s : State) : State := if s.tw.link != 2 then s else pumpFlits (1024 - s.tw.replay.length) s
def twinSend (s : State) (m : TwinMsg) : State :=
  twinPump { s with tw := { s.tw with txq := s.tw.txq ++ [m] } }

/-! ### The CTM mirror (R345, Table 11-1) -/

/-- PARAM of a line of the part's own region, or of the region it took over -/
def lineParam (l : Nat) : Dword :=
  if shadowOff / 64 ≤ l then BitVec.ofNat 64 (1 + 64 * (l - shadowOff / 64)) else BitVec.ofNat 64 (64 * l)
/-- a line lies in a region the part owns: its own range's, or the one it took over -/
def ownsLine (s : State) (l : Nat) : Bool :=
  if shadowOff / 64 ≤ l then s.tw.tookOver else if s.tw.id then s.tw.ownHigh else s.tw.ownLow
/-- a line write in a region the part owns is sent to the peer -/
def twinLine (s : State) (l : Nat) : State :=
  if (isMirroring s || isCopying s) && ownsLine s l then
    twinSend s { type := 0x21, param := lineParam l, body := getBytes s.mem.dram (ctmPhys s (64 * l)) 64 }
  else s

end Sys2Proof.Machine
end

