-- ==== Sys2Proof/Machine/Clauses.lean ====
section
/-!
DEFINITION. Clauses: staging, the clause directory, dooms, CTM access and locks (04_clauses.md R89 to R123), and the
arrival of wait-input events (02 R35, R36; 03 Table 3-6).
-/

namespace Sys2Proof.Machine

/-! ### Movers as a table -/

def getMv (s : State) (m : Nat) : Mover := tget {} s.mv.movers m
def setMv (s : State) (m : Nat) (x : Mover) : State :=
  { s with mv := { s.mv with movers := tset {} m x s.mv.movers } }
def modMv (s : State) (m : Nat) (f : Mover → Mover) : State := setMv s m (f (getMv s m))
def transfersOf (x : Mover) : List Transfer := x.queue ++ x.ctx.map (·.2)
def allTransfers (s : State) : List Transfer := ((List.range 8).map fun m => transfersOf (getMv s m)).flatten
def prnOfOrigin : Origin → Option Nat
  | .ccw n => some n
  | .ticket n _ _ => some n
  | .firmware _ _ => none
/-- transfers of a pronoun accepted and not ended (R81, R153) -/
def outstanding (s : State) (n : Nat) : List Transfer :=
  (allTransfers s).filter fun t => prnOfOrigin t.origin == some n

/-- the device operation a transfer stores, if any -/
def tOp (t : Transfer) : Option Nat := t.segs.head?.bind fun g => match g.src with | .device id => some id | _ => none
def getOp (s : State) (id : Nat) : Option DevOp := s.lk.ops.find? fun o => o.id == id
/-- an operation leaves the list, its data buffer free (08 R241) -/
def delOp (s : State) (id : Nat) : State :=
  let pages := ((getOp s id).map (·.pages)).getD []
  { s with lk := { s.lk with
      ops := s.lk.ops.filter fun x => x.id != id
      quads := if pages.isEmpty then s.lk.quads else s.lk.quads.map fun e =>
        (e.1, { e.2 with ports := e.2.ports.map fun r =>
          (r.1, { r.2 with pp := { r.2.pp with used := r.2.pp.used.filter fun g => !(pages.contains g) } }) }) } }
def isEnded (o : DevOp) : Bool := match o.stage with | .ended _ _ _ => true | _ => false
def setPhase (s : State) (n : Nat) (ph : Phase) : State :=
  modP s n fun p => { p with cur := p.cur.map fun c => { c with phase := ph } }

/-- the mover-limit hold ends at half the limit (03 R81) -/
def releaseHold (s : State) (n : Nat) : State :=
  let p := getP s n
  if p.moverHold && p.checkedBy.isNone && decide ((outstanding s n).length ≤ s.sched.moverLimit.toNat / 2) then
    enqueue (setP s n { p with moverHold := false }) n
  else s

/-- A doom cancels the clause's transfers in the request queues and discards the staged output of those in contexts
(R111, Table 6-9). -/
def cancelWork (s : State) (b : Nat) : State :=
  (List.range 8).foldl (fun s m => modMv s m fun x =>
    { x with queue := x.queue.filter fun t => t.clause != some b
             ctx := x.ctx.map fun e => if e.2.clause == some b then (e.1, { e.2 with dead := true }) else e }) s

/-! ### Clause records (R89 to R91) -/

def getClause (s : State) (b : Nat) : Option Clause := s.cls.clauses.find? fun c => c.begin_ == b
def modClause (s : State) (b : Nat) (f : Clause → Clause) : State :=
  { s with cls := { s.cls with clauses := s.cls.clauses.map fun c => if c.begin_ == b then f c else c } }
def dropClause (s : State) (b : Nat) : State :=
  { s with cls := { s.cls with clauses := s.cls.clauses.filter fun c => c.begin_ != b } }
def countAbort (s : State) (reason : Byte) : State :=
  let r := reason.toNat % 128
  rcPulse (tget 0 s.cls.aborts r) { s with cls := { s.cls with aborts := tmod 0 r satInc s.cls.aborts } }

/-- on a slot, loaded or not QUEUED: a doom is then acted on at a CCW boundary (R111), else at once (R114) -/
def onSlot (s : State) (n : Nat) : Bool := running (getP s n) && (slotOf s n).isSome

/-- what is left of a clause that has ended before its number: the abort due (R112 to R116) -/
def rerunOf (c : Clause) (reason : Byte) (doomers : List Nat) : Rerun :=
  { reason := reason, clb := c.clb, count := c.count, loops := c.loops, begin_ := c.begin_, doomers := doomers, limit := c.limit }
/-- the transfer a clause's CCW waits for is still in a request queue -/
def queuedCcw (s : State) (c : Clause) : Option Transfer :=
  (((List.range 8).map fun m => (getMv s m).queue).flatten).find? fun t => t.clause == some c.begin_ && t.origin == .ccw c.prn
/-- A CCW whose own transfer a doom has taken out of its request queue (R111): a device read in progress goes on to its
end, and else nothing of the CCW is left to run. -/
def cutCcw (s : State) (n : Nat) (t : Transfer) : State :=
  match (tOp t).bind (getOp s) with
  | some o => if isEnded o then setPhase (delOp s o.id) n .issue else setPhase s n (.device o.id)
  | none => setPhase s n .issue
/-- the clause's work is cancelled, and a hold at the mover limit that this ends is lifted (R111, 03 R81) -/
def doomWork (s : State) (c : Clause) : State :=
  let q := queuedCcw s c
  let s := releaseHold (cancelWork s c.begin_) c.prn
  match q with
  | some t => cutCcw s c.prn t
  | none => s
/-- A clause is doomed (R91, R99, R111, R114). -/
def doom (s : State) (b : Nat) (reason : Byte) (doomers : List Nat) : State :=
  match getClause s b with
  | none => s
  | some c =>
    if c.doom.isSome then s
    else
      let s := doomWork s c
      let s := { s with fs := { s.fs with waiting := s.fs.waiting.filter fun w => w.prn != c.prn } }
      if onSlot s c.prn then modClause s b fun c => { c with doom := some reason, doomers := doomers }
      else modP (dropClause s b) c.prn fun p => { p with rerun := some (rerunOf c reason doomers) }

/-! ### The clause directory (R99 to R103) -/

def lineOf (a : Nat) : Nat := a / 64
/-- effects of numbered clauses that still hold a CTM line (R100) -/
def effectLine (e : Effect) : Option Nat :=
  match e.body with
  | .ctm a => if e.state == .done then none else some (lineOf (offOf a))
  | _ => none
def committedLines (s : State) : List Nat :=
  (s.fs.window.map fun c => c.effects.filterMap effectLine).flatten
def isCommitted (s : State) (l : Nat) : Bool := (committedLines s).contains l
def holds (c : Clause) (l : Nat) : Bool := c.reads.contains l || c.writes.contains l
/-- the lines with an entry in one directory set -/
def setLines (s : State) (set : Nat) : List Nat :=
  ((((s.cls.clauses.filter fun c => !c.returned).map fun c => c.reads ++ c.writes).flatten ++ committedLines s).filter
    fun l => l % 4096 == set).eraseDups

/-- What a clause's CTM access meets before it takes effect. -/
inductive CtmGo where
  | go (s : State)
  /-- a committed line, or a set of committed entries: wait for a release (R100, R103) -/
  | waitLine (s : State)
  /-- doomed clauses' entries are to be returned (R99, R103) -/
  | waitEntries (s : State)
  /-- the accessing clause is doomed: no effect -/
  | lost (s : State)
deriving DecidableEq, Repr

def youngest : List Clause → Option Clause
  | [] => none
  | c :: t => match youngest t with
    | none => some c
    | some d => if c.begin_ < d.begin_ then some d else some c

/-- Room for a line new to its set (R103): victims off their slots return their entries at once, so one after another may
be doomed; fuel is the number of clauses. -/
def dirRoom (c : Clause) (l : Nat) : Nat → State → CtmGo
  | 0, s => .waitEntries s
  | f + 1, s =>
    let set := l % 4096
    let used := setLines s set
    if used.contains l || decide (used.length + retiredWays s 6 0 set < 16) then .go s
    else if s.cls.clauses.any (fun o => o.doom.isSome && !o.returned && (o.reads ++ o.writes).any fun x => x % 4096 == set)
    then .waitEntries s
    else
      let holders := s.cls.clauses.filter fun o =>
        o.doom.isNone && o.begin_ != c.begin_ && (o.reads ++ o.writes).any fun x => x % 4096 == set
      if holders.isEmpty && (committedLines s).any (fun x => x % 4096 == set) then .waitLine s
      else match youngest (c :: holders) with
        | none => .go s
        | some y =>
          if y.begin_ == c.begin_ then .lost (doom s c.begin_ 2 []) else dirRoom c l f (doom s y.begin_ 2 [])

/-- The directory check of one access by an open clause (R99, R100, R103). -/
def dirCheck (s : State) (c : Clause) (l : Nat) (write : Bool) : CtmGo :=
  if isCommitted s l then .waitLine s
  else
    let hits (o : Clause) : Bool := o.begin_ != c.begin_ && (o.writes.contains l || (write && o.reads.contains l))
    let live := s.cls.clauses.filter fun o => o.doom.isNone && hits o
    let older := live.filter fun o => decide (o.begin_ < c.begin_)
    if !older.isEmpty then .lost (doom s c.begin_ 1 (older.map (·.begin_)))
    else
      let s := live.foldl (fun s o => doom s o.begin_ 1 [c.begin_]) s
      if s.cls.clauses.any (fun o => o.doom.isSome && !o.returned && hits o) then .waitEntries s
      else dirRoom c l (s.cls.clauses.length + 1) s

/-! ### Staging (R93, R96, R104, R106) -/

def blocksOf (n : Nat) : Nat := (n + 63) / 64
def clauseBlocks (c : Clause) : Nat := (c.effects.map fun e => blocksOf e.data.length).sum
def windowBlocks (s : State) : Nat :=
  (s.fs.window.map fun c => (c.effects.map fun e => blocksOf e.data.length).sum).sum
/-- blocks of the staging SRAM in service: 262,144 less those retired (14 R430) -/
def stageBlocks (s : State) : Nat := 262144 - retiredOf s 5 0
def openBlocks (s : State) : Nat :=
  ((s.cls.clauses.filter fun c => !c.returned && c.doom.isNone).map clauseBlocks).sum

/-- Free blocks are found by dooming the youngest holder, again and again (R106); fuel is the number of clauses. -/
def stageRoom (s : State) (b : Nat) (need : Nat) : Nat → State
  | 0 => s
  | f + 1 =>
    if decide (windowBlocks s + openBlocks s + need ≤ stageBlocks s) then s
    else
      match youngest (s.cls.clauses.filter fun c => c.doom.isNone && decide (0 < clauseBlocks c)) with
      | none => s
      | some y => let s := doom s y.begin_ 3 []; if y.begin_ == b then s else stageRoom s b need f

/-- What staging answers. -/
inductive Staged where
  | ok (s : State)
  /-- the clause is doomed: the effect is discarded (R105) -/
  | lost (s : State)
  /-- a limit of Table 4-5 would be exceeded (R104) -/
  | limit (k : Byte)
deriving DecidableEq, Repr

def limitOf (c : Clause) (nEff bytes ranges : Nat) : Option Byte :=
  if 256 < c.nEffects + nEff then some 0x01
  else if 1048576 < c.staged + bytes then some 0x02
  else if 256 < c.ranges + ranges then some 0x05 else none

/-- Stage effect descriptors that count as given (Table 4-3). -/
def stage (s : State) (b : Nat) (es : List Effect) (nEff bytes ranges : Nat) : Staged :=
  match getClause s b with
  | none => .lost s
  | some c =>
    if c.doom.isSome then .lost s
    else match limitOf c nEff bytes ranges with
      | some k => .limit k
      | none =>
        let s := stageRoom s b ((es.map fun e => blocksOf e.data.length).sum) (s.cls.clauses.length + 1)
        match getClause s b with
        | none => .lost s
        | some c =>
          if c.doom.isSome then .lost s
          else .ok (modClause s b fun c =>
            { c with effects := c.effects ++ es.map (fun e => { e with idx := c.nEffects }), nEffects := c.nEffects + nEff, staged := c.staged + bytes
                     ranges := c.ranges + ranges })

/-! ### CTM access (R97, R98, R101) -/

def ctmAddr (l : Nat) : Dword := BitVec.ofNat 64 (0x9000000000000000 + 64 * l)
/-- a line's released bytes -/
def releasedLine (s : State) (l : Nat) : List Byte := getBytes s.mem.dram (ctmPhys s (64 * l)) 64
def lineBad (s : State) (l : Nat) : Bool := dramPoisoned s (ctmPhys s (64 * l)) 64
/-- the clause's staged image of a line -/
def imageOf (c : Clause) (l : Nat) : Option (List Byte) :=
  (c.effects.find? fun e => e.body == EffBody.ctm (ctmAddr l)).map (·.data)
/-- bytes laid over a list at an offset -/
def overlay (base : List Byte) (o : Nat) (l : List Byte) : List Byte :=
  base.take o ++ l ++ base.drop (o + l.length)

/-- a later write to a staged line updates its image (R98) -/
def updImage (l o : Nat) (bs : List Byte) (bar : Bool) (e : Effect) : Effect :=
  if e.body == EffBody.ctm (ctmAddr l) then { e with data := overlay e.data o bs, bar := e.bar || bar } else e

/-- What a CTM access answers. -/
inductive CtmOut where
  | ok (s : State) (l : List Byte)
  | waitLine (s : State)
  | waitEntries (s : State)
  | lost (s : State)
  | limit (k : Byte)
  /-- an uncorrectable error (R204) -/
  | ecc
deriving DecidableEq, Repr

/-- A read of n bytes within one line by an open clause (R98, R99, R104). -/
def ctmReadIn (s : State) (c : Clause) (a n : Nat) : CtmOut :=
  let l := lineOf a
  match dirCheck s c l false with
  | .waitLine s => .waitLine s
  | .waitEntries s => .waitEntries s
  | .lost s => .lost s
  | .go s =>
    if !(c.reads.contains l) && decide (512 ≤ c.reads.length) then .limit 0x03
    else
      let s := modClause s c.begin_ fun c => { c with reads := linsert l c.reads }
      match imageOf c l with
      | some im => .ok s ((im.drop (a % 64)).take n)
      | none => if lineBad s l then .ecc else .ok s (((releasedLine s l).drop (a % 64)).take n)

/-- A write within one line by an open clause: the line's image is staged (R98, R104). -/
def ctmWriteIn (s : State) (c : Clause) (ccw : Dword) (bar : Bool) (a : Nat) (bs : List Byte) : CtmOut :=
  let l := lineOf a
  match dirCheck s c l true with
  | .waitLine s => .waitLine s
  | .waitEntries s => .waitEntries s
  | .lost s => .lost s
  | .go s =>
    if c.writes.contains l then
      .ok (modClause s c.begin_ fun c => { c with effects := c.effects.map (updImage l (a % 64) bs bar) }) []
    else if decide (128 ≤ c.writes.length) then .limit 0x04
    else if lineBad s l && decide (bs.length < 64) then .ecc
    else
      let e : Effect := { body := .ctm (ctmAddr l), data := overlay (releasedLine s l) (a % 64) bs, ccw := ccw, bar := bar }
      match stage s c.begin_ [e] 1 64 0 with
      | .ok s => .ok (modClause s c.begin_ fun c => { c with writes := linsert l c.writes }) []
      | .lost s => .lost s
      | .limit k => .limit k

/-- A read outside any clause: the released value (R101). -/
def ctmReadOut (s : State) (a n : Nat) : CtmOut :=
  if dramPoisoned s (ctmPhys s a) n then .ecc else .ok s (getBytes s.mem.dram (ctmPhys s a) n)

/-- the lines of a byte range -/
def linesOf (a n : Nat) : List Nat := (List.range (lineOf (a + n - 1) + 1 - lineOf a)).map (· + lineOf a)

/-- A write outside any clause that takes effect: every open clause with one of its lines is doomed (R101). -/
def ctmStore (s : State) (a : Nat) (bs : List Byte) : State :=
  let ls := linesOf a bs.length
  let s := ls.foldl twinLine (writeDram s (ctmPhys s a) bs)
  let hit := s.cls.clauses.filter fun c => c.doom.isNone && ls.any (holds c)
  hit.foldl (fun s c => doom s c.begin_ 4 []) s

/-- A write outside any clause (R101): it waits for a committed line. -/
def ctmWriteOut (s : State) (a : Nat) (bs : List Byte) : CtmOut :=
  if (linesOf a bs.length).any (isCommitted s) then .waitLine s else .ok (ctmStore s a bs) []

/-! ### Locks (R118 to R123) -/

def lockWord (owner : Nat) (broken : Bool) : Word := BitVec.ofNat 32 (owner % 2 ^ 20 + b2n broken * 2 ^ 30 + 2 ^ 31)
def getLock (s : State) (a : Nat) : Option (Nat × Bool) :=
  (s.cls.locks.find? fun e => e.1 == a).map fun e => (e.2.1, e.2.2)
def setLock (s : State) (a owner : Nat) (broken : Bool) : State :=
  { s with cls := { s.cls with locks := (s.cls.locks.filter fun e => e.1 != a) ++ [(a, owner, broken)] } }
def delLock (s : State) (a : Nat) : State :=
  { s with cls := { s.cls with locks := s.cls.locks.filter fun e => e.1 != a } }

/-- LOCK (R119): acquired and broken; none while the word's line is committed and the mirror must be written. -/
def lockOp (s : State) (n a : Nat) : Option (State × Bool × Bool) :=
  let take (s : State) (broken : Bool) : Option (State × Bool × Bool) :=
    match ctmWriteOut (setLock s a n broken) a (toLE 4 (lockWord n broken).toNat) with
    | .ok s _ => some (s, true, broken)
    | _ => none
  match getLock s a with
  | some (owner, broken) =>
    if broken then take s true else if owner == n then take s false else some (s, false, false)
  | none =>
    if decide (8192 ≤ s.cls.locks.length + retiredOf s 7 0) then
      some (pulse { s with cls := { s.cls with lockFull := true } } 94, false, false)
    else take s (decide (2 ^ 31 ≤ ofLE (getBytes s.mem.dram (ctmPhys s a) 4)))

/-- UNLOCK (R119): released. -/
def unlockOp (s : State) (n a : Nat) : Option (State × Bool) :=
  match getLock s a with
  | some (owner, _) =>
    if owner == n then
      match ctmWriteOut (delLock s a) a [0, 0, 0, 0] with
      | .ok s _ => some (s, true)
      | _ => none
    else some (s, false)
  | none => some (s, false)

/-- One lock made BROKEN: registry and mirror word (R121); a committed line delays the mirror (R100). -/
def breakLock (s : State) (a owner : Nat) : State :=
  let s := setLock s a owner true
  let s := rcPulse s.cls.lockBroken { s with cls := { s.cls with lockBroken := satInc s.cls.lockBroken } }
  match ctmWriteOut s a (toLE 4 (lockWord owner true).toNat) with
  | .ok s _ => s
  | _ => { s with cls := { s.cls with mirrorDue := s.cls.mirrorDue ++ [(a, lockWord owner true)] } }

/-- Every lock of a pronoun becomes BROKEN (R121). -/
def breakLocks (s : State) (n : Nat) : State :=
  (s.cls.locks.filter fun e => e.2.1 == n && !e.2.2).foldl (fun s e => breakLock s e.1 n) s

/-- mirror words whose line has been released are written -/
def writeMirrors (s : State) : State :=
  let due := s.cls.mirrorDue.filter fun e => !(isCommitted s (lineOf e.1))
  let s := { s with cls := { s.cls with mirrorDue := s.cls.mirrorDue.filter fun e => isCommitted s (lineOf e.1) } }
  due.foldl (fun s e => ctmStore s e.1 (toLE 4 e.2.toNat)) s

/-! ### Events at pronouns (R32, R35, R36, Table 3-6) -/

/-- What ends a WAIT. -/
inductive WakeBy where
  | input (i : Nat) | frame | attention | timeout
deriving DecidableEq, Repr

def wakeCauseOf : WakeBy → BitVec 3
  | .input _ => 1 | .frame => 2 | .attention => 3 | .timeout => 4

/-- the result a script's WAIT writes (R221) -/
def waitResult : WakeBy → Word
  | .input i => BitVec.ofNat 32 i
  | .frame => 8
  | .attention => 8
  | .timeout => 0xFFFFFFFF

def setG (r : Regs) (n : Nat) (v : Word) : Regs := if n = 0 then r else { r with g := tset 0 n v r.g }
def getG (r : Regs) (n : Nat) : Word := if n = 0 then 0 else tget 0 r.g n

/-- A WAITING pronoun's WAIT ends: it goes QUEUED (R36, R53, R221). -/
def endWait (s : State) (n : Nat) (w : WakeBy) : State :=
  let p := getP s n
  match p.wait with
  | none => s
  | some x =>
    let p := match w with | .input i => waitTake p i | _ => p
    let left : Word := match x.expiry with
      | none => 0
      | some e => BitVec.ofNat 32 (e - s.dev.tick.toNat)
    let p := match x.script with
      | some rd => { p with wait := none, script := p.script.map fun sc =>
          { sc with stall := none, regs := { setG sc.regs rd (waitResult w) with pc := sc.regs.pc + 4 } } }
      | none =>
        let skip := w == .timeout
        { p with wait := none, residual := if skip then 0 else left
                 ccwAddr := p.ccwAddr + (if skip then 32 else 16)
                 cur := p.cur.map fun c => { c with phase := .ended skip (w == .attention) } }
    toQueued (setP s n p) n (wakeCauseOf w)

/-- A wait-input event arrives at a pronoun; answers also whether the counter was at 15 (R35, R36, R32). -/
def waitEvent (s : State) (n i : Nat) : State × Bool :=
  let p := getP s n
  if !(isBound p) then ({ s with sched := { s.sched with waitDiscarded := s.sched.waitDiscarded + 1 } }, false)
  else
    let (p, sat) := waitAdd p i
    let s := setP s n p
    match p.state, p.wait with
    | .waiting, some x =>
      match waitTop p x.mask 8 with
      | some j => (endWait s n (.input j), sat)
      | none => (s, sat)
    | .parenthesis, _ =>
      if p.resumeMask.getLsbD i && !p.moverHold then
        (toQueued (setP s n { waitTake p i with again := true }) n 1, sat)
      else (s, sat)
    | .idle, _ =>
      if p.autoStart && p.resumeMask.getLsbD i then (startAt (setP s n (waitTake p i)) n p.startAddr 1, sat) else (s, sat)
    | _, _ => (s, sat)

end Sys2Proof.Machine
end

