-- ==== Sys2Proof/Machine/Pronouns.lean ====
section
/-!
DEFINITION. Pronoun transitions (03 R68 to R82): halts, checks, aborts acted on (04 R110 to R116), CCW boundaries and
chain ends (02 R25, R26), doorbells and placement.
-/

namespace Sys2Proof.Machine

def leaveAll (s : State) (n : Nat) : State := leaveSlot (dequeue s n) n

/-! ### Checks and halts -/

/-- A pronoun enters CHECKED with a word of this KIND (R68, R121, R288). -/
def enterChecked (s : State) (n : Nat) (kind : Byte) : State :=
  let p := getP s n
  let s := leaveAll s n
  let s := modP s n fun p => { p with state := .checked, checkKind := kind, cur := none, script := none, tickets := [],
                                      loops := [], fin := none, rerun := none, wait := none, again := false,
                                      moverHold := false, checkedBy := none, limitDue := none }
  let s := breakLocks s n
  if p.state == .halting then finishHeld s (.halt n) 0 2 else s

/-- A halt or a chain end leaves the pronoun IDLE, or queued again (R72, R288). -/
def enterIdle (s : State) (n : Nat) : State :=
  let p := getP s n
  let s := toIdle (leaveAll s n) n
  if p.state == .halting then finishHeld s (.halt n) 0 1 else s

/-- the suspension of a PAR CCW of a pronoun that does not halt (R31) -/
def suspend (s : State) (n : Nat) : State :=
  modP (leaveAll s n) n fun p => { p with state := .parenthesis, cur := none, fin := none }

/-- the pronoun waits no longer for a clause record or for its full stop's admission (R107, 05 R131) -/
def leaveWaits (s : State) (n : Nat) : State :=
  { s with fs := { s.fs with waiting := s.fs.waiting.filter fun w => w.prn != n }
           cls := { s.cls with clbWait := s.cls.clbWait.filter (· != n) } }
/-- The open or doomed clause, or the abort still due, ends with this reason (R110); answers the CLB CCW address and
the reason reported. -/
def abortClause (s : State) (n : Nat) (reason : Byte) (keep : Bool) : State × Option (Dword × Byte) :=
  let s := leaveWaits s n
  match clauseOf s n with
  | some c =>
    let r := if keep then c.doom.getD reason else reason
    let s := countAbort (dropClause (cancelWork s c.begin_) c.begin_) r
    (modP s n fun p => { p with lastAbort := r, rerun := none }, some (c.clb, r))
  | none =>
    match (getP s n).rerun with
    | some x =>
      if x.counted then (modP s n fun p => { p with rerun := none }, some (x.clb, x.reason))
      else
        let r := if keep then x.reason else reason
        (modP (countAbort s r) n fun p => { p with lastAbort := r, rerun := none }, some (x.clb, r))
    | none => (s, none)

/-- Store what follows a word held by a full queue, or do it at once. DESIGN CHOICE (log entry 101): off the slot nothing
is held: the state changes at once and the word waits. -/
def afterPost (s : State × Bool) (n : Nat) (fin : Fin) (now : State → State) : State :=
  if s.2 || !(onSlot s.1 n) then now s.1 else modP s.1 n fun p => { p with fin := some fin }

/-- A halt acts at a boundary or off the slot (R73, R74). -/
def haltAct (s : State) (n : Nat) : State :=
  let (s, ab) := abortClause s n 0x06 true
  let p := getP s n
  let w : SWord := match ab with
    | some (clb, r) => { kind := 0x09, ccw := clb, chan := chanAbort, det := r }
    | none => { kind := 0x09, ccw := p.ccwAddr }
  let s := modP s n fun p => { p with loops := [], script := none, cur := none, wait := none, tickets := [] }
  afterPost (postDirect s n w) n .halted (fun s => enterIdle s n)

/-- A program check (R47). -/
def programCheck (s : State) (n : Nat) (code det : Byte) (resid : Word) (ccw : Dword) : State :=
  let (s, ab) := abortClause s n 0x07 false
  let s := modP s n fun p => { p with lastPc := code, residual := resid, ccwAddr := ccw }
  let w : SWord := { kind := 0x05, ccw := ccw, resid := resid, pc := code, det := det
                     chan := chanProgram ||| (if ab.isSome then chanAbort else 0) }
  afterPost (postDirect s n w) n (.checked 0x05) (fun s => enterChecked s n 0x05)

/-- A stopping condition (R52). Both status bytes zero mark the part's own hardware, with or without a clause (14 R435). -/
def stopCondition (s : State) (n : Nat) (dev chan det : Byte) (resid : Word) (ccw : Dword) : State :=
  let (s, ab) := abortClause s n 0x08 false
  let s := modP s n fun p => { p with residual := resid, ccwAddr := ccw }
  let w : SWord := { kind := 0x06, ccw := ccw, resid := resid, dev := dev, det := det
                     chan := if chan = 0 ∧ dev = 0 then 0 else chan ||| (if ab.isSome then chanAbort else 0) }
  afterPost (postDirect s n w) n (.checked 0x06) (fun s => enterChecked s n 0x06)

/-- An abort reported by a CLAUSE_ABORT word that leaves the pronoun CHECKED (R110, R112). -/
def reportAbort (s : State) (n : Nat) (clb : Dword) (det : Byte) : State :=
  let s := modP s n fun p => { p with lastAbort := det, rerun := none }
  afterPost (postDirect s n { kind := 0x07, ccw := clb, chan := chanAbort, det := det }) n (.checked 0x07)
    (fun s => enterChecked s n 0x07)

/-- A doomed clause's abort is acted on (R112, R114, R116). -/
def abortAct (s : State) (n : Nat) (x : Rerun) : State :=
  let p := getP s n
  if p.state == .halting then haltAct s n
  else
    let s := if x.counted then s else countAbort s x.reason
    let restart (s : State) (retry : BitVec 4) : State := modP s n fun p =>
      { p with retryCount := retry, loops := x.loops, ccwAddr := x.clb, script := none, cur := none, tickets := []
               lastAbort := x.reason, again := true, limitDue := none, rerun := some { x with counted := true } }
    if x.reason == 0x09 then restart s p.retryCount
    else if x.reason == 0x0B then reportAbort s n x.clb x.reason
    else if decide (p.retryCount.toNat < x.limit.toNat) then restart s (p.retryCount + 1)
    else reportAbort s n x.clb (x.reason ||| 0x80)

/-- the abort due on a pronoun on its slot: its doomed clause as a re-run -/
def doomedRerun (s : State) (n : Nat) : Option Rerun :=
  match clauseOf s n with
  | some c => c.doom.map fun r => rerunOf c r c.doomers
  | none => (getP s n).rerun.filter fun x => !x.counted

/-- A pronoun whose slot, engine, mover or record was fenced or lost goes CHECKED: CLAUSE_ABORT with reason 0x0B for its
clause, or a CONDITION word with both status bytes zero (14 R435, R436). -/
def fenceAct (s : State) (n : Nat) (code : Byte) : State :=
  let due := doomedRerun s n
  let (s, ab) := abortClause s n 0x0B false
  let s := modP s n fun p => { p with fenceDue := none, rerun := none, cur := none, fin := none }
  match due, ab with
  | some x, _ => reportAbort s n x.clb 0x0B
  | none, some (clb, r) => reportAbort s n clb r
  | none, none =>
    let p := getP s n
    let s := modP s n fun p => { p with residual := 0 }
    afterPost (postDirect s n { kind := 0x06, ccw := p.ccwAddr, det := 0x80 ||| code }) n (.checked 0x06) (fun s => enterChecked s n 0x06)

/-! ### Boundaries and chain ends (R25, R26) -/

/-- A pronoun at a CCW boundary: a fence, a doom, then a halt, is acted on; else the next CCW waits for its fetch. -/
def boundary (s : State) (n : Nat) (next : Dword) : State :=
  let s := modP s n fun p => { p with ccwAddr := next, cur := none, again := false, fin := none }
  match (getP s n).fenceDue, doomedRerun s n with
  | some d, _ => fenceAct s n d
  | none, some x =>
    if (getP s n).state == .halting then haltAct s n
    else abortAct (match clauseOf s n with | some c => dropClause s c.begin_ | none => s) n x
  | none, none => if (getP s n).state == .halting then haltAct s n else s

/-- The chain ends with a CHAIN_END word (R26, R49). -/
def endWord (ccw : Dword) (resid : Word) (chan dev : Byte) : SWord :=
  { kind := 0x01, ccw := ccw, resid := resid, chan := chan, dev := dev }

/-- What a finished word leaves to do. -/
def runFin (s : State) (n : Nat) (f : Fin) : State :=
  match f with
  | .notice par =>
    if par then (if (getP s n).state == .halting then haltAct s n else suspend s n)
    else modP s n fun p => { p with fin := none }
  | .goOn next => boundary s n next
  | .chainEnd => enterIdle s n
  | .checked k => enterChecked s n k
  | .halted => enterIdle s n
  | .done => modP s n fun p => { p with fin := none }

/-- Post a word directly, then go on (R57). -/
def postThen (s : State) (n : Nat) (w : SWord) (f : Fin) : State :=
  afterPost (postDirect s n w) n f (fun s => runFin s n f)

/-- once no word of a pronoun waits, what was held follows (R57) -/
def wordsOut (s : State) (n : Nat) : State :=
  if wordsHeld s n then s
  else match (getP s n).fin with
    | some f => runFin (modP s n fun p => { p with fin := none }) n f
    | none => s
/-- Words waiting for a queue are written while there is room, in the order they were posted (R54, R57). -/
def drainWords (sq : Nat) : Nat → State → State
  | 0, s => s
  | f + 1, s =>
    match s.sched.words.find? fun w => w.1 == sq with
    | none => s
    | some w =>
      if sqRoom s sq then drainWords sq f (wordsOut (sqWrite (setWords s (s.sched.words.erase w)) sq w.2.2) w.2.1)
      else s
/-- every word that waits for this queue and has room; a queue takes at most its size (R57) -/
def drainQueue (s : State) (sq : Nat) : State :=
  match getSq s sq with
  | some q => drainWords sq (2 ^ q.log2) s
  | none => s

/-! ### Starts, resumptions and halts (R71 to R74) -/

/-- START: answers whether it was ignored (Table 3-8, R72). -/
def startOp (s : State) (n : Nat) (a : Dword) : State × Bool :=
  match (getP s n).state with
  | .unbound | .checked => (s, true)
  | .idle => (startAt s n a 5, false)
  | _ => (modP s n fun p => { p with startPending := true, pendStart := a }, false)

def resumeOp (s : State) (n : Nat) : State × Bool :=
  let p := getP s n
  if p.state == .parenthesis && !p.moverHold then (toQueued (setP s n { p with again := true }) n 5, false) else (s, true)

/-- inside a CCW while QUEUED: IN_SCRIPT, or held at its mover limit (R71) -/
def insideCcw (p : Pron) : Bool := p.script.isSome || (p.moverHold && p.checkedBy.isNone)

/-- HALT: answers 0 halted at once, 1 HALTING, none ignored. -/
def haltOp (s : State) (n : Nat) : State × Option Nat :=
  let p := getP s n
  let s' := setP s n { p with startPending := false, pendStart := 0 }
  match p.state with
  | .unbound | .idle | .checked | .halting => (s, none)
  | .queued =>
    if insideCcw p then (modP s' n fun p => { p with state := .halting }, some 1)
    else (haltAct (leaveAll s' n) n, some 0)
  | .active => (modP s' n fun p => { p with state := .halting }, some 1)
  | .waiting | .parenthesis => (haltAct s' n, some 0)

/-! ### Placement (R78, R79) -/

def slotFenced (s : State) (k : Nat) : Bool := s.flt.slots.contains k || s.flt.engines.contains (engineOf k)
/-- the slot executes nothing: fenced, or the engines do not run -/
def slotStopped (s : State) (k : Nat) : Bool := slotFenced s k || !(enginesRun s)
/-- the oldest eligible pronoun of a level for an engine -/
def eligible (s : State) (e : Nat) (l : Nat) : Option Nat :=
  (runq s l).find? fun n => let p := getP s n; p.affinity.getLsbD e && !p.moverHold
def pickFor (s : State) (e : Nat) : Nat → Option Nat
  | 0 => none
  | l + 1 => match eligible s e l with
    | some n => some n
    | none => pickFor s e l
/-- the highest free slot below k with an eligible pronoun, and the pronoun -/
def pickSlot (s : State) : Nat → Option (Nat × Nat)
  | 0 => none
  | k + 1 =>
    if (getSlot s k).prn.isNone && !(slotStopped s k) then
      match pickFor s (engineOf k) 8 with
      | some n => some (k, n)
      | none => pickSlot s k
    else pickSlot s k

def place (s : State) : State :=
  if s.sched.runq.isEmpty || !(enginesRun s) then s
  else match pickSlot s 512 with
    | none => s
    | some (k, n) => setSlot (dequeue s n) k { getSlot s k with prn := some n, loading := true }

/-- the pronoun-table copy of a record cannot be read (14 R431, R436) -/
def copyBad (s : State) (n : Nat) : Bool := dramPoisoned s (prnStart s + 256 * n) 256
/-- what a lost record becomes: its table copy, or its settings alone (14 R436) -/
def lostRecord (s : State) (n : Nat) : Pron :=
  let p := getP s n
  let c : Pron := if copyBad s n then { autoStart := p.autoStart, runLevel := p.runLevel, retryLimit := p.retryLimit, affinity := p.affinity
                                        statusQueue := p.statusQueue, resumeMask := p.resumeMask, hostFn := p.hostFn
                                        startAddr := p.startAddr, binds := p.binds }
    else tget {} s.sched.table n
  { c with state := p.state, cur := none, script := none, wait := none, fin := none, unbinding := p.unbinding
           resetting := p.resetting, rerun := p.rerun, fenceDue := none }
/-- A record lost to an uncorrectable error: the pronoun goes CHECKED with DETAIL 0x84 (14 R436). -/
def recordLost (s : State) (n : Nat) : State :=
  if !(isBound (getP s n)) then s
  else
    let s := setP s n (lostRecord s n)
    stopCondition s n 0 0 0x84 0 (getP s n).ccwAddr

/-- a limit exceeded off the slot by a script's request is its program check (R104) -/
def limitCheck (s : State) (n : Nat) (d : Byte) : State :=
  let p := getP s n
  let c := ((p.cur.bind (·.items.getLast?)).map (·.addr)).getD p.ccwAddr
  programCheck (modP s n fun p => { p with limitDue := none }) n 0x0F d ((p.script.map (·.left)).getD 0) c
/-- A placed pronoun's record is loaded (R79, R114, R213; 14 R436). -/
def loadDone (s : State) (k : Nat) : State :=
  let x := getSlot s k
  match x.prn with
  | none => s
  | some n =>
    if !x.loading then s
    else
      let lost := !(cached s n) && copyBad s n
      let s := if cached s n then { s with sched := { s.sched with hits := s.sched.hits + 1 } }
               else { s with sched := { s.sched with misses := s.sched.misses + 1 } }
      let s := setSlot (cacheTake s n) k { x with loading := false }
      let s := modP s n fun p =>
        { p with state := if p.state == .queued then .active else p.state
                 script := p.script.map fun sc => if sc.left = 0 then { sc with left := sc.count } else sc }
      if lost then recordLost s n
      else match (getP s n).fenceDue, doomedRerun s n, (getP s n).limitDue with
      | some d, _, _ => fenceAct s n d
      | none, some x, _ => abortAct s n x
      | none, none, some d => limitCheck s n d
      | none, none, none => s

end Sys2Proof.Machine
end

