-- ==== Sys2Proof/Machine/Devices.lean ====
section
/-!
DEFINITION. Quads, ports and device operations (08_link_quads.md): counters, the verb mapping of Table 8-20, and how an
operation is handed to an NVMe queue, a ring, a MAC or a KDL link.
-/

namespace Sys2Proof.Machine

/-! ### Quads and counters (R274) -/

def getQ (s : State) (q : Nat) : Quad := tget {} s.lk.quads q
def setQ (s : State) (q : Nat) (x : Quad) : State := { s with lk := { s.lk with quads := tset {} q x s.lk.quads } }
def getPort (s : State) (q p : Nat) : Port := tget {} (getQ s q).ports p
def setPort (s : State) (q p : Nat) (x : Port) : State :=
  let qq := getQ s q
  setQ s q { qq with ports := tset {} p x qq.ports }
def modPort (s : State) (q p : Nat) (f : Port → Port) : State := setPort s q p (f (getPort s q p))
def modPP (s : State) (q p : Nat) (f : PPort → PPort) : State := modPort s q p fun x => { x with pp := f x.pp }
def modEP (s : State) (q p : Nat) (f : EPort → EPort) : State := modPort s q p fun x => { x with ep := f x.ep }
def modKP (s : State) (q p : Nat) (f : KPort → KPort) : State := modPort s q p fun x => { x with kp := f x.kp }
def portUp (x : Port) : Bool := x.state == 4 || x.state == 5 || x.state == 6

/-- a counter's width is 48 bits (Table 8-23) -/
def wideCtr (profile i : Nat) : Bool :=
  (profile == 1 && i == 0) || (profile == 2 && decide (i ≤ 3)) || (profile == 3 && decide (i ≤ 1))
/-- it pulses the error source when it first becomes nonzero after a read -/
def pulsesCtr (profile i : Nat) : Bool := (profile == 1) || !(wideCtr profile i)
/-- where a port keeps counter i of a profile: each profile has its own -/
def ctrAt (profile i : Nat) : Nat := 32 * profile + i
/-- counter i of a port rises by n (R274) -/
def countBy (s : State) (q p i n : Nat) : State :=
  let pr := (getQ s q).profile.toNat
  let x := getPort s q p
  let old := tget 0 x.ctr (ctrAt pr i)
  let new := if wideCtr pr i then (old + n) % 2 ^ 48 else min (old + n) (2 ^ 32 - 1)
  let s := setPort s q p { x with ctr := tset 0 (ctrAt pr i) new x.ctr }
  let s := if !(wideCtr pr i) && old != new && new == 2 ^ 32 - 1 then pulse s 301 else s
  if old = 0 ∧ new ≠ 0 ∧ pulsesCtr pr i then pulse s (32 + q) else s
def count (s : State) (q p i : Nat) : State := countBy s q p i 1

/-- ports of an arrangement (Table 8-2) -/
def portsOf (profile arrange : Nat) : Nat :=
  match profile, arrange with
  | 1, 0 => 1 | 1, 1 => 2 | 1, 2 => 4
  | 2, 0 => 4 | 2, 1 => 4 | 2, 2 => 1
  | 3, 0 => 4
  | _, _ => 0
/-- PROFILE, ARRANGE and FEC form a row of Table 8-2 (R234) -/
def arrangeLegal (profile arrange fec : Nat) : Bool :=
  match profile, arrange with
  | 0, 0 => fec == 0
  | 1, 0 => fec == 0 | 1, 1 => fec == 0 | 1, 2 => fec == 0
  | 2, 0 => decide (fec ≤ 1) | 2, 1 => decide (fec ≤ 2) | 2, 2 => fec == 2
  | 3, 0 => fec == 0
  | _, _ => false

/-! ### Bindings (03 R62, Table 3-5) -/

def bindOf (p : Pron) (i : Nat) : BitVec 128 := p.binds.extractLsb' (128 * i) 128
def bKind (b : BitVec 128) : Nat := bitsAt b 0 8
def bQuad (b : BitVec 128) : Nat := bitsAt b 8 5
def bPort (b : BitVec 128) : Nat := bitsAt b 16 2
def bQueue (b : BitVec 128) : Nat := bitsAt b 24 8
def bTarget (b : BitVec 128) : Nat := bitsAt b 32 32
def bParam (b : BitVec 128) : Nat := bitsAt b 64 64
def kindProfile (k : Nat) : Nat := match k with | 1 => 1 | 2 => 1 | 3 => 2 | 4 => 2 | 5 => 3 | _ => 0

def flowEntryAt (s : State) (e : Nat) : Nat := s.lk.flowBase.toNat * 0x4000000 + 64 * e
def bucketAt (x : EPort) (b : Nat) : Nat := x.bucketBase.toNat * 0x40000 + 4 * b
/-- RESULT of the flow entry or bucket a binding names (Table 8-11) -/
def flowResult (s : State) (b : BitVec 128) : Word :=
  if bKind b = 3 then BitVec.ofNat 32 (ofLE (getBytes s.mem.dram (flowEntryAt s (bTarget b) + 44) 4))
  else if bKind b = 4 then
    BitVec.ofNat 32 (ofLE (getBytes s.mem.dram (bucketAt (getPort s (bQuad b) (bPort b)).ep (bTarget b % 65536)) 4))
  else 0
def resPron (w : Word) : Nat := bitsAt w 0 20
def resValid (w : Word) : Bool := w.getLsbD 20
def resPrefix (w : Word) : Bool := w.getLsbD 21
def resFixup (w : Word) : Bool := w.getLsbD 22
def resOff (w : Word) : Nat := bitsAt w 24 8

def nsOf (s : State) (b : BitVec 128) : Option NsEntry :=
  (getPort s (bQuad b) (bPort b)).pp.spaces.find? fun n => n.nsid == bTarget b
def ringOf (s : State) (b : BitVec 128) : Option Ring := aget (getPort s (bQuad b) (bPort b)).pp.rings (bQueue b)
def rgFunction (e : BitVec 384) : Nat := bitsAt e 0 3
def rgDescShift (e : BitVec 384) : Nat := bitsAt e 8 8
def rgMode (e : BitVec 384) : Nat := bitsAt e 16 8
def rgCompShift (e : BitVec 384) : Nat := bitsAt e 24 8
def rgEntries (e : BitVec 384) : Nat := bitsAt e 32 16
def rgFlagBit (e : BitVec 384) : Nat := bitsAt e 48 16
def rgBase (e : BitVec 384) : Nat := bitsAt e 64 64
def rgCompBase (e : BitVec 384) : Nat := bitsAt e 128 64
def rgDbBar (e : BitVec 384) : Nat := bitsAt e 192 8
def rgStBar (e : BitVec 384) : Nat := bitsAt e 200 8
def rgErrBit (e : BitVec 384) : Nat := bitsAt e 208 16
def rgDbOff (e : BitVec 384) : Nat := bitsAt e 224 32
def rgStOff (e : BitVec 384) : Nat := bitsAt e 256 32
def rgStSize (e : BitVec 384) : Nat := bitsAt e 288 16
def rgCompVec (e : BitVec 384) : Nat := bitsAt e 304 16
def rgAttnVec (e : BitVec 384) : Nat := bitsAt e 320 16

/-! ### The verb mapping (R269, Table 8-20) -/

/-- What a verb becomes on a binding: a program check, or the range of its COUNT and whether it is irrevocable. -/
inductive VerbMap where
  | bad (code : Byte)
  /-- not supported by the binding, 0x09, with the range of its COUNT: a lower code is still found (R46) -/
  | no (lo hi mult off : Nat)
  | ok (lo hi mult off : Nat) (irrev : Bool)
deriving DecidableEq, Repr
/-- a verb the binding supports on this condition -/
def VerbMap.onlyIf (c : Bool) : VerbMap → VerbMap
  | .ok lo hi m o i => if c then .ok lo hi m o i else .no lo hi m o
  | x => x

/-- block bytes limit: 1 MiB and the drive's MDTS -/
def nvLimit (x : PPort) : Nat :=
  match x.device with
  | some d => if d.mdts = 0 then 1048576 else min 1048576 (4096 * 2 ^ d.mdts.toNat)
  | none => 1048576

def mapNvme (s : State) (b : BitVec 128) (verb sub : Nat) (ell idx : Bool) : VerbMap :=
  let n := nsOf s b
  let bs := (n.map fun n => 2 ^ n.shift).getD 1
  let lim := (nvLimit (getPort s (bQuad b) (bPort b)).pp / bs) * bs
  VerbMap.onlyIf n.isSome (match verb with
    | 0x21 =>
      if sub = 0 ∨ sub = 2 then (VerbMap.ok bs lim bs 0 false).onlyIf ((n.map (·.append)).getD false)
      else if sub = 1 ∨ sub = 3 then .ok (8 + bs) (8 + lim) bs 8 false else .bad 0x08
    | 0x22 => if sub = 0 then (VerbMap.ok bs lim bs 0 false).onlyIf (!(ell || idx)) else .bad 0x08
    | 0x31 =>
      if sub = 0 then .ok 0 0 1 0 false else if sub = 1 ∨ sub = 2 then .ok 16 16 1 0 false
      else if sub = 0x10 ∨ sub = 0x11 ∨ sub = 0x12 then .ok 24 24 1 0 true else .bad 0x08
    | _ =>
      if sub = 0 then .ok 1 512 1 0 false else if sub = 1 then .ok 64 4096 64 0 false
      else if sub = 2 then .ok 4 4096 4 0 false else if sub = 3 then .ok 1 4096 1 0 false else .bad 0x08)

def mapRing (s : State) (b : BitVec 128) (verb sub : Nat) : VerbMap :=
  let e := ((ringOf s b).map (·.entry)).getD 0
  let present := (ringOf s b).isSome
  let desc := if present then 2 ^ rgDescShift e else 64
  let comp := if present then (if rgMode e = 0 then 2 ^ rgCompShift e else desc) else 64
  let win := if present then rgStSize e else 256
  match verb with
  | 0x21 => if sub = 0 then .ok 1 desc 1 0 false else .bad 0x08
  | 0x22 => if sub = 0 then (VerbMap.ok 1 comp 1 0 false).onlyIf (!(present && rgMode e == 1)) else .bad 0x08
  | 0x31 =>
    if sub = 0 then .ok 16 16 1 0 false else if sub = 1 then .ok 8 8 1 0 true
    else if sub = 0x3F then .ok 0 0 1 0 true else .bad 0x08
  | _ => if sub = 0 then .ok 4 win 4 0 false else if sub = 1 then .ok 4 4096 4 0 false else .bad 0x08

def mapEth (flow : Word) (verb sub : Nat) (inClause : Bool) : VerbMap :=
  match verb with
  | 0x21 => if sub ≤ 1 then .ok 14 (if inClause && resPrefix flow then 9588 else 9596) 1 0 false else .bad 0x08
  | 0x22 => if sub ≤ 1 then .ok 1 9596 1 0 false else .bad 0x08
  | _ => .bad 0x09

def mapKdl (verb sub : Nat) : VerbMap :=
  match verb with
  | 0x31 => .ok 0 16777216 1 0 (decide (0x30 ≤ sub))
  | _ => .ok 1 16777216 1 0 false

def verbMap (s : State) (b : BitVec 128) (verb sub : Nat) (ell idx inClause : Bool) (flow : Word) : VerbMap :=
  match bKind b with
  | 1 => mapNvme s b verb sub ell idx
  | 2 => mapRing s b verb sub
  | 3 => mapEth flow verb sub inClause
  | 4 => mapEth flow verb sub inClause
  | 5 => mapKdl verb sub
  | _ => .bad 0x09

/-- CONTROL parameter values checked once the bytes have moved (R269, Table 8-20). -/
def paramsGood (kind sub : Nat) (d : List Byte) : Bool :=
  match kind, sub with
  | 1, 1 | 1, 2 => decide (1 ≤ ofLE (subBytes d 8 4)) && decide (ofLE (subBytes d 8 4) ≤ 65536) && ofLE (subBytes d 12 4) == 0
  | 1, 0x10 | 1, 0x11 | 1, 0x12 => ofLE (subBytes d 4 4) == 0
  | 2, 0 => decide (byteAt d 0 ≤ 5) && ofLE (subBytes d 1 3) == 0 && ofLE (subBytes d 4 4) % 4 == 0 && ofLE (subBytes d 12 4) == 0
  | 2, 1 => decide (ofLE (subBytes d 0 2) < 4096) && ofLE (subBytes d 0 2) % 4 == 0 && ofLE (subBytes d 2 2) == 0
  | _, _ => true

/-! ### Operations -/

def setOp (s : State) (o : DevOp) : State :=
  { s with lk := { s.lk with ops := s.lk.ops.map fun x => if x.id == o.id then o else x } }
def addOp (s : State) (o : DevOp) : State × Nat :=
  let id := s.lk.nextOp
  ({ s with lk := { s.lk with ops := s.lk.ops ++ [{ o with id := id }], nextOp := id + 1 } }, id)

/-- an operation's pages are free again when it is done (R241) -/
def freePages (s : State) (o : DevOp) : State :=
  if o.pages.isEmpty then s else modPP s o.q o.p fun x => { x with used := x.used.filter fun g => !(o.pages.contains g) }

/-- the bytes it received are still to be copied from its data buffer (R241) -/
def keepsBuffer (o : DevOp) : Bool := o.verb == 0x22 || o.verb == 0x23
/-- an operation ends with DEV_STATUS, DETAIL and residual (R249, R268, R272, R273) -/
def endOp (s : State) (o : DevOp) (dev det : Byte) (resid : Nat) : State :=
  let s := if keepsBuffer o then s else freePages s o
  let s := setOp s { o with stage := .ended dev det resid, pages := if keepsBuffer o then o.pages else [] }
  let pr := (getQ s o.q).profile.toNat
  if pr = 1 then
    if dev == devUnit then count s o.q o.p 1 else if dev == devBusy then count s o.q o.p 2
    else if dev == devTimeout then count s o.q o.p 3 else s
  else s

/-! ### Data buffers (R241) -/

def pageBytes : Nat := 4096
def regionStart (x : PPort) : Nat := x.base * 0x4000000
def regionEnd (x : PPort) : Nat := (x.base + x.size) * 0x4000000
def roundPage (n : Nat) : Nat := (n + 4095) / 4096 * 4096
/-- first byte after the port's queues (log entry 22) -/
def dataStart (x : PPort) : Nat :=
  x.pairs.foldl (fun m e => max m (roundPage (e.2.cqBase + 16 * e.2.entries))) (regionStart x)
def ringPages (x : PPort) : List Nat :=
  (x.rings.map fun e =>
    let r := e.2.entry
    let span (a n : Nat) : List Nat := (List.range ((a + n - 1) / 4096 + 1 - a / 4096)).map (· + a / 4096)
    span (rgBase r) (rgEntries r * 2 ^ rgDescShift r) ++
    (if rgMode r = 0 then span (rgCompBase r) (rgEntries r * 2 ^ rgCompShift r) else [])).flatten
/-- pages that transfers hold for operations not yet handed -/
def gathering (s : State) : List Nat := ((allTransfers s).map (·.pages)).flatten
/-- the lowest n free pages of the region, if there are so many -/
def allocPages (s : State) (q p n : Nat) : Option (List Nat) :=
  let x := (getPort s q p).pp
  let busy := x.used ++ ringPages x ++ gathering s
  let from_ := dataStart x / 4096
  let c := ((List.range (busy.length + n)).map (· + from_)).filter fun g =>
    !(busy.contains g) && decide ((g + 1) * 4096 ≤ regionEnd x)
  let c := c.take n
  if c.length = n then some c else none
/-- write bytes over pages in order -/
def putPages (s : State) : List Nat → List Byte → State
  | [], _ => s
  | g :: gs, l => putPages (writeDram s (g * 4096) (l.take 4096)) gs (l.drop 4096)
def getPages (s : State) (n : Nat) : List Nat → List Byte
  | [] => []
  | g :: gs => getBytes s.mem.dram (g * 4096) (min n 4096) ++ getPages s (n - 4096) gs

def markUsed (s : State) (q p : Nat) (l : List Nat) : State :=
  modPP s q p fun x => { x with used := x.used ++ l.filter fun g => !(x.used.contains g) }
/-- An operation with n pages for its data buffer, its own or new ones; none while a page is wanting (R241). -/
def withPages (s : State) (o : DevOp) (n : Nat) : Option (State × DevOp) :=
  if n = 0 ∨ !o.pages.isEmpty then some (s, o)
  else (allocPages s o.q o.p n).map fun l => (markUsed s o.q o.p l, { o with pages := l })

/-! ### NVMe (R243 to R249) -/

/-- bytes the command's data buffer holds -/
def nvBytes (o : DevOp) : Nat :=
  if !o.cmd.isEmpty then (if o.opcode = 0x06 then 4096 else 0)
  else if o.verb = 0x21 then o.data.length else if o.verb = 0x31 then o.data.length
  else if o.qid = 0 ∧ o.mod = 3 then 4096 else o.count
/-- pages for n bytes: the data, and a PRP list for more than two -/
def nvPages (n : Nat) : Nat := let k := (n + 4095) / 4096; if 2 < k then k + 1 else k

/-- The submission queue entry (R248). -/
def nvEntry (o : DevOp) (fnBlocks : Nat) (list : Option Nat) : List Byte :=
  let prp1 := (o.pages.headD 0) * 4096
  let prp2 := match list with
    | some g => g * 4096
    | none => if 2 ≤ o.pages.length then (o.pages.getD 1 0) * 4096 else 0
  let tag := (o.tag.getD 0).toNat
  let cdw10_15 : List Byte :=
    if o.qid = 0 then
      (if o.mod = 3 then toLE 4 0 else toLE 4 ((if o.mod = 0 then 2 else 1) + ((o.count + 3) / 4 - 1) * 65536)) ++ List.replicate 20 0
    else match o.opcode.toNat with
      | 0x00 => List.replicate 24 0
      | 0x01 | 0x02 => toLE 8 o.lba ++ toLE 4 (fnBlocks - 1 + (if o.fua then 2 ^ 30 else 0)) ++ List.replicate 12 0
      | 0x08 => toLE 8 o.lba ++ toLE 4 (fnBlocks - 1) ++ List.replicate 12 0
      | 0x09 => toLE 4 0 ++ toLE 4 4 ++ List.replicate 16 0
      | 0x0E => toLE 4 (o.count / 4 - 1) ++ List.replicate 20 0
      | _ => toLE 4 o.lba ++ List.replicate 20 0
  let nsid := if o.qid = 0 ∧ o.mod ≠ 3 ∧ o.cmd.isEmpty then 0xFFFFFFFF else bTarget o.bind
  [o.opcode, 0] ++ toLE 2 o.cid ++ toLE 4 nsid ++ toLE 8 tag ++ List.replicate 8 0
    ++ (if o.cmd.isEmpty then toLE 8 prp1 ++ toLE 8 prp2 ++ cdw10_15
        else (if o.pages.isEmpty then o.cmd.take 8 else toLE 8 prp1) ++ o.cmd.drop 8)

/-- The command placed in its queue, its data in the data buffer; none while a page or a queue entry is wanting. -/
def nvSubmit (s : State) (o : DevOp) : Option State :=
  let x := (getPort s o.q o.p).pp
  match aget x.pairs o.qid with
  | none => none
  | some k =>
    if (k.sqTail + 1) % k.entries = k.sqHead then none
    else
      let need := (nvBytes o + 4095) / 4096
      match withPages s o (nvPages (nvBytes o)) with
      | none => none
      | some (s, o) =>
        let pages := o.pages
        let data := pages.take need
        let list := if 2 < need then pages[need]? else none
        let o := { o with pages := data, cid := k.nextCid, stage := .issued }
        let s := putPages s data o.data
        let s := match list with
          | some g => writeDram s (g * 4096) ((data.drop 1).map fun d => toLE 8 (d * 4096)).flatten
          | none => s
        let s := writeDram s (k.sqBase + 64 * k.sqTail) (nvEntry o o.blocks list)
        let tail := (k.sqTail + 1) % k.entries
        let s := modPP s o.q o.p fun x =>
          { x with pairs := aset o.qid { k with sqTail := tail, nextCid := (k.nextCid + 1) % 65536 } x.pairs }
        let s := setOp s { o with pages := pages }
        let s := emit s (.barWrite o.q o.p ((x.device.bind (·.nvme)).map (·.toNat) |>.getD 0) 0
          (0x1000 + 8 * o.qid) (BitVec.ofNat 32 tail))
        some (if o.qid = 0 then s else count s o.q o.p 0)

/-! ### Rings (R250, R251) -/

/-- A descriptor posted; none while the ring is full. -/
def ringPost (s : State) (o : DevOp) : Option State :=
  let n := bQueue o.bind
  match aget (getPort s o.q o.p).pp.rings n with
  | none => none
  | some r =>
    let e := r.entry
    if rgEntries e ≤ r.busy then none
    else match withPages s o 1 with
    | none => none
    | some (s, o) =>
      let sz := 2 ^ rgDescShift e
      let s := writeDram s (rgBase e + sz * r.prod) (padTo sz o.data)
      let next := (r.prod + 1) % rgEntries e
      let dropped := r.unread.any fun u => u.1 == r.prod
      let r' := { r with prod := next, busy := r.busy + 1, unread := r.unread.filter fun u => u.1 != r.prod }
      let s := modPP s o.q o.p fun x => { x with rings := aset n r' x.rings }
      let s := setOp s { o with cid := r.prod, stage := .issued }
      let s := if dropped then count s o.q o.p 9 else s
      let s := emit s (.barWrite o.q o.p (rgFunction e) (rgDbBar e) (rgDbOff e) (BitVec.ofNat 32 next))
      some (count s o.q o.p 0)

/-- READ 0x00: the oldest done descriptor no READ has taken, in the operation's buffer (R251); with none it ends empty. -/
def ringTake (s : State) (o : DevOp) : State :=
  let u := ((aget (getPort s o.q o.p).pp.rings (bQueue o.bind)).map (·.unread)).getD []
  let s := modPP s o.q o.p fun x =>
    { x with rings := x.rings.map fun e => if e.1 == bQueue o.bind then (e.1, { e.2 with unread := e.2.unread.drop 1 }) else e }
  let l := (u.head?.map (·.2)).getD []
  endOp s { o with rx := l.take o.count, long := decide (o.count < l.length) } devDone 0 0
/-- Requests a port issues itself: BAR and configuration writes, reset, status window and configuration reads. -/
def ringSend (s : State) (o : DevOp) : State :=
  let e := ((aget (getPort s o.q o.p).pp.rings (bQueue o.bind)).map (·.entry)).getD 0
  let f := rgFunction e
  let s := setOp s { o with stage := .issued }
  match o.verb.toNat, o.mod with
  | 0x31, 0 => emit s (.barWrite o.q o.p f (byteAt o.data 0) (ofLE (subBytes o.data 4 4)) (BitVec.ofNat 32 (ofLE (subBytes o.data 8 4))))
  | 0x31, 1 => emit s (.devRequest o.q o.p f 1 (ofLE (subBytes o.data 0 2)) (BitVec.ofNat 32 (ofLE (subBytes o.data 4 4))))
  | 0x31, _ => emit s (.devRequest o.q o.p f 2 0 0)
  | _, 0 => emit s (.barRead o.q o.p f (rgStBar e) (rgStOff e) o.count)
  | _, _ => emit s (.devRequest o.q o.p f 4 0 (BitVec.ofNat 32 o.count))
/-- a ring function's operation other than a post, once it has its buffer (R241) -/
def ringRequest (s : State) (o : DevOp) : Option State :=
  (withPages s o (if o.count = 0 then 0 else 1)).map fun (s, o) => if o.verb = 0x22 then ringTake s o else ringSend s o

/-! ### Ethernet transmit (R253, R254) -/

/-- the highest queue below n that holds a frame and is not paused -/
def nextTx (x : EPort) : Nat → Option Nat
  | 0 => none
  | n + 1 => if !(tget [] x.txq n).isEmpty && !(x.paused.getLsbD n) then some n else nextTx x n
/-- the MAC starts its next frame if it is idle -/
def startTx (s : State) (q p : Nat) : State :=
  let pt := getPort s q p
  if pt.ep.sending.isSome || !(portUp pt) || isFenced s then s
  else match nextTx pt.ep 8 with
    | none => s
    | some n =>
      match tget [] pt.ep.txq n with
      | [] => s
      | f :: rest => modEP s q p fun x => { x with sending := some f, txq := tset [] n rest x.txq }
/-- the frame as it leaves: tag bytes, checksums, padding -/
def buildFrame (o : DevOp) (flow : Word) : List Byte :=
  let f := match o.tag with
    | some t => if resPrefix flow then insertTag o.data t o.replay (resFixup flow) (resOff flow) else o.data
    | none => o.data
  padFrame (if o.mod = 1 then setSums f else f)
def ethQueue (s : State) (o : DevOp) (flow : Word) : State :=
  let s := modEP s o.q o.p fun x => { x with txq := tmod [] (bQueue o.bind % 8) (· ++ [(o.id, buildFrame o flow)]) x.txq }
  startTx (setOp s { o with stage := .issued }) o.q o.p

/-! ### KDL transmit (R263 to R267) -/

/-- the 24 bytes of a frame's header (Table 8-17) -/
def kdlHeader (f : KdlFrame) : List Byte :=
  [f.type, f.flags] ++ toLE 2 f.seqVc.toNat ++ toLE 2 f.length.toNat ++ [f.device, f.verb, f.mod, f.index] ++ toLE 2 f.opId.toNat
    ++ toLE 4 f.value.toNat ++ toLE 6 f.tag.toNat ++ [f.detail, f.last]
/-- the CRC-32C of header and payload (R263) -/
def kdlCrc (f : KdlFrame) : Word := crc32c (kdlHeader f ++ f.payload)
def kdlGood (f : KdlFrame) : Bool := f.crc == kdlCrc f
/-- a frame as it lies in the data blocks -/
def kdlImage (f : KdlFrame) : List Byte := kdlHeader f ++ f.payload ++ toLE 4 (kdlCrc f).toNat
def sendKdl (s : State) (q p : Nat) (f : KdlFrame) : State := emit s (.kdl q p (kdlImage f))
def kdlSequenced (t : Byte) : Bool := decide (1 ≤ t.toNat) && decide (t.toNat ≤ 5)
def frameVc (f : KdlFrame) : Nat := bitsAt f.seqVc 12 2
def frameSeq (f : KdlFrame) : BitVec 12 := f.seqVc.extractLsb' 0 12
def frameCost (f : KdlFrame) : Nat := (28 + f.length.toNat + 63) / 64
def frameSize (f : KdlFrame) : Nat := 28 + f.length.toNat
/-- credit for a frame (R266) -/
def creditFor (k : KPort) (f : KdlFrame) : Bool :=
  let d := (tget 0 k.limit (frameVc f)) - (tget 0 k.used (frameVc f))
  decide (d.toNat < 2 ^ 31) && decide (frameCost f ≤ d.toNat)
/-- room in the 64 KiB replay buffer and among 2,048 unacknowledged frames (R264) -/
def replayRoom (k : KPort) (f : KdlFrame) : Bool :=
  decide (k.replay.length < 2048) && decide ((k.replay.map frameSize).sum + frameSize f ≤ 65536)
/-- one frame sent, or none; frames of one channel keep their order -/
def kdlSendOne (s : State) (q p : Nat) (f : KdlFrame) : State :=
  let k := (getPort s q p).kp
  let f := { f with seqVc := BitVec.ofNat 16 (k.txSeq.toNat + 4096 * frameVc f) }
  let s := modKP s q p fun k => { k with txSeq := wrapInc k.txSeq, replay := k.replay ++ [f]
                                         used := tmod 0 (frameVc f) (· + BitVec.ofNat 32 (frameCost f)) k.used }
  count (sendKdl s q p f) q p 0
def kdlPumpList (q p : Nat) : State → List Nat → List KdlFrame → State
  | s, _, [] => s
  | s, blocked, f :: fs =>
    let k := (getPort s q p).kp
    if !(blocked.contains (frameVc f)) && creditFor k f && replayRoom k f then kdlPumpList q p (kdlSendOne s q p f) blocked fs
    else kdlPumpList q p (modKP s q p fun k => { k with waiting := k.waiting ++ [f] }) (frameVc f :: blocked) fs
/-- waiting frames are sent while credit and the replay buffer allow, in ACTIVE -/
def kdlPump (s : State) (q p : Nat) : State :=
  let x := getPort s q p
  if x.state != 4 || isFenced s then s
  else kdlPumpList q p (modKP s q p fun k => { k with waiting := [] }) [] x.kp.waiting
def kdlEnqueue (s : State) (q p : Nat) (l : List KdlFrame) : State :=
  kdlPump (modKP s q p fun k => { k with waiting := k.waiting ++ l }) q p

def kdlVerb (verb : Byte) : Byte := match verb.toNat with | 0x21 => 1 | 0x22 => 2 | 0x31 => 3 | _ => 4
def dataFrames (vc dev op maxPay : Nat) : Nat → Nat → List Byte → List KdlFrame
  | 0, _, _ => []
  | f + 1, o, l =>
    if l.isEmpty then []
    else
      let part := l.take maxPay
      let rest := l.drop maxPay
      { type := 0x02, flags := if rest.isEmpty then 4 else 0, seqVc := BitVec.ofNat 16 (4096 * vc)
        length := BitVec.ofNat 16 part.length, device := BitVec.ofNat 8 dev, opId := BitVec.ofNat 16 op
        value := BitVec.ofNat 32 o, payload := part } :: dataFrames vc dev op maxPay f (o + part.length) rest
/-- an operation's frames, with a new OP_ID (R267) -/
def kdlFrames (o : DevOp) (maxPay : Nat) : List KdlFrame :=
  let vc := bQueue o.bind % 4
  let dev := bTarget o.bind % 256
  { type := 0x01, flags := BitVec.ofNat 8 (b2n o.replay + 2 * b2n o.tag.isSome), seqVc := BitVec.ofNat 16 (4096 * vc)
    device := BitVec.ofNat 8 dev, verb := kdlVerb o.verb, mod := BitVec.ofNat 8 o.mod, index := o.index
    opId := BitVec.ofNat 16 o.cid, value := BitVec.ofNat 32 o.count, tag := o.tag.getD 0 }
    :: dataFrames vc dev o.cid maxPay (o.data.length + 1) 0 o.data
def portOps (s : State) (q p : Nat) : List DevOp := s.lk.ops.filter fun o => o.q == q && o.p == p && !(isEnded o)
/-- the next OP_ID no outstanding operation of the port has, from n on -/
def freeOpId (busy : List Nat) : Nat → Nat → Nat
  | 0, n => n % 65536
  | f + 1, n => if busy.contains (n % 65536) then freeOpId busy f (n + 1) else n % 65536
def kdlIssue (s : State) (o : DevOp) : Option State :=
  let live := (portOps s o.q o.p).filter fun x => x.kind == .kdl && x.stage == .issued
  if 1024 ≤ live.length then none
  else
    let k := (getPort s o.q o.p).kp
    let id := freeOpId (live.map (·.cid)) (live.length + 1) k.nextOp.toNat
    let o := { o with cid := id, stage := .issued }
    let s := modKP (setOp s o) o.q o.p fun k => { k with nextOp := BitVec.ofNat 16 (id + 1) }
    some (kdlEnqueue s o.q o.p (kdlFrames o (max 1 k.maxPay)))

/-! ### Handing an operation to its port -/

/-- frames queued for a pronoun, in arrival order (R260) -/
def framesFor (s : State) (n : Nat) : List RxFrame := s.lk.rx.filter fun f => f.prn == n
def dropFrame (l : List RxFrame) (n : Nat) : List RxFrame :=
  match l with
  | [] => []
  | f :: t => if f.prn == n then t else f :: dropFrame t n
def setRx (s : State) (l : List RxFrame) : State := { s with lk := { s.lk with rx := l } }

/-- cells of a quad's receive buffer in use -/
def cellsUsed (s : State) (q : Nat) : Nat := ((s.lk.rx.filter fun f => f.q == q).map fun f => (f.bytes.length + 255) / 256).sum
/-- a PAUSE frame, or a PFC frame, on every port of the quad that is up (R260) -/
def sendPause (s : State) (q time : Nat) : State :=
  (List.range 4).foldl (fun s p =>
    if portUp (getPort s q p) then count (emit s (.pause q p ((getQ s q).pause == 2) time)) q p 16 else s) s
/-- the receive buffer has fallen to 2,048 cells: pause time zero -/
def relieve (s : State) (q : Nat) : State :=
  let x := getQ s q
  if x.xoff && decide (cellsUsed s q ≤ 2048) then sendPause (setQ s q { x with xoff := false }) q 0 else s
/-- one attempt to issue a queued operation; unchanged while something is wanting (R249, R251, R267) -/
def tryIssue (s : State) (o : DevOp) (flow : Word) : State :=
  if isFenced s then s else match o.kind with
  | .nvme => (nvSubmit s o).getD s
  | .ring => ((if o.verb = 0x21 then ringPost s o else ringRequest s o)).getD s
  | .eth => ethQueue s o flow
  | .kdl => (kdlIssue s o).getD s

/-- An operation is issued: to a port that is not up it ends with TIMEOUT 0xF0 (R273). -/
def issueOp (s : State) (o : DevOp) (flow : Word) : State × Nat :=
  let (s, id) := addOp s o
  let o := { o with id := id }
  if !(portUp (getPort s o.q o.p)) then (endOp s o devTimeout 0xF0 o.count, id)
  else (tryIssue s o flow, id)

/-- An admin command the firmware issues itself (R244): bytes 24 to 63 of its entry. Nobody waits for its result. -/
def fwAdmin (s : State) (q p : Nat) (opcode : Byte) (nsid : Nat) (prp1 : Nat) (dws : List Nat) : State :=
  let o : DevOp := { id := 0, q := q, p := p, kind := .nvme, owner := .loose, verb := 0x31, mod := 0, bind := BitVec.ofNat 128 (nsid * 2 ^ 32)
                     count := 0, opcode := opcode
                     cmd := toLE 8 prp1 ++ List.replicate 8 0 ++ padTo 24 (dws.map fun w => toLE 4 w).flatten }
  (issueOp s o 0).1

/-- operations of a port still waiting for an entry, in order -/
def retryQueued (s : State) (q p : Nat) : State :=
  if !(portUp (getPort s q p)) then s
  else ((portOps s q p).filter fun o => o.stage == .queued && o.kind != .eth).foldl (fun s o => tryIssue s o 0) s
/-- an operation leaves the list: its data buffer is free, and operations that waited try again -/
def dropOp (s : State) (o : DevOp) : State := retryQueued (delOp s o.id) o.q o.p
def dropOpOf (s : State) (id : Option Nat) : State :=
  match id.bind (getOp s) with
  | some o => dropOp s o
  | none => s

/-- NVMe opcode, LBA and block count of an operation's data or parameters -/
def nvOpcode (verb : Byte) (sub : Nat) : Byte :=
  match verb.toNat with
  | 0x21 => 0x01
  | 0x22 => 0x02
  | 0x31 => match sub with | 0 => 0x00 | 1 => 0x08 | 2 => 0x09 | 0x10 => 0x0D | 0x11 => 0x11 | _ => 0x15
  | _ => match sub with | 2 => 0x0E | 3 => 0x06 | _ => 0x02

/-- An append takes its LBA (R247): the first block, with the cursor advanced. -/
def takeAppend (s : State) (b : BitVec 128) (blocks : Nat) : State × Nat :=
  match nsOf s b with
  | none => (s, 0)
  | some n =>
    let wrap := decide (n.blocks < n.cursor + blocks)
    let at_ := if wrap then 0 else n.cursor
    let q := bQuad b; let p := bPort b
    let s := modPP s q p fun x => { x with spaces := x.spaces.map fun e =>
      if e.nsid == n.nsid then { e with cursor := at_ + blocks } else e }
    (if wrap then count s q p 8 else s, n.base + at_)

/-- The staged image of an operation (R271, Table 8-21). -/
def opImage (s : State) (b : BitVec 128) (verb : Byte) (sub count : Nat) (data : List Byte) (flow : Word) : BitVec 128 :=
  match bKind b with
  | 1 =>
    let bs := 2 ^ ((nsOf s b).map (·.shift)).getD 9
    let addressed := verb = 0x21 ∧ (sub = 1 ∨ sub = 3)
    let blocks := if verb = 0x21 then (if addressed then data.length - 8 else data.length) / bs else ofLE (subBytes data 8 4)
    let lba := if verb = 0x21 ∧ !addressed then 0 else (ofLE (subBytes data 0 8) + bParam b) % 2 ^ 64
    let lba := if verb = 0x31 ∧ sub = 0 then 0 else lba
    let blocks := if verb = 0x31 ∧ sub = 0 then 0 else blocks
    BitVec.ofNat 128 (sub + (nvOpcode verb sub).toNat * 2 ^ 8 + blocks % 2 ^ 32 * 2 ^ 32 + lba * 2 ^ 64)
  | 3 | 4 => BitVec.ofNat 128 (sub + (b2n (resPrefix flow) + 2 * b2n (resFixup flow)) * 2 ^ 8 + resOff flow * 2 ^ 16)
  | 5 => BitVec.ofNat 128 (sub + (kdlVerb verb).toNat * 2 ^ 8 + count * 2 ^ 32)
  | _ => BitVec.ofNat 128 sub

/-- The data an operation puts on its medium: an addressed NVMe WRITE drops its LBA bytes; Deallocate sends its range. -/
def opData (b : BitVec 128) (verb : Byte) (sub : Nat) (data : List Byte) : List Byte :=
  if bKind b = 1 then
    if verb = 0x21 ∧ (sub = 1 ∨ sub = 3) then data.drop 8
    else if verb = 0x31 ∧ sub = 2 then toLE 4 0 ++ subBytes data 8 4 ++ toLE 8 (ofLE (subBytes data 0 8) + bParam b)
    else if verb = 0x31 ∧ 0x10 ≤ sub then data.drop 8
    else if verb = 0x31 then []
    else data
  else data

/-- The operation a WRITE or CONTROL hands, from its image and data; an append outside a clause has its LBA here. -/
def makeOp (b : BitVec 128) (owner : OpOwner) (verb : Byte) (sub cnt : Nat) (image : BitVec 128) (data : List Byte) : DevOp :=
  let kind : OpKind := match bKind b with | 1 => .nvme | 2 => .ring | 5 => .kdl | _ => .eth
  { id := 0, q := bQuad b, p := bPort b, kind := kind, owner := owner, verb := verb, mod := sub, bind := b, count := cnt
    data := opData b verb sub data
    qid := if verb = 0x23 ∧ sub ≠ 2 then 0 else bQueue b
    opcode := nvOpcode verb sub
    lba := if verb = 0x31 ∧ 0x10 ≤ sub then ofLE (subBytes data 0 4) else bitsAt image 64 64
    blocks := bitsAt image 32 32
    fua := verb = 0x21 ∧ (sub = 2 ∨ sub = 3) }

/-- RESULT's flags as an Ethernet image holds them -/
def imageFlow (image : BitVec 128) : Word :=
  BitVec.ofNat 32 (2 ^ 20 + (bitsAt image 8 2) * 2 ^ 21 + (bitsAt image 16 8) * 2 ^ 24)

end Sys2Proof.Machine
end

