-- ==== Sys2Proof/Machine/Mailboxes.lean ====
section
/-!
DEFINITION. Mailbox posts and acknowledgements (10 R324 to R331), and what a SIGNAL does (02 R35, 10 R303).
-/

namespace Sys2Proof.Machine

def getMbx (s : State) (m : Nat) : Mbx := tget {} s.evt.mbx m
def setMbx (s : State) (m : Nat) (x : Mbx) : State :=
  { s with evt := { s.evt with mbx := tset {} m x s.evt.mbx } }
def epochOf (s : State) (who : Master) : BitVec 16 := tget 0 s.evt.epochs who.toNat
/-- a CE's buffer of mailbox m in local memory (Table 10-9) -/
def ceBuffer (ce : Nat) (m : Nat) : Nat := ce * 0x20000 + 0x1F800 + 32 * m
def mbxBytes (x : Mbx) : List Byte := toLE 32 x.data.toNat

/-- a MAILBOX message to the twin (11 R339) -/
def twinMail (s : State) (m : Nat) (ack : Bool) : State :=
  twinSend s { type := 0x09, param := BitVec.ofNat 64 (m + if ack then 64 else 0)
               body := if ack then [] else mbxBytes (getMbx s m) }

/-- the crossing of R330: a full mailbox in the other direction -/
def crosses (x y : Mbx) : Bool := y.full && y.sender == x.receiver && y.receiver == x.sender
def crossMarks (s : State) (m : Nat) : State :=
  let x := getMbx s m
  let hit := (List.range 64).filter fun k => crosses x (getMbx s k)
  if hit.isEmpty then s
  else
    let s := (m :: hit).foldl (fun s k => setMbx s k { getMbx s k with crossed := true }) s
    pulse s 95

/-- what a post also does for a sleeping function receiver (R328) -/
def mbxWakeFn (s : State) (who : Master) : State :=
  if isFn who && (getFunc s (pfOf who)).d3hot && (getFunc s (pfOf who)).pmeEn then emit s (.pme (pfOf who)) else s

/-- An engine that sends first copies its buffer into DATA, unless the mailbox is FULL and its DATA frozen (R326). -/
def copyBuffer (s : State) (ce m : Nat) : State :=
  let x := getMbx s m
  if x.full then s else setMbx s m { x with data := BitVec.ofNat 256 (ofLE (getBytes s.mem.loc (ceBuffer ce m) 32)) }
/-- DATA as a post by the mailbox's sender finds it -/
def ceData (s : State) (m : Nat) : State :=
  let x := getMbx s m
  if isCe x.sender then copyBuffer s (x.sender.toNat - 16) m else s
/-- A POST (R326, R328, R330); the sender was checked. -/
def mbxPostOp (s : State) (m : Nat) (fromTwin : Bool) : State :=
  let x := getMbx s m
  if x.full then setMbx s m { x with refused := true }
  else
    let s := setMbx s m { x with full := true, postEpoch := epochOf s x.sender, orphan := false, refused := false }
    let s := if isCe x.receiver then writeLoc s (ceBuffer (x.receiver.toNat - 16) m) (mbxBytes x) else s
    let s := crossMarks (pulse s (96 + m)) m
    let s := mbxWakeFn s x.receiver
    if x.receiver == 0x90 && !fromTwin then twinMail s m false else s

/-- An ACK (R327, R339). -/
def mbxAckOp (s : State) (m : Nat) (fromTwin : Bool) : State :=
  let x := getMbx s m
  if !x.full then s
  else
    let s := pulse (setMbx s m { x with full := false }) (160 + m)
    if x.sender == 0x90 && !fromTwin then twinMail s m true else s

/-- A reset of a master identity (R329). -/
def resetMaster (s : State) (who : Master) : State :=
  let s := { s with evt := { s.evt with epochs := tmod 0 who.toNat wrapInc s.evt.epochs } }
  (List.range 64).foldl (fun s m =>
    let x := getMbx s m
    if !(x.valid && x.full) then s
    else if x.receiver == who then pulse (setMbx s m { x with full := false, aborted := true }) (160 + m)
    else if x.sender == who then setMbx s m { x with orphan := true } else s) s

/-! ### SIGNAL -/

/-- the sources a SIGNAL on this engine may raise (R303) -/
def signalLegal (s : State) (ce : Nat) (n : Nat) : Bool :=
  if 512 ≤ n then decide (n ≤ 1022)
  else if 96 ≤ n ∧ n ≤ 159 then (getMbx s (n - 96)).valid && (getMbx s (n - 96)).sender.toNat == 16 + ce
  else if 160 ≤ n ∧ n ≤ 223 then (getMbx s (n - 160)).valid && (getMbx s (n - 160)).receiver.toNat == 16 + ce
  else false

/-- A SIGNAL takes effect (R35, R326). -/
def applySignal (s : State) (mod : Byte) (addr : Dword) (ce : Nat) : State :=
  if mod = 0 then
    let n := addr.toNat % 1024
    if 96 ≤ n ∧ n ≤ 159 then
      let m := n - 96
      mbxPostOp (copyBuffer s ce m) m false
    else if 160 ≤ n ∧ n ≤ 223 then mbxAckOp s (n - 160) false
    else pulse s n
  else (waitEvent s (addr.toNat % 2 ^ 20) (bitsAt addr 20 3)).1

end Sys2Proof.Machine
end

