-- ==== Sys2Proof/Machine/Serial.lean ====
section
/-!
DEFINITION. The byte layouts of clause records, effect descriptors and the commit save area (05 Tables 5-4 to 5-7) and
of the MIRROR message (11 Table 11-1).
-/

namespace Sys2Proof.Machine

def effKind : EffBody → Byte
  | .host _ => 1 | .dev _ _ => 2 | .ctm _ => 3 | .signal _ _ _ => 4 | .status _ => 5
def effStateCode : EffState → Byte
  | .pending => 0 | .issued => 1 | .done => 2
/-- the address a CTM effect carries: the CTM address within its region -/
def ctmBodyAddr (a : Dword) : Nat := 0x9000000000000000 + offOf a % shadowOff
/-- BODY, 32 bytes (Table 5-7) -/
def effBodyBytes : EffBody → List Byte
  | .host iova => padTo 32 (toLE 8 iova.toNat)
  | .dev _ image => padTo 32 (toLE 16 image.toNat)
  | .ctm a => padTo 32 (toLE 8 (ctmBodyAddr a))
  | .signal m a _ => padTo 32 (m :: List.replicate 7 0 ++ toLE 8 a.toNat)
  | .status w => toLE 32 w.toNat
/-- data saved for an effect: none once it is done (R140) -/
def effData (e : Effect) : List Byte := if e.state == .done then [] else e.data
/-- the 48-byte descriptor with its data at this offset -/
def effBytes (e : Effect) (off : Nat) : List Byte :=
  let b : Byte := match e.body with | .dev b _ => b.setWidth 8 | _ => 0
  let o := if (effData e).isEmpty then 0xFFFFFFFF else off
  [effKind e.body, effStateCode e.state, if e.bar then 1 else 0, b] ++ toLE 4 e.data.length ++ effBodyBytes e.body ++ toLE 4 o
    ++ [0, 0, 0, 0]
/-- descriptors of a list of effects, their data packed from this offset on -/
def effList (off : Nat) : List Effect → List Byte × List Byte
  | [] => ([], [])
  | e :: es =>
    let d := effData e
    let r := effList (off + d.length) es
    (effBytes e off ++ r.1, d ++ r.2)
/-- the 96-byte clause record (Table 5-6) -/
def clauseBytes (c : NClause) : List Byte :=
  toLE 8 c.number ++ toLE 4 (c.prn + b2n c.mirrored * 2 ^ 20) ++ toLE 2 c.effects.length ++ [c.hostFn, 0] ++ toLE 4 c.staged
    ++ toLE 2 c.sq ++ [0, 0] ++ toLE 8 c.clb.toNat ++ toLE 64 c.binds.toNat
/-- clause region and data region of a save (Table 5-4) -/
def saveRegions (off : Nat) : List NClause → List Byte × List Byte
  | [] => ([], [])
  | c :: cs =>
    let d := effList off c.effects
    let r := saveRegions (off + d.2.length) cs
    (clauseBytes c ++ d.1 ++ r.1, d.2 ++ r.2)
/-- lost list entries -/
def lostBytes (l : List (Nat × Dword)) : List Byte :=
  (l.map fun e => toLE 4 e.1 ++ [0, 0, 0, 0] ++ toLE 8 e.2.toNat).flatten
/-- header bytes 0x0C to 0x7F (Table 5-5) -/
def saveHead (v : Save) (clauseLen dataLen : Nat) : List Byte :=
  toLE 2 1 ++ [v.cause, BitVec.ofNat 8 (b2n v.paired + 2 * b2n v.peerLost)]
    ++ toLE 8 ((v.clauses.head?.map (·.number)).getD 0) ++ toLE 8 ((v.clauses.getLast?.map (·.number)).getD 0)
    ++ toLE 4 v.clauses.length ++ toLE 2 v.lost.length ++ [0, 0] ++ toLE 4 clauseLen ++ toLE 4 dataLen
    ++ toLE 8 v.tick.toNat ++ toLE 8 v.limit ++ List.replicate 64 0
/-- the used bytes of a save area, with its CRC (R141) -/
def saveBytes (v : Save) : List Byte × List Byte × List Byte :=
  let r := saveRegions 0 v.clauses
  let h := saveHead v r.1.length r.2.length
  let lost := lostBytes v.lost
  let crc := (crc32c (h ++ lost ++ r.1 ++ r.2)).toNat
  (toLE 8 v.seq ++ toLE 4 crc ++ h ++ padTo 8192 lost, r.1, r.2)

/-- write set of a clause: its CTM line numbers -/
def writeSet (c : NClause) : List Nat :=
  c.effects.filterMap fun e => match e.body with | .ctm a => some (offOf a % shadowOff / 64) | _ => none
/-- body of a MIRROR message (Table 11-1) -/
def mirrorBody (c : NClause) : List Byte :=
  let d := effList 0 (c.effects.map fun e => { e with state := .pending })
  clauseBytes c ++ d.1 ++ d.2 ++ ((writeSet c).map (toLE 8)).flatten

/-- an effect read from its descriptor and the data region; CTM lines are the region's, kept apart when taken over -/
def parseEffect (l data : List Byte) (clb : Dword) (shadow : Bool) (idx : Nat) : Effect :=
  let body : EffBody := match (byteAt l 0) with
    | 1 => .host (BitVec.ofNat 64 (ofLE (subBytes l 8 8)))
    | 2 => .dev (BitVec.ofNat 2 (byteAt l 3)) (BitVec.ofNat 128 (ofLE (subBytes l 8 16)))
    | 3 => .ctm (BitVec.ofNat 64 (ofLE (subBytes l 8 8) + if shadow then shadowOff else 0))
    | 4 => .signal (BitVec.ofNat 8 (byteAt l 8)) (BitVec.ofNat 64 (ofLE (subBytes l 16 8))) 0
    | _ => .status (BitVec.ofNat 256 (ofLE (subBytes l 8 32)))
  let st : EffState := match (byteAt l 1) with | 0 => .pending | 1 => .issued | _ => .done
  let off := ofLE (subBytes l 40 4)
  let len := ofLE (subBytes l 4 4)
  { body := body, state := st, bar := byteAt l 2 % 2 = 1, ccw := clb
    idx := if byteAt l 0 = 2 then byteAt l 10 else idx
    data := if off = 0xFFFFFFFF then [] else subBytes data off len }
/-- effects of one host write share their index (R96) -/
def parseEffects (l data : List Byte) (clb : Dword) (shadow : Bool) : Nat → Nat → List Effect
  | 0, _ => []
  | n + 1, i => parseEffect (l.take 48) data clb shadow i :: parseEffects (l.drop 48) data clb shadow n (i + 1)
/-- number and pronoun of the clause of a MIRROR body -/
def mirrorNumber (l : List Byte) : Nat := ofLE (subBytes l 0 8)
def mirrorPrn (l : List Byte) : Nat := ofLE (subBytes l 8 4) % 2 ^ 20
/-- A clause read from a MIRROR body (R346); shadow where its CTM lines are those of the peer's region, kept in the shadow. -/
def parseMirror (shadow : Bool) (l : List Byte) : NClause :=
  let n := ofLE (subBytes l 12 2)
  let clb : Dword := BitVec.ofNat 64 (ofLE (subBytes l 24 8))
  let desc := subBytes l 96 (48 * n)
  { number := mirrorNumber l, prn := mirrorPrn l
    hostFn := BitVec.ofNat 8 (byteAt l 14), staged := ofLE (subBytes l 16 4), sq := ofLE (subBytes l 20 2), clb := clb
    binds := BitVec.ofNat 512 (ofLE (subBytes l 32 64))
    effects := parseEffects desc (l.drop (96 + 48 * n)) clb shadow n 0, peer := true }

end Sys2Proof.Machine
end

