-- ==== Sys2Proof/Machine/Store.lean ====
section
/-!
DEFINITION. The persistent store's banked records (12 R387, R388) and the persistent log (14 R444).
-/

namespace Sys2Proof.Machine

/-! ### Banked records (R387, R388) -/

def copySeq {α : Type} : Copy α → Option Nat
  | .valid n _ => some n
  | _ => none
def copyVal {α : Type} : Copy α → Option α
  | .valid _ v => some v
  | _ => none
/-- bank B holds the copy in use: valid, and not older than a valid A (R388) -/
def bankUsesB {α : Type} (r : Banked α) : Bool :=
  match copySeq r.a, copySeq r.b with
  | some x, some y => decide (x ≤ y)
  | none, some _ => true
  | _, none => false
/-- the record in use; none takes its defaults -/
def bankUse {α : Type} (r : Banked α) : Option α := if bankUsesB r then copyVal r.b else copyVal r.a
/-- a banked write (R387) -/
def bankPut {α : Type} (r : Banked α) (v : α) : Banked α :=
  let n := max ((copySeq r.a).getD 0) ((copySeq r.b).getD 0) + 1
  if (copySeq r.a).isNone && (copySeq r.b).isNone then { r with a := .valid 1 v }
  else if bankUsesB r then { r with a := .valid n v } else { r with b := .valid n v }
def isInvalid {α : Type} : Copy α → Bool
  | .invalid => true
  | _ => false
/-- copies of a record found invalid -/
def badCopies {α : Type} (r : Banked α) : Nat := b2n (isInvalid r.a) + b2n (isInvalid r.b)
/-- a copy not valid is ignored and counted (R388) -/
def ignoreCopy (s : State) : State :=
  pulse (rcPulse s.pwr.psInvalid { s with pwr := { s.pwr with psInvalid := satInc s.pwr.psInvalid } }) 266
def ignoreCopies : Nat → State → State
  | 0, s => s
  | n + 1, s => ignoreCopies n (ignoreCopy s)

/-! ### The lifecycle record (13 R393 to R395) -/

/-- the newer of two copies; the later one when their SEQ are equal -/
def newerCopy (x y : Option (Nat × LcRec)) : Option (Nat × LcRec) :=
  match x, y with
  | some a, some b => if a.1 ≤ b.1 then some b else some a
  | none, y => y
  | x, none => x
def copyPair {α : Type} : Copy α → Option (Nat × α)
  | .valid n v => some (n, v)
  | _ => none
/-- the copy in use (R394) -/
def lcCopy (s : State) : Option (Nat × LcRec) := newerCopy (newerCopy (copyPair s.nv.lc0) (copyPair s.nv.lc1)) (copyPair s.nv.lc2)
/-- the record in use; with no valid copy the part behaves as RETIRED -/
def lcRec (s : State) : LcRec := match lcCopy s with | some x => x.2 | none => { state := 4 }
def lcState (s : State) : Nat := (lcRec s).state.toNat
/-- all three copies written (R395) -/
def lcWrite (s : State) (v : LcRec) : State :=
  let n := ((lcCopy s).map (·.1)).getD 0 + 1
  { s with nv := { s.nv with lc0 := .valid n v, lc1 := .valid n v, lc2 := .valid n v } }
/-- a copy invalid or unlike the one in use is rewritten from it, and counted (R394) -/
def lcRepair (s : State) : State :=
  match lcCopy s with
  | none => ignoreCopies 3 s
  | some (n, v) =>
    let bad := ([s.nv.lc0, s.nv.lc1, s.nv.lc2].filter fun c => c != .valid n v).length
    ignoreCopies bad { s with nv := { s.nv with lc0 := .valid n v, lc1 := .valid n v, lc2 := .valid n v } }

/-! ### The persistent log (R444, Table 14-6) -/

def logEntries : Nat := 98304
/-- one entry written to the ring -/
def logWrite (s : State) (e : LogEntry) : State :=
  let k := s.nv.logHead
  let wraps := s.nv.log.any fun x => x.1 == k
  let s := { s with nv := { s.nv with log := tset {} k e s.nv.log, logHead := (k + 1) % logEntries, logSeq := s.nv.logSeq + 1 } }
  if wraps then pulse s 299 else s
/-- what has been gathered is written -/
def logFlush (s : State) : State :=
  s.flt.logBuf.foldl logWrite { s with flt := { s.flt with logBuf := [] } }
/-- an event is gathered; 4 KiB are written at once -/
def logEvent (s : State) (code str : Byte) (unit : Nat) (addr : Dword) (data : List Byte) : State :=
  let e : LogEntry := { seq := BitVec.ofNat 64 s.flt.logSeq, tick := s.dev.tick, code := code, str := str
                        unit := BitVec.ofNat 16 unit, addr := addr, data := data }
  let s := { s with flt := { s.flt with logBuf := s.flt.logBuf ++ [e], logSeq := s.flt.logSeq + 1 } }
  if 64 ≤ s.flt.logBuf.length then logFlush s else s
/-- the 64 bytes of an entry -/
def logBytes (e : LogEntry) : List Byte :=
  padTo 64 (toLE 8 e.seq.toNat ++ toLE 8 e.tick.toNat ++ [e.code, e.str] ++ toLE 2 e.unit.toNat ++ [0, 0, 0, 0]
    ++ toLE 8 e.addr.toNat ++ e.data)
/-- n bytes of the log region from an offset -/
def logRead (s : State) (off n : Nat) : List Byte :=
  let first := off / 64
  let all := ((List.range ((n + 63) / 64)).map fun i =>
    match s.nv.log.find? fun x => x.1 == first + i with
    | some x => logBytes x.2
    | none => List.replicate 64 0#8).flatten
  all.take n
/-- place of the next entry in the ring -/
def logNext (s : State) : Nat := (s.nv.logHead + s.flt.logBuf.length) % logEntries

end Sys2Proof.Machine
end

