-- ==== Sys2Proof/Machine/FullStop.lean ====
section
/-!
DEFINITION. Full stop, commit, release and the end of replay (05_full_stop_and_replay.md R124 to R147).
-/

namespace Sys2Proof.Machine

/-! ### The commit window (R130, R131) -/

def winBytes (s : State) : Nat := (s.fs.window.map (·.staged)).sum
def winEffects (s : State) : Nat := (s.fs.window.map (·.effects.length)).sum
def fits (s : State) (c : Clause) : Bool :=
  decide (winBytes s + c.staged ≤ 8388608 - 64 * (retiredOf s 5 0 - 131072)) && decide (s.fs.window.length + 1 ≤ 8192)
    && decide (winEffects s + c.effects.length ≤ 65536)
/-- numbering is held (R125, R143), or stopped by a drain or a fence (R139, R356) -/
def numHeld (s : State) : Bool := s.fs.pendingSave.isSome || s.fs.takeHold || s.fs.next == s.fs.limit
def canNumber (s : State) : Bool := !(numHeld s) && !s.fs.stopped && !(isFenced s)
/-- FS_STATUS.WINDOW_WAIT and NUMBERING_HELD (R131) -/
def windowWait (s : State) : Bool :=
  s.fs.waiting.any fun w => match openClause s w.prn with | some c => !(fits s c) | none => false

/-- the tag of a number (R136) -/
def tagOf (n : Nat) : Nat := n % 2 ^ 48

/-! ### Taking a number (R124, R127, R128) -/

/-- an append of a clause takes its LBA, a staged word its TAG (R247, R50) -/
def numberEffect (binds : BitVec 512) (tag : Nat) (s : State) (e : Effect) : State × Effect :=
  match e.body with
  | .dev b image =>
    let bd := binds.extractLsb' (128 * b.toNat) 128
    let sub := bitsAt image 0 8
    if bKind bd = 1 ∧ bitsAt image 8 8 = 1 ∧ (sub = 0 ∨ sub = 2) then
      let (s, lba) := takeAppend s bd (bitsAt image 32 32)
      (s, { e with body := .dev b (setField image 64 64 lba) })
    else (s, e)
  | .status w => (s, { e with body := .status (wordReleased (wordTag w tag)) })
  | _ => (s, e)
def numberEffects (binds : BitVec 512) (tag : Nat) : State → List Effect → State × List Effect
  | s, [] => (s, [])
  | s, e :: es =>
    let (s, e) := numberEffect binds tag s e
    let (s, es) := numberEffects binds tag s es
    (s, e :: es)

def modNum (s : State) (n : Nat) (f : NClause → NClause) : State :=
  { s with fs := { s.fs with window := s.fs.window.map fun c => if c.number == n then f c else c } }
def getNum (s : State) (n : Nat) : Option NClause := s.fs.window.find? fun c => c.number == n

/-- a numbered clause commits (R127) -/
def commit (s : State) (n prn : Nat) : State :=
  modP (modNum s n fun c => { c with committed := true }) prn fun p => { p with lastTag := BitVec.ofNat 48 (tagOf n) }

/-- the window-high event (09 Table 9-10 CLAUSE_TUNE) -/
def watermarkPulse (s : State) (before : Nat) : State :=
  let w := s.fs.watermark.toNat
  if w ≠ 0 ∧ before ≤ w ∧ w < winBytes s then pulse s 92 else s

/-- The open clause of a pronoun takes the next number. -/
def takeNumber (s : State) (prn : Nat) : State :=
  match openClause s prn with
  | none => s
  | some c =>
    let p := getP s prn
    let n := s.fs.next
    let before := winBytes s
    let (s, es) := numberEffects p.binds (tagOf n) s c.effects
    let x : NClause := { number := n, prn := prn, hostFn := p.hostFn, staged := c.staged, sq := p.statusQueue.toNat
                         clb := c.clb, binds := p.binds, effects := es }
    let s := dropClause s c.begin_
    let s := { s with fs := { s.fs with next := n + 1, window := s.fs.window ++ [x] } }
    let s := watermarkPulse s before
    if isPaired s then twinSend s { type := 0x22, param := BitVec.ofNat 64 n, body := mirrorBody x }
    else if s.tw.state == 4 then s
    else commit s n prn

/-- The end of a CCW that carries FST: its clause takes its number, or waits in arrival order (R124, R131). -/
def fullStop (s : State) (n : Nat) (fin : Fin) : State :=
  match openClause s n with
  | none => runFin s n fin
  | some c =>
    if s.fs.waiting.isEmpty && canNumber s && fits s c then runFin (takeNumber s n) n fin
    else
      let s := modP s n fun p => { p with cur := p.cur.map fun c => { c with phase := .fullStop } }
      { s with fs := { s.fs with waiting := s.fs.waiting ++ [{ prn := n, fin := fin }] } }

/-- The oldest waiting full stop is admitted (R131). -/
def admitOne (s : State) : State :=
  match s.fs.waiting with
  | [] => s
  | w :: ws =>
    match openClause s w.prn with
    | none => { s with fs := { s.fs with waiting := ws } }
    | some c =>
      if canNumber s && fits s c then
        runFin (takeNumber { s with fs := { s.fs with waiting := ws } } w.prn) w.prn w.fin
      else s

/-- The reservation record (R125): written once the counter has reached LIMIT − 2^31. -/
def reserve (s : State) : State :=
  if decide (s.fs.limit ≤ s.fs.next + 2 ^ 31) then
    let l := s.fs.limit + 2 ^ 32
    { s with fs := { s.fs with limit := l }, nv := { s.nv with resv := bankPut s.nv.resv l } }
  else s

/-! ### Saves (R142, R146) -/

def saveSeq : SaveArea → Nat
  | .valid v => v.seq
  | _ => 0
/-- the sequence number of the save an area holds, or was to hold -/
def areaSeq : SaveArea → Nat
  | .valid v => v.seq
  | .invalid n => n
  | .empty => 0
/-- the area holding the valid save with the higher sequence number: true for B -/
def newerIsB (s : State) : Bool := decide (saveSeq s.nv.areaA < saveSeq s.nv.areaB)
/-- the area a save goes to (R141). DESIGN CHOICE (log entry 105): B where neither area holds a valid save. -/
def putSave (s : State) (v : Save) : State :=
  if newerIsB s then { s with nv := { s.nv with areaA := .valid v } } else { s with nv := { s.nv with areaB := .valid v } }
def nextSeq (s : State) : Nat := max (saveSeq s.nv.areaA) (saveSeq s.nv.areaB) + 1
/-- a save cut short leaves its area invalid (R141, R149) -/
def cutSave (s : State) : State :=
  if newerIsB s then { s with nv := { s.nv with areaA := .invalid (nextSeq s) } } else { s with nv := { s.nv with areaB := .invalid (nextSeq s) } }
/-- The consumed marker is written and numbering resumes (R146 step 4). -/
def consumeSave (s : State) : State :=
  let v : Save := { seq := nextSeq s, cause := 0x10, paired := false, peerLost := false, clauses := [], lost := []
                    tick := s.dev.tick, limit := s.fs.limit }
  let s := putSave s v
  { s with fs := { s.fs with pendingSave := none } }

def allIssued (l : List NClause) : Bool := l.all fun c => c.effects.all fun e => e.state != .pending
/-- REPLAY ends once every replayed effect has been issued (R146 steps 4 and 5), a takeover likewise (R358 step 6). -/
def finishReissue (s : State) : State :=
  let s := match s.fs.replay with
    | some (_, _, k, d, w) =>
      if allIssued (s.fs.window.filter fun c => c.replayed && !c.peer) then
        finishHeld (consumeSave { s with fs := { s.fs with replay := none } }) .replay 0
          (BitVec.ofNat 192 (k + d * 2 ^ 32 + w * 2 ^ 64))
      else s
    | none => s
  if s.tw.taking && allIssued (s.fs.window.filter (·.peer)) then
    pulse { s with fs := { s.fs with takeHold := false }, tw := { s.tw with taking := false, shadow := [], shadowWait := [], places := [] } } 235
  else s

/-! ### Done, released, failed (R133 to R135) -/

/-- A pronoun unbound with clauses unreleased is wholly unbound when the last is released (03 R67). -/
def finishUnbind (s : State) (n : Nat) : State :=
  let p := getP s n
  if p.unbinding && !(s.fs.window.any fun c => c.prn == n) then
    finishHeld (setP s n { p with unbinding := false }) (.unbind n) 0 0
  else s

/-! ### Unbinding (03 R67) -/

/-- a pronoun's queued frames are discarded and counted at their ports -/
def dropFrames (s : State) (n : Nat) : State :=
  let l := framesFor s n
  let s := l.foldl (fun s f => count s f.q f.p 10) s
  l.foldl (fun s f => relieve s f.q) (setRx s (s.lk.rx.filter fun f => f.prn != n))
/-- one queued attention is counted in the drop counter of the port it came from; only profile K has one (Table 8-23) -/
def dropAttention (s : State) (a : Nat × Nat) : State := if (getQ s a.1).profile = 3 then count s a.1 a.2 10 else s
/-- queued attentions are discarded (R67) -/
def dropAttentions (s : State) (n : Nat) : State :=
  modP ((getP s n).attn.foldl dropAttention s) n fun p => { p with attn := [] }
/-- An unbinding takes effect (R67): the bindings stay for what is still to be released. -/
def becomeUnbound (s : State) (n : Nat) : State :=
  let s := dropAttentions (dropFrames s n) n
  modP (breakLocks s n) n fun p =>
    { p with state := .unbound, waitPending := 0, waitOverflow := 0, fin := none, fenceDue := none
             startPending := false, unbinding := true }

/-! ### Pronoun reset (R77) -/

/-- The reset's last part: the open clause is lost, locks break, IDLE (R77 steps 3 to 5). -/
def resetFinish (s : State) (n : Nat) : State :=
  let p := getP s n
  let numbered := (clauseOf s n).isNone && p.rerun.isNone
  let (s, ab) := abortClause s n 0x0A false
  let w : SWord := match ab with
    | some (clb, _) => { kind := 0x08, ccw := clb, chan := chanLost ||| chanAbort, det := 0x0A }
    | none => { kind := 0x09, ccw := p.ccwAddr }
  let s := (postDirect s n w).1
  let s := breakLocks s n
  let s := leaveAll s n
  let s := modP s n fun p =>
    { p with state := .idle, startPending := false, pendStart := 0, moverHold := false, checkedBy := none, script := none
             cur := none, retryCount := 0, waitPending := 0, waitOverflow := 0, loops := [], tickets := [], fin := none, limitDue := none
             wait := none, rerun := none, again := false, resetting := false, checkKind := 0 }
  let s := if p.state == .halting then finishHeld s (.halt n) 0 1 else s
  let s := finishHeld s (.reset n) 0 (if numbered then 0x09 else 0x08)
  if p.unbinding then finishUnbind (becomeUnbound (setWords s (s.sched.words.filter fun w => w.2.1 != n)) n) n else s

/-- RESET of a bound pronoun: it stops at once and waits for its accepted transfers (R77 steps 1, 2). -/
def resetPron (s : State) (n : Nat) : State :=
  let s := dequeue (leaveWaits s n) n
  if (outstanding s n).isEmpty then resetFinish s n else modP s n fun p => { p with resetting := true }

/-- highest N such that every clause numbered N or less is released -/
def releasedMark (s : State) : Nat := (((s.fs.window.find? fun c => !c.peer).map (·.number)).getD s.fs.next) - 1
/-- RELEASED is sent once the records it frees have been sent: from step 6 of a join on (R347) -/
def sendsReleased (s : State) : Bool := isMirroring s || (s.tw.state == 2 && s.tw.mirrorsSent)
def sendReleased (s : State) : State :=
  let m := releasedMark s
  if sendsReleased s && decide (s.tw.sentMark < m) then
    twinSend { s with tw := { s.tw with sentMark := m } } { type := 0x23, param := BitVec.ofNat 64 m, body := [] }
  else s

/-- A clause whose effects are all done is released (R134). -/
def clauseReleased (s : State) (n : Nat) : State :=
  match getNum s n with
  | none => s
  | some c =>
    if c.effects.all fun e => e.state == .done then
      let s := { s with fs := { s.fs with window := s.fs.window.filter fun x => x.number != n } }
      finishUnbind (sendReleased (writeMirrors s)) c.prn
    else s

def modEffect (i : Nat) (f : Effect → Effect) (c : NClause) : NClause := { c with effects := c.effects.modify i f }
/-- An effect is done (R133). -/
def effectDone (s : State) (n i : Nat) : State :=
  let s := modNum s n (modEffect i fun e => { e with state := .done })
  let s := if s.fs.barHold == some (n, i) then { s with fs := { s.fs with barHold := none } } else s
  clauseReleased s n

/-- A RELEASE_ERROR word (R135). -/
def releaseErrorWord (s : State) (c : NClause) (ccw : Dword) (dev chan det : Byte) : State :=
  let w := wordTag (encodeWord c.prn { kind := 0x0A, ccw := ccw, dev := dev, chan := chan, det := det } 0) (tagOf c.number)
  let s := (postBits s c.prn c.sq w).1
  pulse (rcPulse s.fs.relErrors { s with fs := { s.fs with relErrors := satInc s.fs.relErrors } }) 93
/-- An effect fails at its target: reported, and done. -/
def effectFailed (s : State) (n i : Nat) (dev chan det : Byte) : State :=
  match getNum s n with
  | none => s
  | some c => effectDone (releaseErrorWord s c ((c.effects[i]?.map (·.ccw)).getD c.clb) dev chan det) n i

/-- What a device's end means for a released effect (R135, Table 5-2). -/
def effectOpEnd (s : State) (n i : Nat) (dev : Byte) : State :=
  if devOutcome dev == devDone || dev == 0 then effectDone s n i
  else effectFailed s n i dev 0 (if devOutcome dev == devTimeout then 0x02 else 0x01)

/-! ### The release pipeline (R132) -/

/-- the first clause with an unissued effect, and the effect's position -/
def nextEffect (l : List NClause) : Option (NClause × Nat) :=
  match l with
  | [] => none
  | c :: cs =>
    match c.effects.findIdx? fun e => e.state == .pending with
    | some i => some (c, i)
    | none => nextEffect cs

/-- the binding of an effect on this part; none where the peer's quad is not mapped (11 R357, R358) -/
def effBinding (_s : State) (c : NClause) (b : Nat) : Option (BitVec 128) :=
  let bd := c.binds.extractLsb' (128 * b) 128
  if c.peer && bKind bd == 0 then none else some bd
def quadFenced (s : State) (q : Nat) : Bool := s.flt.quads.contains q
/-- at replay or takeover, the target was fenced, offline or lost its namespace (Table 5-2, 0x04) -/
def targetGone (s : State) (c : NClause) (b : BitVec 128) : Bool :=
  (c.replayed || c.peer) &&
    (quadFenced s (bQuad b) || !(portUp (getPort s (bQuad b) (bPort b))) || (bKind b == 1 && (nsOf s b).isNone))

def setIssued (s : State) (n i : Nat) : State := modNum s n (modEffect i fun e => { e with state := .issued })
def barHeld (s : State) (n i : Nat) (bar : Bool) : State :=
  if bar then { s with fs := { s.fs with barHold := some (n, i) } } else s
def verbOfImage (b image : BitVec 128) : Byte :=
  match bKind b with
  | 1 => if bitsAt image 8 8 = 1 then 0x21 else 0x31
  | 5 => (match bitsAt image 8 8 with | 1 => 0x21 | 2 => 0x22 | 3 => 0x31 | _ => 0x23)
  | _ => 0x21

/-- A staged operation handed to its port; unchanged while its queue has no entry for it. -/
def issueDev (s0 : State) (c : NClause) (i : Nat) (e : Effect) (b image : BitVec 128) : State :=
  let s := barHeld (setIssued s0 c.number i) c.number i e.bar
  let verb : Byte := if e.verb = 0 then verbOfImage b image else e.verb
  let carry := bKind b != 1 || ((nsOf s b).map (·.tagCarry)).getD false
  let tag : Option (BitVec 48) := if bKind b = 2 ∨ !carry then none else some (BitVec.ofNat 48 (tagOf c.number))
  let o := { makeOp b (.effect c.number i) verb (bitsAt image 0 8) e.data.length image e.data with
             tag := tag, index := BitVec.ofNat 8 e.idx, replay := c.replayed || c.peer }
  let (s, id) := issueOp s o (imageFlow image)
  match getOp s id with
  | none => s0
  | some o =>
    match o.stage with
    | .ended dev _ _ => effectOpEnd (dropOp s o) c.number i dev
    | .queued => if o.kind == .eth then s else s0
    | _ => s

/-- One effect issued (R132, Table 5-1). -/
def issueEffect (s : State) (c : NClause) (i : Nat) (e : Effect) : State :=
  if e.bad then effectFailed s c.number i 0 0 0x03
  else match e.body with
  | .host iova =>
    if !(canIssue s c.hostFn) then s
    else
      let s := hostWrite s (offOf iova) e.data
      if e.bar then barHeld (setIssued s c.number i) c.number i true else effectDone s c.number i
  | .status w =>
    match getSq s c.sq with
    | none => effectDone s c.number i
    | some _ =>
      if sqRoom s c.sq then
        effectDone (sqWrite s c.sq (if c.replayed || c.peer then wordReplayed w else w)) c.number i
      else s
  | .ctm a =>
    let l := lineOf (offOf a)
    effectDone (twinLine (writeDram s (ctmPhys s (64 * l)) e.data) l) c.number i
  | .signal m a ce => effectDone (applySignal s m a ce.toNat) c.number i
  | .dev b image =>
    match effBinding s c b.toNat with
    | none => effectFailed s c.number i 0 0 0x04
    | some bd => if targetGone s c bd then effectFailed s c.number i 0 0 0x04 else issueDev s c i e bd image

/-- The release pipeline issues its next effect (R132). -/
def releaseNext (s : State) : State :=
  if s.fs.stopped || isFenced s || s.fs.barHold.isSome then s
  else match nextEffect s.fs.window with
    | none => s
    | some (c, i) =>
      if !c.committed then s
      else match c.effects[i]? with
        | none => s
        | some e => finishReissue (issueEffect s c i e)

end Sys2Proof.Machine
end

