-- ==== Sys2Proof/Machine/Transform.lean ====
section
/-!
DEFINITION. Transform profiles and the transform stage (06 R42, R165 to R171).
-/

namespace Sys2Proof.Machine

def getProf (s : State) (n : Nat) : Profile := tget {} s.mv.profiles n
def pfCipher (p : Profile) : Nat := bitsAt p.ctl 0 4
def pfCheck (p : Profile) : Nat := bitsAt p.ctl 4 4
def pfCheckOn (p : Profile) : Bool := p.ctl.getLsbD 8
def pfIvGen (p : Profile) : Bool := p.ctl.getLsbD 9
def pfSeed (p : Profile) : Bool := p.ctl.getLsbD 10
def pfUnit (p : Profile) : Nat := if p.ctl.getLsbD 11 then 4096 else 512
def pfIndexed (p : Profile) : Bool := p.ctl.getLsbD 12
def pfAad (p : Profile) : Nat := bitsAt p.ctl 16 10
def pfEnable (p : Profile) : Bool := p.ctl.getLsbD 31
def pfKey (p : Profile) : Nat := bitsAt p.keys 0 12
def pfKey2 (p : Profile) : Nat := bitsAt p.keys 16 12
def isGcm (p : Profile) : Bool := pfCipher p == 1 || pfCipher p == 2
def isXts (p : Profile) : Bool := pfCipher p == 3 || pfCipher p == 4
/-- the pair is not reserved in Table 6-6 -/
def pairLegal (cipher check : Nat) : Bool :=
  match cipher with
  | 0 | 5 => decide (check ≤ 6)
  | 1 | 2 => check == 0 || (decide (3 ≤ check) && decide (check ≤ 6))
  | 3 | 4 => decide (check ≤ 6) && check != 2
  | _ => false

def getKey (s : State) (i : Nat) : Option VKey := aget s.sec.vault i
/-- a key loaded for transforms (13 R407) -/
def tfKey (s : State) (i : Nat) : Option VKey := (getKey s i).filter fun k => k.use.getLsbD 0
/-- KEY is used: with a cipher -/
def usesKey (p : Profile) : Bool := pfCipher p != 0
/-- KEY2 is used: the XTS tweak key or the HMAC key -/
def usesKey2 (p : Profile) : Bool := isXts p || pfCheck p == 2
/-- not configured, a key not loaded, or the GCM invocation limit reached (R166, R168) -/
def profBad (s : State) (p : Profile) : Bool :=
  !(pfEnable p) || (usesKey p && (tfKey s (pfKey p)).isNone) || (usesKey2 p && (tfKey s (pfKey2 p)).isNone)
    || (pfCipher p == 1 && match tfKey s (pfKey p) with | some k => decide (2 ^ 32 ≤ k.count) | none => false)
/-- the encryption waits for a key bank write (13 R412) -/
def profWaits (s : State) (p : Profile) : Bool :=
  pfCipher p == 1 && match tfKey s (pfKey p) with | some k => decide (k.reserved ≤ k.count + 1) | none => false
/-- COUNT invalid for the profile (R170): XTS judges the chain's total, at its last CCW, GCM each CCW's COUNT -/
def profCountBad (p : Profile) (last : Bool) (count total : Nat) : Bool :=
  (isXts p && last && total % pfUnit p != 0) || (isGcm p && decide (count < pfAad p))
/-- address of the result record (R165) -/
def resultAt (p : Profile) (prn : Nat) : Dword :=
  if pfIndexed p then p.result + BitVec.ofNat 64 (64 * prn) else p.result

/-- The transform as a CCW's check takes it (R166). -/
def makeXform (s : State) (p : Profile) (prn : Nat) : Xform :=
  { prof := p, at_ := resultAt p prn
    key := ((getKey s (pfKey p)).map (·.key)).getD 0, key2 := ((getKey s (pfKey2 p)).map (·.key)).getD 0 }

/-- a GCM encryption advances its key's counter (R168); the limit warning pulses once (13 R412) -/
def gcmInvoke (s : State) (i : Nat) : State :=
  match getKey s i with
  | none => s
  | some k =>
    let s := { s with sec := { s.sec with vault := aset i { k with count := k.count + 1 } s.sec.vault } }
    if k.count + 1 = 0xFFF00000 then pulse s 356 else s

/-- The start: the record has been read, the IV or counter is fixed (R167, R168). -/
def xfStart (s : State) (x : Xform) (record : List Byte) : State × Xform :=
  let p := x.prof
  let iv : List Byte :=
    if isGcm p then
      (if pfCipher p = 1 ∧ pfIvGen p then
        toLE 4 p.salt.toNat ++ toBE 8 (((getKey s (pfKey p)).map (·.count)).getD 0)
       else record.take 12)
    else record.take 16
  let s := if pfCipher p = 1 then gcmInvoke s (pfKey p) else s
  (s, { x with record := record, iv := iv })

/-- the output stream of the input so far -/
def xfOutput (x : Xform) : List Byte :=
  let p := x.prof
  match pfCipher p with
  | 1 | 2 => x.input.take (pfAad p) ++ gcmCrypt x.key x.iv (x.input.drop (pfAad p))
  | 3 | 4 =>
    let u := pfUnit p
    xtsCrypt (pfCipher p == 3) x.key x.key2 u (ofLE (x.iv.take 8)) (x.input.take (x.input.length / u * u))
  | 5 => ctrCrypt x.key x.iv x.input
  | _ => x.input

/-- the check field of the record after the last byte (Table 6-8) -/
def xfCheck (x : Xform) (out : List Byte) : List Byte :=
  let p := x.prof
  let st := if pfCheckOn p then out else x.input
  match pfCheck p with
  | 1 => sha256 st
  | 2 => hmacSha256 x.key2 st
  | 0 => subBytes x.record 32 32
  | k =>
    let kind := k - 3
    let init := if pfSeed p then ofLE (subBytes x.record 32 8) % 2 ^ (match kind with | 0 | 1 => 32 | 2 => 16 | _ => 64)
                else crcInit kind
    padTo 32 (toLE 8 (crcFinal kind (crcBytes kind init st)))
/-- The result record written back, and whether the tag verified (R167, R169). -/
def xfFinish (x : Xform) : List Byte × Bool :=
  let p := x.prof
  let out := xfOutput x
  let chk := xfCheck x out
  let aad := x.input.take (pfAad p)
  match pfCipher p with
  | 1 =>
    let tag := gcmTag x.key x.iv aad (out.drop (pfAad p))
    (padTo 16 x.iv ++ tag ++ chk, true)
  | 2 =>
    let want := subBytes x.record 16 16
    let tag := gcmTag x.key x.iv aad (x.input.drop (pfAad p))
    (padTo 16 x.iv ++ want ++ chk, want == tag)
  | 3 | 4 =>
    let n := ofLE (x.iv.take 8) + x.input.length / pfUnit p
    (padTo 16 (toLE 8 n) ++ List.replicate 16 0 ++ chk, true)
  | 5 =>
    let n := (ofBE x.iv + blocksFor x.input.length) % 2 ^ 128
    (toBE 16 n ++ List.replicate 16 0 ++ chk, true)
  | _ => (x.record.take 32 ++ chk, true)

end Sys2Proof.Machine
end

