-- ==== Sys2Proof/Machine/Chain.lean ====
section
/-!
DEFINITION. The end of a CCW and of a chain: staged words, full stops, conditions (02 R25 to R28, R47 to R57).
-/

namespace Sys2Proof.Machine

/-! ### CCW fields (R21, Table 2-4) -/

def fNext (c : Ccw) : Bool := c.flags.getLsbD 0
def fJoin (c : Ccw) : Bool := c.flags.getLsbD 1
def fClb (c : Ccw) : Bool := c.flags.getLsbD 2
def fFst (c : Ccw) : Bool := c.flags.getLsbD 3
def fBar (c : Ccw) : Bool := c.flags.getLsbD 4
def fXfm (c : Ccw) : Bool := c.flags.getLsbD 5
def fIdx (c : Ccw) : Bool := c.flags.getLsbD 6
def fEll (c : Ccw) : Bool := c.flags.getLsbD 7
def fLenok (c : Ccw) : Bool := c.flags.getLsbD 8
def fNote (c : Ccw) : Bool := c.flags.getLsbD 9
def fPar (c : Ccw) : Bool := c.flags.getLsbD 10
def noCcw : Ccw := { addr := 0, verb := 0x43, mod := 0, flags := 0, count := 0, opnd := 0 }
/-- the first and the last CCW in progress -/
def firstCcw (p : Pron) : Ccw := ((p.cur.bind (·.items.head?))).getD noCcw
def lastCcw (p : Pron) : Ccw := ((p.cur.bind (·.items.getLast?))).getD noCcw

/-- How a CCW ends. -/
structure EndInfo where
  resid : Word := 0
  /-- the chain goes on here, set by JUMP and by a LOOP that repeats -/
  next  : Option Dword := none
  skip  : Bool := false
  /-- the chain ends whatever the flags: HALT, COMPARE mismatch with MOD 0x00 -/
  stop  : Bool := false
  chan  : Byte := 0
  dev   : Byte := 0

/-- A word is staged with the open clause (R49, R93). -/
def stageWord (s : State) (n : Nat) (b : Nat) (ccw : Dword) (w : SWord) : Staged :=
  let p := getP s n
  let bits := setField (encodeWord n w 0) 208 16 p.seq.toNat
  let s := setP s n { p with seq := wrapInc p.seq }
  stage s b [{ body := .status bits, ccw := ccw }] 1 0 0

/-- The CCW has ended: what the chain does next (R25, R26, R49). -/
def chainGoes (s : State) (n : Nat) (c : Ccw) (e : EndInfo) (fin : Fin) : State :=
  let ends := fin == .chainEnd
  let w : Option SWord :=
    if ends then some (endWord c.addr e.resid e.chan e.dev)
    else if c.verb == 0x52 then some { kind := 0x03, ccw := c.addr, resid := e.resid }
    else if fFst c then some { kind := 0x04, ccw := c.addr, resid := e.resid, chan := e.chan, dev := e.dev }
    else none
  match openClause s n with
  | some cl =>
    if ends && !(fFst c) then programCheck s n 0x0D 0 e.resid c.addr
    else match w with
      | none => runFin s n fin
      | some w =>
        match stageWord s n cl.begin_ c.addr w with
        | .limit k => programCheck s n 0x0F k e.resid c.addr
        | .lost s => boundary s n (c.addr + 16)
        | .ok s => if fFst c then fullStop s n fin else runFin s n fin
  | none =>
    match w with
    | none => runFin s n fin
    | some w => postThen s n w fin

/-- A CCW ends without a stopping condition; a doomed clause's abort is acted on instead (R111). -/
def endCcw (s : State) (n : Nat) (e : EndInfo) : State :=
  let c := lastCcw (getP s n)
  let s := modP s n fun p => { p with residual := e.resid, script := none, tickets := [] }
  let next := e.next.getD (c.addr + if e.skip then 32 else 16)
  let fin : Fin := if e.stop || (e.next.isNone && !(fNext c)) then .chainEnd else .goOn next
  match doomedRerun s n with
  | some _ => boundary s n next
  | none => chainGoes s n c e fin

/-! ### Device ends (R28, R270, R490, Table 2-10) -/

/-- The CCW of a data chain at a byte position, and the position within it. DESIGN CHOICE (log entry 102): at a CCW's very
end the next CCW is the current one. -/
def ccwAt : List Ccw → Nat → Option (Ccw × Nat)
  | [], _ => none
  | c :: cs, n => if n < c.count.toNat || cs.isEmpty then some (c, n) else ccwAt cs (n - c.count.toNat)
def chainTotal (l : List Ccw) : Nat := (l.map fun c => c.count.toNat).sum

/-- A READ or SENSE ended by its device with DONE: length judged at the CCW current then (R28). DESIGN CHOICE (log entry
103): a short chain accepted before its last CCW reports the last CCW's COUNT. -/
def readEnd (s : State) (n : Nat) (dev : Byte) (got : Nat) (long : Bool) (short : Nat) : State :=
  let p := getP s n
  let items := (p.cur.map (·.items)).getD []
  let total := chainTotal items
  if long then
    let c := lastCcw p
    if fLenok c then endCcw s n { dev := dev }
    else stopCondition s n dev chanIncorrect 0x01 0 c.addr
  else if got < total ∨ short ≠ 0 then
    match ccwAt items got with
    | none => endCcw s n { dev := dev }
    | some (c, o) =>
      let left := BitVec.ofNat 32 (c.count.toNat - o)
      if fLenok c then
        let l := lastCcw p
        endCcw s n { resid := if l.addr == c.addr then left else l.count, dev := dev }
      else stopCondition s n dev chanIncorrect 0x02 left c.addr
  else endCcw s n { dev := dev }
/-- A WRITE or CONTROL ended by its device with DONE: bytes not accepted (R490). -/
def writeEnd (s : State) (n : Nat) (dev : Byte) (left : Nat) : State :=
  let c := lastCcw (getP s n)
  let r := BitVec.ofNat 32 left
  if left = 0 ∨ fLenok c then endCcw s n { resid := r, dev := dev }
  else stopCondition s n dev chanIncorrect 0x02 r c.addr

/-- A device operation of a CCW ended with a failing status (R490, R272). DESIGN CHOICE (log entry 104): the word names the
first CCW of a READ's chain. -/
def deviceFails (s : State) (n : Nat) (o : DevOp) (dev det : Byte) (resid : Nat) : State :=
  let p := getP s n
  let c := if o.verb = 0x21 ∨ o.verb = 0x31 then lastCcw p else firstCcw p
  let r := if o.kind == .kdl && devOutcome dev == devUnit then BitVec.ofNat 32 resid else c.count
  stopCondition s n dev 0 det r c.addr

end Sys2Proof.Machine
end

