-- ==== Sys2Proof/Machine/Transfers.lean ====
section
/-!
DEFINITION. Transfers in the movers: acceptance, the read and write engines, ends, and the mover check (06 R150 to
R177, with 04 R93 to R98 for staging and merging).
-/

namespace Sys2Proof.Machine

/-! ### Acceptance (R151 to R153) -/

def defaultMap (e : Nat) : Nat × Nat := (e / 2 % 8, (e / 2 % 8 + 4) % 8)
def engineMap (s : State) (e : Nat) : Nat × Nat := tget (defaultMap e) s.mv.map e
def moverUsable (x : Mover) : Bool := !x.check && !x.fenced
/-- the mover of an engine's transfer; none while both are in a check or fenced (R152) -/
def pickMover (s : State) (e : Nat) : Option Nat :=
  let (p, a) := engineMap s e
  if moverUsable (getMv s p) then some p else if moverUsable (getMv s a) then some a else none

/-- the lowest free context below n -/
def freeCtx (x : Mover) : Option Nat := (List.range 64).find? fun k => !(x.ctx.any fun e => e.1 == k)
/-- accepted transfers enter free contexts in order (R153) -/
def fillCtx : Nat → Mover → Mover
  | 0, x => x
  | f + 1, x =>
    match x.queue, freeCtx x with
    | t :: ts, some k => fillCtx f { x with queue := ts, ctx := x.ctx ++ [(k, t)] }
    | _, _ => x
def fillMv (s : State) (m : Nat) : State := modMv s m (fillCtx 64)
/-- the transfer accepted into mover m, with its number; none while the queue is full -/
def acceptOn (s : State) (m : Nat) (t : Transfer) : Option State :=
  let x := getMv s m
  if 1024 ≤ x.queue.length then none
  else
    let s := { s with mv := { s.mv with nextId := s.mv.nextId + 1 } }
    some (fillMv (setMv s m { x with queue := x.queue ++ [{ t with id := s.mv.nextId - 1 }] }) m)

/-! ### Places in a transfer -/

def segsLen (l : List Seg) : Nat := (l.map (·.len)).sum
def tTotal (t : Transfer) : Nat := segsLen t.segs
/-- the segment holding a stream position, and the position in it -/
def segAt : List Seg → Nat → Nat → Option (Nat × Nat)
  | [], _, _ => none
  | g :: gs, i, n => if n < g.len then some (i, n) else segAt gs (i + 1) (n - g.len)
/-- a MOVE's segment that overlaps its destination from below runs in descending order (R160) -/
def segDesc (g : Seg) : Bool :=
  match g.src, g.dst with
  | .mem a, .mem b =>
    spaceOf a == spaceOf b && decide (offOf a < offOf b) && decide (offOf b < offOf a + g.len)
  | _, _ => false
/-- a transform's output is held until all is read: its MOVE overlaps its destination (R160; log entry 106) -/
def holdsAll (t : Transfer) : Bool := t.segs.any segDesc
/-- Fetched, unwritten data of a transfer (R155): a COMPARE's first operand keeps the place of the second. -/
def buffered (t : Transfer) : Nat :=
  (t.buf.map fun c => if t.compare then 2 * c.bytes.length else c.bytes.length).sum +
    (match t.xf with | some x => if holdsAll t then 0 else x.input.length - x.out | none => 0)
/-- pool blocks a transfer uses beyond its reserve (R155) -/
def poolBlocks (t : Transfer) : Nat := (buffered t + 63) / 64 - 64
/-- bytes a transfer may fetch now: within its WINDOW, its reserve and the free pool (R155) -/
def windowRoom (s : State) (x : Mover) (t : Transfer) : Nat :=
  let free := 4096 - (x.ctx.map fun e => poolBlocks e.2).sum
  min (s.mv.window.toNat * 4096) (64 * (64 + poolBlocks t + free)) - buffered t
/-- bytes from a up to the next 4 KiB boundary, at most n -/
def upTo4k (a n : Nat) : Nat := min n (4096 - a % 4096)
/-- the open clause a transfer works for, doomed ones apart -/
def liveClause (s : State) (t : Transfer) : Option Clause :=
  if t.dead then none else (t.clause.bind (getClause s)).filter fun c => c.doom.isNone
def tPrn (t : Transfer) : Nat := (prnOfOrigin t.origin).getD 0
/-- a transfer whose clause is gone or doomed goes on with its staged output discarded (R111) -/
def markDead (s : State) (t : Transfer) : Transfer :=
  if t.clause.isSome && (liveClause s t).isNone then { t with dead := true } else t
def putCtx (s : State) (m k : Nat) (t : Transfer) : State :=
  let t := markDead s t
  modMv s m fun x => { x with ctx := x.ctx.map fun e => if e.1 == k then (k, t) else e }
def dropCtx (s : State) (m k : Nat) : State := modMv s m fun x => { x with ctx := x.ctx.filter fun e => e.1 != k }

/-! ### Data reads (R97, R98, R101, R173) -/

/-- What a data read gives. -/
inductive Got where
  | ok (s : State) (l : List Byte)
  /-- the source is not ready -/
  | wait (s : State)
  /-- the fetch returns an error: a mover check follows (R173) -/
  | bad
  | limit (k : Byte)

/-- staged bytes laid over a read of host memory (R97) -/
def mergeOne (a : Nat) (base : List Byte) (o : Nat) (d : List Byte) : List Byte :=
  base.mapIdx fun i b => if o ≤ a + i ∧ a + i < o + d.length then d.getD (a + i - o) b else b
def mergeHost (c : Clause) (t : Transfer) (a : Nat) (base : List Byte) : List Byte :=
  let base := c.effects.foldl (fun b e => match e.body with
    | .host iova => mergeOne a b (offOf iova) e.data
    | _ => b) base
  t.runs.foldl (fun b r => mergeOne a b (offOf r.2.1) r.2.2) base

/-- a CTM read of an open clause, line by line, as far as it goes -/
def ctmReadRun : Nat → State → Nat → Nat → Nat → List Byte → Got
  | 0, s, _, _, _, acc => .ok s acc
  | f + 1, s, b, a, n, acc =>
    if n = 0 then .ok s acc
    else match getClause s b with
      | none => .wait s
      | some c =>
        let k := min n (64 - a % 64)
        match ctmReadIn s c a k with
        | .ok s l => ctmReadRun f s b (a + k) (n - k) (acc ++ l)
        | .waitLine s => if acc.isEmpty then .wait s else .ok s acc
        | .waitEntries s => if acc.isEmpty then .wait s else .ok s acc
        | .lost s => if acc.isEmpty then .wait s else .ok s acc
        | .limit k => .limit k
        | .ecc => .bad

/-- n bytes read at an address for a transfer -/
def dataRead (s : State) (t : Transfer) (a : Dword) (n : Nat) : Got :=
  let o := offOf a
  match spaceOf a with
  | 0 =>
    if !(canIssue s t.fn) then .wait s
    else if (hostFault s o n).isSome then .bad
    else
      let l := getBytes s.mem.host o n
      match liveClause s t with
      | some c => .ok s (mergeHost c t o l)
      | none => .ok s l
  | 9 =>
    let o := ctmOff s (tPrn t) o
    match liveClause s t with
    | some c => ctmReadRun (n / 64 + 2) s c.begin_ o n []
    | none => match ctmReadOut s o n with
      | .ok s l => .ok s l
      | _ => .bad
  | _ => match readMem s (tPrn t) a n with
    | .ok l => .ok s l
    | .error _ => .bad

/-! ### Data writes (R93, R94, R101) -/

inductive Stop where
  | on | wait
  | limit (k : Byte)
  /-- an index element out of range (R41) -/
  | range
  /-- an uncorrectable error in a line a part of which is written -/
  | bad
deriving DecidableEq, Repr

/-- What a write did: the bytes taken and why it stopped. -/
structure Put where
  s : State
  t : Transfer
  n : Nat
  stop : Stop

def runBytes (t : Transfer) : Nat := (t.runs.map fun r => r.2.2.length).sum
/-- a run that continues the last one of its segment -/
def addRun (runs : List (Nat × Dword × List Byte)) (seg : Nat) (a : Dword) (l : List Byte) (join : Bool) :
    List (Nat × Dword × List Byte) :=
  match runs.getLast? with
  | some (g, b, d) =>
    if join && g == seg && b + BitVec.ofNat 64 d.length == a then runs.dropLast ++ [(g, b, d ++ l)]
    else if join && g == seg && a + BitVec.ofNat 64 l.length == b then runs.dropLast ++ [(g, a, l ++ d)]
    else runs ++ [(seg, a, l)]
  | none => [(seg, a, l)]
def runSegs (runs : List (Nat × Dword × List Byte)) : Nat := ((runs.map (·.1)).eraseDups).length

/-- CTM lines written by an open clause, as far as it goes -/
def ctmWriteRun (ccw : Dword) (bar : Bool) : Nat → State → Nat → Nat → List Byte → Nat → State × Nat × Stop
  | 0, s, _, _, _, done => (s, done, .on)
  | f + 1, s, b, a, l, done =>
    if l.isEmpty then (s, done, .on)
    else match getClause s b with
      | none => (s, done + l.length, .on)
      | some c =>
        if c.doom.isSome then (s, done + l.length, .on)
        else
          let k := min l.length (64 - a % 64)
          match ctmWriteIn s c ccw bar a (l.take k) with
          | .ok s _ => ctmWriteRun ccw bar f s b (a + k) (l.drop k) (done + k)
          | .waitLine s => (s, done, .wait)
          | .waitEntries s => (s, done, .wait)
          | .lost s => (s, done + l.length, .on)
          | .limit k => (s, done, .limit k)
          | .ecc => (s, done, .bad)
/-- CTM lines written outside any clause, line by line -/
def ctmStoreRun : Nat → State → Nat → List Byte → Nat → State × Nat × Stop
  | 0, s, _, _, done => (s, done, .on)
  | f + 1, s, a, l, done =>
    if l.isEmpty then (s, done, .on)
    else
      let k := min l.length (64 - a % 64)
      match ctmWriteOut s a (l.take k) with
      | .ok s _ => ctmStoreRun f s (a + k) (l.drop k) (done + k)
      | _ => (s, done, .wait)

/-- address of the CCW a transfer's effects belong to (R135) -/
def tCcw (s : State) (t : Transfer) (seg : Nat) : Dword :=
  let items := ((getP s (tPrn t)).cur.map (·.items)).getD []
  ((items[seg]?).getD (firstCcw (getP s (tPrn t)))).addr

/-- bytes written at an address for a transfer; host writes of an open clause are gathered in runs -/
def dataWrite (s : State) (t : Transfer) (seg : Nat) (a : Dword) (l : List Byte) (join : Bool) : Put :=
  let o := offOf a
  match spaceOf a with
  | 0 =>
    if t.clause.isSome then
      match liveClause s t with
      | none => { s := s, t := t, n := l.length, stop := .on }
      | some c =>
        let runs := addRun t.runs seg a l join
        match limitOf c (runSegs runs) (runBytes t + l.length) runs.length with
        | some k => { s := s, t := t, n := 0, stop := .limit k }
        | none => { s := s, t := { t with runs := runs }, n := l.length, stop := .on }
    else if canIssue s t.fn then { s := hostWrite s o l, t := t, n := l.length, stop := .on }
    else { s := s, t := t, n := 0, stop := .wait }
  | 9 =>
    let o := ctmOff s (tPrn t) o
    let r := match t.clause with
      | some b =>
        if t.dead then (s, l.length, Stop.on) else ctmWriteRun (tCcw s t seg) t.bar (l.length + 1) s b o l 0
      | none => ctmStoreRun (l.length + 1) s o l 0
    { s := r.1, t := t, n := r.2.1, stop := r.2.2 }
  | 8 => { s := writeDram s o l, t := t, n := l.length, stop := .on }
  | _ => { s := writeLoc s o l, t := t, n := l.length, stop := .on }

/-! ### Index tables (R40, R41, R163) -/

/-- where element i's entry of a table stands -/
def entryAt (tab : Dword) (i : Nat) : Nat := offOf tab + 8 + 4 * i
/-- the part of the 64-byte line with element i's entry that belongs to a table of n entries: where it starts, its length -/
def tabLine (tab : Dword) (n i : Nat) : Nat × Nat :=
  let l := entryAt tab i / 64 * 64
  let a := max l (offOf tab + 8)
  (a, min (l + 64) (entryAt tab n) - a)
def lineHeld (t : Transfer) (seg a : Nat) : Bool := t.lines.any fun x => x.1 == seg && x.2.1 == a
/-- the address of element i of an index table, from the lines held; none while its line has not been fetched -/
def elemAddr (t : Transfer) (seg : Nat) (tab base : Dword) (i : Nat) : Option Dword :=
  let e := entryAt tab i
  (t.lines.find? fun x => x.1 == seg && decide (x.2.1 ≤ e) && decide (e < x.2.1 + x.2.2.length)).map fun x =>
    base + BitVec.ofNat 64 (ofLE (subBytes x.2.2 (e - x.2.1) 4))
/-- the line to fetch next, for the element i to be used, and whether it is wanted ahead: its own, else the one after it -/
def lineDue (t : Transfer) (seg : Nat) (tab : Dword) (n i : Nat) : Option (Nat × Nat × Bool) :=
  let x := tabLine tab n i
  if n ≤ i then none
  else if !(lineHeld t seg x.1) then some (x.1, x.2, false)
  else
    let y := tabLine tab n (i + (x.1 + x.2 - entryAt tab i) / 4)
    if decide (x.1 + x.2 < entryAt tab n) && !(lineHeld t seg y.1) then some (y.1, y.2, true) else none
/-- lines of a segment all of whose entries stand before this address are let go -/
def dropLines (t : Transfer) (seg e : Nat) : Transfer :=
  { t with lines := t.lines.filter fun x => x.1 != seg || decide (e < x.2.1 + x.2.2.length) }
/-- A line of a segment's index table, and whether it is wanted ahead of the elements. -/
structure LineRef where
  seg   : Nat
  addr  : Dword
  len   : Nat
  ahead : Bool
/-- One line of a table fetched (R163); none while it cannot be: an error on it is a mover check (R173). -/
def fetchLine (s : State) (t : Transfer) (x : LineRef) : Option Transfer :=
  if spaceOf x.addr == 0 && !(canIssue s t.fn) then none
  else match readMem s (tPrn t) x.addr x.len with
    | .ok l => some { t with lines := t.lines ++ [(x.seg, offOf x.addr, l)] }
    | .error _ => none
/-- an element lies in its space (R13, R14, R41): its space is that of the base -/
def elemGood (s : State) (prn : Nat) (base a : Dword) (n : Nat) : Bool :=
  spaceOf a == spaceOf base && inRange s prn a n

/-- a scatter, element by element (R163) -/
def scatter (seg : Nat) (tab base : Dword) (lg : Nat) : Nat → Put → Nat → List Byte → Put
  | 0, r, _, _ => r
  | f + 1, r, off, l =>
    if l.isEmpty then r
    else
      let sz := 2 ^ lg
      match elemAddr r.t seg tab base (off / sz) with
      | none => { r with stop := .wait }
      | some a =>
        if !(elemGood r.s (tPrn r.t) base a sz) then { r with stop := .range }
        else
          let k := min l.length (sz - off % sz)
          let w := dataWrite r.s r.t seg (a + BitVec.ofNat 64 (off % sz)) (l.take k) (off % sz != 0)
          let r := { w with n := r.n + w.n }
          if w.stop == .on && w.n == k then scatter seg tab base lg f r (off + k) (l.drop k) else r

/-- staged bytes of a device operation stay within the clause's limits (Table 4-3) -/
def gatherLimit (s : State) (t : Transfer) (n : Nat) : Option Byte :=
  match liveClause s t with
  | some c => limitOf c 1 (t.gather.length + n) 0
  | none => none

/-- A transfer with the data buffer its device operation needs; none while a page is wanting (08 R241). In a clause the
data is staged and has its buffer at release. -/
def withBuffer (s : State) (t : Transfer) (bi : Nat) : Option Transfer :=
  match t.clause, t.pages, t.origin with
  | none, [], .ccw n =>
    let p := getP s n
    let b := bindOf p bi
    let c := firstCcw p
    let sub := if fXfm c || fIdx c then 0 else bitsAt c.mod 0 6
    let need := if bKind b = 2 then 1
      else if bKind b = 1 then nvPages (if c.verb = 0x21 ∧ (sub = 1 ∨ sub = 3) then tTotal t - 8 else tTotal t)
      else 0
    if need = 0 || !(portUp (getPort s (bQuad b) (bPort b))) then some t
    else (allocPages s (bQuad b) (bPort b) need).map fun l => { t with pages := l }
  | _, _, _ => some t

/-- bytes handed to a segment's destination at an offset of it -/
def destWrite (s : State) (t : Transfer) (seg : Nat) (d : Dest) (off : Nat) (l : List Byte) : Put :=
  match d with
  | .mem a => dataWrite s t seg (a + BitVec.ofNat 64 off) l true
  | .table tab base lg => scatter seg tab base lg (l.length + 1) { s := s, t := t, n := 0, stop := .on } off l
  | .device b =>
    (match gatherLimit s t l.length, withBuffer s t b.toNat with
     | some k, _ => { s := s, t := t, n := 0, stop := .limit k }
     | none, none => { s := s, t := t, n := 0, stop := .wait }
     | none, some t => { s := s, t := { t with gather := t.gather ++ l }, n := l.length, stop := .on })
  | .discard => { s := s, t := t, n := l.length, stop := .on }
  | .operand _ => { s := s, t := t, n := l.length, stop := .on }

/-! ### The read engine (R156, R160, R163, R164) -/

/-- A fetch's outcome: bytes for a chunk, or nothing this turn. -/
inductive Fetch where
  | pass (s : State)
  | got (s : State) (t : Transfer)
  | limit (s : State) (k : Byte)

def pushChunk (t : Transfer) (seg off : Nat) (l : List Byte) : Transfer :=
  { t with buf := t.buf ++ [{ seg := seg, off := off, bytes := l }] }
/-- the read position moves past n bytes -/
def advance (t : Transfer) (len n : Nat) : Transfer :=
  if t.roff + n < len then { t with roff := t.roff + n } else { t with rseg := t.rseg + 1, roff := 0 }

/-- bytes of the segments before one -/
def segBase (t : Transfer) (i : Nat) : Nat := segsLen (t.segs.take i)

/-- one element, or part of one, of an index table; contiguous host elements run together to 4 KiB (R163); r bounds it -/
def elemRun (tab base : Dword) (lg r : Nat) : Nat → State → Transfer → Nat → Nat → List Byte → Fetch
  | 0, s, t, seg, _, acc => .got s (pushChunk t seg (t.roff - acc.length) acc)
  | f + 1, s, t, seg, prev, acc =>
    match t.segs[seg]? with
    | none => .pass s
    | some g =>
      let sz := 2 ^ lg
      let put (s : State) (t : Transfer) : Fetch :=
        if acc.isEmpty then .pass s else .got s (pushChunk t seg (t.roff - acc.length) acc)
      if g.len ≤ t.roff then put s t
      else match elemAddr t seg tab base (t.roff / sz) with
        | none => put s t
        | some a =>
          if !(elemGood s (tPrn t) base a sz) then
            if acc.isEmpty then .got s { t with fault := true } else put s t
          else
            let a := a + BitVec.ofNat 64 (t.roff % sz)
            let k := min (upTo4k (offOf a) (sz - t.roff % sz)) (min r 4096 - acc.length)
            let joins := acc.isEmpty || (spaceOf a == 0 && offOf a == prev && offOf a % 4096 != 0)
            if !joins || k == 0 then put s t
            else match dataRead s t a k with
              | .ok s l => elemRun tab base lg r f s { t with roff := t.roff + l.length } seg (offOf a + l.length) (acc ++ l)
              | .wait s => put s t
              | .bad => put s t
              | .limit x => .limit s x
/-- the segment is left once all of it is read -/
def settle (t : Transfer) : Transfer :=
  match t.segs[t.rseg]? with
  | some g => if g.len ≤ t.roff then { t with rseg := t.rseg + 1, roff := 0 } else t
  | none => t

/-- MOVE with IDX: one element is read wholly, and written, before the next is read (R160). -/
def elemWhole (s : State) (t : Transfer) (g : Seg) (tab base : Dword) (lg r : Nat) : Fetch :=
  let sz := 2 ^ lg
  if !t.buf.isEmpty && t.roff % sz == 0 then .pass s
  else match elemAddr t t.rseg tab base (t.roff / sz) with
    | none => .pass s
    | some a =>
      if !(elemGood s (tPrn t) base a sz) then .got s { t with fault := true }
      else
        let a := a + BitVec.ofNat 64 (t.roff % sz)
        let k := min (upTo4k (offOf a) (sz - t.roff % sz)) r
        match dataRead s t a k with
        | .ok s l =>
          if l.isEmpty then .pass s
          else
            let t' := match t.buf.getLast? with
              | some c => { t with buf := t.buf.dropLast ++ [{ c with bytes := c.bytes ++ l }] }
              | none => pushChunk t t.rseg t.roff l
            .got s (advance t' g.len l.length)
        | .wait s => .pass s
        | .bad => .pass s
        | .limit x => .limit s x
/-- a chunk whose element has not been read wholly (R160) -/
def elemPartial (t : Transfer) (c : Chunk) : Bool :=
  match t.segs[c.seg]? with
  | some { src := .table _ _ lg, dst := .mem _, len := _ } => (c.off + c.bytes.length) % 2 ^ lg != 0
  | _ => false

/-- the index table of a segment: the table, its element size's log2, and the stream position whose lines are in use -/
def tableOf (t : Transfer) (seg : Nat) (g : Seg) : Option (Dword × Nat × Nat) :=
  match g.src, g.dst with
  | .table tab _ lg, _ => some (tab, lg, if seg = t.rseg then t.roff else g.len)
  | _, .table tab _ lg => some (tab, lg, t.moved - segBase t seg)
  | _, _ => none
/-- the table line a context's read engine fetches next: of the segment it reads, or of the one being written (R163) -/
def lineNext (t : Transfer) : Option LineRef :=
  (List.range (t.rseg + 1)).findSome? fun seg =>
    (t.segs[seg]?).bind fun g => (tableOf t seg g).bind fun x =>
      (lineDue t seg x.1 (g.len / 2 ^ x.2.1) (x.2.2 / 2 ^ x.2.1)).map fun y =>
        { seg := seg, addr := BitVec.ofNat 64 (spaceOf x.1 * 2 ^ 60 + y.1), len := y.2.1, ahead := y.2.2 }
/-- table lines that no element to come needs -/
def trimLines (t : Transfer) : Transfer :=
  (List.range t.segs.length).foldl (fun t seg =>
    match (t.segs[seg]?).bind fun g => tableOf t seg g with
    | some x => dropLines t seg (entryAt x.1 (x.2.2 / 2 ^ x.2.1))
    | none => t) t
/-- the next fetch of a MOVE that runs in descending order: where it starts, its length -/
def descRun (a : Dword) (len done r : Nat) : Nat × Nat :=
  let e := offOf a + (len - done)
  let start := max (max (offOf a) ((e - 1) / 4096 * 4096)) (e - r)
  (start, e - start)
/-- One fetch of the read engine for a context, of at most r bytes (R156). -/
def fetchMain (s : State) (t : Transfer) (r : Nat) : Fetch :=
  match t.segs[t.rseg]? with
  | none => .pass s
  | some g =>
    match g.src with
    | .pattern _ => .pass s
    | .device id =>
      (match getOp s id with
       | none => .pass s
       | some o =>
         let at_ := segBase t t.rseg + t.roff
         let n := min (min (min 4096 r) (g.len - t.roff)) (o.rx.length - at_)
         if n = 0 then .pass s else .got s (advance (pushChunk t t.rseg t.roff (subBytes o.rx at_ n)) g.len n))
    | .mem a =>
      if t.xf.isNone && segDesc g then
        let (start, n) := descRun a g.len t.roff r
        match dataRead s t (a + BitVec.ofNat 64 (start - offOf a)) n with
        | .ok s l =>
          if l.length = n then .got s (advance (pushChunk t t.rseg (start - offOf a) l) g.len n) else .pass s
        | .wait s => .pass s
        | .bad => .pass s
        | .limit k => .limit s k
      else
        let b := a + BitVec.ofNat 64 t.roff
        (match dataRead s t b (min (upTo4k (offOf b) (g.len - t.roff)) r) with
         | .ok s l => if l.isEmpty then .pass s else .got s (advance (pushChunk t t.rseg t.roff l) g.len l.length)
         | .wait s => .pass s
         | .bad => .pass s
         | .limit k => .limit s k)
    | .table tab base lg =>
      if (match g.dst with | .mem _ => true | _ => false) then elemWhole s t g tab base lg r
      else (match elemRun tab base lg r 4097 s t t.rseg 0 [] with
      | .got s t => .got s (settle t)
      | r => r)

/-- the second operand of a COMPARE's last chunk (R164) -/
def fetchOther (s : State) (t : Transfer) (c : Chunk) (b : Dword) : Fetch :=
  let a := b + BitVec.ofNat 64 (c.off + c.other.length)
  match dataRead s t a (upTo4k (offOf a) (c.bytes.length - c.other.length)) with
  | .ok s l => if l.isEmpty then .pass s else .got s { t with buf := t.buf.dropLast ++ [{ c with other := c.other ++ l }] }
  | .wait s => .pass s
  | .bad => .pass s
  | .limit k => .limit s k
/-- a COMPARE's last chunk wants its second operand: the operands take turns (R164) -/
def wantsOther (t : Transfer) : Option (Chunk × Dword) :=
  match t.compare, t.buf.getLast?, t.segs.head? with
  | true, some c, some g => (match g.dst with | .operand b => if c.other.length < c.bytes.length then some (c, b) else none | _ => none)
  | _, _, _ => none
/-- A turn's fetch: a COMPARE's second operand, whose place is kept; a table line, the one after it only with room; or
data, of at most the r bytes there is room for. -/
def fetchTurn (s : State) (t : Transfer) (r : Nat) : Fetch :=
  let data : Fetch := if r < (if t.compare then 2 else 1) then .pass s else fetchMain s t (if t.compare then r / 2 else r)
  match wantsOther t, lineNext t with
  | some (c, b), _ => fetchOther s t c b
  | none, some x =>
    if x.ahead && r == 0 then .pass s
    else (match fetchLine s t x with
      | some t => .got s (trimLines t)
      | none => data)
  | none, none => data

/-- contexts in rotation after the one served last (R156) -/
def rotation (last : Nat) : List Nat := (List.range 64).map fun i => (last + 1 + i) % 64
/-- The fetch the read engine is at, for the capture registers (R174): its address, none from a quad's receive buffer. -/
def fetchAddr (s : State) (m : Nat) (t : Transfer) : Option Dword :=
  let r := windowRoom s (getMv s m) t
  match wantsOther t, lineNext t, t.segs[t.rseg]? with
  | some (c, b), _, _ => some (b + BitVec.ofNat 64 (c.off + c.other.length))
  | none, some x, _ => some x.addr
  | none, none, some g =>
    (match g.src with
     | .mem a => some (if t.xf.isNone && segDesc g then a + BitVec.ofNat 64 ((descRun a g.len t.roff r).1 - offOf a)
                       else a + BitVec.ofNat 64 t.roff)
     | .table tab base lg => (elemAddr t t.rseg tab base (t.roff / 2 ^ lg)).map fun a => a + BitVec.ofNat 64 (t.roff % 2 ^ lg)
     | _ => none)
  | none, none, none => none
/-- the source of the whole transfer -/
def srcFirst (t : Transfer) : Option Source := t.segs.head?.map fun g => g.src
/-- the space code of the capture registers (Table 6-10 SOURCE) -/
def sourceCode (a : Option Dword) : BitVec 3 :=
  match a.map spaceOf with | none => 1 | some 0 => 0 | some 8 => 2 | some 9 => 3 | some _ => 4

/-! ### Tickets (07 R219, R220) -/

def firstFree (tk : Tab Ticket) : Option Nat := (List.range 16).find? fun i => tget .free tk i == .free
/-- what MOVWT writes (Table 7-9), and whether the ticket is free again; none while the transfer runs -/
def movwtValue (tk : Tab Ticket) (t : Nat) : Option Word :=
  match tget .free tk t with
  | .free => some 0x0F
  | .busy _ => none
  | .done r d => some (BitVec.ofNat 32 (r.toNat + 256 * d.toNat))
def markTicket (tk : Tab Ticket) (t id : Nat) (r d : Byte) : Tab Ticket :=
  if tget .free tk t == .busy id then tset .free t (.done r d) tk else tk

/-- A MOVWT that waits gets its result (R220). -/
def resumeMovwt (p : Pron) : Pron :=
  match p.script with
  | some sc =>
    (match sc.stall with
     | some (.ticket w) =>
       let t := (getG sc.regs (rs1Of w)).toNat
       (match movwtValue p.tickets t with
        | some v =>
          { p with tickets := tset .free t .free p.tickets
                   script := some { sc with stall := none, regs := { setG sc.regs (rdOf w) v with pc := sc.regs.pc + 4 } } }
        | none => p)
     | _ => p)
  | none => p
def resumeCpMovwt (c : Cp) : Cp :=
  match c.stall with
  | some (.ticket w) =>
    let t := (getG c.regs (rs1Of w)).toNat
    (match movwtValue c.tickets t with
     | some v => { c with tickets := tset .free t .free c.tickets, stall := none
                          regs := { setG c.regs (rdOf w) v with pc := c.regs.pc + 4 } }
     | none => c)
  | _ => c

/-- END, once every outstanding request has ended (R214). -/
def scriptEnds (s : State) (n : Nat) (w : Word) : State :=
  match (getP s n).script with
  | none => s
  | some sc => endCcw s n { resid := sc.left, skip := w.getLsbD 0 }
def resumeEnding (s : State) (n : Nat) : State :=
  match ((getP s n).script.bind (·.stall)) with
  | some (.ending w) => if (outstanding s n).isEmpty && onSlot s n then scriptEnds s n w else s
  | _ => s

/-! ### Ends (R158) -/

def writeOut (s : State) (origin : Origin) (v : Nat) : State :=
  match origin with
  | .ticket _ _ b => writeLoc s (b + 24) (toLE 4 v)
  | .firmware _ b => writeTcm s (b + 24) (toLE 4 v)
  | .ccw _ => s
/-- What a transfer's end reports. -/
structure TEnd where
  result : Byte := 0
  detail : Byte := 0

/-- a request's end: OUT, its ticket, and what waited for it -/
def requestEnd (s : State) (t : Transfer) (e : TEnd) : State :=
  let out := if t.compare then (t.differ.getD 0xFFFFFFFF) else t.moved
  let s := writeOut s t.origin out
  let e := if t.compare && t.differ.isSome && e.result == 0 then { e with result := 0x01 } else e
  match t.origin with
  | .ticket n k _ =>
    let s := modP s n fun p => resumeMovwt { p with tickets := markTicket p.tickets k t.id e.result e.detail }
    resumeEnding (releaseHold s n) n
  | .firmware k _ =>
    { s with cp := resumeCpMovwt { s.cp with tickets := markTicket s.cp.tickets k t.id e.result e.detail } }
  | .ccw _ => s

/-- a reset that waited for transfers completes (R77) -/
def resetWaits (s : State) (n : Nat) : State :=
  if (getP s n).resetting && (outstanding s n).isEmpty then resetFinish s n else s
def inPhase (s : State) (n : Nat) : Bool := running (getP s n) && (getP s n).cur.isSome

/-- COMPARE's end (R37) -/
def compareEnd (s : State) (n : Nat) (t : Transfer) : State :=
  let c := lastCcw (getP s n)
  match t.differ with
  | none => endCcw s n { skip := c.mod == 2 }
  | some d =>
    let r := c.count - BitVec.ofNat 32 d
    endCcw s n { resid := r, chan := chanMismatch, stop := c.mod == 0, skip := c.mod == 1 }

/-- the flow RESULT a CCW read at its check (08 R254) -/
def curFlow (s : State) (n : Nat) : Word := (((getP s n).cur).map (·.flow)).getD 0

/-- a CCW's device operation that has ended is taken off the list and its CCW ends (R270) -/
def opEnds (s : State) (n : Nat) (o : DevOp) : State :=
  match o.stage with
  | .ended dev det resid =>
    let s := dropOp s o
    if devOutcome dev == devDone then writeEnd s n dev resid else deviceFails s n o dev det resid
  | _ => s

/-- A device operation whose last byte is gathered: checked, then handed or staged (R157, R269, R93). -/
def handOp (s : State) (n : Nat) (t : Transfer) (bi : Nat) : State :=
  let p := getP s n
  let c := firstCcw p
  let b := bindOf p bi
  let sub := if fXfm c || fIdx c then 0 else bitsAt c.mod 0 6
  let flow := curFlow s n
  if c.verb = 0x31 ∧ !(paramsGood (bKind b) sub t.gather) then programCheck s n 0x08 0 0 (lastCcw p).addr
  else
    let image := opImage s b c.verb sub t.gather.length t.gather flow
    match t.clause with
    | some k =>
      (match getClause s k with
       | none => endCcw s n {}
       | some cl =>
         let image := if bKind b = 5 then setField image 16 8 cl.nEffects else image
         let e : Effect := { body := .dev (BitVec.ofNat 2 bi) image, bar := t.bar, data := t.gather, ccw := c.addr, verb := c.verb }
         match stage s k [e] 1 t.gather.length 0 with
         | .limit x => programCheck s n 0x0F x 0 c.addr
         | .lost s => endCcw s n {}
         | .ok s => endCcw s n { dev := devDone })
    | none =>
      let append := bKind b = 1 ∧ c.verb = 0x21 ∧ (sub = 0 ∨ sub = 2)
      let (s, lba) := if append then takeAppend s b (bitsAt image 32 32) else (s, 0)
      let image := if append then setField image 64 64 lba else image
      let o := { makeOp b (.ccw n) c.verb sub t.gather.length image t.gather with pages := t.pages }
      let (s, id) := issueOp (if t.pages.isEmpty then s else markUsed s o.q o.p t.pages) o flow
      let s := setPhase s n (.device id)
      match getOp s id with
      | some o => if isEnded o then opEnds s n o else s
      | none => s

/-- A READ or SENSE: its data is stored and its operation has ended (R270, R28). -/
def readDone (s : State) (n : Nat) (o : DevOp) (moved : Nat) : State :=
  match o.stage with
  | .ended dev det resid =>
    let s := dropOp s o
    if devOutcome dev == devDone then readEnd s n dev moved o.long resid else deviceFails s n o dev det resid
  | _ => s

def tBind (t : Transfer) : Option Nat := t.segs.head?.bind fun g => match g.dst with | .device b => some b.toNat | _ => none

/-- The CCW whose data phase has ended goes on (R158, R33). -/
def ccwDataEnd (s : State) (n : Nat) (t : Transfer) : State :=
  if !(inPhase s n) then s
  else if t.compare then compareEnd s n t
  else match tBind t with
    | some b => handOp s n t b
    | none =>
      match tOp t with
      | some id => (match getOp s id with
        | some o => if isEnded o then readDone s n o t.moved else setPhase s n (.device id)
        | none => s)
      | none => endCcw s n {}

/-- The transfer leaves its mover and its owner goes on. -/
def transferEnd (s : State) (m k : Nat) (t : Transfer) (e : TEnd) : State :=
  let s := fillMv (dropCtx s m k) m
  match t.origin with
  | .ccw n => resetWaits (ccwDataEnd s n t) n
  | .ticket n _ _ => resetWaits (requestEnd s t e) n
  | .firmware _ _ => requestEnd s t e

/-- a limit of its clause that a script's request exceeds: checked now, or, off the slot, at the next placement (R104) -/
def limitMet (s : State) (n : Nat) (t : Transfer) (det : Byte) : State :=
  if inPhase s n then programCheck s n 0x0F det (((getP s n).script.map (·.left)).getD 0) (lastCcw (getP s n)).addr
  else
    let s := if (liveClause s t).isSome then modP s n fun p => { p with limitDue := some det } else s
    requestEnd s t {}
/-- A CCW's transfer stops with a program check, its residual that of the CCW named, or a request's with a result (R41,
R104). -/
def transferCheck (s : State) (m k : Nat) (t : Transfer) (code det result : Byte) : State :=
  let s := fillMv (dropCtx s m k) m
  match t.origin with
  | .ccw n =>
    let s := dropOpOf s (tOp t)
    let at_ := (ccwAt (((getP s n).cur.map (·.items)).getD []) t.moved).getD (lastCcw (getP s n), 0)
    resetWaits (if inPhase s n then programCheck s n code det (at_.1.count - BitVec.ofNat 32 at_.2) at_.1.addr else s) n
  | .ticket n _ _ =>
    resetWaits (if code = 0x0F then limitMet s n t det else requestEnd s t { result := result }) n
  | .firmware _ _ => requestEnd s t { result := result }
/-- A stopping condition of a CCW's transfer, or a request's result (R162, R169, R489). -/
def transferStops (s : State) (m k : Nat) (t : Transfer) (chan det : Byte) (e : TEnd) (resid : Option Word) : State :=
  let s := fillMv (dropCtx s m k) m
  match t.origin with
  | .ccw n =>
    let s := dropOpOf s (tOp t)
    let c := lastCcw (getP s n)
    resetWaits (if inPhase s n then stopCondition s n 0 chan det (resid.getD (BitVec.ofNat 32 (tTotal t - t.moved))) c.addr else s) n
  | .ticket n _ _ => resetWaits (requestEnd s t e) n
  | .firmware _ _ => requestEnd s t e

/-! ### The write engine's last step (R96, R161, R167, R169) -/

/-- one segment's runs as effect descriptors -/
def runEffects (s : State) (t : Transfer) (seg : Nat) : List Effect :=
  (t.runs.filter fun r => r.1 == seg).map fun r => { body := .host r.2.1, bar := t.bar, data := r.2.2, ccw := tCcw s t seg }
/-- the runs staged, one effect for each CCW (R96) -/
def stageRuns (s : State) (b : Nat) (t : Transfer) : List Nat → Staged
  | [] => .ok s
  | g :: gs =>
    let es := runEffects s t g
    match stage s b es 1 (es.map (·.data.length)).sum es.length with
    | .ok s => stageRuns s b t gs
    | r => r
/-- the result record written back (R167) -/
def recordEffects (x : Xform) (l : List Byte) (ccw : Dword) : List Effect := [{ body := .host x.at_, data := l, ccw := ccw }]
def writeRecord (s : State) (t : Transfer) (x : Xform) (l : List Byte) : Staged :=
  if spaceOf x.at_ = 0 then
    (match t.clause with
     | some b => stage s b (recordEffects x l (tCcw s t 0)) 1 64 1
     | none => .ok (hostWrite s (offOf x.at_) l))
  else if spaceOf x.at_ = 8 then .ok (writeDram s (offOf x.at_) l) else .ok (writeLoc s (offOf x.at_) l)

/-- a barred transfer to host memory outside a clause waits for its read-back (R161) -/
def awaitsHost (t : Transfer) : Bool :=
  t.bar && t.clause.isNone && t.segs.any fun g => match g.dst with
    | .mem a => spaceOf a == 0
    | .table _ b _ => spaceOf b == 0
    | _ => false

/-- the result record cannot be written to host memory now (09 R297) -/
def recordWaits (s : State) (t : Transfer) : Bool :=
  match t.xf with
  | some x => t.clause.isNone && spaceOf x.at_ == 0 && !(canIssue s t.fn)
  | none => false
/-- The last byte is written: staging, record, barrier, end. -/
def lastByte (s : State) (m k : Nat) (t : Transfer) : State :=
  if recordWaits s t then putCtx s m k t else
  let data : Staged := match t.clause with
    | some b => stageRuns s b t ((t.runs.map (·.1)).eraseDups)
    | none => .ok s
  let fin := t.xf.map fun x => (x, xfFinish x)
  let staged : Staged := match data, fin with
    | .ok s, some (x, r) => writeRecord s t x r.1
    | r, _ => r
  match staged with
  | .limit x => transferCheck s m k t 0x0F x 0
  | .lost s => transferEnd s m k { t with dead := true, runs := [] } {}
  | .ok s =>
    if !((fin.map (·.2.2)).getD true) then transferStops s m k t chanTransform 0 { result := 0x03 } (some 0)
    else if awaitsHost t then
      let s := putCtx s m k { t with arrival := true, runs := [] }
      (match t.origin with | .ccw n => setPhase s n .barrier | _ => s)
    else transferEnd s m k { t with runs := [] } {}

/-- a chunk that a COMPARE has looked at (R164) -/
def compareChunk (t : Transfer) (c : Chunk) : Transfer :=
  let d := ((c.bytes.zip c.other).findIdx? fun p => p.1 != p.2).map (· + c.off)
  { t with buf := t.buf.drop 1, moved := t.moved + c.bytes.length, differ := t.differ.or d }

/-- a MOVE through a profile that overlaps its destination writes nothing until all is read (R160) -/
def holdsOutput (t : Transfer) (x : Xform) : Bool := holdsAll t && decide (x.input.length < tTotal t)
/-- pending output of a transform: the output not yet written -/
def xfPending (x : Xform) : List Byte := (xfOutput x).drop x.out

/-- the read side has delivered its last byte: nothing more will come -/
def readOver (s : State) (t : Transfer) : Bool :=
  match tOp t with
  | none => false
  | some id => match getOp s id with
    | some o => isEnded o && decide (o.rx.length ≤ t.moved) && t.buf.isEmpty
    | none => false

/-- what the write engine does next for a context -/
inductive Work where
  | none_
  | chunk (c : Chunk)
  /-- bytes at a stream position -/
  | bytes (l : List Byte)
  | last
  | fault
/-- the work of one write turn -/
def workOf (s : State) (t : Transfer) : Work :=
  if t.arrival then .none_
  else if t.moved = tTotal t || (readOver s t && t.xf.isNone) then .last
  else match t.xf with
    | some x => if !(xfPending x).isEmpty && !(holdsOutput t x) then .bytes [] else (match t.buf with
      | c :: _ => .chunk c
      | [] => if readOver s t then .last else if t.fault then .fault else .none_)
    | none =>
      match t.buf with
      | c :: _ =>
        if (t.compare && decide (c.other.length < c.bytes.length)) || elemPartial t c then .none_ else .chunk c
      | [] =>
        if t.fault then .fault
        else match srcFirst t with
          | some (.pattern b) => .bytes (List.replicate (min 4096 (tTotal t - t.moved)) b)
          | _ => .none_

/-- A put's result stored: progress, then the next step of the transfer. -/
def afterPut (s : State) (m k : Nat) (t : Transfer) (stop : Stop) : State :=
  match stop with
  | .limit x => transferCheck s m k t 0x0F x 0
  | .range => transferCheck s m k t 0x04 0 0x05
  | _ => if t.moved = tTotal t && stop == .on then lastByte s m k t else putCtx s m k t

/-- the first n bytes of a chunk have been written -/
def eatChunk (t : Transfer) (n : Nat) : Transfer :=
  match t.buf with
  | c :: cs =>
    if n < c.bytes.length then { t with buf := { c with off := c.off + n, bytes := c.bytes.drop n } :: cs, moved := t.moved + n }
    else { t with buf := cs, moved := t.moved + n }
  | [] => { t with moved := t.moved + n }
/-- bytes written at the stream position of a transfer, up to the end of the segment there -/
def putStream (s : State) (t : Transfer) (pos : Nat) (l : List Byte) : Put :=
  match segAt t.segs 0 pos with
  | none => { s := s, t := t, n := 0, stop := .on }
  | some (i, off) =>
    match t.segs[i]? with
    | none => { s := s, t := t, n := 0, stop := .on }
    | some g => destWrite s t i g.dst off (l.take (g.len - off))
/-- one turn of a transform's output, up to 4 KiB; none while its destination back-pressures -/
def putXform (s : State) (m k : Nat) (t : Transfer) (x : Xform) : Option State :=
  let w := putStream s t x.out ((xfPending x).take 4096)
  if w.stop == .wait && w.n == 0 then (if w.s == s then none else some (putCtx w.s m k w.t))
  else
    let t := { w.t with xf := some { x with out := x.out + w.n }, moved := t.moved + w.n }
    some (afterPut w.s m k t w.stop)

/-- One write turn of a context; none when it is passed over. -/
def writeTurn (s : State) (m k : Nat) (t : Transfer) : Option State :=
  match workOf s t with
  | .none_ => none
  | .fault => some (transferCheck s m k t 0x04 0 0x05)
  | .last => if recordWaits s t then none else some (lastByte s m k t)
  | .chunk c =>
    if t.compare then
      let t := compareChunk t c
      some (if t.moved = tTotal t then lastByte s m k t else putCtx s m k t)
    else
      (match t.xf with
       | some x =>
         let x := { x with input := x.input ++ c.bytes }
         let t := { t with buf := t.buf.drop 1, xf := some x }
         if holdsOutput t x || (xfPending x).isEmpty then some (putCtx s m k t) else putXform s m k t x
       | none =>
         (match t.segs[c.seg]? with
          | none => none
          | some g =>
            let w := destWrite s t c.seg g.dst c.off c.bytes
            if w.stop == .wait && w.n == 0 then (if w.s == s then none else some (putCtx w.s m k w.t))
            else some (afterPut w.s m k (eatChunk w.t w.n) w.stop)))
  | .bytes l =>
    (match t.xf with
     | some x => putXform s m k t x
     | none =>
       let w := putStream s t t.moved l
       if w.stop == .wait && w.n == 0 then (if w.s == s then none else some (putCtx w.s m k w.t))
       else some (afterPut w.s m k { w.t with moved := t.moved + w.n } w.stop))

def ctxAt (x : Mover) (k : Nat) : Option Transfer := aget x.ctx k
/-- The write engine serves the next context in rotation that has something to write. -/
def writeRotate (s : State) (m : Nat) : List Nat → State
  | [] => s
  | k :: ks =>
    match ctxAt (getMv s m) k with
    | none => writeRotate s m ks
    | some t =>
      match writeTurn s m k t with
      | some s => modMv s m fun x => { x with wlast := k }
      | none => writeRotate s m ks

/-- An operation of a CCW has ended: its CCW ends, or the rest of its data is still to be stored (R270). -/
def afterOpEnd (s : State) (o : DevOp) : State :=
  match o.owner with
  | .ccw n =>
    let p := getP s n
    if (p.cur.map (·.phase)) == some (.device o.id) then
      (if o.verb = 0x21 ∨ o.verb = 0x31 then opEnds s n o
       else readDone s n o (chainTotal ((p.cur.map (·.items)).getD [])))
    else
      match ((List.range 8).map fun m => ((getMv s m).ctx.map fun e => (m, e.1, e.2))).flatten.find? fun e =>
          e.2.2.origin == .ccw n && tOp e.2.2 == some o.id with
      | some (m, k, t) => if t.xf.isNone && !t.arrival && readOver s t then lastByte s m k t else s
      | none => s
  | .effect n i => match o.stage with
    | .ended dev _ _ => effectOpEnd (dropOp s o) n i dev
    | _ => s
  | .loose => if isEnded o then dropOp s o else s
/-- an operation ends with this status, and what waited for it goes on -/
def finishOp (s : State) (o : DevOp) (dev det : Byte) (resid : Nat) : State :=
  let s := endOp s o dev det resid
  match getOp s o.id with
  | some o => afterOpEnd s o
  | none => s

/-! ### The read engine's turn -/

/-- the result record is read when the transfer starts (R167); an error belongs to the transfer (R162, R489) -/
def startXform (s : State) (m k : Nat) (t : Transfer) (x : Xform) : State :=
  match readMem s (tPrn t) x.at_ 64 with
  | .ok l =>
    let l := match spaceOf x.at_, liveClause s t with
      | 0, some c => mergeHost c t (offOf x.at_) l
      | _, _ => l
    let (s, x) := xfStart s x l
    putCtx s m k { t with xf := some x }
  | .error (.host d) => transferStops s m k t chanHost d { result := 0x02, detail := d } none
  | .error .ecc =>
    transferStops s m k t 0 (if spaceOf x.at_ = 0xA then 0x81 else 0x8B) { result := 0x06 } none

/-- One read turn of a context; none when it is passed over. -/
def readTurn (s : State) (m k : Nat) (t : Transfer) : Option State :=
  if t.arrival || t.fault then none
  else match t.xf with
    | some x =>
      if x.record.isEmpty then
        (if spaceOf x.at_ = 0 && !(canIssue s t.fn) then none else some (startXform s m k t x))
      else readGo s m k t
    | none => readGo s m k t
where
  readGo (s : State) (m k : Nat) (t : Transfer) : Option State :=
    match fetchTurn s t (windowRoom s (getMv s m) t) with
      | .pass s' => if s' == s then none else some (putCtx s' m k t)
      | .got s t => some (putCtx s m k t)
      | .limit s x => some (transferCheck s m k t 0x0F x 0)
def readRotate (s : State) (m : Nat) : List Nat → State
  | [] => s
  | k :: ks =>
    match ctxAt (getMv s m) k with
    | none => readRotate s m ks
    | some t =>
      match readTurn s m k t with
      | some s => modMv s m fun x => { x with rlast := k }
      | none => readRotate s m ks

/-! ### Mover check (R173 to R176) -/

/-- an open clause of a pronoun that leaves its slot with a mover check is doomed, its abort due at the resumption -/
def checkClause (s : State) (n : Nat) : State :=
  match clauseOf s n with
  | none => s
  | some c =>
    match c.doom with
    | none => doom s c.begin_ 9 []
    | some r =>
      modP (dropClause (cancelWork s c.begin_) c.begin_) n fun p => { p with rerun := some (rerunOf c r c.doomers) }
def moverWord (p : Pron) (x : Option Rerun) : SWord :=
  match x with
  | some x => { kind := 0x0B, ccw := x.clb, resid := x.count, chan := chanMover ||| chanAbort, det := x.reason }
  | none => { kind := 0x0B, ccw := (firstCcw p).addr, resid := (firstCcw p).count, chan := chanMover }
/-- a clause with cancelled work is doomed (R116) -/
def checkWork (lost : List Nat) (s : State) (n : Nat) : State :=
  match clauseOf s n with
  | some c => if lost.contains c.begin_ then checkClause s n else s
  | none => s
/-- One pronoun with a cancelled transfer goes to PARENTHESIS, held (R174 step 4), from the states Table 3-6 of 03 gives;
in another state only its clause is lost (log entry 107). The clauses with cancelled transfers are given. -/
def holdPronoun (m : Nat) (lost : List Nat) (s : State) (n : Nat) : State :=
  let p := getP s n
  if p.resetting then resetWaits s n
  else if p.state != .active && p.state != .queued && p.state != .halting then checkWork lost s n
  else
    let s := checkWork lost (leaveAll s n) n
    let p := getP s n
    let x := p.rerun.filter fun x => !x.counted
    let w := moverWord p x
    let inScript := p.script.isSome && x.isNone
    let s := if inScript then saveFrame s n else s
    let s := setP s n
      { p with state := if p.state == .halting then .halting else .parenthesis, moverHold := true, checkedBy := some m, fin := none
               wait := none, again := true, ccwAddr := w.ccw
               cur := if inScript then p.cur else none
               script := if inScript then p.script.map fun sc =>
                 { sc with stall := match sc.stall with | some (.waiting _) => none | st => st } else none }
    let s := (postDirect s n w).1
    if (getP s n).state == .halting then haltAct s n else s
/-- a request a check cancelled: result 0x04 for the script (R175, Table 7-9) -/
def cancelTicket (s : State) (t : Transfer) : State :=
  match t.origin with
  | .ticket n k _ => modP s n fun p => resumeMovwt { p with tickets := markTicket p.tickets k t.id 0x04 0 }
  | .firmware k _ => { s with cp := resumeCpMovwt { s.cp with tickets := markTicket s.cp.tickets k t.id 0x04 0 } }
  | .ccw _ => dropOpOf s (tOp t)
def descending (l : List Nat) : List Nat := (l.foldl (fun acc n => linsert n acc) []).reverse
/-- the mover's transfers cancelled, and the pronouns that had one, in descending number -/
def cancelMover (s : State) (m : Nat) : State × List Nat :=
  let l := transfersOf (getMv s m)
  let s := modMv s m fun x => { x with queue := [], ctx := [] }
  (l.foldl cancelTicket s, descending ((l.filterMap fun t => prnOfOrigin t.origin).eraseDups))
/-- pronouns a check of mover m holds, in descending number -/
def heldBy (s : State) (m : Nat) : List Nat :=
  descending ((s.sched.recs.filter fun e => e.2.checkedBy == some m).map (·.1))
/-- pronouns an earlier check left held are no longer held by this mover's check (R176) -/
def forgetHeld (s : State) (m : Nat) : State := (heldBy s m).foldl (fun s n => modP s n fun p => { p with checkedBy := some 8 }) s
def errorCode : FetchError → BitVec 3
  | .unsupported => 1 | .abort => 2 | .timeout => 3 | .poisoned => 4 | .ecc => 5 | .parity => 6
/-- The mover check (R174). -/
def moverCheck (s : State) (m k : Nat) (err : FetchError) (multi : Bool) : State :=
  match ctxAt (getMv s m) k with
  | none => s
  | some t =>
    let a := fetchAddr s m t
    let src := sourceCode a
    let lost := (transfersOf (getMv s m)).filterMap (·.clause)
    let (s, ns) := cancelMover (forgetHeld s m) m
    let was := (getMv s m).checks
    let s := modMv s m fun x =>
      { x with check := true, addr := a.getD 0, source := src, multi := multi, error := errorCode err
               fn := if src == 0 then t.fn else 0, checks := satInc x.checks }
    pulse (rcPulse was (ns.foldl (holdPronoun m lost) s)) (64 + m)

/-- a pronoun held by a check is resumed (R175, R176) -/
def resumeOne (s : State) (n : Nat) : State :=
  let p := getP s n
  if p.checkedBy.isSome && p.state == .parenthesis then
    toQueued (setP s n { p with moverHold := false, checkedBy := none }) n 5
  else s

end Sys2Proof.Machine
end

