-- ==== Sys2Proof/Machine/Check.lean ====
section
/-!
DEFINITION. The fetch of a CCW and the checks made before it has any effect (02 R18 to R24, R38, R40, R42 to R47).
-/

namespace Sys2Proof.Machine

/-! ### Verbs and flags (Tables 2-2, 2-5) -/

def verbs : List Nat := [0x21, 0x22, 0x23, 0x24, 0x25, 0x26, 0x31, 0x41, 0x42, 0x43, 0x44, 0x45, 0x46, 0x51, 0x52, 0x5F]
/-- flags legal on a verb, NEXT lowest (Table 2-5) -/
def legalFlags (v : Nat) : Nat :=
  match v with
  | 0x21 => 0x77F | 0x22 => 0x7FF | 0x23 => 0x71D | 0x24 => 0x67F | 0x25 => 0x61D | 0x26 => 0x60D | 0x31 => 0x61D
  | 0x41 => 0x000 | 0x42 => 0x601 | 0x43 => 0x60D | 0x44 => 0x605 | 0x45 => 0x60D | 0x46 => 0x60D | 0x51 => 0x601
  | 0x52 => 0x60D | 0x5F => 0x608 | _ => 0
def isDevVerb (v : Byte) : Bool := v == 0x21 || v == 0x22 || v == 0x23 || v == 0x31
def isIdx (c : Ccw) : Bool := fIdx c && (c.verb == 0x21 || c.verb == 0x22 || c.verb == 0x24)
def isXfm (c : Ccw) : Bool := fXfm c && (c.verb == 0x21 || c.verb == 0x22 || c.verb == 0x24)
def isEll (c : Ccw) : Bool := fEll c && c.verb == 0x22
/-- binding and sub-operation a device verb selects (03 R64) -/
def ccwBind (c : Ccw) : Nat := if fXfm c || fIdx c then 0 else bitsAt c.mod 6 2
def ccwSub (c : Ccw) : Nat := if fXfm c || fIdx c then 0 else bitsAt c.mod 0 6
/-- log2 of the element size -/
def ccwLg (c : Ccw) : Nat := bitsAt c.mod 0 4
def idxModBad (c : Ccw) : Bool := bitsAt c.mod 4 4 != 0 || decide (12 < ccwLg c)
/-- bytes of an index table -/
def tableLen (c : Ccw) : Nat := if idxModBad c then 8 else 8 + 4 * (c.count.toNat / 2 ^ ccwLg c)

/-- a code found, with its detail -/
abbrev Found := Nat × Nat
def lowest : List Found → Option Found
  | [] => none
  | x :: t => match lowest t with
    | none => some x
    | some y => if x.1 < y.1 ∨ (x.1 = y.1 ∧ x.2 ≤ y.2) then some x else some y
def whenB (b : Bool) (code : Nat) : List Found := if b then [(code, 0)] else []

/-! ### Fields that must be zero (R23, R43) -/

def zeroField (off : Nat) (l : List Byte) : List Found :=
  match l.findIdx? (· != 0) with
  | some i => [(0x02, off + i)]
  | none => []
def modMustZero (c : Ccw) : Bool :=
  [0x41, 0x43, 0x42, 0x44, 0x46, 0x51, 0x52, 0x5F].contains c.verb.toNat || (c.verb == 0x24 && !fXfm c && !fIdx c)
def countMustZero (c : Ccw) : Bool := [0x41, 0x43, 0x45, 0x51].contains c.verb.toNat
/-- bits of ADDR that must be zero -/
def addrMustZero (c : Ccw) : Dword :=
  match c.verb.toNat with
  | 0x43 | 0x51 | 0x52 | 0x5F => BitVec.allOnes 64
  | 0x22 => if fEll c then BitVec.allOnes 64 else 0
  | 0x31 => if c.count = 0 then BitVec.allOnes 64 else 0
  | 0x44 => ~~~0xFF#64
  | 0x45 => if c.mod = 0 then ~~~0x3FF#64 else if c.mod = 1 then ~~~0x7FFFFF#64 else 0
  | _ => 0
def zeroChecks (c : Ccw) : List Found :=
  (if bitsAt c.flags 11 5 ≠ 0 then [(0x02, 3)] else [])
    ++ (if modMustZero c then zeroField 1 [c.mod] else [])
    ++ (if countMustZero c then zeroField 4 (toLE 4 c.count.toNat) else [])
    ++ zeroField 8 (toLE 8 (c.opnd &&& addrMustZero c).toNat)

/-! ### Addresses (R13, R14, R18, R23, R38, R40) -/

/-- an address used for n bytes, aligned, in an allowed space -/
def addrChecks (s : State) (prn : Nat) (a : Dword) (n al : Nat) (allowed : Nat → Bool) : List Found :=
  whenB (!spaceLegal a) 0x03 ++ whenB (spaceLegal a && !inRange s prn a n) 0x04
    ++ whenB (a.toNat % al != 0 || !(allowed (spaceOf a))) 0x05
def anySpace : Nat → Bool := fun _ => true
def ccwSpace : Nat → Bool := fun x => x != 9
def codeSpace : Nat → Bool := fun x => x == 8 || x == 0xA
/-- a CCW's own address, a JUMP's or a LOOP's target (R18) -/
def ccwAddrChecks (s : State) (prn : Nat) (a : Dword) : List Found := addrChecks s prn a 16 16 ccwSpace
/-- ADDR as the verb uses it -/
def fieldChecks (s : State) (prn : Nat) (c : Ccw) : List Found :=
  match c.verb.toNat with
  | 0x21 | 0x22 =>
    if isEll c then []
    else if isIdx c then addrChecks s prn c.opnd (tableLen c) 8 anySpace
    else addrChecks s prn c.opnd c.count.toNat 1 anySpace
  | 0x23 | 0x25 => addrChecks s prn c.opnd c.count.toNat 1 anySpace
  | 0x31 => if c.count = 0 then [] else addrChecks s prn c.opnd c.count.toNat 1 anySpace
  | 0x24 | 0x26 => addrChecks s prn c.opnd 16 16 anySpace
  | 0x41 | 0x42 => ccwAddrChecks s prn c.opnd
  | 0x46 => addrChecks s prn c.opnd 4 4 codeSpace
  | _ => []
/-- the addresses a descriptor holds, and the base of an index table -/
def heldChecks (s : State) (prn : Nat) (c : Ccw) : List Found :=
  (if c.verb = 0x24 ∨ c.verb = 0x26 then
    (if isIdx c then addrChecks s prn c.src (tableLen c) 8 anySpace else addrChecks s prn c.src c.count.toNat 1 anySpace)
      ++ addrChecks s prn c.dst c.count.toNat 1 anySpace
   else [])
def baseChecks (c : Ccw) : List Found := whenB (isIdx c && !spaceLegal c.base) 0x03

/-! ### Single reads of the check (R46, R162, R489) -/

inductive Look where
  | ok (l : List Byte)
  | wait
  | err (e : ReadErr)
def lookAt (s : State) (prn : Nat) (a : Dword) (n : Nat) : Look :=
  if spaceOf a = 0 && !(canIssue s (getP s prn).hostFn) then .wait
  else match readMem s prn a n with
    | .ok l => .ok l
    | .error e => .err e

/-- What the fetch of one CCW has found. -/
inductive Seen where
  | wait
  /-- the CCW with what its descriptor or table gave, and the code found -/
  | ccw (c : Ccw) (codes : List Found)
  /-- its descriptor or table base could not be read -/
  | fails (c : Ccw) (codes : List Found) (e : ReadErr) (at_ : Dword)

/-- the base of an index table, read once the table's own address has passed -/
def seeBase (s : State) (prn : Nat) (c : Ccw) (tab : Dword) (codes : List Found) : Seen :=
  if !(isIdx c) || !(addrChecks s prn tab 8 8 anySpace).isEmpty then .ccw c codes
  else match lookAt s prn tab 8 with
    | .wait => .wait
    | .err e => .fails c codes e tab
    | .ok l =>
      let c := { c with base := BitVec.ofNat 64 (ofLE l) }
      .ccw c (codes ++ baseChecks c)
/-- descriptor and table base (R38, R40) -/
def seeCcw (s : State) (prn : Nat) (c : Ccw) : Seen :=
  let codes := zeroChecks c ++ fieldChecks s prn c
  if c.verb = 0x24 ∨ c.verb = 0x26 then
    if !(addrChecks s prn c.opnd 16 16 anySpace).isEmpty then .ccw c codes
    else match lookAt s prn c.opnd 16 with
      | .wait => .wait
      | .err e => .fails c codes e c.opnd
      | .ok l =>
        let c := { c with src := BitVec.ofNat 64 (ofLE (subBytes l 0 8)), dst := BitVec.ofNat 64 (ofLE (subBytes l 8 8)) }
        seeBase s prn c c.src (codes ++ heldChecks s prn c)
  else seeBase s prn c c.opnd codes

/-! ### Counts, flags, modifiers and bindings -/

/-- What the check of a CCW stands in. -/
structure Ctx where
  /-- first CCW of the data chain, when this one is reached through JOIN -/
  first : Option Ccw
  /-- COUNT of the chain's CCWs before this one -/
  before : Nat
  /-- a clause is open -/
  inClause : Bool
  engine : Nat
deriving DecidableEq, Repr

def countNonzero (c : Ccw) : Bool := [0x21, 0x22, 0x23, 0x42, 0x46, 0x24, 0x25, 0x26].contains c.verb.toNat
def ctxProf (s : State) (c : Ccw) : Option Profile := if isXfm c then some (getProf s c.mod.toNat) else none
/-- this CCW runs inside a clause, its own CLB counted -/
def ctxIn (x : Ctx) (c : Ccw) : Bool := x.inClause || fClb c || (x.first.map fClb).getD false
def ccwMap (s : State) (prn : Nat) (x : Ctx) (c : Ccw) : VerbMap :=
  let b := bindOf (getP s prn) (ccwBind c)
  verbMap s b c.verb.toNat (ccwSub c) (fEll c) (fIdx c) (ctxIn x c) (flowResult s b)
/-- the range that bounds the chain is the first CCW's (R269) -/
def chainMap (s : State) (prn : Nat) (x : Ctx) (c : Ccw) : VerbMap := ccwMap s prn x (x.first.getD c)
/-- a running total against the range of its verb (R269) -/
def rangeChecks (lo hi mult off total : Nat) (last : Bool) : List Found :=
  whenB (decide (hi < total)) 0x06 ++ whenB (last && (decide (total < lo) || (total - off) % mult != 0)) 0x06
def countChecks (s : State) (prn : Nat) (x : Ctx) (c : Ccw) : List Found :=
  let total := x.before + c.count.toNat
  whenB (countNonzero c && c.count == 0) 0x06
    ++ whenB (isIdx c && !idxModBad c && c.count.toNat % 2 ^ ccwLg c != 0) 0x06
    ++ (if isDevVerb c.verb then
          match chainMap s prn x c with
          | .ok lo hi mult off _ => rangeChecks lo hi mult off total (!fJoin c)
          | .no lo hi mult off => rangeChecks lo hi mult off total (!fJoin c)
          | .bad _ => []
        else [])
    ++ (match ctxProf s c with
        | some p => whenB (pfEnable p && profCountBad p (!fJoin c) c.count.toNat total) 0x06
        | none => [])
def flagChecks (x : Ctx) (c : Ccw) : List Found :=
  let f := bitsAt c.flags 0 11
  whenB (f &&& legalFlags c.verb.toNat != f) 0x07
    ++ whenB (fJoin c && (fNext c || fFst c)) 0x07
    ++ whenB (fEll c && (fIdx c || fXfm c || fBar c)) 0x07
    ++ whenB (fIdx c && fXfm c) 0x07
    ++ (match x.first with
        | some a =>
          whenB (fPar c || fClb c) 0x07
            ++ (if c.verb = 0x41 then [] else
                whenB (c.verb != a.verb || fXfm c != fXfm a || (fXfm c && c.mod != a.mod)) 0x07)
        | none => [])
def modChecks (s : State) (prn : Nat) (x : Ctx) (c : Ccw) : List Found :=
  whenB (c.verb == 0x26 && decide (2 < c.mod.toNat)) 0x08
    ++ whenB (isIdx c && idxModBad c) 0x08
    ++ (if c.verb = 0x45 then
          (if c.mod = 0 then whenB (!(signalLegal s x.engine (c.opnd.toNat % 1024))) 0x08
           else if c.mod = 1 then whenB (bitsAt c.opnd 0 20 == 0) 0x08 else [(0x08, 0)])
        else [])
    ++ (if isDevVerb c.verb then (match ccwMap s prn x c with | .bad k => [(k.toNat, 0)] | .no _ _ _ _ => [(0x09, 0)] | .ok _ _ _ _ _ => []) else [])
def clauseChecks (s : State) (prn : Nat) (x : Ctx) (c : Ccw) : List Found :=
  whenB ((fFst c || c.verb == 0x51) && !(ctxIn x c)) 0x0B
    ++ whenB (fClb c && x.inClause) 0x0C
    ++ (if isDevVerb c.verb && ctxIn x c then
          (match ccwMap s prn x c with | .ok _ _ _ _ true => [(0x0E, 0)] | _ => [])
        else [])
def profChecks (s : State) (prn : Nat) (c : Ccw) : List Found :=
  match ctxProf s c with
  | some p => whenB (profBad s p) 0x10 ++ whenB (pfEnable p && !(inRange s prn (resultAt p prn) 64)) 0x04
  | none => []
/-- the target of a JUMP is to be looked at -/
def jumpLooks (s : State) (prn : Nat) (c : Ccw) : Bool := c.verb == 0x41 && (ccwAddrChecks s prn c.opnd).isEmpty
/-- a JUMP whose target is a JUMP (R45) -/
def jumpChecks (s : State) (prn : Nat) (c : Ccw) : List Found :=
  if jumpLooks s prn c then
    match readMem s prn c.opnd 16 with
    | .ok l => whenB (byteAt l 0 == 0x41) 0x12
    | .error _ => []
  else []
/-- the host may not be asked for that target now (R297) -/
def jumpWaits (s : State) (prn : Nat) (c : Ccw) : Bool :=
  jumpLooks s prn c && spaceOf c.opnd == 0 && !(canIssue s (getP s prn).hostFn)
def otherChecks (s : State) (prn : Nat) (x : Ctx) (c : Ccw) : List Found :=
  countChecks s prn x c ++ flagChecks x c ++ modChecks s prn x c ++ clauseChecks s prn x c ++ profChecks s prn c
    ++ jumpChecks s prn c

/-- the 16 bytes of a CCW (Table 2-1) -/
def parseCcw (a : Dword) (l : List Byte) : Ccw :=
  { addr := a, verb := BitVec.ofNat 8 (byteAt l 0), mod := BitVec.ofNat 8 (byteAt l 1)
    flags := BitVec.ofNat 16 (ofLE (subBytes l 2 2)), count := BitVec.ofNat 32 (ofLE (subBytes l 4 4))
    opnd := BitVec.ofNat 64 (ofLE (subBytes l 8 8)) }

/-- What one CCW's fetch and check answer. -/
inductive Checked where
  | wait
  | good (c : Ccw)
  /-- a program check: code, detail, residual -/
  | check (code det : Byte) (resid : Word)
  /-- a stopping condition: CHAN_STATUS, DETAIL, residual -/
  | stop (chan det : Byte) (resid : Word)

def eccDetail (a : Dword) : Byte := if spaceOf a = 0xA then 0x81 else 0x8B
def found (x : Found) (resid : Word) : Checked := .check (BitVec.ofNat 8 x.1) (BitVec.ofNat 8 x.2) resid
/-- One CCW at an address fetched and checked (R18 to R20, R46). -/
def fetchCheck (s : State) (prn : Nat) (x : Ctx) (a : Dword) : Checked :=
  match lowest (ccwAddrChecks s prn a) with
  | some f => found f 0
  | none =>
    match lookAt s prn a 16 with
    | .wait => .wait
    | .err (.host d) => .check 0x11 d 0
    | .err .ecc => .stop 0 (eccDetail a) 0
    | .ok l =>
      let c := parseCcw a l
      if !(verbs.contains c.verb.toNat) then .check 0x01 0 c.count
      else if jumpWaits s prn c then .wait
      else match seeCcw s prn c with
        | .wait => .wait
        | .ccw c codes =>
          (match lowest (codes ++ otherChecks s prn x c) with
           | some f => found f c.count
           | none => .good c)
        | .fails c codes e at_ =>
          (match lowest (codes ++ otherChecks s prn x c) with
           | some f => found f c.count
           | none => match e with
             | .host d => .stop chanHost d c.count
             | .ecc => .stop 0 (eccDetail at_) c.count)

/-! ### CCW_FETCH -/

/-- a notice (R30) -/
def notice (s : State) (n : Nat) (c : Ccw) : State × Bool :=
  postDirect s n { kind := 0x02, ccw := c.addr, resid := c.count }
/-- a fetch result that stops the chain -/
def fetchStops (s : State) (n : Nat) (a : Dword) (r : Checked) : State :=
  match r with
  | .check code det resid => programCheck s n code det resid a
  | .stop chan det resid => stopCondition s n 0 chan det resid a
  | _ => s

/-- What the fetch of a whole data chain answers. -/
inductive ChainGot where
  /-- the CCW at an address cannot be fetched now; those before it are -/
  | wait (s : State) (l : List Ccw) (next : Dword)
  | ok (s : State) (l : List Ccw)
  /-- a notice waits for its queue: the rest of the chain, if any, from this address follows it (R57) -/
  | held (s : State) (l : List Ccw) (next : Option Dword)
  | ended (s : State)
/-- the CCWs of a data chain after the first (R27); fuel bounds its length -/
def fetchRest (n : Nat) (x : Ctx) : Nat → State → Dword → List Ccw → ChainGot
  | 0, s, a, l => .wait s l a
  | f + 1, s, a, l =>
    match fetchCheck s n x a with
    | .wait => .wait s l a
    | .good c =>
      if c.verb = 0x41 then fetchRest n x f s c.opnd l
      else
        let r := if fNote c then notice s n c else (s, true)
        let l := l ++ [c]
        if !r.2 then .held r.1 l (if fJoin c then some (a + 16) else none)
        else if fJoin c then fetchRest n { x with before := x.before + c.count.toNat } f r.1 (a + 16) l else .ok r.1 l
    | r => .ended (fetchStops s n a r)
/-- No data chain is longer: one of 2^61 CCWs and JUMPs has used an address twice, and its fetch never ends. -/
def chainFuel : Nat := 2 ^ 61
/-- the CCWs fetched so far are held in this phase -/
def holdItems (s : State) (n : Nat) (cur : Cur) (l : List Ccw) (ph : Phase) : State :=
  modP s n fun p => { p with cur := some { cur with items := l, phase := ph }, again := false }
/-- the rest of a data chain is fetched from an address on (R27, R57) -/
def chainRest (s : State) (n : Nat) (x : Ctx) (cur : Cur) (a : Dword) : State :=
  let phase (next : Option Dword) : Phase := match next with | some b => .fetching b | none => .ready
  match fetchRest n { x with first := cur.items.head?, before := chainTotal cur.items } chainFuel s a cur.items with
  | .wait s l b => holdItems s n cur l (.fetching b)
  | .ok s l => holdItems s n cur l .ready
  | .held s l b => modP (holdItems s n cur l (phase b)) n fun p => { p with fin := some (.notice false) }
  | .ended s => s

/-- what the CCW about to be fetched stands in -/
def fetchCtx (s : State) (k n : Nat) : Ctx :=
  { first := none, before := 0, inClause := (clauseOf s n).isSome, engine := engineOf k }
/-- fetch, check, notices, suspension (R19, R27, R30, R31) -/
def fetchCcw (s : State) (k n : Nat) : State :=
  let p := getP s n
  let a := p.ccwAddr
  let x := fetchCtx s k n
  match fetchCheck s n x a with
  | .wait => s
  | .good c =>
    let prof := ctxProf s c
    if (prof.map (profWaits s)).getD false then s
    else
      let cur : Cur := { items := [c], prof := prof, flow := flowResult s (bindOf p (ccwBind c)) }
      let par := fPar c && !p.again
      let note := fNote c && !p.again
      if par then
        if note then afterPost (notice s n c) n (.notice true) (fun s => runFin s n (.notice true))
        else runFin s n (.notice true)
      else
        let r := if note then notice s n c else (s, true)
        if r.2 then (if fJoin c then chainRest r.1 n x cur (a + 16) else holdItems r.1 n cur [c] .ready)
        else modP (holdItems r.1 n cur [c] (if fJoin c then .fetching (a + 16) else .ready)) n fun p => { p with fin := some (.notice false) }
  | r => fetchStops s n a r

/-- the re-run waits for the clauses that doomed it (R113) -/
def rerunWaits (s : State) (p : Pron) : Bool :=
  match p.rerun with
  | some x => x.counted && x.reason == 1 && s.cls.clauses.any fun c => x.doomers.contains c.begin_
  | none => false

/-- a CCW of a doomed clause that has nothing left to run ends (R111) -/
def doomEnds (s : State) (n : Nat) (ph : Phase) : Bool :=
  match ph with
  | .ready | .clbWait | .issue | .fullStop | .fetching _ => true
  | .script => (outstanding s n).isEmpty
  | _ => false

/-- a fence may act now: at a boundary, or, on a fenced slot, where nothing of the CCW is with a mover or a device (14 R435) -/
def fenceReady (s : State) (k : Nat) (c : Option Cur) : Bool :=
  match c with
  | none => true
  | some x => match x.phase with
    | .moving | .device _ | .barrier => false
    | _ => slotFenced s k
/-- CCW_FETCH on a slot: what is due at the boundary, then the fetch (R19, R73, R111, R113). -/
def fetchOp (s : State) (k : Nat) : State :=
  match slotPron s k with
  | none => s
  | some n =>
    let p := getP s n
    if !(running p) || p.fin.isSome || wordsHeld s n || p.resetting || !(enginesRun s) then s
    else if p.fenceDue.isSome && (outstanding s n).isEmpty && fenceReady s k p.cur then boundary s n p.ccwAddr
    else if slotFenced s k then s
    else match p.cur with
      | some c =>
        if (doomedRerun s n).isSome && doomEnds s n c.phase then boundary s n p.ccwAddr
        else (match c.phase with
         | .ended skip attn => endCcw s n { resid := p.residual, skip := skip, dev := if attn then devAttention else 0 }
         | .fetching next => chainRest s n (fetchCtx s k n) c next
         | _ => s)
      | none =>
        if (doomedRerun s n).isSome || p.state == .halting then boundary s n p.ccwAddr
        else if rerunWaits s p then s else fetchCcw s k n

end Sys2Proof.Machine
end

