-- ==== Sys2Proof/Machine/MoverRows.lean ====
section
/-!
DEFINITION. The mover and arbiter rows (06_movers.md R156 to R183).
-/

namespace Sys2Proof.Machine

abbrev Res := Host.Outcome State Fault Refusal
def blkMv : Nat := 5
def blkArb : Nat := 7

/-- mover m's engines run: not in a check, fenced or reinitialising -/
def moverRuns (s : State) (m : Nat) : Bool := let x := getMv s m; moversRun s && !x.check && !x.fenced && x.ready

/-- MOVER_READ_TURN (R156) -/
def execMoverReadTurn (m : BitVec 3) (s : State) : Res :=
  let x := getMv s m.toNat
  .next (if moverRuns s m.toNat then readRotate s m.toNat (rotation x.rlast) else s)
/-- MOVER_WRITE_TURN (R156) -/
def execMoverWriteTurn (m : BitVec 3) (s : State) : Res :=
  let x := getMv s m.toNat
  .next (if moverRuns s m.toNat then writeRotate s m.toNat (rotation x.wlast) else s)

/-- the transfer of this number, with its mover and context -/
def findTransfer (s : State) (id : Nat) : Option (Nat × Nat × Transfer) :=
  ((List.range 8).map fun m => (getMv s m).ctx.map fun e => (m, e.1, e.2)).flatten.find? fun e => e.2.2.id == id
/-- an arrival report of a transfer (R161, R162) -/
def arrivalOf (s : State) (id : Nat) (detail : Byte) : State :=
  match findTransfer s id with
  | none => s
  | some (m, k, t) =>
    if !t.arrival then s
    else if detail = 0 then transferEnd s m k { t with arrival := false } {}
    else transferStops s m k t chanHost detail { result := 0x02, detail := detail } none
/-- an arrival report of the effect that holds the release pipeline (R132, R135) -/
def releaseArrival (s : State) (detail : Byte) : State :=
  match s.fs.barHold with
  | none => s
  | some (n, i) =>
    match (getNum s n).bind fun c => c.effects[i]? with
    | some e =>
      (match e.body with
       | .host _ => if detail = 0 then effectDone s n i
         else effectFailed s n i 0 chanHost (if detail.getLsbD 3 then 0x02 else 0x01)
       | _ => s)
    | none => s
/-- BARRIER_READBACK_DONE (R161): DETAIL 0 for a successful completion. -/
def execBarrierReadbackDone (w : Arrival) (detail : Byte) (s : State) : Res :=
  match w with
  | .transfer id => .next (arrivalOf s id.toNat detail)
  | .release => .next (releaseArrival s detail)

/-- MOVER_FETCH_ERROR (R173) -/
def execMoverFetchError (m : BitVec 3) (ctx : BitVec 6) (err : FetchError) (multi : Bool) (s : State) : Res :=
  .next (if moverRuns s m.toNat then moverCheck s m.toNat ctx.toNat err multi else s)

/-- REINIT (R176 step 2): rejected unless CHECK is 1. -/
def execMvReinit (m : BitVec 3) (s : State) : Res :=
  let x := getMv s m.toNat
  .next (if x.check && !x.fenced then setMv s m.toNat { x with ready := false, reinit := true } else reject s blkMv)
/-- MOVER_REINIT_DONE (R176) -/
def execMoverReinitDone (m : BitVec 3) (s : State) : Res :=
  let x := getMv s m.toNat
  .next (if x.reinit then setMv s m.toNat { x with ready := true, reinit := false, queue := [], ctx := [] } else s)
/-- RESUME_HELD (R176 step 3): rejected while the mover reinitialises. -/
def execResumeHeld (m : BitVec 3) (s : State) : Res :=
  let x := getMv s m.toNat
  .next (if !x.ready then reject s blkMv
         else modMv ((heldBy s m.toNat).foldl resumeOne s) m.toNat fun x => { x with check := false })
/-- CLOSE (R176 step 4): rejected while the mover reinitialises. -/
def execMvClose (m : BitVec 3) (s : State) : Res :=
  let x := getMv s m.toNat
  .next (if !x.ready then reject s blkMv else setMv s m.toNat { x with check := false })
/-- MV_HOLD_CLEAR (R175): pronoun 0 is rejected. -/
def execMvHoldClear (v : Word) (s : State) : Res :=
  let n := bitsAt v 0 20
  .next (if n = 0 then reject s blkMv else resumeOne s n)

/-! ### Arbiters (R178 to R183) -/

/-- inputs of an arbiter, numbered as in Table 9-2 -/
def arbInputs (a : Nat) : Nat :=
  if a ≤ 7 then 23 else if a ≤ 9 then 12 else if a = 10 then 6 else if a ≤ 18 then 5 else if a = 19 then 4 else 0
def getArb (s : State) (a : Nat) : Arb := tget {} s.mv.arbs a
def setArb (s : State) (a : Nat) (x : Arb) : State := { s with mv := { s.mv with arbs := tset {} a x s.mv.arbs } }
/-- default map of an arbiter: requester identity at each input (R181) -/
def arbDefault (a : Nat) : List Nat :=
  if a ≤ 7 then (List.range 23).map fun i =>
    if 16 ≤ i then i else if 8 ≤ i then 8 + (i - 8 + 8 - a) % 8 else (i + 8 - a) % 8
  else if a = 9 then (List.range 12).map fun i => if 8 ≤ i then i else (i + 4) % 8
  else List.range (arbInputs a)
def arbMap (a : Nat) (x : Arb) : List Nat := if x.map.isEmpty then arbDefault a else x.map
/-- the requester of this identity is of the data class (Tables 6-13 to 6-17) -/
def arbData (a r : Nat) : Bool :=
  if a ≤ 7 then decide (r ≤ 16)
  else if a ≤ 9 then r != 10 && decide (r ≤ 11)
  else if a = 10 then r == 0 || r == 1 || r == 5
  else if a ≤ 18 then decide (r ≤ 1) else false

/-- ARB_CUTOFF (R179) -/
def execArbCutoff (a input : BitVec 5) (s : State) : Res :=
  let x := getArb s a.toNat
  match (arbMap a.toNat x)[input.toNat]? with
  | some r => .next (if arbData a.toNat r then rcPulse x.cutoffs (setArb s a.toNat { x with cutoff := true, cutoffs := satInc x.cutoffs }) else s)
  | none => .next s
/-- ARB_STARVE (R183) -/
def execArbStarve (a input : BitVec 5) (s : State) : Res :=
  let x := getArb s a.toNat
  if x.starve != 0 && decide (input.toNat < arbInputs a.toNat) then
    .next (pulse (setArb s a.toNat { x with starved := setBit x.starved input.toNat true })
      (if a.toNat = 19 then 328 else 72 + a.toNat))
  else .next s
/-- two inputs exchanged -/
def swapAt (l : List Nat) (i j : Nat) : List Nat := (l.set i (l.getD j 0)).set j (l.getD i 0)
/-- ARB_SWAP (R182) -/
def execArbSwap (a : BitVec 5) (v : Word) (s : State) : Res :=
  let x := getArb s a.toNat
  let i := bitsAt v 0 5
  let j := bitsAt v 8 5
  let n := arbInputs a.toNat
  if n = 0 then .next s
  else if n ≤ i || n ≤ j then .next (reject s blkArb)
  else
    let l := swapAt (arbMap a.toNat x) i j
    .next (setArb s a.toNat { x with map := if l == arbDefault a.toNat then [] else l })

end Sys2Proof.Machine
end

