-- ==== Sys2Proof/Machine/Channel.lean ====
section
/-!
DEFINITION. The verbs of a channel program and the rows of chapters 02 to 05 that drive a chain (02 R22 to R41, 03 R69
to R79, 04 R89 to R116, 05 R124 to R132).
-/

namespace Sys2Proof.Machine

/-! ### Received frames as READ takes them (08 R260) -/

/-- a pronoun's oldest frame leaves its buffer -/
def takeFrame (s : State) (n : Nat) : State × Option (List Byte) :=
  match framesFor s n with
  | [] => (s, none)
  | f :: _ => (relieve (setRx s (dropFrame s.lk.rx n)) f.q, some f.bytes)
/-- a frame is queued for the pronoun -/
def frameQueued (s : State) (n : Nat) : Bool := !(framesFor s n).isEmpty

/-! ### Device reads (08 R246, R251, R260, R269) -/

/-- An Ethernet READ: the pronoun's oldest frame, which link loss leaves deliverable (R273; log entry 95). -/
def ethRead (s : State) (o : DevOp) (n : Nat) : State :=
  match takeFrame s n with
  | (s, some f) =>
    let l := if o.mod = 1 then f.drop (payloadAt f) else f
    (addOp s { o with stage := .ended devDone 0 0, rx := l.take o.count, long := decide (o.count < l.length) }).1
  | (s, none) =>
    if portUp (getPort s o.q o.p) then (addOp s { o with stage := .ended devDone 0 0 }).1 else (issueOp s o 0).1
/-- The operation of a READ or SENSE is issued (R269, Table 8-20). -/
def issueRead (s : State) (n : Nat) (b : BitVec 128) (verb : Byte) (sub total : Nat) (flow : Word) (lba : List Byte) : State :=
  let bs := 2 ^ ((nsOf s b).map (·.shift)).getD 9
  let image := opImage s b verb sub total (lba ++ toLE 4 (total / bs)) flow
  let o := makeOp b (.ccw n) verb sub total image []
  if o.kind == .eth then ethRead s o n else (issueOp s o flow).1

/-- the 8 bytes of an addressed READ's LBA, over the CCWs of the chain (R246) -/
def lbaRead (t : Transfer) : State → List Ccw → Nat → List Byte → Got
  | s, [], _, acc => .ok s acc
  | s, c :: cs, need, acc =>
    if need = 0 then .ok s acc
    else
      let k := min need c.count.toNat
      match dataRead s t c.opnd k with
      | .ok s l => if l.length < k then .wait s else lbaRead t s cs (need - k) (acc ++ l)
      | r => r
/-- DETAIL and CHAN_STATUS of an LBA read that fails (R162, R489) -/
def lbaFails (s : State) (n : Nat) (c : Ccw) : State :=
  if spaceOf c.opnd = 0 then
    stopCondition s n 0 chanHost ((hostFault s (offOf c.opnd) 8).getD 0) c.count c.addr
  else stopCondition s n 0 0 (eccDetail c.opnd) c.count c.addr

/-! ### Data phases (06 R150 to R153) -/

/-- the segment of one CCW; id is the operation's number, bi the binding -/
def segOf (c : Ccw) (bi id : Nat) : Seg :=
  let mem : Source := if isIdx c then .table c.opnd c.base (ccwLg c) else .mem c.opnd
  let into : Dest := if isEll c then .discard else if isIdx c then .table c.opnd c.base (ccwLg c) else .mem c.opnd
  let n := c.count.toNat
  match c.verb.toNat with
  | 0x21 | 0x31 => { src := mem, dst := .device (BitVec.ofNat 2 bi), len := n }
  | 0x22 | 0x23 => { src := .device id, dst := into, len := n }
  | 0x24 => { src := if isIdx c then .table c.src c.base (ccwLg c) else .mem c.src, dst := .mem c.dst, len := n }
  | 0x25 => { src := .pattern c.mod, dst := .mem c.opnd, len := n }
  | _ => { src := .mem c.src, dst := .operand c.dst, len := n }
/-- the transfer of a pronoun's current CCW or data chain -/
def transferOf (s : State) (k n : Nat) (items : List Ccw) (prof : Option Profile) : Transfer :=
  let p := getP s n
  let bi := ccwBind (firstCcw p)
  { id := 0, origin := .ccw n, master := BitVec.ofNat 8 (16 + engineOf k), fn := p.hostFn
    clause := (openClause s n).map (·.begin_), segs := items.map fun c => segOf c bi s.lk.nextOp
    bar := items.any fBar, compare := (firstCcw p).verb == 0x26, xf := prof.map fun f => makeXform s f n }
/-- accepted by a mover, or the slot stalls at the issue (R152, R153) -/
def accept (s : State) (k n : Nat) (t : Transfer) (after : State → State) : State :=
  match pickMover s (engineOf k) with
  | none => setPhase s n .issue
  | some m => match acceptOn s m t with
    | none => setPhase s n .issue
    | some s => after (modP s n fun p => { p with cur := p.cur.map fun c => { c with phase := .moving, mover := some m } })

/-- The data phase of the current CCW starts. -/
def startData (s : State) (k n : Nat) : State :=
  let p := getP s n
  match p.cur with
  | none => s
  | some cur =>
    let c := firstCcw p
    let t := transferOf s k n cur.items cur.prof
    let bi := ccwBind c
    let b := bindOf p bi
    let total := chainTotal cur.items
    if c.verb = 0x31 ∧ c.count = 0 then handOp s n { t with segs := [] } bi
    else if c.verb = 0x22 ∨ c.verb = 0x23 then
      (if c.verb = 0x22 ∧ bKind b = 1 then
        match lbaRead t s cur.items 8 [] with
        | .ok s l => accept s k n t fun s => issueRead s n b c.verb (ccwSub c) total cur.flow l
        | .wait s => s
        | .limit x => programCheck s n 0x0F x c.count c.addr
        | .bad => lbaFails s n c
       else accept s k n t fun s => issueRead s n b c.verb (ccwSub c) total cur.flow [])
    else accept s k n t id

/-! ### A verb executes -/

/-- The clause of a CLB CCW opens; none while all 512 records are in use (R90, R107). -/
def openClb (s : State) (n : Nat) (c : Ccw) : Option State :=
  if 512 ≤ s.cls.clauses.length then none
  else
    let p := getP s n
    let old := p.rerun.filter (·.counted)
    let cl : Clause := { begin_ := (old.map (·.begin_)).getD s.cls.beginNext, prn := n, clb := c.addr, count := c.count
                         loops := p.loops, limit := p.retryLimit }
    let s := { s with cls := { s.cls with
      beginNext := if old.isSome then s.cls.beginNext else s.cls.beginNext + 1, clauses := s.cls.clauses ++ [cl] } }
    some (modP s n fun p => { p with rerun := none, retryCount := if old.isSome then p.retryCount else 0 })

/-- The fetched CCW on a slot, of this verb, executes: its clause opens first (R90). -/
def runVerb (s : State) (k : Nat) (v : Byte) (f : State → Nat → Ccw → State) : State :=
  match slotPron s k with
  | none => s
  | some n =>
    let p := getP s n
    let c := firstCcw p
    if !(running p) || p.fin.isSome || wordsHeld s n || p.resetting || slotStopped s k
        || (p.cur.map (·.phase)) != some .ready || c.verb != v then s
    else if v != 0x51 && (doomedRerun s n).isSome then boundary s n c.addr
    else if fClb c && (clauseOf s n).isNone then
      if s.flt.staging then reportAbort (countAbort s 0x0B) n c.addr 0x0B
      else match openClb s n c with
      | some s => f s n c
      | none => setPhase { s with cls := { s.cls with clbWait := s.cls.clbWait ++ [n] } } n .clbWait
    else f (modP s n fun p => { p with rerun := p.rerun.filter fun x => !x.counted }) n c

/-- LOOP (R34): entries newest first. -/
def loopOp (s : State) (n : Nat) (c : Ccw) : State :=
  let p := getP s n
  let go (l : List LoopEnt) (r : Word) : State :=
    let s := modP s n fun p => { p with loops := if r = 0 then l else { addr := c.addr, remaining := r } :: l }
    endCcw s n { resid := r, next := if r = 0 then none else some c.opnd }
  match p.loops.dropWhile (fun e => e.addr != c.addr) with
  | e :: l => go l (e.remaining - 1)
  | [] =>
    if 4 ≤ p.loops.length then programCheck s n 0x0A 0 c.count c.addr
    else go p.loops (c.count - 1)

/-- WAIT (R36). DESIGN CHOICE (log entry 108): a WAIT that ends at once by a frame or an attention writes WAKE_CAUSE as one
that a wait input ends does. -/
def waitOp (s : State) (n : Nat) (c : Ccw) : State :=
  let p := getP s n
  let mask : Byte := c.opnd.extractLsb' 0 8
  match waitTop p mask 8 with
  | some i => endCcw (setP s n { waitTake p i with wakeCause := 1 }) n { resid := c.count }
  | none =>
    if frameQueued s n then endCcw (setP s n { p with wakeCause := 2 }) n { resid := c.count }
    else if !p.attn.isEmpty then
      endCcw (setP s n { p with attn := p.attn.drop 1, wakeCause := 3 }) n { resid := c.count, dev := devAttention }
    else if p.state == .halting then haltAct s n
    else
      let e := if c.count = 0 then none else some (s.dev.tick.toNat + c.count.toNat)
      modP (leaveSlot s n) n fun p =>
        { p with state := .waiting, wait := some { mask := mask, expiry := e, script := none }
                 cur := p.cur.map fun x => { x with phase := .wait } }

/-- SIGNAL (R35) -/
def signalOp (s : State) (k n : Nat) (c : Ccw) : State :=
  match openClause s n with
  | none => endCcw (applySignal s c.mod c.opnd (engineOf k)) n {}
  | some cl =>
    match stage s cl.begin_ [{ body := .signal c.mod c.opnd (BitVec.ofNat 5 (engineOf k)), ccw := c.addr }] 1 0 0 with
    | .ok s => endCcw s n {}
    | .lost s => endCcw s n {}
    | .limit x => programCheck s n 0x0F x 0 c.addr

/-- the state a script starts in (07 R193) -/
def scriptStart (n : Nat) (p : Pron) (c : Ccw) : Script :=
  { regs := setG (setG {} 1 (BitVec.ofNat 32 n)) 2 p.residual, base := c.opnd, count := c.count, left := c.count }
/-- SCRIPT (R39) -/
def scriptOp (s : State) (n : Nat) (c : Ccw) : State :=
  modP s n fun p => { p with script := some (scriptStart n p c), tickets := []
                             cur := p.cur.map fun x => { x with phase := .script } }

/-- ABANDON (R115) -/
def abandonOp (s : State) (n : Nat) (c : Ccw) : State :=
  let (s, ab) := abortClause s n 0x05 false
  let s := modP s n fun p => { p with residual := 0 }
  let fin : Fin := if fNext c then .goOn (c.addr + 16) else .chainEnd
  match ab with
  | some (clb, r) => postThen s n { kind := 0x07, ccw := clb, chan := chanAbort, det := r } fin
  | none => runFin s n fin

/-! ### Rows: fetch and verbs -/

/-- CCW_FETCH (R19) -/
def execCcwFetch (slot : BitVec 9) (s : State) : Res := .next (fetchOp s slot.toNat)
/-- WRITE (R269, R93) -/
def execVerbWrite (slot : BitVec 9) (s : State) : Res :=
  .next (runVerb s slot.toNat 0x21 fun s n _ => startData s slot.toNat n)
/-- READ (R269, R28) -/
def execVerbRead (slot : BitVec 9) (s : State) : Res :=
  .next (runVerb s slot.toNat 0x22 fun s n _ => startData s slot.toNat n)
/-- SENSE (R269) -/
def execVerbSense (slot : BitVec 9) (s : State) : Res :=
  .next (runVerb s slot.toNat 0x23 fun s n _ => startData s slot.toNat n)
/-- MOVE (R38, R160) -/
def execVerbMove (slot : BitVec 9) (s : State) : Res :=
  .next (runVerb s slot.toNat 0x24 fun s n _ => startData s slot.toNat n)
/-- FILL (R164) -/
def execVerbFill (slot : BitVec 9) (s : State) : Res :=
  .next (runVerb s slot.toNat 0x25 fun s n _ => startData s slot.toNat n)
/-- COMPARE (R37, R164) -/
def execVerbCompare (slot : BitVec 9) (s : State) : Res :=
  .next (runVerb s slot.toNat 0x26 fun s n _ => startData s slot.toNat n)
/-- CONTROL (R269, R270) -/
def execVerbControl (slot : BitVec 9) (s : State) : Res :=
  .next (runVerb s slot.toNat 0x31 fun s n _ => startData s slot.toNat n)
/-- JUMP (R25) -/
def execVerbJump (slot : BitVec 9) (s : State) : Res :=
  .next (runVerb s slot.toNat 0x41 fun s n c => endCcw s n { next := some c.opnd })
/-- LOOP (R34) -/
def execVerbLoop (slot : BitVec 9) (s : State) : Res := .next (runVerb s slot.toNat 0x42 loopOp)
/-- NOP (R23) -/
def execVerbNop (slot : BitVec 9) (s : State) : Res := .next (runVerb s slot.toNat 0x43 fun s n _ => endCcw s n {})
/-- WAIT (R36) -/
def execVerbWait (slot : BitVec 9) (s : State) : Res := .next (runVerb s slot.toNat 0x44 waitOp)
/-- SIGNAL (R35) -/
def execVerbSignal (slot : BitVec 9) (s : State) : Res :=
  .next (runVerb s slot.toNat 0x45 fun s n c => signalOp s slot.toNat n c)
/-- SCRIPT (R39, 07 R193) -/
def execVerbScript (slot : BitVec 9) (s : State) : Res := .next (runVerb s slot.toNat 0x46 scriptOp)
/-- ABANDON (R115) -/
def execVerbAbandon (slot : BitVec 9) (s : State) : Res := .next (runVerb s slot.toNat 0x51 abandonOp)
/-- POST (R48) -/
def execVerbPost (slot : BitVec 9) (s : State) : Res :=
  .next (runVerb s slot.toNat 0x52 fun s n c => endCcw s n { resid := c.count })
/-- HALT (R26) -/
def execVerbHalt (slot : BitVec 9) (s : State) : Res :=
  .next (runVerb s slot.toNat 0x5F fun s n c => endCcw s n { resid := c.count, stop := true })

/-! ### Rows: clauses and full stop -/

/-- CONFLICT_RERUN (R113): the re-run need wait no longer once every clause that doomed it has gone. -/
def execConflictRerun (prn : PrnNum) (s : State) : Res :=
  let n := prn.toNat
  .next (if rerunWaits s (getP s n) then s
         else modP s n fun p => { p with rerun := p.rerun.map fun x => if x.counted then { x with doomers := [] } else x })

/-- the waiting CLB on the highest slot below k -/
def clbWaiter (s : State) : Nat → Option Nat
  | 0 => none
  | k + 1 => match slotPron s k with
    | some n => if s.cls.clbWait.contains n then some n else clbWaiter s k
    | none => clbWaiter s k
/-- CLB_RECORD_WAIT_END (R107) -/
def execClbRecordWaitEnd (s : State) : Res :=
  match clbWaiter s 512 with
  | none => .next s
  | some n =>
    if s.flt.staging then
      let s := { s with cls := { s.cls with clbWait := s.cls.clbWait.filter (· != n) } }
      .next (reportAbort (countAbort s 0x0B) n (firstCcw (getP s n)).addr 0x0B)
    else match openClb s n (firstCcw (getP s n)) with
    | none => .next s
    | some s => .next (setPhase { s with cls := { s.cls with clbWait := s.cls.clbWait.filter (· != n) } } n .ready)

/-- FULL_STOP_ADMIT (R131) -/
def execFullStopAdmit (s : State) : Res := .next (admitOne s)
/-- FS_RESERVATION_WRITE (R125) -/
def execFsReservationWrite (s : State) : Res := .next (reserve s)
/-- RELEASE_ISSUE (R132) -/
def execReleaseIssue (s : State) : Res := .next (releaseNext s)

/-! ### Rows: doorbells, placement, time-outs -/

def countIgnored (s : State) : State := rcPulse s.sched.dbIgnored { s with sched := { s.sched with dbIgnored := satInc s.sched.dbIgnored } }
/-- a rejected doorbell word (R70) -/
def dbBad (s : State) : State :=
  pulse (rcPulse s.sched.dbRejected { s with sched := { s.sched with dbRejected := satInc s.sched.dbRejected, dbReject := true } }) 1023
/-- One doorbell word from a function (R65, R70, R71). -/
def doorbellWord (fn : Master) (s : State) (w : Word) : State :=
  let n := bitsAt w 0 20
  if w = 0 then s
  else if bitsAt w 22 2 = 0 ∨ bitsAt w 20 2 ≠ 0 ∨ bitsAt w 24 8 ≠ 0 ∨ n = 0 then dbBad s
  else
    let p := getP s n
    if !(isBound p) || p.hostFn != fn then countIgnored s
    else match bitsAt w 22 2 with
      | 1 => let r := startOp s n p.startAddr; if r.2 then countIgnored r.1 else r.1
      | 2 => let r := resumeOp s n; if r.2 then countIgnored r.1 else r.1
      | _ => match haltOp s n with
        | (s, some _) => s
        | (s, none) => countIgnored s
/-- PLACEMENT (R78) -/
def execPlacement (s : State) : Res := .next (place s)
/-- RECORD_LOAD_DONE (R79): an END that has nothing left to wait for ends its CCW. -/
def execRecordLoadDone (slot : BitVec 9) (s : State) : Res :=
  let s := loadDone s slot.toNat
  match slotPron s slot.toNat with
  | some n => .next (resumeEnding s n)
  | none => .next s

/-- TICK_COUNT stands at least at the tick of a happening that is tied to one (log entry 5) -/
def reachTick (s : State) (t : Nat) : State :=
  if s.dev.tick.toNat < t then { s with dev := { s.dev with tick := BitVec.ofNat 64 t } } else s
end Sys2Proof.Machine
end

