-- ==== Sys2Proof/Machine/Links.lean ====
section
/-!
DEFINITION. Ports and what reaches them (08_link_quads.md R234 to R275): port states, link loss, quad configuration,
device interrupts, completion queues and rings, received frames and KDL frames.
-/

namespace Sys2Proof.Machine

/-! ### Events at pronouns -/

/-- a bound pronoun with a binding that satisfies a test, the lowest in number -/
def boundTo (s : State) (f : BitVec 128 → Bool) : Option Nat :=
  (s.sched.recs.find? fun e => isBound e.2 && (List.range 4).any fun i => f (bindOf e.2 i)).map (·.1)
/-- A device attention at a pronoun, from a port (02 R36, 03 Tables 3-2, 3-6). DESIGN CHOICE (log entry 112): one that starts
an IDLE pronoun is not queued as well. -/
def attend (s : State) (n q port : Nat) : State :=
  let p := getP s n
  if p.state == .unbound then s
  else
    let p := { p with framesIn := wrapInc p.framesIn }
    match p.state with
    | .waiting => endWait (setP s n p) n .attention
    | .idle => if p.autoStart then startAt (setP s n p) n p.startAddr 3 else setP s n { p with attn := p.attn ++ [(q, port)] }
    | _ => setP s n { p with attn := p.attn ++ [(q, port)] }
/-- an inbound frame has been queued for a pronoun -/
def frameArrives (s : State) (n : Nat) : State :=
  let p := getP s n
  match p.state with
  | .waiting => endWait s n .frame
  | .idle => if p.autoStart then startAt s n p.startAddr 2 else s
  | _ => s

/-! ### Port states (R236, R273) -/

def lanesOf (x : Quad) : Nat := if x.profile == 3 then 1 else if portsOf x.profile.toNat x.arrange.toNat = 1 then 4
  else if portsOf x.profile.toNat x.arrange.toNat = 2 then 2 else 1
/-- the quads are powered: no drain, no sleep or entry past step 2 (12 Tables 12-2, 12-5) -/
def quadsPowered (s : State) : Bool := logicRuns s && s.pwr.sleep == .awake
/-- a port of the arrangement, enabled -/
def portOn (s : State) (q p : Nat) : Bool :=
  let x := getQ s q
  quadsPowered s && decide (p < portsOf x.profile.toNat x.arrange.toNat) && x.portEn.getLsbD p && !(quadFenced s q) && !x.testing
/-- STATE changes, which pulses the quad's link source -/
def setLinkState (s : State) (q p : Nat) (st : BitVec 3) : State :=
  let x := getPort s q p
  if x.state == st then s else pulse (setPort s q p { x with state := st }) q
/-- a queue pair or a ring with nothing in it (R243, R251) -/
def freshPair (k : NvPair) : NvPair := { entries := k.entries, sqBase := k.sqBase, cqBase := k.cqBase }
def freshRing (r : Ring) : Ring := { entry := r.entry }
/-- A created queue pair's or ring's completions start as zeros, so that the first pass's phase bit is 1 (R243, R251;
log entry 22). -/
def clearPair (s : State) (k : NvPair) : State := writeDram s k.cqBase (List.replicate (16 * k.entries) 0)
def clearRing (s : State) (r : Ring) : State :=
  if rgMode r.entry = 0 then writeDram s (rgCompBase r.entry) (List.replicate (2 ^ rgCompShift r.entry * rgEntries r.entry) 0) else s
/-- The admin queue of 32 entries, at the base of the inbound region, once there is a region and an NVMe controller (R243;
log entry 22); the firmware's Identify commands and one Asynchronous Event Request are placed in it (log entry 114). -/
def adminStart (s : State) (q p : Nat) : State :=
  let x := (getPort s q p).pp
  if (x.device.bind (·.nvme)).isNone || x.size = 0 then s
  else
    let k : NvPair := { entries := 32, sqBase := regionStart x, cqBase := regionStart x + 4096 }
    let s := modPP (clearPair s k) q p fun x => { x with pairs := aset 0 k x.pairs }
    let s := fwAdmin s q p 0x06 0 0 [1]
    let s := fwAdmin s q p 0x06 0 0 [2]
    fwAdmin s q p 0x0C 0 0 []
/-- what a port that leaves up loses, by profile (R273); which queues firmware recreates is kept -/
def losePort (profile : Nat) (x : Port) : Port :=
  match profile with
  | 1 => { x with pp := { x.pp with device := none, used := [], bars := [], payload := 128
                                    pairs := x.pp.pairs.map fun e => (e.1, freshPair e.2)
                                    rings := x.pp.rings.map fun e => (e.1, freshRing e.2) } }
  | 2 => { x with ep := { x.ep with txq := [], sending := none, paused := 0 } }
  | 3 => { x with kp := { x.kp with waiting := [], replay := [], stalls := 0, initRx := false, initTx := false, tsRx := 0, ts2Rx := 0, ts2Tx := 0
                                    failed := false } }
  | _ => x
/-- a KDL ordered set: its 16 bytes (Table 8-15) -/
def orderedSet (id : Byte) : List Byte :=
  if id = 0x1E ∨ id = 0x2D then [id, 1, 1] ++ List.replicate 13 0x4A else List.replicate 16 id
def sendSet (s : State) (q p : Nat) (id : Byte) : State := emit s (.ordered q p (orderedSet id))
/-- A port leaves up, or a start fails: STATE, DOWN_CAUSE, and the end of its operations. -/
def portLeaves (s : State) (q p : Nat) (st : BitVec 3) (cause : BitVec 4) : State :=
  let x := getPort s q p
  let was := portUp x
  let ops := portOps s q p
  let s := setPort s q p (losePort (getQ s q).profile.toNat { x with rate := 0, width := 0, cause := cause })
  let s := setLinkState s q p st
  let s := if (getQ s q).profile = 3 then sendSet s q p (if st = 0 then 0x66 else 0x1E) else s
  if was then ops.foldl (fun s o => finishOp s { o with pages := [] } devTimeout 0xF0 o.count) s else s
/-- every port of a quad goes down as if PORT_EN were cleared, PORT_EN keeping its value (12 Table 12-2) -/
def quadDown (cause : BitVec 4) (s : State) (q : Nat) : State :=
  (List.range 4).foldl (fun s p => if (getPort s q p).state == 0 then s else portLeaves s q p 0 cause) s
def quadsDown (s : State) (cause : BitVec 4) : State := (List.range 32).foldl (quadDown cause) s
/-- an enabled port is DOWN and starts; a KDL port sends TS1 -/
def startPort (s : State) (q p : Nat) : State :=
  let s := setLinkState s q p 1
  if (getQ s q).profile = 3 then sendSet s q p 0x1E else s
/-- enabled ports start again -/
def quadsStart (s : State) : State :=
  (List.range 32).foldl (fun s q => (List.range 4).foldl (fun s p =>
    if portOn s q p && (getPort s q p).state == 0 then startPort s q p else s) s) s

/-! ### Qq_CFG (R234, R235) -/

/-- A pronoun holds a binding on the quad (03 R66). DESIGN CHOICE (log entry 113): one whose unbinding waits for releases
no longer does. -/
def quadBound (s : State) (q : Nat) : Bool := (boundTo s fun b => decide (1 ≤ bKind b) && decide (bKind b ≤ 5) && bQuad b == q).isSome
/-- the fields of a Qq_CFG value over a quad -/
def cfgFields (x : Quad) (v : Word) : Quad :=
  { x with profile := v.extractLsb' 0 2, arrange := v.extractLsb' 2 2, fec := v.extractLsb' 4 2, rxInv := v.extractLsb' 12 4
           txInv := v.extractLsb' 16 4 }
def sameCfg (x y : Quad) : Bool :=
  x.profile == y.profile && x.arrange == y.arrange && x.fec == y.fec && x.rxInv == y.rxInv && x.txInv == y.txInv
def comboLegal (x : Quad) : Bool := arrangeLegal x.profile.toNat x.arrange.toNat x.fec.toNat
/-- the PORT_EN bits an arrangement admits -/
def portMask (x : Quad) : BitVec 4 := BitVec.ofNat 4 (2 ^ portsOf x.profile.toNat x.arrange.toNat - 1)
/-- the configuration fields a write leaves: refused whole while the quad is in use, PROFILE, ARRANGE and FEC where they
form no row of Table 8-2 -/
def cfgAfter (x : Quad) (idle : Bool) (v : Word) : Quad :=
  let y := cfgFields x v
  if sameCfg x y then x else if !idle then x
  else if comboLegal y then y else { x with rxInv := y.rxInv, txInv := y.txInv }
/-- PORT_EN takes a new value: ports go down or start -/
def applyPortEn (s : State) (q : Nat) (en : BitVec 4) : State :=
  let old := (getQ s q).portEn
  let s := setQ s q { getQ s q with portEn := en }
  (List.range 4).foldl (fun s p =>
    if old.getLsbD p && !(en.getLsbD p) then (if (getPort s q p).state == 0 then s else portLeaves s q p 0 1)
    else if !(old.getLsbD p) && en.getLsbD p && quadsPowered s then startPort s q p else s) s
/-- A write of Qq_CFG (R234, R235, R433). -/
def quadCfgWrite (s : State) (q : Nat) (v : Word) : State :=
  if quadFenced s q then reject s 9
  else
    let x := getQ s q
    let y := cfgAfter x (x.portEn == 0 && !(quadBound s q)) v
    let en : BitVec 4 := v.extractLsb' 8 4
    let good := en &&& portMask y
    let bad := !(sameCfg y (cfgFields x v)) || good != en
    let s := applyPortEn (setQ s q y) q good
    if bad then reject s 9 else s

/-! ### NVMe completion queues (R243, R249) -/

/-- SCT 0 with Command Interrupted or Namespace Not Ready, DNR clear -/
def nvRetryable (st : Nat) : Bool := decide (st / 2 ^ 8 % 8 = 0) && decide (st < 2 ^ 14) && (st % 256 == 0x21 || st % 256 == 0x82)
/-- One completion: the status is the entry's bits [31:17] of its last dword. -/
def nvComplete (s : State) (o : DevOp) (st : Nat) : State :=
  if st / 2 ^ 8 % 8 = 0 ∧ st % 256 = 0 then
    let l := if o.verb = 0x22 ∨ o.verb = 0x23 then (getPages s (nvBytes o) o.pages).take o.count else []
    finishOp s { o with rx := l } devDone 0 0
  else if nvRetryable st then
    (if o.tries < (getQ s o.q).busyRetries.toNat then setOp s { o with stage := .busyWait, tries := o.tries + 1 }
     else finishOp s o devBusy 0 o.count)
  else finishOp s o devUnit (BitVec.ofNat 8 st) o.count
/-- Completions seen in order until an entry of the old phase; fuel is the queue's size. -/
def cqScan (q p pair : Nat) : Nat → State → State
  | 0, s => s
  | f + 1, s =>
    match aget (getPort s q p).pp.pairs pair with
    | none => s
    | some k =>
      let e := getBytes s.mem.dram (k.cqBase + 16 * k.cqHead) 16
      let d3 := ofLE (subBytes e 12 4)
      if decide (d3 / 2 ^ 16 % 2 = 1) != k.phase then s
      else
        let next := (k.cqHead + 1) % k.entries
        let k' := { k with cqHead := next, phase := if next = 0 then !k.phase else k.phase, sqHead := ofLE (subBytes e 8 2) % k.entries }
        let s := modPP s q p fun x => { x with pairs := aset pair k' x.pairs }
        let s := match (portOps s q p).find? fun o => o.kind == .nvme && o.stage == .issued && o.qid == pair && o.cid == d3 % 2 ^ 16 with
          | some o => nvComplete s o (d3 / 2 ^ 17)
          | none => s
        cqScan q p pair f s
/-- The completion queue's head is reported when entries were taken, and waiting operations try again; a FENCED part issues no
new request (11 R356). -/
def scanPair (s : State) (q p pair : Nat) : State :=
  match aget (getPort s q p).pp.pairs pair with
  | none => s
  | some k =>
    let s := cqScan q p pair k.entries s
    match aget (getPort s q p).pp.pairs pair with
    | none => s
    | some k' =>
      if k'.cqHead = k.cqHead || isFenced s then s
      else
        let fn := ((getPort s q p).pp.device.bind (·.nvme)).map (·.toNat) |>.getD 0
        retryQueued (emit s (.barWrite q p fn 0 (0x1004 + 8 * pair) (BitVec.ofNat 32 k'.cqHead))) q p

/-! ### Rings (R251) -/

def bitOf (l : List Byte) (i : Nat) : Bool := decide (byteAt l (i / 8) / 2 ^ (i % 8) % 2 = 1)
def ringErr (e : BitVec 384) (l : List Byte) : Bool := rgErrBit e != 0xFFFF && bitOf l (rgErrBit e)
/-- Descriptors done in order; fuel is the ring's size. -/
def ringScan (q p n : Nat) : Nat → State → State
  | 0, s => s
  | f + 1, s =>
    match aget (getPort s q p).pp.rings n with
    | none => s
    | some r =>
      let e := r.entry
      let mode0 := rgMode e = 0
      let l := if mode0 then getBytes s.mem.dram (rgCompBase e + 2 ^ rgCompShift e * r.comp) (2 ^ rgCompShift e)
        else getBytes s.mem.dram (rgBase e + 2 ^ rgDescShift e * r.done) (2 ^ rgDescShift e)
      if r.busy = 0 ∨ bitOf l (rgFlagBit e) != (if mode0 then r.phase else true) then s
      else
        let comp := (r.comp + 1) % rgEntries e
        let r' := { r with done := (r.done + 1) % rgEntries e, busy := r.busy - 1, comp := comp
                           phase := if comp = 0 then !r.phase else r.phase, unread := r.unread ++ [(r.done, l)] }
        let s := modPP s q p fun x => { x with rings := aset n r' x.rings }
        let s := match (portOps s q p).find? fun o => o.kind == .ring && o.verb == 0x21 && o.stage == .issued && bQueue o.bind == n && o.cid == r.done with
          | some o => if ringErr e l then finishOp s o devUnit 0x01 o.count else finishOp s o devDone 0 0
          | none => s
        ringScan q p n f s
def scanRing (s : State) (q p n : Nat) : State :=
  match aget (getPort s q p).pp.rings n with
  | none => s
  | some r => retryQueued (ringScan q p n (rgEntries r.entry) s) q p
/-- a device interrupt by function and vector: completion queue i has vector i (R242, R243, R251) -/
def deviceVector (s : State) (q p fn vec : Nat) : State :=
  let x := (getPort s q p).pp
  let nv := (x.device.bind (·.nvme)).map (·.toNat) == some fn && (aget x.pairs vec).isSome
  let rs := x.rings.filter fun r => rgFunction r.2.entry == fn && (rgCompVec r.2.entry == vec || rgAttnVec r.2.entry == vec)
  if !nv && rs.isEmpty then count s q p 6
  else
    let s := if nv then scanPair s q p vec else s
    rs.foldl (fun s r =>
      let s := if rgCompVec r.2.entry == vec then scanRing s q p r.1 else s
      if rgAttnVec r.2.entry == vec then
        match boundTo s fun b => bKind b == 2 && bQuad b == q && bPort b == p && bQueue b == r.1 with
        | some n => attend s n q p
        | none => s
      else s) s

/-! ### Ethernet reception (R255 to R260) -/

/-- A PAUSE or PFC frame: a MAC control frame with its opcode, to the MAC control group address or one of the port's own
(IEEE 802.3 Annex 31B, IEEE 802.1Qbb). -/
def isPauseFrame (x : EPort) (l : List Byte) : Bool :=
  be16 l 12 == 0x8808 && (be16 l 14 == 0x0001 || be16 l 14 == 0x0101)
    && (l.take 6 == [0x01, 0x80, 0xC2, 0x00, 0x00, 0x01] || x.uni.any fun e => e.2 == some (BitVec.ofNat 48 (ofLE (l.take 6))))
/-- a PAUSE or PFC frame consumed by the MAC: the transmit queues it pauses and resumes (R260) -/
def pauseRx (s : State) (q p : Nat) (l : List Byte) : State :=
  let s := count s q p 15
  if (getQ s q).pause == 0 then s
  else
    let set (old : BitVec 8) : BitVec 8 :=
      if be16 l 14 = 0x0001 then (if be16 l 16 = 0 then 0 else 0xFF)
      else if be16 l 14 = 0x0101 then
        (List.range 8).foldl (fun m n => if be16 l 16 / 2 ^ n % 2 = 1 then setBit m n (be16 l (18 + 2 * n) != 0) else m) old
      else old
    startTx (modEP s q p fun x => { x with paused := set x.paused }) q p
/-- the destination address is the port's (R255 step 2) -/
def addressed (x : EPort) (l : List Byte) : Bool :=
  let a := l.take 6
  let v : BitVec 48 := BitVec.ofNat 48 (ofLE a)
  v == BitVec.allOnes 48 || (if byteAt l 0 % 2 = 1 then x.multi.getLsbD (multicastBit l)
    else x.uni.any fun e => e.2 == some v)
def flowGroups (s : State) : Nat := 2 ^ (14 + s.lk.flowSize.toNat)
def groupEntries (g : Nat) : List Nat := [4 * g, 4 * g + 1, 4 * g + 2, 4 * g + 3]
def hash1 (s : State) (key : List Byte) : Nat := crcOf 0 key % flowGroups s
def hash2 (s : State) (key : List Byte) : Nat := crcOf 1 key % flowGroups s
def entryRes (s : State) (e : Nat) : Word := BitVec.ofNat 32 (ofLE (getBytes s.mem.dram (flowEntryAt s e + 44) 4))
def entryIs (s : State) (key : List Byte) (e : Nat) : Bool :=
  resValid (entryRes s e) && getBytes s.mem.dram (flowEntryAt s e) 44 == key
/-- the valid entry with this key (R257) -/
def flowFind (s : State) (key : List Byte) : Option Nat :=
  (groupEntries (hash1 s key) ++ groupEntries (hash2 s key)).find? (entryIs s key)
def bumpHits (s : State) (e : Nat) : State :=
  let a := flowEntryAt s e + 48
  writeDram s a (toLE 6 ((ofLE (getBytes s.mem.dram a 6) + 1) % 2 ^ 48))
/-- The RESULT of a frame: flow entry, else bucket; none when neither serves it (R257, R259). -/
def classify (s : State) (q p : Nat) (l : List Byte) : State × Option Word :=
  let x := getQ s q
  let key := flowKey q p x.keymask l
  match (if s.lk.flowEn then flowFind s key else none) with
  | some e => (bumpHits s e, some (entryRes s e))
  | none =>
    let ep := (getPort s q p).ep
    let b := crcOf 0 key % 2 ^ ep.bucketShift.toNat
    let r : Word := BitVec.ofNat 32 (ofLE (getBytes s.mem.dram (bucketAt ep b) 4))
    if ep.bucketEn && resValid r then (s, some r) else (s, none)
/-- the quad sends XOFF at 3,072 cells (R260) -/
def checkXoff (s : State) (q : Nat) : State :=
  let x := getQ s q
  if x.pause != 0 && !x.xoff && decide (3072 ≤ cellsUsed s q) then sendPause (setQ s q { x with xoff := true }) q 0xFFFF else s
/-- A classified frame is delivered or dropped (R260). -/
def deliverFrame (s : State) (q p n : Nat) (l : List Byte) : State :=
  let x := getQ s q
  if !(isBound (getP s n)) then count s q p 10
  else if x.rxQuota.toNat ≤ (framesFor s n).length then count s q p 11
  else if 4096 < cellsUsed s q + (l.length + 255) / 256 then count s q p 12
  else
    let s := setRx s (s.lk.rx ++ [{ q := q, p := p, prn := n, bytes := l }])
    let s := countBy (count s q p 1) q p 3 (l.length + 4)
    let s := modP s n fun r => { r with framesIn := wrapInc r.framesIn }
    frameArrives (checkXoff s q) n
/-- A received frame, its FCS removed (R255). -/
def ethRx (s : State) (q p : Nat) (l : List Byte) (good : Bool) : State :=
  if l.length < 60 then count s q p 5
  else if 9596 < l.length then count s q p 6
  else if !good then count s q p 4
  else if isPauseFrame (getPort s q p).ep l then pauseRx s q p l
  else if !(addressed (getPort s q p).ep l) then count s q p 7
  else
    let f := parseFrame l
    if !(ipSumGood l f) || !(l4SumGood l f) then count s q p 8
    else
      let (s, r) := classify s q p l
      match r with
      | none => count s q p 9
      | some w => deliverFrame s q p (resPron w) l

/-! ### KDL (R262 to R268) -/

def kdlSimple (type : Byte) (seq : BitVec 12) (payload : List Byte) : KdlFrame :=
  { type := type, seqVc := seq.setWidth 16, length := BitVec.ofNat 16 payload.length, payload := payload }

/-- SEQ of the last frame accepted -/
def lastSeq (k : KPort) : BitVec 12 := k.rxSeq - 1
def sendAck (s : State) (q p : Nat) : State := sendKdl s q p (kdlSimple 0x10 (lastSeq (getPort s q p).kp) [])
/-- one NAK, and no other until a frame is accepted in order (R264) -/
def sendNak (s : State) (q p : Nat) : State :=
  let k := (getPort s q p).kp
  if k.nakSent then s
  else count (sendKdl (modKP s q p fun k => { k with nakSent := true }) q p (kdlSimple 0x11 (lastSeq k) [])) q p 3
/-- cumulative limits of the four channels, as CREDIT and INIT carry them -/
def limitBytes (k : KPort) : List Byte := ((List.range 4).map fun v => toLE 4 (tget 0 k.given v).toNat).flatten
def limitOf4 (l : List Byte) : Tab Word :=
  (List.range 4).foldl (fun t v => tset 0 v (BitVec.ofNat 32 (ofLE (subBytes l (4 * v) 4))) t) []
def allChannels (w : Word) : Tab Word := (List.range 4).foldl (fun t v => tset 0 v w t) []
/-- entering CONFIG: sequence numbers, OP_IDs and credits start again (Table 8-16) -/
def enterConfig (k : KPort) : KPort :=
  { k with txSeq := 0, rxSeq := 0, nextOp := 0, nakSent := false, stalls := 0, replay := [], waiting := [], limit := [], used := [], taken := []
           given := allChannels 1024, initRx := false, initTx := false, tsRx := 0, ts2Rx := 0, ts2Tx := 0 }
/-- what has not been acknowledged is sent again (R264) -/
def kdlReplay (s : State) (q p : Nat) : State :=
  let s := (getPort s q p).kp.replay.foldl (fun s f => sendKdl s q p f) s
  count s q p 5
/-- ACTIVE: what is unacknowledged after a RETRAIN is sent again, then frames waiting are sent -/
def enterActive (s : State) (q p : Nat) (again : Bool) : State :=
  let s := setLinkState (modPort s q p fun x => { x with rate := 9, width := 1 }) q p 4
  kdlPump (if again then kdlReplay s q p else s) q p
/-- loss of block lock or the replay limit: RETRAIN, or DOWN at the eighth within one second (Table 8-16) -/
def enterRetrain (s : State) (q p : Nat) : State :=
  let now := s.dev.tick.toNat
  let k := (getPort s q p).kp
  let recent := (now :: k.retrains).filter fun t => decide (now < t + 100000000)
  let s := count (modKP s q p fun k => { k with retrains := recent, tsRx := 0, ts2Rx := 0, ts2Tx := 0, stalls := 0 }) q p 6
  if 8 ≤ recent.length then portLeaves s q p 1 4 else setLinkState s q p 5
/-- Training: 8 sets received start TS2; 8 TS2 received and 16 sent end it. A set is sent for each one received. -/
def trainSet (s : State) (q p : Nat) (ts2 : Bool) : State :=
  let x := getPort s q p
  if x.state != 2 && x.state != 5 then s
  else
    let k := x.kp
    let s := sendSet s q p (if 8 ≤ k.tsRx then 0x2D else 0x1E)
    let k := { k with ts2Tx := if 8 ≤ k.tsRx then k.ts2Tx + 1 else k.ts2Tx, tsRx := k.tsRx + 1, ts2Rx := if ts2 then k.ts2Rx + 1 else k.ts2Rx }
    if decide (8 ≤ k.ts2Rx) && decide (16 ≤ k.ts2Tx) then
      (if x.state == 2 then setLinkState (setPort s q p { x with kp := enterConfig k }) q p 3
       else enterActive (setPort s q p { x with kp := k }) q p true)
    else setPort s q p { x with kp := k }
/-- frames up to SEQ are acknowledged; answers whether that was progress -/
def ackUpTo (s : State) (q p : Nat) (seq : BitVec 12) : State × Bool :=
  let k := (getPort s q p).kp
  let first := match k.replay with | [] => k.txSeq | f :: _ => frameSeq f
  let n := (seq - first + 1).toNat
  if n = 0 ∨ k.replay.length < n then (s, false)
  else (modKP s q p fun k => { k with replay := k.replay.drop n, stalls := 0 }, true)
/-- a replay with or without progress: four without enter RETRAIN (R264) -/
def replayAgain (s : State) (q p : Nat) (progress : Bool) : State :=
  let s := kdlReplay s q p
  if progress then s
  else
    let n := (getPort s q p).kp.stalls + 1
    let s := modKP s q p fun k => { k with stalls := n }
    if 4 ≤ n then enterRetrain s q p else s
/-- the outstanding operation with this OP_ID -/
def kdlOp (s : State) (q p : Nat) (id : BitVec 16) : Option DevOp :=
  (portOps s q p).find? fun o => o.kind == .kdl && o.stage == .issued && o.cid == id.toNat
/-- DATA of a READ or SENSE: bytes beyond COUNT are discarded and make the transfer long (R267) -/
def kdlData (s : State) (q p : Nat) (f : KdlFrame) : State :=
  match kdlOp s q p f.opId with
  | none => s
  | some o =>
    if o.verb = 0x21 ∨ o.verb = 0x31 then s
    else
      let off := f.value.toNat
      let full := overlay (padTo (max o.rx.length (min (off + f.payload.length) o.count)) o.rx) off f.payload
      setOp s { o with rx := full.take o.count, long := o.long || decide (o.count < off + f.payload.length) }
/-- STATUS (R267, R268): its device status has the bits of DEV_STATUS, of which ATTENTION stands beside an outcome. -/
def kdlStatus (s : State) (q p : Nat) (f : KdlFrame) : State :=
  match kdlOp s q p f.opId with
  | none => count s q p 9
  | some o =>
    let noted := f.mod &&& devAttention
    if f.mod.getLsbD 2 then
      (if o.tries < (getQ s q).busyRetries.toNat then count (setOp s { o with stage := .busyWait, tries := o.tries + 1 }) q p 8
       else retryQueued (finishOp s o devBusy 0 o.count) q p)
    else if f.mod.getLsbD 1 then retryQueued (finishOp s o (devUnit ||| noted) f.detail f.value.toNat) q p
    else if f.mod.getLsbD 4 then retryQueued (finishOp s o (devTimeout ||| noted) 0 o.count) q p
    else retryQueued (finishOp s o (devDone ||| noted) 0 f.value.toNat) q p
/-- ATTN (R268) -/
def kdlAttn (s : State) (q p : Nat) (f : KdlFrame) : State :=
  match boundTo s fun b => bKind b == 5 && bQuad b == q && bPort b == p && bTarget b % 256 == f.device.toNat && bQueue b % 4 == frameVc f with
  | some n => attend s n q p
  | none => count s q p 10
/-- receive space is freed: the limit rises and is advertised (R266) -/
def giveCredit (s : State) (q p : Nat) (f : KdlFrame) : State :=
  let c : Word := BitVec.ofNat 32 (frameCost f)
  let s := modKP s q p fun k => { k with taken := tmod 0 (frameVc f) (· + c) k.taken, given := tmod 0 (frameVc f) (· + c) k.given }
  sendKdl s q p (kdlSimple 0x12 0 (limitBytes (getPort s q p).kp))
/-- a sequenced frame with a good CRC (R264) -/
def kdlSeq (s : State) (q p : Nat) (f : KdlFrame) (act : State → State) : State :=
  let k := (getPort s q p).kp
  let d := k.rxSeq - frameSeq f
  if d = 0 then
    let s := count (modKP s q p fun k => { k with rxSeq := wrapInc k.rxSeq, nakSent := false }) q p 1
    giveCredit (act (sendAck s q p)) q p f
  else if d.toNat ≤ 2048 then sendAck s q p
  else sendNak s q p
/-- frames a controller may send -/
def kdlFromController (t : Byte) : Bool := [0x00, 0x02, 0x03, 0x04, 0x10, 0x11, 0x12, 0x13].contains t
/-- An undefined frame (R265). -/
def kdlUndefined (s : State) (q p : Nat) : State :=
  let s := count s q p 7
  if (getPort s q p).state == 3 then s else sendNak s q p
/-- INIT: the limits, and the smaller of the two maximum payloads. DESIGN CHOICE (log entry 110): an INIT whose maximum
payload is none of Table 8-18's is not one, and is discarded. -/
def initRx (s : State) (q p : Nat) (f : KdlFrame) : State :=
  if f.payload.length ≠ 20 ∨ 4 < byteAt f.payload 16 then s
  else modKP s q p fun k => { k with initRx := true, limit := limitOf4 f.payload, maxPay := 256 * 2 ^ byteAt f.payload 16 }
/-- A frame arrives at a port in CONFIG, ACTIVE or RETRAIN (R263 to R268); a FENCED part discards those in sequence (11 R356). -/
def kdlRx (s : State) (q p : Nat) (f : KdlFrame) : State :=
  let x := getPort s q p
  let st := x.state.toNat
  if !(decide (3 ≤ st) && decide (st ≤ 5)) || (getQ s q).profile != 3 then s
  else if !(kdlGood f) then sendNak (count s q p 2) q p
  else if !(kdlFromController f.type) || (f.type == 0x13 && st != 3) then kdlUndefined s q p
  else if st = 3 then (if f.type = 0x13 then initRx s q p f else s)
  else if isFenced s && kdlSequenced f.type then s
  else match f.type.toNat with
    | 0x02 => kdlSeq s q p f fun s => kdlData s q p f
    | 0x03 => kdlSeq s q p f fun s => kdlStatus s q p f
    | 0x04 => kdlSeq s q p f fun s => kdlAttn s q p f
    | 0x10 => kdlPump (ackUpTo s q p (frameSeq f)).1 q p
    | 0x11 =>
      let (s, progress) := ackUpTo (count s q p 4) q p (frameSeq f)
      if st = 5 then s else kdlPump (replayAgain s q p progress) q p
    | 0x12 => kdlPump (modKP s q p fun k => { k with limit := limitOf4 f.payload }) q p
    | _ => s
/-- a frame of the kind a row names -/
def kdlOfType (s : State) (q p : Nat) (t : Byte) (f : KdlFrame) : State := if f.type = t then kdlRx s q p f else s

end Sys2Proof.Machine
end

