-- ==== Sys2Proof/Config.lean ====
section
/-!
DEFINITION. What an implementation fixes and the specification leaves open: values without a body (log entries 3 and 20).
-/

namespace Sys2Proof.Config

/-- stepping of the main die (09 Table 9-1, 13 R415) -/
opaque stepping : BitVec 4
/-- firmware version IDENTIFY reports while firmware runs (09 Table 9-9) -/
opaque firmwareVersion : Word
/-- private half of the device identity key (13 R410) -/
opaque identityKey : Nat
/-- the n-th draw of the part's random bit generator (13 R398, R418) -/
opaque drbg : Nat → BitVec 256
/-- the DRAM die still has repair resources for a row (14 R431) -/
opaque repairFits : Nat → Bool
/-- a byte whose layout the specification does not give: offset in the persistent store and draw (13 R417) -/
opaque storeByte : Nat → Nat → Byte

end Sys2Proof.Config
end

