-- ==== Sys2Proof/Machine/Twin.lean ====
section
/-!
DEFINITION. Twin pairing (11_twin_pairing.md R332 to R363): joins, mirroring, the shared tick, launches, fences, and the
link itself. Messages are sent by TwinLink.
-/

namespace Sys2Proof.Machine

/-! ### States and records (R333, R340) -/

/-- each change is an event and a log entry (R340, 14 Table 14-6) -/
def setTwinState (s : State) (st : BitVec 4) : State :=
  if s.tw.state == st then s
  else
    let old := s.tw.state
    logEvent (pulse { s with tw := { s.tw with state := st } } 224) 0x07 0xFF 0 0 [old.setWidth 8, st.setWidth 8]
/-- the range of a pronoun is the low one -/
def isLow (s : State) (n : Nat) : Bool := decide (n < s.tw.split.toNat)
def owns (s : State) (n : Nat) : Bool := if isLow s n then s.tw.ownLow else s.tw.ownHigh
/-- the twin record as it stands (R333, R358, 15 R455) -/
def twinRec (s : State) : TwinRec :=
  { ownLow := s.tw.ownLow, ownHigh := s.tw.ownHigh, timeout := s.tw.timeout, fenceMode := s.tw.fenceMode
    autoFence := s.tw.autoFence, key := s.tw.key, split := s.tw.split, storeBase := s.tw.storeBase, ctmBase := s.tw.ctmBase
    qmap := s.tw.qmap, peerSerial := s.tw.peerSerial, tookOver := s.tw.tookOver, mark := s.tw.mark, peerCtm := s.tw.peerCtm }
def saveTwin (s : State) : State := { s with nv := { s.nv with twin := bankPut s.nv.twin (twinRec s) } }
/-- the counter stands at n or above, its reservation above it by the rule of R125 (R126) -/
def raiseNext (s : State) (n : Nat) : State :=
  let next := max s.fs.next n
  let s := { s with fs := { s.fs with next := next } }
  if s.fs.limit ≤ next + 2 ^ 31 then
    let l := s.fs.limit + 2 ^ 32 * ((next + 2 ^ 31 - s.fs.limit) / 2 ^ 32 + 1)
    { s with fs := { s.fs with limit := l }, nv := { s.nv with resv := bankPut s.nv.resv l } }
  else s

/-! ### Placement of the shadow (R341) -/

def mib64 : Nat := 0x4000000
/-- bytes of the flow table -/
def flowBytes (s : State) : Nat := 64 * 2 ^ (16 + s.lk.flowSize.toNat)
/-- a DRAM range meets the flow table in use, or a port's inbound region -/
def meetsLinks (s : State) (a n : Nat) : Bool :=
  (s.lk.flowEn && overlaps a n (s.lk.flowBase.toNat * mib64) (flowBytes s))
    || s.lk.quads.any fun q => q.2.ports.any fun p => p.2.pp.size != 0 && overlaps a n (regionStart p.2.pp) (p.2.pp.size * mib64)
/-- a DRAM range is inside usable DRAM and clear of CTM, tables, flow table and inbound regions -/
def rangeClear (s : State) (a n : Nat) : Bool :=
  decide (a + n ≤ dramSize) && !(overlaps a n (ctmStart s) (ctmBytes s)) && !(overlaps a n (prnStart s) prnTablesLen) && !(meetsLinks s a n)
def storeStart (s : State) : Nat := s.tw.storeBase.toNat * mib64
def storeBytes : Nat := 0x2000000
def shadowStart (s : State) : Nat := s.tw.ctmBase.toNat * unit256
/-- the shadow store and a shadow CTM region of this many units fit -/
def shadowFits (s : State) (units : Nat) : Bool :=
  rangeClear s (storeStart s) storeBytes && rangeClear s (shadowStart s) (units * unit256)
    && !(overlaps (storeStart s) storeBytes (shadowStart s) (units * unit256))

/-! ### HELLO and AUTH (R342 to R344, Table 11-1) -/

def boundIn (s : State) (low : Bool) : Bool := s.sched.recs.any fun e => isBound e.2 && isLow s e.1 == low
def bitByte (l : List Bool) : Byte := (l.zipIdx.map fun x => BitVec.ofNat 8 (b2n x.1 * 2 ^ x.2)).foldl (· ||| ·) 0
def helloBytes (s : State) (nonce : BitVec 256) : List Byte :=
  toLE 8 (lcRec s).serial.toNat ++ [if s.tw.id then 1 else 0, BitVec.ofNat 8 (lcState s)]
    ++ [bitByte [s.tw.joinOpt, s.tw.ownLow, s.tw.ownHigh, s.fs.pendingSave.isSome, s.tw.tookOver, boundIn s true, boundIn s false]]
    ++ [s.sched.ctmSize] ++ toLE 4 s.tw.split.toNat ++ toLE 8 s.fs.next ++ toLE 8 s.fs.limit ++ toLE 8 s.dev.tick.toNat
    ++ toLE 8 s.tw.mark ++ toLE 16 nonce.toNat
def sendHello (s : State) : State :=
  let l := helloBytes s (Sys2Proof.Config.drbg s.free)
  twinSend { s with free := s.free + 1, tw := { s.tw with hello := l } } { type := 0x01, param := 0, body := l }
/-- the pairing key, when it is loaded with USE PAIRING (13 R407) -/
def pairKey (s : State) : Option (BitVec 256) := ((aget s.sec.vault s.tw.key.toNat).filter fun k => k.use.getLsbD 1).map (·.key)
def helloFlag (l : List Byte) (i : Nat) : Bool := decide (byteAt l 10 / 2 ^ i % 2 = 1)
/-- a join fails (R343): back to the state before LINKING -/
def joinFail (s : State) (cause : BitVec 4) : State :=
  let s := { s with tw := { s.tw with failCause := cause, hello := [], peerHello := [], authOk := false, stepped := false
                                      copied := false, mirrorsSent := false, launches := [], wants := [] } }
  pulse (setTwinState s s.tw.before) 234
/-- who owns a range after the join: true this part, none for cause 6 (R344) -/
def settleRange (mine peers myTook peerTook : Bool) : Option Bool :=
  if mine != peers then some mine else if mine && myTook != peerTook then some myTook else none
/-- low and high range as both HELLO bodies settle them -/
def settleBoth (a b : List Byte) : Option (Bool × Bool) :=
  match settleRange (helloFlag a 1) (helloFlag b 1) (helloFlag a 4) (helloFlag b 4),
        settleRange (helloFlag a 2) (helloFlag b 2) (helloFlag a 4) (helloFlag b 4) with
  | some l, some h => some (l, h)
  | _, _ => none
/-- a HELLO shows a bound pronoun of a range its sender will not own -/
def strayBound (l : List Byte) (low high : Bool) : Bool := (helloFlag l 5 && !low) || (helloFlag l 6 && !high)
/-- the first failing check of the peer's HELLO, in the order of R343; 0 for none -/
def helloCause (s : State) (b : List Byte) : BitVec 4 :=
  if decide (byteAt b 8 % 2 = 1) == s.tw.id then 2
  else if ofLE (subBytes b 12 4) ≠ s.tw.split.toNat then 3
  else if byteAt b 9 ≠ lcState s ∨ lcState s ≠ 2 then 4
  else if !(shadowFits s (byteAt b 11)) then 5
  else match settleBoth s.tw.hello b with
    | none => 6
    | some (l, h) =>
      if s.tw.joinOpt ∧ BitVec.ofNat 64 (ofLE (subBytes b 0 8)) ≠ s.tw.peerSerial then 7
      else if strayBound s.tw.hello l h || strayBound b (!l) (!h) then 11 else 0
/-- A HELLO received in LINKING: own HELLO first if it has not been sent, then AUTH (R342). -/
def helloRx (s : State) (b : List Byte) : State :=
  if s.tw.state != 1 || b.length != 64 then s
  else
    let s := if s.tw.hello.isEmpty then sendHello s else s
    let s := { s with tw := { s.tw with peerHello := b } }
    match pairKey s with
    | none => joinFail s 1
    | some k => twinSend s { type := 0x02, param := 0, body := hmacSha256 k (s.tw.hello ++ b) }
/-- Steps 2 and 3 of a join: ranges settled, counters raised, JOINING (R342, R344). -/
def joinEnter (s : State) (b : List Byte) : State :=
  match settleBoth s.tw.hello b with
  | none => joinFail s 6
  | some (l, h) =>
    let changed := l != s.tw.ownLow || h != s.tw.ownHigh
    let s := { s with tw := { s.tw with ownLow := l, ownHigh := h, authOk := true, peerCtm := BitVec.ofNat 8 (byteAt b 11)
                                        peerLimit := ofLE (subBytes b 24 8), peerMark := ofLE (subBytes b 40 8)
                                        peerTook := helloFlag b 4, peerSerial := BitVec.ofNat 64 (ofLE (subBytes b 0 8))
                                        stepped := false, copied := false, mirrorsSent := false, good := 0, bad := 0 } }
    let s := if changed then saveTwin s else s
    setTwinState (raiseNext s (ofLE (subBytes b 16 8))) 2
/-- AUTH received (R342, R343) -/
def authRx (s : State) (a : List Byte) : State :=
  if s.tw.state != 1 || s.tw.peerHello.isEmpty then s
  else
    let b := s.tw.peerHello
    match pairKey s with
    | none => joinFail s 1
    | some k =>
      if a != hmacSha256 k (b ++ s.tw.hello) then joinFail s 1
      else
        let c := helloCause s b
        if c != 0 then joinFail s c else joinEnter s b

/-! ### Copying and launches (R342, R345, R350) -/

/-- lines of a region in the directory's numbering: the part's own, or the one it took over -/
def regionLines (s : State) (taken : Bool) : List Nat :=
  if taken then (List.range (s.tw.peerCtm.toNat * unit256 / 64)).map (· + shadowOff / 64)
  else List.range (ctmBytes s / 64)
/-- each line is read when its message is sent -/
def copyLines (s : State) (l : List Nat) : State :=
  l.foldl (fun s x => twinSend s { type := 0x20, param := lineParam x, body := [] }) s
/-- step 5 of a join begins: every region the part owns (R342) -/
def startCopy (s : State) : State :=
  let s := { s with tw := { s.tw with copied := true } }
  let own := if s.tw.id then s.tw.ownHigh else s.tw.ownLow
  let s := if own then copyLines s (regionLines s false) else s
  if s.tw.tookOver then copyLines s (regionLines s true) else s
/-- the tick a launch or a fence is set to: 2δ + 100 ahead -/
def aheadTick (s : State) : Dword := s.dev.tick + BitVec.ofNat 64 (2 * s.tw.delta + 100)
/-- A launch proposed for this tick; while the ticks are not aligned it is kept for later (R349, R350). -/
def proposeAt (s : State) (action : Byte) (t : Dword) : State :=
  if !s.tw.aligned then { s with tw := { s.tw with wants := s.tw.wants.filter (· != action) ++ [action] } }
  else
    let s := { s with tw := { s.tw with launches := s.tw.launches.filter (fun l => l.action != action) ++ [{ action := action, tick := t, mine := true }]
                                        wants := s.tw.wants.filter (· != action) } }
    twinSend s { type := 0x07, param := t, body := action :: List.replicate 7 0 }
def propose (s : State) (action : Byte) : State := proposeAt s action (aheadTick s)

/-- clauses waiting for acknowledgement commit, in order (R129) -/
def commitAll (s : State) : State :=
  (s.fs.window.filter fun c => !c.committed).foldl (fun s c => commit s c.number c.prn) s
/-- A clause the peer's shadow holds leaves SHADOW empty when the pairing ends. -/
def freeShadow (s : State) : State := { s with tw := { s.tw with shadow := [], shadowWait := [], places := [] } }
/-- UNPAIRING ends once the clauses both parts numbered before the launch tick are acknowledged (Table 11-3, R361). DEDUCED
(log entry 84): of the peer's, those this part has received; a record that comes later is acknowledged in DETACHED. -/
def unpairDone (s : State) : State :=
  if s.tw.state == 7 && s.tw.unpairing && s.fs.window.all (·.committed) && s.tw.shadowWait.isEmpty then
    resetMaster (setTwinState (freeShadow { s with tw := { s.tw with unpairing := false } }) 0) 0x90
  else s
/-- entering PAIRED (R342 step 7) -/
def enterPaired (s : State) : State :=
  let s := { s with tw := { s.tw with fenceOut := false, fenceIn := false, hello := [], peerHello := []
                                      sentMark := if s.tw.mirrorsSent then s.tw.sentMark else releasedMark s
                                      wasPaired := false, wasLost := false, joined := true } }
  pulse (saveTwin (setTwinState s 3)) 233
/-- ownership passes at a handback (R362) -/
def handOver (s : State) : State :=
  let s := if s.tw.tookOver then { s with tw := { s.tw with ownLow := !s.tw.id, ownHigh := s.tw.id, tookOver := false, handing := false } }
    else if s.tw.id then { s with tw := { s.tw with ownHigh := true } } else { s with tw := { s.tw with ownLow := true } }
  pulse (saveTwin s) 237
/-- every port's lanes transmit the pattern (15 R459) -/
def startTest (s : State) : State :=
  match s.lk.test with
  | some (t, qs, _) => { s with lk := { s.lk with test := some (t, qs, true) } }
  | none => s
/-- what an action does at its tick -/
def launchAct (s : State) (action : Byte) : State :=
  match action.toNat with
  | 1 => if s.tw.state == 2 then enterPaired s else s
  | 2 => if s.tw.state == 7 then unpairDone { s with tw := { s.tw with unpairing := true } } else s
  | 3 => startTest s
  | 4 => if s.tw.state == 3 then handOver s else s
  | _ => s
def dropLaunch (s : State) (action : Byte) : State :=
  { s with tw := { s.tw with launches := s.tw.launches.filter fun l => l.action != action } }
def getLaunch (s : State) (action : Byte) : Option Launch := s.tw.launches.find? fun l => l.action == action
/-- The launch may be accepted (R350; 15 R459 for a link test). DESIGN CHOICE (log entry 116): an action R350 does not name is
refused. -/
def launchFits (s : State) (action : Byte) (t : Dword) : Bool :=
  decide (1 ≤ action.toNat) && decide (action.toNat ≤ 4) && s.tw.aligned && decide (s.dev.tick.toNat + s.tw.delta < t.toNat) && (action != 3 || (s.lk.test.map (·.1)) == some t)
/-- LAUNCH received (R350): UNPAIRING begins with an action 0x02 -/
def launchRx (s : State) (action : Byte) (t : Dword) : State :=
  let ok := launchFits s action t
  let s := if ok then
      let s := { s with tw := { s.tw with launches := s.tw.launches.filter (fun l => l.action != action) ++ [{ action := action, tick := t, mine := false }] } }
      if action == 2 && s.tw.state == 3 then setTwinState s 7 else s
    else s
  twinSend s { type := 0x08, param := t, body := (if ok then 1 else 0) :: List.replicate 7 0 }
/-- what a proposer's own command does once its launch is acknowledged (R361) -/
def launchAgreed (s : State) (action : Byte) : State :=
  if action == 2 then finishHeld s .unpair 0 0 else s
/-- LAUNCH_ACK received (R350) -/
def launchAckRx (s : State) (t : Dword) (ok : Bool) : State :=
  match s.tw.launches.find? fun l => l.mine && !l.acked && l.tick == t with
  | none => s
  | some l =>
    if !ok then
      let s := pulse (dropLaunch s l.action) 236
      if l.action == 3 then finishHeld { s with lk := { s.lk with test := none } } .linkTest 0x0005 0
      else { s with tw := { s.tw with wants := s.tw.wants ++ [l.action] } }
    else if t.toNat ≤ s.dev.tick.toNat then launchAct (twinCount (launchAgreed (dropLaunch s l.action) l.action) 5) l.action
    else launchAgreed { s with tw := { s.tw with launches := s.tw.launches.map fun x => if x.action == l.action then { x with acked := true } else x } } l.action

/-! ### The shared tick (R348, R349) -/

def setAligned (s : State) (on : Bool) : State :=
  if s.tw.aligned == on then s
  else
    let s := { s with tw := { s.tw with aligned := on } }
    if on then pulse s 230 else pulse (twinCount s 4) 229
/-- one measurement -/
def measure (s : State) (theta : Int) (delta : Nat) : State :=
  let near := decide (theta ≤ 2) && decide (-2 ≤ theta)
  let s := { s with tw := { s.tw with theta := theta, delta := delta, good := if near then min 8 (s.tw.good + 1) else 0
                                      bad := if near then 0 else min 8 (s.tw.bad + 1) } }
  if s.tw.good = 8 then setAligned s true else if s.tw.bad = 8 then setAligned s false else s
/-- step 4 of a join: the part behind steps forward once (R342) -/
def joinStep (s : State) (theta : Int) : State :=
  let s := if 0 < theta then { s with dev := { s.dev with tick := s.dev.tick + BitVec.ofNat 64 theta.toNat } } else s
  { s with tw := { s.tw with stepped := true, good := 0, bad := 0 } }
/-- HEARTBEAT received -/
def heartbeatRx (s : State) (param : Dword) (b : List Byte) : State :=
  let a1 := ofLE (subBytes b 0 8)
  let b1 := ofLE (subBytes b 8 8)
  let a2 := s.dev.tick.toNat
  let s := { s with tw := { s.tw with hbParam := param, hbAt := s.dev.tick, peerLimit := ofLE (subBytes b 16 8) } }
  if a1 = 0 then s
  else
    let theta := (((b1 : Int) - a1) + ((param.toNat : Int) - a2)).tdiv 2
    let delta := (((a2 : Int) - a1) - ((param.toNat : Int) - b1)).toNat
    let s := if s.tw.state == 2 && !s.tw.stepped then joinStep { s with tw := { s.tw with theta := theta, delta := delta } } theta
      else measure s theta delta
    if s.tw.state == 2 && s.tw.stepped && s.tw.aligned && !s.tw.copied then startCopy s else s
def heartbeatTx (s : State) : State :=
  twinSend s { type := 0x03, param := s.dev.tick, body := toLE 8 s.tw.hbParam.toNat ++ toLE 8 s.tw.hbAt.toNat ++ toLE 8 s.fs.limit ++ List.replicate 8 0 }

/-! ### Loss, fences, FENCED (R351 to R356) -/

/-- The part enters FENCED and stops, mirroring with it; a FENCE whose tick has not come is still answered (R354, R356). -/
def enterFenced (s : State) : State :=
  if isFenced s then s
  else
    let paired := s.tw.state == 3 || s.tw.state == 4 || s.tw.state == 7
    let s := { s with tw := { s.tw with wasPaired := paired, wasLost := s.tw.state == 4, fencedRunning := true, fenceOut := false
                                        fencing := 0, launches := [], wants := [], copied := false, handing := false
                                        hello := [], peerHello := [], txq := s.tw.txq.filter fun m => !(isBulk m.type) }
                      fs := { s.fs with stopped := true } }
    pulse (setTwinState s 6) 228
/-- an asserted FENCE_IN is obeyed, save by identity 1 that already fences (R353) -/
def obeyFenceIn (s : State) : State := if s.tw.id && s.tw.fenceOut then s else enterFenced s
/-- A fence completes (R355). -/
def fenceComplete (s : State) : State :=
  let s := pulse { s with tw := { s.tw with fencing := 0, launches := [], wants := [], handing := false } } 226
  commitAll (setTwinState s 5)
def fenceFails (s : State) : State := pulse { s with tw := { s.tw with fencing := 0 } } 227
def pinFence (s : State) : State := { s with tw := { s.tw with fenceOut := true, fencing := 3 } }
def linkFence (s : State) (thenPins : Bool) : State :=
  twinSend { s with tw := { s.tw with fencing := if thenPins then 2 else 1 } } { type := 0x05, param := aheadTick s, body := [] }
/-- a fence by this mode (R355): 0 pins, 1 link, 2 link then pins -/
def startFence (s : State) (mode : Nat) : State :=
  if mode = 0 then pinFence s
  else if mode = 1 then linkFence s false
  else if s.tw.link == 2 then linkFence s true else pinFence s
/-- The peer is declared lost (R351). -/
def declareLoss (s : State) : State :=
  let st := s.tw.state
  if st != 2 && st != 3 && st != 7 then s
  else
    let s := if st == 2 then joinFail s 10
      else setTwinState { s with tw := { s.tw with launches := [], wants := [], handing := false, unpairing := false } } 4
    let s := resetMaster (twinCount (pulse s 225) 6) 0x90
    if st != 2 && s.tw.autoFence then startFence s s.tw.fenceMode.toNat else s
/-- A FENCE received, at its tick or once it has passed: FENCE_ACK once the part has stopped, whoever stopped it (R354). -/
def fenceStop (s : State) : State :=
  let s := enterFenced { s with tw := { s.tw with stopAt := none } }
  twinSend s { type := 0x06, param := s.dev.tick, body := [] }

/-! ### The shadow (R345 to R347) -/

def shadowBytes (l : List NClause) : Nat := (l.map fun c => (c.effects.map fun e => e.data.length).sum).sum
def shadowRoom (s : State) (c : NClause) : Bool :=
  decide (s.tw.shadow.length < 16384) && decide (shadowBytes s.tw.shadow + shadowBytes [c] ≤ 25165824)
/-- the bytes of the store a record takes: after the last one, from the start where that leaves no room (log entry 118) -/
def placeFor (s : State) (n : Nat) : Nat :=
  let o := match s.tw.places.getLast? with | some (_, o, k) => o + k | none => 0
  if o + n ≤ storeBytes then o else 0
/-- the record is written into the shadow store in buffer DRAM (R346) -/
def storeRecord (s : State) (c : NClause) : State :=
  let l := mirrorBody c
  let o := placeFor s l.length
  let s := writeDram s (storeStart s + o) l
  { s with tw := { s.tw with places := s.tw.places ++ [(c.number, o, l.length)] } }
/-- an uncorrectable error lies in a stored record (R346) -/
def recordBad (s : State) (c : NClause) : Bool :=
  match aget s.tw.places c.number with
  | some (o, n) => dramPoisoned s (storeStart s + o) n
  | none => false
def ackMirror (s : State) : State := twinSend s { type := 0x04, param := BitVec.ofNat 64 s.tw.rxMark, body := [] }
/-- records held for want of room enter the store in order; fuel is their number -/
def takeShadow : Nat → State → State
  | 0, s => s
  | f + 1, s =>
    match s.tw.shadowWait with
    | [] => s
    | c :: cs =>
      if shadowRoom s c then
        let s := storeRecord s c
        takeShadow f (ackMirror { s with tw := { s.tw with shadow := s.tw.shadow ++ [c], shadowWait := cs, rxMark := c.number } })
      else s
/-- a pronoun of the part's own range: the peer that sends its clause had taken it over (R347) -/
def ownRange (s : State) (prn : Nat) : Bool := isLow s prn != s.tw.id
/-- MIRROR received (R346): in DETACHED it belongs to an UNPAIRING that the peer has not ended, and is only acknowledged. -/
def mirrorRx (s : State) (b : List Byte) : State :=
  if s.tw.state == 0 then ackMirror { s with tw := { s.tw with rxMark := mirrorNumber b } }
  else if s.tw.state != 2 && s.tw.state != 3 && s.tw.state != 7 then s
  else
    let s := { s with tw := { s.tw with shadowWait := s.tw.shadowWait ++ [parseMirror (!(ownRange s (mirrorPrn b))) b] } }
    takeShadow s.tw.shadowWait.length s
/-- MIRROR_ACK received: clauses up to N commit (R127) -/
def mirrorAckRx (s : State) (n : Nat) : State :=
  let due := s.fs.window.filter fun c => decide (c.number ≤ n)
  let s := { s with fs := { s.fs with window := s.fs.window.map fun c => if c.number ≤ n then { c with mirrored := true } else c } }
  unpairDone ((due.filter fun c => !c.committed).foldl (fun s c => commit s c.number c.prn) s)
/-- a line of the peer's or of this part's region written from a message (R345, Table 11-1) -/
def lineRx (s : State) (param : Dword) (b : List Byte) : State :=
  let a := (param.toNat / 64) * 64
  if b.length != 64 then s
  else if param.getLsbD 0 then (if a + 64 ≤ ctmBytes s then writeDram s (ctmPhys s a) b else s)
  else if a + 64 ≤ s.tw.peerCtm.toNat * unit256 then writeDram s (ctmPhys s (shadowOff + a)) b else s
/-- a shadowed clause's CTM write set enters the copy (R347) -/
def applyShadow (s : State) (c : NClause) : State :=
  c.effects.foldl (fun s e => match e.body with
    | .ctm a => writeDram s (ctmPhys s (offOf a)) e.data
    | _ => s) s
/-- RELEASED received (R347) -/
def releasedRx (s : State) (n : Nat) : State :=
  let gone := s.tw.shadow.filter fun c => decide (c.number ≤ n)
  let s := gone.foldl applyShadow s
  let s := { s with tw := { s.tw with shadow := s.tw.shadow.filter fun c => decide (n < c.number)
                                      places := s.tw.places.filter fun e => decide (n < e.1) } }
  unpairDone (takeShadow s.tw.shadowWait.length s)

/-! ### The link (R335, R336) -/

/-- flits not acknowledged are sent again -/
def flitReplay (s : State) : State := twinCount (s.tw.replay.foldl putFlit s) 1
def linkLeaves (s : State) (st : BitVec 2) : State :=
  let s := { s with tw := { s.tw with link := st, stalls := 0 } }
  pulse (if st == 1 then twinCount s 2 else s) 231
/-- a replay without progress; the fourth sends the link to TRAIN -/
def flitReplayAgain (s : State) : State :=
  let s := flitReplay s
  let n := s.tw.stalls + 1
  if 4 ≤ n then linkLeaves s 1 else { s with tw := { s.tw with stalls := n } }
/-- a flit that carries the acknowledgement alone, with or without NAK -/
def nullFlit (nak : Bool) : Flit := { seq := 0, null := true, nak := nak }
def flitNak (s : State) : State :=
  if s.tw.nakSent then s else putFlit { s with tw := { s.tw with nakSent := true } } (nullFlit true)
/-- flits up to ACK_SEQ are acknowledged; answers whether that was progress -/
def flitAck (s : State) (seq : BitVec 12) : State × Bool :=
  let first := match s.tw.replay with | [] => s.tw.txSeq | f :: _ => f.seq
  let n := (seq - first + 1).toNat
  if n = 0 ∨ s.tw.replay.length < n then (s, false)
  else ({ s with tw := { s.tw with replay := s.tw.replay.drop n, stalls := 0 } }, true)
/-- a sequenced flit with a good CRC -/
def flitSeq (s : State) (f : Flit) : State :=
  let d := s.tw.rxSeq - f.seq
  if d = 0 then
    let s := { s with tw := { s.tw with rxSeq := wrapInc s.tw.rxSeq, nakSent := false } }
    putFlit s (nullFlit false)
  else if d.toNat ≤ 2048 then putFlit s (nullFlit false) else flitNak s
/-- A flit received (R336). -/
def flitRx (s : State) (f : Flit) : State :=
  if s.tw.link != 2 then s
  else if !(flitGood f) then flitNak (twinCount s 0)
  else
    let (s, progress) := if f.ackValid then flitAck s f.ackSeq else (s, false)
    let s := if f.nak then (if progress then flitReplay s else flitReplayAgain s) else s
    twinPump (if f.null then s else flitSeq s f)
/-- The link reaches ACTIVE (R335, R342). -/
def linkActive (s : State) : State :=
  if s.tw.link != 1 then s
  else
    let s := pulse { s with tw := { s.tw with link := 2, stalls := 0 } } 232
    let s := if s.tw.replay.isEmpty then s else flitReplay s
    let s := if s.tw.state == 1 && s.tw.hello.isEmpty then sendHello s else s
    twinPump s
/-- the types of Table 11-1, each in its class -/
def twinTypes : List Nat := [0x01, 0x02, 0x03, 0x04, 0x05, 0x06, 0x07, 0x08, 0x09, 0x0A, 0x0B, 0x20, 0x21, 0x22, 0x23]
def isTwinMessage (type : Byte) (bulk : Bool) : Bool := twinTypes.contains type.toNat && isBulk type == bulk

end Sys2Proof.Machine
end

