-- ==== Sys2Proof/Machine/Drain.lean ====
section
/-!
DEFINITION. The drain (05 R139 to R141, 12 R382 to R384) and the control processor fault that starts one (14 R434).
-/

namespace Sys2Proof.Machine

/-! ### What a drain saves -/

/-- a save that no REPLAY has taken up yet: its clauses are numbered and not released, its lost list not reported -/
def unreplayed (s : State) : Option Save := if s.fs.replay.isSome then none else s.fs.pendingSave.map (·.2)
/-- the clauses open now, as the lost list names them -/
def openLost (s : State) : List (Nat × Dword) := (s.cls.clauses.filter fun c => c.doom.isNone).map fun c => (c.prn, c.clb)
/-- The save as it stands in the drain's first cycle (R139, R140, Table 5-5), with what a save still pending holds. -/
def drainSave (s : State) (cause : Byte) : Save :=
  let st := s.tw.state
  let old := unreplayed s
  { seq := nextSeq s, cause := cause, paired := st == 3 || st == 4 || st == 7 || (st == 6 && s.tw.wasPaired)
    peerLost := st == 4 || (st == 6 && s.tw.wasLost), clauses := ((old.map (·.clauses)).getD []) ++ s.fs.window
    lost := ((old.map (·.lost)).getD []) ++ openLost s, tick := s.dev.tick, limit := s.fs.limit }

/-! ### Shedding (Table 12-5, step 2) -/

/-- a table whose entries are mapped, those at the default left out -/
def tmap {α : Type} [DecidableEq α] (d : α) (f : α → α) (t : Tab α) : Tab α :=
  t.foldl (fun acc e => tset d e.1 (f e.2) acc) []
/-- a quad without power: its registers stay -/
def shedQuad (x : Quad) : Quad := { x with ports := tmap {} (fun p : Port => { pp := { base := p.pp.base, size := p.pp.size } }) x.ports, xoff := false, testing := false }
def noTransfers (x : Mover) : Mover := { x with queue := [], ctx := [] }
/-- a host link that is down -/
def linkOff (l : HLink) : HLink := { l with rate := 0, width := 0, flit := false, l1 := false }
/-- slots, quads, movers, the control processor and Malid Link stop -/
def shed (s : State) : State :=
  let s := { s with lk := { s.lk with ops := [], rx := [], quads := tmap {} shedQuad s.lk.quads, test := none }
                    mv := { s.mv with movers := tmap {} noTransfers s.mv.movers }
                    cp := { s.cp with running := false, stall := none } }
  let s := if s.tw.link == 2 then pulse s 231 else s
  { s with tw := { s.tw with link := 0, txq := [], replay := [], restCtl := [], restBulk := [], aligned := false } }
/-- the host port's lanes lose power -/
def shedHost (s : State) : State := { s with hp := { s.hp with linkA := linkOff s.hp.linkA, linkB := linkOff s.hp.linkB } }

/-! ### The start of a drain -/

def isCold : ResetKind → Bool
  | .powerOn | .resetN | .perst => true
  | _ => false
/-- of two resets that meet, the wider follows the drain, the first among equals (15 Table 15-2) -/
def wider (a b : Option ResetKind) : Option ResetKind :=
  match a, b with
  | some x, some y => if isCold y && !(isCold x) then some y else some x
  | none, y => y
  | x, none => x
/-- A drain starts, or joins the one that runs, which keeps its CAUSE (R139, R382, R384; 15 Table 15-2). The save holds the
window and the lost list as they stand. No kind: a power failure. -/
def startDrain (s : State) (cause : Byte) (kind : Option ResetKind) : State :=
  let cold := match kind with | some k => isCold k | none => true
  let s := { s with pwr := { s.pwr with failed := s.pwr.failed || kind.isNone }, rst := { s.rst with fwReady := false, rom := false } }
  match s.pwr.drain with
  | some d =>
    let s := { s with pwr := { s.pwr with drain := some { d with reset := wider d.reset kind } } }
    if cold then shedHost s else s
  | none =>
    let save := if s.fs.window.isEmpty && (openLost s).isEmpty then none else some (drainSave s cause)
    let s := { s with pwr := { s.pwr with drain := some { cause := cause, save := save, reset := kind } }
                      fs := { s.fs with stopped := true } }
    let s := shed (pulse s 256)
    if cold then shedHost s else s

/-! ### A control processor fault (14 R434) -/

/-- The pair stops and the part takes a watchdog reset. The log holds the PC offset. -/
def cpFault (s : State) : State :=
  if s.cp.faulted then s
  else
    let s := logEvent s 0x04 0x0D 0 (s.cp.regs.pc.setWidth 64) []
    startDrain { s with cp := { s.cp with faulted := true, stall := none } } 0x05 (some .watchdog)

end Sys2Proof.Machine
end

