-- ==== Sys2Proof/Machine/Script.lean ====
section
/-!
DEFINITION. How a script or control processor instruction issues (07 R184 to R227): fetch, encoding checks, predicate,
budget, repeats, traps, stalls, and the effects several instructions share.
-/

namespace Sys2Proof.Machine

/-! ### Context and effects -/

/-- What an instruction sees of its core. -/
structure Cx where
  ctl  : Bool
  /-- slot and pronoun; 0 on the control processor -/
  k    : Nat
  n    : Nat
  r    : Regs
  /-- budget left, counting this instruction -/
  left : Word
  rsov : Bool
  dzt  : Bool

/-- What an instruction does. -/
inductive Eff where
  /-- it executes: state and registers after, and what happens once the registers are stored -/
  | go (s : State) (r : Regs) (post : State → State)
  /-- it executes and has set the program counter -/
  | jump (s : State) (r : Regs)
  | trap (cause : Byte) (v : Word)
  /-- it waits, holding its slot or leaving it -/
  | stall (s : State) (st : Stall) (post : State → State)
  /-- the script's CCW is over, or its clause is doomed -/
  | stop (s : State)
  /-- a clause limit is exceeded (R104) -/
  | limit (k : Byte)

abbrev Effect' := State → Cx → Word → Eff
def done (s : State) (r : Regs) : Eff := .go s r id

/-! ### Row keys (Tables 7-4, 7-5, 7-15) -/

/-- the row an instruction word belongs to: opcode and what distinguishes it; none where none is defined -/
def rowKey (ctl : Bool) (w : Word) : Option Nat :=
  let o := (opcOf w).toNat
  let f := (fnOf w).toNat
  match o with
  | 0x01 => if aluFns.contains f then some (0x100 + f) else none
  | 0x0A => some (if w.getLsbD 16 then 0xA01 else 0xA00)
  | 0x2E => some (if w.getLsbD 21 then 0x2E01 else 0x2E00)
  | 0x3C | 0x3D => if ctl then some (o * 256) else none
  | 0x3E => if ctl && decide (f ≤ 1) then some (0x3E00 + f) else none
  | 0x3F => if ctl && decide (f ≤ 2) then some (0x3F00 + f) else none
  | _ => if opcodes.contains o then some (o * 256) else none

/-! ### Registers (R190 to R192) -/

def predVal (r : Regs) (i : Nat) : Bool := i == 0 || r.p.getLsbD i
def setPred (r : Regs) (i : Nat) (b : Bool) : Regs := if i = 0 then r else { r with p := setBit r.p i b }
def executes (r : Regs) (w : Word) : Bool := predVal r (predOf w) != senseOf w
def align4 (w : Word) : Word := w &&& ~~~3#32
def statWord (r : Regs) : Word := BitVec.ofNat 32 (b2n r.v + 2 * b2n r.dz)
/-- special register n (Table 7-2) -/
def mfsValue (s : State) (x : Cx) (n : Nat) : Word :=
  let r := x.r
  match n with
  | 0 => statWord r
  | 1 => align4 r.lk
  | 2 => align4 r.th
  | 3 => r.tc.setWidth 32
  | 4 => align4 r.tpc
  | 5 => r.tval
  | 6 => r.crc.setWidth 32
  | 7 => BitVec.ofNat 32 (r.p.toNat / 2 * 2 + 1)
  | 8 => s.dev.tick.setWidth 32
  | 9 => if x.ctl then 0 else BitVec.ofNat 32 x.n
  | 10 => if x.ctl then 0 else BitVec.ofNat 32 x.k
  | 11 => if x.ctl then 0 else x.left
  | 12 => if x.ctl then 0 else
      BitVec.ofNat 32 (b2n (openClause s x.n).isSome + 256 * (getP s x.n).retryCount.toNat)
  | 13 => BitVec.ofNat 32 r.rs.length
  | _ => if !x.ctl && takenOver s x.n then s.tw.peerCtm.setWidth 32 else BitVec.ofNat 32 (s.sched.ctmSize.toNat % 32)
/-- MTS of a value (R192, R215) -/
def mtsRegs (r : Regs) (n : Nat) (v : Word) : Regs :=
  match n with
  | 0 => { r with v := v.getLsbD 0, dz := v.getLsbD 1 }
  | 1 => { r with lk := align4 v }
  | 2 => { r with th := align4 v }
  | 4 => { r with tpc := align4 v }
  | 6 => { r with crc := v.extractLsb' 0 2 }
  | _ => { r with p := v.extractLsb' 0 8 &&& 0xFE }

/-! ### Traps (R223 to R226) -/

/-- a trap taken into its handler; none when it is unhandled -/
def trapRegs (r : Regs) (cause : Byte) (v : Word) : Option Regs :=
  if r.th != 0 && !r.inHandler then
    some { r with tc := cause, tval := v, tpc := r.pc, inHandler := true, pc := align4 r.th, rep := none }
  else none
def unhandledDetail (r : Regs) (cause : Byte) : Byte := if r.inHandler then cause ||| 0x80 else cause
def countTrap (s : State) (e : Nat) : State := rcPulse (tget 0 s.ce.traps e) { s with ce := { s.ce with traps := tmod 0 e satInc s.ce.traps } }

/-- the program counter and the repeat after an instruction (R210) -/
def nextPc (r : Regs) : Regs :=
  match r.rep with
  | some x => if x.left ≤ 1 then { r with rep := none, pc := r.pc + 4 } else { r with rep := some { x with left := x.left - 1 } }
  | none => { r with pc := r.pc + 4 }

/-! ### Fetch (R188, R189, R231) -/

/-- the code address of a script -/
def codeAddr (base : Dword) (pc : Word) : Dword := base + pc.setWidth 64
def codeGood (s : State) (n : Nat) (base : Dword) (pc : Word) : Bool :=
  let a := codeAddr base pc
  spaceOf a == spaceOf base && decide (offOf base + pc.toNat < 2 ^ 60) && inRange s n a 4
/-- an uncorrectable error on the fetch of a line not cached -/
def codeBad (s : State) (a : Dword) : Bool :=
  spaceOf a == 8 && dramPoisoned s (offOf a / 64 * 64) 64
def iline (a : Dword) : Nat := a.toNat / 64
def lineCached (s : State) (e : Nat) (a : Dword) : Bool := (tget [] s.ce.icache e).any fun x => x.1 == iline a
/-- the code line at an address as memory holds it -/
def codeLine (s : State) (a : Dword) : List Byte :=
  getBytes (if spaceOf a == 8 then s.mem.dram else s.mem.loc) (offOf a / 64 * 64) 64
/-- the instruction word an engine fetches: from its cache, which keeps a line as it was fetched (R189), else from memory -/
def codeWord (s : State) (e : Nat) (a : Dword) : Word :=
  let l := (aget (tget [] s.ce.icache e) (iline a)).getD (codeLine s a)
  BitVec.ofNat 32 (ofLE ((l.drop (a.toNat % 64)).take 4))
/-- the line enters the engine's cache of 1,024 lines -/
def cacheLine (s : State) (e : Nat) (a : Dword) : State :=
  if lineCached s e a then s
  else { s with ce := { s.ce with icache := tmod [] e (fun l => ((iline a, codeLine s a) :: l).take (1024 - retiredOf s 2 e)) s.ce.icache } }
def invalidate (s : State) (e : Nat) : State := { s with ce := { s.ce with icache := tset [] e [] s.ce.icache } }

/-! ### Issue on an engine -/

def getScript (s : State) (n : Nat) : Option Script := (getP s n).script
def putScript (s : State) (n : Nat) (sc : Script) : State := modP s n fun p => { p with script := some sc }

/-- an instruction of a script raises a trap (R225, R226) -/
def raise (s : State) (k n : Nat) (sc : Script) (cause : Byte) (v : Word) : State :=
  match trapRegs sc.regs cause v with
  | some r => putScript s n { sc with regs := r, stall := none }
  | none =>
    let s := countTrap (putScript s n sc) (engineOf k)
    programCheck s n 0x13 (unhandledDetail sc.regs cause) sc.left (lastCcw (getP s n)).addr
/-- an effect on a script whose budget is counted -/
def settleEff (k n : Nat) (sc : Script) (e : Eff) (s : State) : State :=
  match e with
  | .go s r post => post (putScript s n { sc with regs := nextPc r, stall := none })
  | .jump s r => putScript s n { sc with regs := r, stall := none }
  | .trap c v => raise s k n sc c v
  | .stall s st post => post (putScript s n { sc with stall := some st })
  | .stop s => s
  | .limit d => programCheck (putScript s n sc) n 0x0F d sc.left (lastCcw (getP s n)).addr

/-- a script on its slot, ready for its next instruction (R185, R111, R213) -/
def scriptReady (s : State) (k : Nat) : Option (Nat × Script) :=
  match slotPron s k with
  | none => none
  | some n =>
    let p := getP s n
    match p.script with
    | none => none
    | some sc =>
      if running p && !p.resetting && !(wordsHeld s n) && sc.stall.isNone && !slotStopped s k
          && (p.cur.map (·.phase)) == some .script then some (n, sc) else none
/-- inside a REP, which finishes before any scheduling point (R212) -/
def inRep (r : Regs) : Bool := match r.rep with | some x => !x.interruptible | none => false
def engineCx (s : State) (k n : Nat) (sc : Script) : Cx :=
  let x := getSlot s k
  { ctl := false, k := k, n := n, r := sc.regs, left := sc.left, rsov := x.rsov, dzt := x.dzt }

/-- A script instruction issues: the word is the one fetched at the program counter. -/
def issueEngine (key : Nat) (k : Nat) (w : Word) (legal : Bool) (f : Effect') (s : State) : State :=
  let s0 := s
  match scriptReady s k with
  | none => s
  | some (n, sc) =>
    if (doomedRerun s n).isSome then
      (if (outstanding s n).isEmpty then boundary s n (lastCcw (getP s n)).addr else s)
    else if sc.left = 0 ∧ !(inRep sc.regs) then s
    else
      let row := rowKey false w
      let r := sc.regs
      if row.isSome && row != some key then s
      else
        let sc' := { sc with left := sc.left - (if sc.left = 0 then 0 else 1) }
        let a := codeAddr sc.base r.pc
        let s := { s with ce := { s.ce with last := tset 15 (engineOf k) (k % 16) s.ce.last } }
        if !(codeGood s n sc.base r.pc) || (!(lineCached s (engineOf k) a) && codeBad s a) then raise s k n sc' 0x01 r.pc
        else if codeWord s (engineOf k) a != w then s0
        else
          let s := cacheLine s (engineOf k) a
          if row.isNone || !legal || !(encLegal false r.crc.toNat r.inHandler false w) then raise s k n sc' 0x02 w
          else if executes r w then settleEff k n sc' (f s (engineCx s k n sc) w) s
          else putScript s n { sc' with regs := nextPc r }

/-! ### Issue on the control processor (R231, R233) -/

def requested (s : State) : Bool := s.evt.normal.presented.isSome || s.evt.fast.presented.isSome
/-- it issues instructions: running, no fault, not stopped by WFI, not waiting -/
def cpIssues (s : State) : Bool :=
  controlRuns s && s.cp.running && !s.cp.faulted && s.cp.stall.isNone && (!s.cp.wfi || requested s)
def setCp (s : State) (c : Cp) : State := { s with cp := c }
/-- a trap of the control processor: its handler, or the fault of R233 -/
def cpRaise (s : State) (cause : Byte) (v : Word) : State :=
  match trapRegs s.cp.regs cause v with
  | some r => setCp s { s.cp with regs := r, stall := none }
  | none => cpFault s
def settleCp (e : Eff) (s : State) : State :=
  match e with
  | .go s r post => post (setCp s { s.cp with regs := nextPc r, stall := none })
  | .jump s r => setCp s { s.cp with regs := r, stall := none }
  | .trap c v => cpRaise s c v
  | .stall s st post => post (setCp s { s.cp with stall := some st })
  | .stop s => s
  | .limit _ => s
/-- the control processor's word at a program counter, from its TCM (R231) -/
def tcmWord (s : State) (pc : Word) : Word := BitVec.ofNat 32 (ofLE (getBytes s.mem.tcm pc.toNat 4))
/-- reset values of SLOTk_CTL stand for the control processor (log entry 6) -/
def cpCx (s : State) : Cx := { ctl := true, k := 0, n := 0, r := s.cp.regs, left := 0, rsov := true, dzt := false }
def issueCp (key : Nat) (w : Word) (legal : Bool) (f : Effect') (s : State) : State :=
  if !(cpIssues s) then s
  else
    let row := rowKey true w
    let r := s.cp.regs
    if row.isSome && row != some key then s
    else
      let s0 := s
      let s := setCp s { s.cp with wfi := false }
      if !(decide (r.pc.toNat + 4 ≤ 0x80000)) then cpRaise s 0x01 r.pc
      else if tcmWord s r.pc != w then s0
      else if row.isNone || !legal || !(encLegal true r.crc.toNat r.inHandler (s.cp.inNormal || s.cp.inFast) w) then
        cpRaise s 0x02 w
      else if executes r w then settleCp (f s (cpCx s) w) s
      else setCp s { s.cp with regs := nextPc r }

/-- An instruction issues on its core. -/
def issue (key : Nat) (c : Core) (w : Word) (f : Effect') (s : State) : Res :=
  .next (match c with
    | .engine k => issueEngine key k.toNat w true f s
    | .control => issueCp key w true f s)
/-- the word after the one at the program counter is this, where there is one -/
def nextIs (s : State) (c : Core) (nxt : Word) : Bool :=
  match c with
  | .engine k =>
    match scriptReady s k.toNat with
    | some (n, sc) => !(codeGood s n sc.base (sc.regs.pc + 4)) || codeWord s (engineOf k.toNat) (codeAddr sc.base (sc.regs.pc + 4)) == nxt
    | none => false
  | .control => decide (0x80000 < s.cp.regs.pc.toNat + 8) || tcmWord s (s.cp.regs.pc + 4) == nxt
/-- the repeat prefixes, checked together with the next instruction (R211) -/
def issuePrefix (key : Nat) (c : Core) (w nxt : Word) (f : Effect') (s : State) : Res :=
  .next (if !(nextIs s c nxt) then s
    else match c with
    | .engine k => issueEngine key k.toNat w (!(repeatForbidden false nxt)) f s
    | .control => issueCp key w (!(repeatForbidden true nxt)) f s)

/-! ### Shared effects: arithmetic (R198 to R202) -/

def rs1V (x : Cx) (w : Word) : Word := getG x.r (rs1Of w)
def rs2V (x : Cx) (w : Word) : Word := getG x.r (rs2Of w)
def putRd (x : Cx) (w : Word) (v : Word) : Regs := setG x.r (rdOf w) v
def orV (r : Regs) (b : Bool) : Regs := { r with v := r.v || b }
def effAlu (f : Word → Word → Word) : Effect' := fun s x w => done s (putRd x w (f (rs1V x w) (rs2V x w)))
def effUnary (f : Word → Word) : Effect' := fun s x w => done s (putRd x w (f (rs1V x w)))
def effAluV (f : Word → Word → Word × Bool) : Effect' := fun s x w =>
  let r := f (rs1V x w) (rs2V x w)
  done s (orV (putRd x w r.1) r.2)
def zext12 (w : Word) : Word := (imm12Of w).setWidth 32
def sext12 (w : Word) : Word := (imm12Of w).signExtend 32
def effImm (f : Word → Word → Word) : Effect' := fun s x w => done s (putRd x w (f (rs1V x w) (zext12 w)))
/-- DIVS, REMS, DIVU, REMU (R199, R200) -/
def effDiv (signed wantRem : Bool) : Effect' := fun s x w =>
  let a := rs1V x w
  let b := rs2V x w
  if b = 0 ∧ x.dzt then .trap 0x0B a
  else
    let (q, m, v, dz) := if signed then aluDivs a b else let u := aluDivu a b; (u.1, u.2.1, false, u.2.2)
    let r := orV (putRd x w (if wantRem then m else q)) v
    done s { r with dz := r.dz || dz }

/-! ### Shared effects: memory (R187, R203, R204, R231) -/

/-- the trap of a data address of n bytes, or none -/
def dataTrap (s : State) (ctl : Bool) (a : Word) (n : Nat) : Option Byte :=
  if a.toNat % n ≠ 0 then some 0x03
  else if (if ctl then decide (0x80000 ≤ a.toNat) else decide (0x400000 ≤ a.toNat) || localGone s a.toNat n) then some 0x04 else none
def dataAddr (x : Cx) (w : Word) : Word := rs1V x w + sext12 w
def readData (s : State) (ctl : Bool) (a : Word) (n : Nat) : List Byte :=
  getBytes (if ctl then s.mem.tcm else s.mem.loc) a.toNat n
def writeData (s : State) (ctl : Bool) (a : Word) (l : List Byte) : State :=
  if ctl then writeTcm s a.toNat l else writeLoc s a.toNat l
/-- a load's value, or its trap -/
def loadAt (s : State) (x : Cx) (a : Word) (n : Nat) : Except Byte (List Byte) :=
  match dataTrap s x.ctl a n with
  | some c => .error c
  | none => .ok (readData s x.ctl a n)
def sextOf (l : List Byte) : Word :=
  if l.length = 1 then (BitVec.ofNat 8 (ofLE l)).signExtend 32 else (BitVec.ofNat 16 (ofLE l)).signExtend 32
def zextOf (l : List Byte) : Word := BitVec.ofNat 32 (ofLE l)
def effLoad (n : Nat) (conv : List Byte → Word) : Effect' := fun s x w =>
  let a := dataAddr x w
  match loadAt s x a n with
  | .ok l => done s (putRd x w (conv l))
  | .error c => .trap c a
def effStore (n : Nat) : Effect' := fun s x w =>
  let a := dataAddr x w
  match dataTrap s x.ctl a n with
  | some c => .trap c a
  | none => done (writeData s x.ctl a (toLE n (getG x.r (rdOf w)).toNat)) x.r

/-- the trap of a CTM offset -/
def ctmTrap (s : State) (x : Cx) (a : Word) (n : Nat) : Option Byte :=
  if a.toNat % n ≠ 0 then some 0x03
  else if (if x.ctl then ctmBytes s else ctmSizeFor s x.n) ≤ a.toNat then some 0x04 else none
def ctmAt (s : State) (x : Cx) (a : Word) : Nat := if x.ctl then a.toNat else ctmOff s x.n a.toNat
/-- what a CTM access answers becomes of its instruction -/
def ctmEff (w a : Word) (r : CtmOut) (f : State → List Byte → Eff) : Eff :=
  match r with
  | .ok s l => f s l
  | .waitLine s => .stall s (.committed w) id
  | .waitEntries s => .stall s (.entries w) id
  | .lost s => .stop s
  | .limit k => .limit k
  | .ecc => .trap 0x05 a
def effCtmLoad (n : Nat) : Effect' := fun s x w =>
  let a := dataAddr x w
  match ctmTrap s x a n with
  | some c => .trap c a
  | none =>
    let r := match if x.ctl then none else openClause s x.n with
      | some c => ctmReadIn s c (ctmAt s x a) n
      | none => ctmReadOut s (ctmAt s x a) n
    ctmEff w a r fun s l => done s (putRd x w (zextOf l))
def effCtmStore (n : Nat) : Effect' := fun s x w =>
  let a := dataAddr x w
  match ctmTrap s x a n with
  | some c => .trap c a
  | none =>
    let bs := toLE n (getG x.r (rdOf w)).toNat
    let r := match if x.ctl then none else openClause s x.n with
      | some c => ctmWriteIn s c (lastCcw (getP s x.n)).addr false (ctmAt s x a) bs
      | none => ctmWriteOut s (ctmAt s x a) bs
    ctmEff w a r fun s _ => done s x.r

/-! ### Shared effects: CRC (R205, R206) -/

/-- the CRC state held at a register, a pair with CRC-64 -/
def crcState (r : Regs) (n : Nat) : Nat :=
  if r.crc = 3 then (getG r n).toNat + 2 ^ 32 * (getG r (n + 1)).toNat else (getG r n).toNat
def putCrc (r : Regs) (n v : Nat) : Regs :=
  if r.crc = 3 then setG (setG r n (BitVec.ofNat 32 v)) (n + 1) (BitVec.ofNat 32 (v / 2 ^ 32))
  else setG r n (BitVec.ofNat 32 v)
def effCrc (n : Nat) : Effect' := fun s x w =>
  let v := crcBytes x.r.crc.toNat (crcState x.r (rs1Of w)) (toLE n (rs2V x w).toNat)
  done s (putCrc x.r (rdOf w) v)
def effCrcM (n : Nat) : Effect' := fun s x w =>
  let a := rs1V x w
  match loadAt s x a n with
  | .error c => .trap c a
  | .ok l =>
    let v := crcBytes x.r.crc.toNat (crcState x.r (rdOf w)) l
    done s (setG (putCrc x.r (rdOf w) v) (rs1Of w) (a + BitVec.ofNat 32 n))

/-! ### Shared effects: flow (R207 to R210) -/

def off4 (w : Word) : Word := (off22Of w).signExtend 32 <<< 2
def goTo (x : Cx) (pc : Word) : Regs := { x.r with pc := pc }
def effPrefix (interruptible : Bool) : Effect' := fun s x w =>
  .jump s { x.r with pc := x.r.pc + 4, rep := some { left := bitsAt w 0 8 + 1, interruptible := interruptible } }

end Sys2Proof.Machine
end

