-- ==== Sys2Proof/Machine/ScriptRows.lean ====
section
/-!
DEFINITION. The rows of the script instruction set (07 R198 to R222) and the ends of its waits.
-/

namespace Sys2Proof.Machine

/-! ### Calls (R208) -/

def effCall : Effect' := fun s x w =>
  if 8 ≤ x.r.rs.length ∧ x.rsov then .trap 0x09 x.r.pc
  else .jump s { goTo x (x.r.pc + off4 w) with rs := ((x.r.pc + 4) :: x.r.rs).take 8 }
def effRet : Effect' := fun s x _ =>
  match x.r.rs with
  | [] => .trap 0x0A x.r.pc
  | a :: l => .jump s { goTo x (align4 a) with rs := l }

/-! ### Locks (R119, R216) -/

/-- the trap of a LOCK or UNLOCK -/
def lockTrap (s : State) (x : Cx) (a : Word) : Option Byte :=
  match ctmTrap s x a 4 with
  | some c => some c
  | none => if (clauseOf s x.n).isSome then some 0x06 else none
def effLock : Effect' := fun s x w =>
  let a := getG x.r (crs1Of w)
  match lockTrap s x a with
  | some c => .trap c a
  | none =>
    let o := ctmAt s x a
    if (getLock s o).isNone && dramPoisoned s (ctmPhys s o) 4 then .trap 0x05 a
    else match lockOp s x.n o with
      | some (s, got, broken) => done s (setPred (setPred x.r (pdOf w) got) (condOf w).toNat broken)
      | none => .stall s (.committed w) id
def effUnlock : Effect' := fun s x w =>
  let a := getG x.r (crs1Of w)
  match lockTrap s x a with
  | some c => .trap c a
  | none => match unlockOp s x.n (ctmAt s x a) with
    | some (s, released) => done s (setPred x.r (pdOf w) released)
    | none => .stall s (.committed w) id

/-! ### Mover requests (R217 to R220) -/

/-- A request block (Table 7-7). -/
structure MReq where
  src : Dword
  dst : Dword
  count : Word
  op  : Byte
  mod : Byte
  mover : Byte
  fn  : Byte
  tail : Nat
def parseReq (l : List Byte) : MReq :=
  { src := BitVec.ofNat 64 (ofLE (subBytes l 0 8)), dst := BitVec.ofNat 64 (ofLE (subBytes l 8 8))
    count := BitVec.ofNat 32 (ofLE (subBytes l 16 4)), op := BitVec.ofNat 8 (byteAt l 20), mod := BitVec.ofNat 8 (byteAt l 21)
    mover := BitVec.ofNat 8 (byteAt l 22), fn := BitVec.ofNat 8 (byteAt l 23), tail := ofLE (subBytes l 28 4) }
def qOp (q : MReq) : Nat := bitsAt q.op 0 2
def qBar (q : MReq) : Bool := q.op.getLsbD 2
def qXfm (q : MReq) : Bool := q.op.getLsbD 3
def qIdx (q : MReq) : Bool := q.op.getLsbD 4
def qLg (q : MReq) : Nat := bitsAt q.mod 0 4
def qModBad (q : MReq) : Bool := bitsAt q.mod 4 4 != 0 || decide (12 < qLg q)
def qTable (q : MReq) : Nat := if qModBad q then 8 else 8 + 4 * (q.count.toNat / 2 ^ qLg q)
/-- nibble and range of an address (reasons 0x03, 0x04) -/
def qAddr (s : State) (n : Nat) (a : Dword) (len : Nat) : List Found :=
  whenB (!spaceLegal a) 0x03 ++ whenB (spaceLegal a && !inRange s n a len) 0x04
/-- Reasons of Table 7-8 but for the table base, FUNCTION, mover and tickets. -/
def qChecks (s : State) (x : Cx) (q : MReq) : List Found :=
  let n := q.count.toNat
  let plain := !(qXfm q) && !(qIdx q)
  whenB (bitsAt q.op 5 3 != 0 || q.tail != 0 || (qOp q == 1 && q.src != 0) || (qOp q != 1 && plain && q.mod != 0)
      || (if x.ctl then bitsAt q.mover 3 5 != 0 else q.mover != 0 || q.fn != 0)) 0x02
    ++ (if qOp q = 1 then [] else qAddr s x.n q.src (if qIdx q then qTable q else n)) ++ qAddr s x.n q.dst n
    ++ whenB (qIdx q && q.src.toNat % 8 != 0) 0x05
    ++ whenB (q.count == 0 || (qIdx q && !(qModBad q) && n % 2 ^ qLg q != 0)) 0x06
    ++ whenB ((qXfm q && qIdx q) || ((qXfm q || qIdx q) && (qOp q == 1 || qOp q == 2)) || (qBar q && qOp q == 2)) 0x07
    ++ whenB (qOp q == 3 || (qIdx q && qModBad q)) 0x08
    ++ (if qXfm q then
          let p := getProf s q.mod.toNat
          whenB (pfEnable p && profCountBad p true n n) 0x06 ++ whenB (profBad s p) 0x10
            ++ whenB (pfEnable p && !(inRange s x.n (resultAt p x.n) 64)) 0x04
        else [])
/-- FUNCTION against the spaces used, the mover named and the tickets -/
def qOwner (s : State) (x : Cx) (q : MReq) (base : Dword) (tk : Tab Ticket) : List Found :=
  let host := (qOp q != 1 && spaceOf q.src == 0) || spaceOf q.dst == 0 || (qIdx q && spaceOf base == 0)
  let m := getMv s (bitsAt q.mover 0 3)
  (if x.ctl then whenB (if host then !(isFn q.fn) else q.fn != 0) 0x08 ++ whenB (!(moverUsable m) || !m.ready) 0x11 else [])
    ++ whenB (firstFree tk).isNone 0x20
def movreqVal (a : Word) (reason : Nat) : Word := BitVec.ofNat 32 (a.toNat % 2 ^ 22 + reason * 2 ^ 24)

/-- the transfer a request becomes -/
def qTransfer (s : State) (x : Cx) (q : MReq) (base : Dword) (tk block : Nat) : Transfer :=
  let src : Source := if qOp q = 1 then .pattern q.mod else if qIdx q then .table q.src base (qLg q) else .mem q.src
  let dst : Dest := if qOp q = 2 then .operand q.dst else .mem q.dst
  { id := 0, origin := if x.ctl then .firmware tk block else .ticket x.n tk block
    master := if x.ctl then 0 else BitVec.ofNat 8 (16 + engineOf x.k), fn := if x.ctl then q.fn else (getP s x.n).hostFn
    clause := if x.ctl then none else (openClause s x.n).map (·.begin_)
    segs := [{ src := src, dst := dst, len := q.count.toNat }], bar := qBar q, compare := qOp q == 2
    xf := if qXfm q then some (makeXform s (getProf s q.mod.toNat) x.n) else none }
def getTickets (s : State) (x : Cx) : Tab Ticket := if x.ctl then s.cp.tickets else (getP s x.n).tickets
def setTicket (s : State) (x : Cx) (t : Nat) (v : Ticket) : State :=
  if x.ctl then setCp s { s.cp with tickets := tset .free t v s.cp.tickets }
  else modP s x.n fun p => { p with tickets := tset .free t v p.tickets }
/-- over the mover limit the pronoun leaves its slot (03 R81) -/
def limitHold (s : State) (x : Cx) : State :=
  if x.ctl then s
  else if decide (s.sched.moverLimit.toNat < (outstanding s x.n).length) then
    modP (saveFrame (leaveSlot s x.n) x.n) x.n fun p => { p with moverHold := true, state := if p.state == .halting then .halting else .queued }
  else s
/-- the request is accepted, or the slot stalls at the issue (R152, R153) -/
def acceptReq (s : State) (x : Cx) (w : Word) (q : MReq) (t : Transfer) (tk : Nat) : Eff :=
  let m := if x.ctl then some (bitsAt q.mover 0 3) else pickMover s (engineOf x.k)
  let waits := qXfm q && profWaits s (getProf s q.mod.toNat)
  match (if waits then none else m) with
  | none => .stall s (.issue w) id
  | some m => match acceptOn s m t with
    | none => .stall s (.issue w) id
    | some s' => .go (setTicket s' x tk (.busy s.mv.nextId)) (putRd x w (BitVec.ofNat 32 tk)) fun s => limitHold s x
/-- what the base of the index table reads as, its error included -/
inductive BaseGot where
  | ok (base : Dword) | wait | err (e : ReadErr)
def readBase (s : State) (x : Cx) (q : MReq) : BaseGot :=
  if !(qIdx q) || !(qAddr s x.n q.src 8).isEmpty || q.src.toNat % 8 != 0 then .ok 0
  else if spaceOf q.src = 0 && !(canIssue s (if x.ctl then q.fn else (getP s x.n).hostFn)) then
    (if x.ctl && !(isFn q.fn) then .ok 0 else .wait)
  else match readMem s x.n q.src 8 with
    | .ok l => .ok (BitVec.ofNat 64 (ofLE l))
    | .error e => .err e
/-- a request whose table base cannot be read ends with that result (R162, R489) -/
def baseResult : ReadErr → Ticket
  | .host d => .done 0x02 d
  | .ecc => .done 0x06 0
/-- MOVREQ, with the reading of its table's base (R217 to R219) -/
def movreqWith (base : State → Cx → MReq → BaseGot) : Effect' := fun s x w =>
  let a := rs1V x w
  let bad := whenB (if x.ctl then decide (0x80000 ≤ a.toNat) else decide (0x400000 ≤ a.toNat) || localGone s a.toNat 32) 0x04
    ++ whenB (a.toNat % 16 != 0) 0x05
  match lowest bad with
  | some f => .trap 0x07 (movreqVal a f.1)
  | none =>
    let q := parseReq (readData s x.ctl a 32)
    let tickets := getTickets s x
    match base s x q with
    | .wait => .stall s (.issue w) id
    | .ok base =>
      let checks := qChecks s x q ++ whenB (qIdx q && !(spaceLegal base)) 0x03 ++ qOwner s x q base tickets
      (match lowest checks, firstFree tickets with
       | some f, _ => .trap 0x07 (movreqVal a f.1)
       | none, some tk => acceptReq s x w q (qTransfer s x q base tk a.toNat) tk
       | none, none => .trap 0x07 (movreqVal a 0x20))
    | .err e =>
      (match lowest (qChecks s x q ++ qOwner s x q q.src tickets), firstFree tickets with
       | some f, _ => .trap 0x07 (movreqVal a f.1)
       | none, some tk =>
         done (writeData (setTicket s x tk (baseResult e)) x.ctl (a + 24) (toLE 4 0)) (putRd x w (BitVec.ofNat 32 tk))
       | none, none => .trap 0x07 (movreqVal a 0x20))
def effMovreq : Effect' := movreqWith readBase
/-- MOVWT (R220) -/
def effMovwt : Effect' := fun s x w =>
  let v := rs1V x w
  let t := v.toNat
  let tickets := getTickets s x
  if 16 ≤ t then done s (putRd x w 0x0F)
  else match movwtValue tickets t with
    | some r => done (match tget .free tickets t with | .free => s | _ => setTicket s x t .free) (putRd x w r)
    | none => if w.getLsbD 0 then done s (putRd x w 0xFF) else .stall s (.ticket w) id

/-! ### WAIT and SIGNAL (R221, R222) -/

/-- a pronoun leaves its slot in a script's WAIT, or its halt acts (02 R73) -/
def leaveWaiting (s : State) (n : Nat) : State :=
  if (getP s n).state == .halting then haltAct s n
  else modP (saveFrame (leaveSlot s n) n) n fun p => { p with state := .waiting }
def effWait : Effect' := fun s x w =>
  let p := getP s x.n
  let mask : Byte := w.extractLsb' 4 8
  let timeout := rs1V x w
  match waitTop p mask 8 with
  | some i => done (setP s x.n { waitTake p i with wakeCause := 1 }) (putRd x w (BitVec.ofNat 32 i))
  | none =>
    if frameQueued s x.n then done (setP s x.n { p with wakeCause := 2 }) (putRd x w 8)
    else if !p.attn.isEmpty then done (setP s x.n { p with attn := p.attn.drop 1, wakeCause := 3 }) (putRd x w 8)
    else
      let e := if timeout = 0 then none else some (s.dev.tick.toNat + timeout.toNat)
      .stall (setP s x.n { p with wait := some { mask := mask, expiry := e, script := some (rdOf w) } }) (.waiting (rdOf w))
        fun s => leaveWaiting s x.n
/-- the operand of a SIGNAL is a target R35 accepts -/
def signalGood (s : State) (x : Cx) (pronoun : Bool) (v : Word) : Bool :=
  if pronoun then bitsAt v 23 9 == 0 && bitsAt v 0 20 != 0
  else bitsAt v 10 22 == 0 &&
    (if x.ctl then decide (512 ≤ v.toNat) && decide (v.toNat ≤ 1022) else signalLegal s (engineOf x.k) v.toNat)
def effSignal : Effect' := fun s x w =>
  let v := rs1V x w
  let m := w.getLsbD 21
  if !(signalGood s x m v) then .trap 0x08 v
  else
    let md : Byte := if m then 1 else 0
    match if x.ctl then none else openClause s x.n with
    | none => done (applySignal s md (v.setWidth 64) (engineOf x.k)) x.r
    | some cl =>
      (match stage s cl.begin_ [{ body := .signal md (v.setWidth 64) (BitVec.ofNat 5 (engineOf x.k))
                                  ccw := (lastCcw (getP s x.n)).addr }] 1 0 0 with
       | .ok s => done s x.r
       | .lost s => .stop s
       | .limit k => .limit k)

/-! ### Rows -/

/-- ADD (R199, Table 7-5) -/
def execScAdd (c : Core) (w : Word) (s : State) : Res := issue 0x100 c w (effAluV aluAdd) s
/-- SUB (R199, Table 7-5) -/
def execScSub (c : Core) (w : Word) (s : State) : Res := issue 0x101 c w (effAluV aluSub) s
/-- AND (R199, Table 7-5) -/
def execScAnd (c : Core) (w : Word) (s : State) : Res := issue 0x102 c w (effAlu (· &&& ·)) s
/-- OR (R199, Table 7-5) -/
def execScOr (c : Core) (w : Word) (s : State) : Res := issue 0x103 c w (effAlu (· ||| ·)) s
/-- XOR (R199, Table 7-5) -/
def execScXor (c : Core) (w : Word) (s : State) : Res := issue 0x104 c w (effAlu (· ^^^ ·)) s
/-- ANDN (R199, Table 7-5) -/
def execScAndn (c : Core) (w : Word) (s : State) : Res := issue 0x105 c w (effAlu fun a b => a &&& ~~~b) s
/-- SHL (R199, Table 7-5) -/
def execScShl (c : Core) (w : Word) (s : State) : Res := issue 0x108 c w (effAlu aluShl) s
/-- SHR (R199, Table 7-5) -/
def execScShr (c : Core) (w : Word) (s : State) : Res := issue 0x109 c w (effAlu aluShr) s
/-- SAR (R199, Table 7-5) -/
def execScSar (c : Core) (w : Word) (s : State) : Res := issue 0x10A c w (effAlu aluSar) s
/-- ROL (R199, Table 7-5) -/
def execScRol (c : Core) (w : Word) (s : State) : Res := issue 0x10B c w (effAlu aluRol) s
/-- ROR (R199, Table 7-5) -/
def execScRor (c : Core) (w : Word) (s : State) : Res := issue 0x10C c w (effAlu aluRor) s
/-- MUL (R199, Table 7-5) -/
def execScMul (c : Core) (w : Word) (s : State) : Res := issue 0x110 c w (effAlu aluMul) s
/-- MULHS (R199, Table 7-5) -/
def execScMulhs (c : Core) (w : Word) (s : State) : Res := issue 0x111 c w (effAlu aluMulhs) s
/-- MULHU (R199, Table 7-5) -/
def execScMulhu (c : Core) (w : Word) (s : State) : Res := issue 0x112 c w (effAlu aluMulhu) s
/-- DIVS (R199, Table 7-5) -/
def execScDivs (c : Core) (w : Word) (s : State) : Res := issue 0x114 c w (effDiv true false) s
/-- DIVU (R199, Table 7-5) -/
def execScDivu (c : Core) (w : Word) (s : State) : Res := issue 0x115 c w (effDiv false false) s
/-- REMS (R199, Table 7-5) -/
def execScRems (c : Core) (w : Word) (s : State) : Res := issue 0x116 c w (effDiv true true) s
/-- REMU (R199, Table 7-5) -/
def execScRemu (c : Core) (w : Word) (s : State) : Res := issue 0x117 c w (effDiv false true) s
/-- MIN (R199, Table 7-5) -/
def execScMin (c : Core) (w : Word) (s : State) : Res := issue 0x118 c w (effAlu aluMin) s
/-- MAX (R199, Table 7-5) -/
def execScMax (c : Core) (w : Word) (s : State) : Res := issue 0x119 c w (effAlu aluMax) s
/-- MINU (R199, Table 7-5) -/
def execScMinu (c : Core) (w : Word) (s : State) : Res := issue 0x11A c w (effAlu aluMinu) s
/-- MAXU (R199, Table 7-5) -/
def execScMaxu (c : Core) (w : Word) (s : State) : Res := issue 0x11B c w (effAlu aluMaxu) s
/-- NEG (R199, Table 7-5) -/
def execScNeg (c : Core) (w : Word) (s : State) : Res := issue 0x120 c w (effAluV fun a _ => aluNeg a) s
/-- NOT (R199, Table 7-5) -/
def execScNot (c : Core) (w : Word) (s : State) : Res := issue 0x121 c w (effUnary (~~~ ·)) s
/-- BREV (R199, Table 7-5) -/
def execScBrev (c : Core) (w : Word) (s : State) : Res := issue 0x122 c w (effUnary aluBrev) s
/-- BREVB (R199, Table 7-5) -/
def execScBrevb (c : Core) (w : Word) (s : State) : Res := issue 0x123 c w (effUnary aluBrevb) s
/-- PAR8 (R199, Table 7-5) -/
def execScPar8 (c : Core) (w : Word) (s : State) : Res := issue 0x124 c w (effUnary aluPar8) s
/-- PAR32 (R199, Table 7-5) -/
def execScPar32 (c : Core) (w : Word) (s : State) : Res := issue 0x125 c w (effUnary aluPar32) s
/-- CLZ (R199, Table 7-5) -/
def execScClz (c : Core) (w : Word) (s : State) : Res := issue 0x126 c w (effUnary aluClz) s
/-- POPC (R199, Table 7-5) -/
def execScPopc (c : Core) (w : Word) (s : State) : Res := issue 0x127 c w (effUnary aluPopc) s
/-- BSWAP (R199, Table 7-5) -/
def execScBswap (c : Core) (w : Word) (s : State) : Res := issue 0x128 c w (effUnary aluBswap) s
/-- CRCB (R205) -/
def execScCrcb (c : Core) (w : Word) (s : State) : Res := issue 0x130 c w (effCrc 1) s
/-- CRCH (R205) -/
def execScCrch (c : Core) (w : Word) (s : State) : Res := issue 0x131 c w (effCrc 2) s
/-- CRCW (R205) -/
def execScCrcw (c : Core) (w : Word) (s : State) : Res := issue 0x132 c w (effCrc 4) s
/-- CRCB.M (R206) -/
def execScCrcbM (c : Core) (w : Word) (s : State) : Res := issue 0x134 c w (effCrcM 1) s
/-- CRCH.M (R206) -/
def execScCrchM (c : Core) (w : Word) (s : State) : Res := issue 0x135 c w (effCrcM 2) s
/-- CRCW.M (R206) -/
def execScCrcwM (c : Core) (w : Word) (s : State) : Res := issue 0x136 c w (effCrcM 4) s
/-- ADDI (R202) -/
def execScAddi (c : Core) (w : Word) (s : State) : Res := issue 0x0200 c w (fun s x w => let v := aluAdd (rs1V x w) (sext12 w); .go s (orV (putRd x w v.1) v.2) id) s
/-- ANDI (R202) -/
def execScAndi (c : Core) (w : Word) (s : State) : Res := issue 0x0300 c w (effImm (· &&& ·)) s
/-- ORI (R202) -/
def execScOri (c : Core) (w : Word) (s : State) : Res := issue 0x0400 c w (effImm (· ||| ·)) s
/-- XORI (R202) -/
def execScXori (c : Core) (w : Word) (s : State) : Res := issue 0x0500 c w (effImm (· ^^^ ·)) s
/-- SHLI (R199) -/
def execScShli (c : Core) (w : Word) (s : State) : Res := issue 0x0600 c w (effImm aluShl) s
/-- SHRI (R199) -/
def execScShri (c : Core) (w : Word) (s : State) : Res := issue 0x0700 c w (effImm aluShr) s
/-- SARI (R199) -/
def execScSari (c : Core) (w : Word) (s : State) : Res := issue 0x0800 c w (effImm aluSar) s
/-- RORI (R199) -/
def execScRori (c : Core) (w : Word) (s : State) : Res := issue 0x0900 c w (effImm aluRor) s
/-- MOVL (R202) -/
def execScMovl (c : Core) (w : Word) (s : State) : Res := issue 0x0A00 c w (fun s x w => done s (putRd x w ((imm16Of w).setWidth 32))) s
/-- MOVH (R202) -/
def execScMovh (c : Core) (w : Word) (s : State) : Res := issue 0x0A01 c w (fun s x w => done s (putRd x w (imm16Of w ++ (getG x.r (rdOf w)).extractLsb' 0 16))) s
/-- LDB (R203) -/
def execScLdb (c : Core) (w : Word) (s : State) : Res := issue 0x1000 c w (effLoad 1 sextOf) s
/-- LDBU (R203) -/
def execScLdbu (c : Core) (w : Word) (s : State) : Res := issue 0x1100 c w (effLoad 1 zextOf) s
/-- LDH (R203) -/
def execScLdh (c : Core) (w : Word) (s : State) : Res := issue 0x1200 c w (effLoad 2 sextOf) s
/-- LDHU (R203) -/
def execScLdhu (c : Core) (w : Word) (s : State) : Res := issue 0x1300 c w (effLoad 2 zextOf) s
/-- LDW (R203) -/
def execScLdw (c : Core) (w : Word) (s : State) : Res := issue 0x1400 c w (effLoad 4 zextOf) s
/-- STB (R203) -/
def execScStb (c : Core) (w : Word) (s : State) : Res := issue 0x1500 c w (effStore 1) s
/-- STH (R203) -/
def execScSth (c : Core) (w : Word) (s : State) : Res := issue 0x1600 c w (effStore 2) s
/-- STW (R203) -/
def execScStw (c : Core) (w : Word) (s : State) : Res := issue 0x1700 c w (effStore 4) s
/-- LDCBU (R204) -/
def execScLdcbu (c : Core) (w : Word) (s : State) : Res := issue 0x1800 c w (effCtmLoad 1) s
/-- LDCHU (R204) -/
def execScLdchu (c : Core) (w : Word) (s : State) : Res := issue 0x1900 c w (effCtmLoad 2) s
/-- LDCW (R204) -/
def execScLdcw (c : Core) (w : Word) (s : State) : Res := issue 0x1A00 c w (effCtmLoad 4) s
/-- STCB (R204) -/
def execScStcb (c : Core) (w : Word) (s : State) : Res := issue 0x1B00 c w (effCtmStore 1) s
/-- STCH (R204) -/
def execScStch (c : Core) (w : Word) (s : State) : Res := issue 0x1C00 c w (effCtmStore 2) s
/-- STCW (R204) -/
def execScStcw (c : Core) (w : Word) (s : State) : Res := issue 0x1D00 c w (effCtmStore 4) s
/-- CMP (R201) -/
def execScCmp (c : Core) (w : Word) (s : State) : Res := issue 0x2000 c w (fun s x w => done s (setPred x.r (pdOf w) (condHolds (condOf w) (getG x.r (crs1Of w)) (getG x.r (crs2Of w))))) s
/-- CMPI (R201) -/
def execScCmpi (c : Core) (w : Word) (s : State) : Res := issue 0x2100 c w (fun s x w => done s (setPred x.r (pdOf w) (condHolds (condOf w) (getG x.r (crs1Of w)) ((imm11Of w).signExtend 32)))) s
/-- PLOG (R201) -/
def execScPlog (c : Core) (w : Word) (s : State) : Res := issue 0x2200 c w (fun s x w => done s (setPred x.r (pdOf w) (plogOf (pfnOf w) (predVal x.r (condOf w).toNat) (predVal x.r (ps2Of w))))) s
/-- BR (R207) -/
def execScBr (c : Core) (w : Word) (s : State) : Res := issue 0x2800 c w (fun s x w => .jump s (goTo x (x.r.pc + off4 w))) s
/-- CALL (R208) -/
def execScCall (c : Core) (w : Word) (s : State) : Res := issue 0x2900 c w (effCall) s
/-- CALLL (R209) -/
def execScCalll (c : Core) (w : Word) (s : State) : Res := issue 0x2A00 c w (fun s x w => .jump s { goTo x (x.r.pc + off4 w) with lk := x.r.pc + 4 }) s
/-- JR (R207) -/
def execScJr (c : Core) (w : Word) (s : State) : Res := issue 0x2B00 c w (fun s x w => let a := rs1V x w; if a.toNat % 4 ≠ 0 then .trap 0x03 a else .jump s (goTo x a)) s
/-- RET (R208) -/
def execScRet (c : Core) (w : Word) (s : State) : Res := issue 0x2C00 c w (effRet) s
/-- RETL (R209) -/
def execScRetl (c : Core) (w : Word) (s : State) : Res := issue 0x2D00 c w (fun s x _ => .jump s (goTo x (align4 x.r.lk))) s
/-- END (R214) -/
def execScEnd (c : Core) (w : Word) (s : State) : Res := issue 0x2F00 c w (fun s x w => .stall s (.ending w) fun s => resumeEnding s x.n) s
/-- TRAP (R223) -/
def execScTrap (c : Core) (w : Word) (s : State) : Res := issue 0x3000 c w (fun _ x w => .trap (BitVec.ofNat 8 (0x40 + bitsAt w 0 6)) (rs1V x w)) s
/-- TRET (R225) -/
def execScTret (c : Core) (w : Word) (s : State) : Res := issue 0x3100 c w (fun s x w => .jump s { goTo x (align4 x.r.tpc + if w.getLsbD 0 then 4 else 0) with inHandler := false }) s
/-- MFS (R192) -/
def execScMfs (c : Core) (w : Word) (s : State) : Res := issue 0x3200 c w (fun s x w => done s (putRd x w (mfsValue s x (rs2Of w)))) s
/-- MTS (R192, R215) -/
def execScMts (c : Core) (w : Word) (s : State) : Res := issue 0x3300 c w (fun s x w => done s (mtsRegs x.r (rs2Of w) (rs1V x w))) s
/-- ICINV (R189) -/
def execScIcinv (c : Core) (w : Word) (s : State) : Res := issue 0x3400 c w (fun s x _ => done (invalidate s (engineOf x.k)) x.r) s
/-- LOCK (R119, R216) -/
def execScLock (c : Core) (w : Word) (s : State) : Res := issue 0x3500 c w (effLock) s
/-- UNLOCK (R119, R216) -/
def execScUnlock (c : Core) (w : Word) (s : State) : Res := issue 0x3600 c w (effUnlock) s
/-- MOVREQ (R217 to R219) -/
def execScMovreq (c : Core) (w : Word) (s : State) : Res := issue 0x3700 c w (effMovreq) s
/-- MOVWT (R220) -/
def execScMovwt (c : Core) (w : Word) (s : State) : Res := issue 0x3800 c w (effMovwt) s
/-- WAIT (R221) -/
def execScWaitInstr (c : Core) (w : Word) (s : State) : Res := issue 0x3900 c w (effWait) s
/-- SIGNAL (R222) -/
def execScSignalInstr (c : Core) (w : Word) (s : State) : Res := issue 0x3A00 c w (effSignal) s
/-- REP (R210, R211) -/
def execScRep (c : Core) (w nxt : Word) (s : State) : Res := issuePrefix 0x2E00 c w nxt (effPrefix false) s
/-- REPI (R212) -/
def execScRepi (c : Core) (w nxt : Word) (s : State) : Res := issuePrefix 0x2E01 c w nxt (effPrefix true) s

/-! ### Ends of waits -/

/-- the effect of an instruction that waited -/
def stalledEff (w : Word) : Effect' :=
  match (opcOf w).toNat with
  | 0x18 => effCtmLoad 1
  | 0x19 => effCtmLoad 2
  | 0x1A => effCtmLoad 4
  | 0x1B => effCtmStore 1
  | 0x1C => effCtmStore 2
  | 0x1D => effCtmStore 4
  | 0x35 => effLock
  | 0x36 => effUnlock
  | _ => effMovreq
/-- the waiting instruction of a slot's script is tried again -/
def retrySlot (s : State) (k : Nat) (pick : Stall → Option Word) : State :=
  match slotPron s k with
  | none => s
  | some n =>
    match getScript s n with
    | none => s
    | some sc =>
      match sc.stall.bind pick with
      | none => s
      | some w =>
        if (doomedRerun s n).isSome || (getP s n).resetting || !(running (getP s n)) then s
        else
          let sc := { sc with stall := none }
          settleEff k n sc (stalledEff w s (engineCx s k n sc) w) s
def retryCp (s : State) (pick : Stall → Option Word) : State :=
  match s.cp.stall.bind pick with
  | none => s
  | some w =>
    let s := setCp s { s.cp with stall := none }
    settleCp (stalledEff w s (cpCx s) w) s
def pickCommitted : Stall → Option Word
  | .committed w => some w
  | _ => none
def pickEntries : Stall → Option Word
  | .entries w => some w
  | _ => none
def pickIssue : Stall → Option Word
  | .issue w => some w
  | _ => none

/-- CTM_COMMITTED_WAIT_END (R100): the access is tried again; a line still committed keeps it waiting. -/
def execCtmCommittedWaitEnd (c : Core) (s : State) : Res :=
  .next (match c with
    | .engine k => retrySlot s k.toNat pickCommitted
    | .control => retryCp s pickCommitted)
/-- the CCW whose issue is stalled is tried again -/
def retryIssue (s : State) (k : Nat) : State :=
  match slotPron s k with
  | none => s
  | some n =>
    if ((getP s n).cur.map (·.phase)) == some .issue then
      (if (doomedRerun s n).isSome then boundary s n (getP s n).ccwAddr else startData s k n)
    else retrySlot s k pickIssue
/-- MOVER_ISSUE_STALL_END (R152, R153) -/
def execMoverIssueStallEnd (c : Core) (s : State) : Res :=
  .next (match c with
    | .engine k => retryIssue s k.toNat
    | .control => retryCp s pickIssue)
/-- the accesses that wait for a doomed clause's entries, highest slot first (R99, R103) -/
def retryEntries (s : State) : State :=
  let ks := ((s.sched.recs.filter fun e => (e.2.script.bind (·.stall)).bind pickEntries |>.isSome).filterMap
    fun e => slotOf s e.1)
  retryCp ((descending ks).foldl (fun s k => retrySlot s k pickEntries) s) pickEntries
/-- DOOM_ENTRIES_RETURNED (R91, R99): a doomed clause's staging space and entries are returned, unless its abort returned
them before; what waited for them goes on. -/
def execDoomEntriesReturned (prn : PrnNum) (s : State) : Res :=
  .next (retryEntries (match clauseOf s prn.toNat with
    | some c =>
      if c.doom.isSome then modClause s c.begin_ fun c => { c with returned := true, effects := [], reads := [], writes := [] } else s
    | none => s))

/-- the budget is used: the pronoun is queued again at the tail of its level (R39, R212, R213) -/
def budgetOut (s : State) (n : Nat) : State :=
  let p := getP s n
  enqueue (setP (saveFrame (leaveSlot s n) n) n { p with state := if p.state == .halting then .halting else .queued }) n
/-- BUDGET_END (R213) -/
def execBudgetEnd (slot : BitVec 9) (s : State) : Res :=
  match scriptReady s slot.toNat with
  | none => .next s
  | some (n, sc) =>
    if (doomedRerun s n).isSome || sc.left != 0 || inRep sc.regs then .next s else .next (budgetOut s n)

/-- CEn_CTL.ICINV (R189) -/
def execCeIcinv (n : BitVec 5) (s : State) : Res := .next (invalidate s n.toNat)

end Sys2Proof.Machine
end

