-- ==== Sys2Proof/Machine/Control.lean ====
section
/-!
DEFINITION. The control processor's own instructions (07 R232, 10 R321, R322), its interrupts, and the interrupt
controller's claims and completions (10 R317 to R320).
-/

namespace Sys2Proof.Machine

/-! ### Control registers (Table 10-8) -/

def mfcValue (c : Cp) (n : Nat) : Word :=
  match n with
  | 0 => BitVec.ofNat 32 (b2n c.nie + 2 * b2n c.fie)
  | 1 => align4 c.nvec
  | 2 => align4 c.fvec
  | 3 => c.nepc
  | 4 => c.fepc
  | 5 => c.nsave &&& 0x1FFE
  | 6 => c.fsave &&& 0x1FFE
  | _ => BitVec.ofNat 32 (b2n c.inNormal + 2 * b2n c.inFast)
def mtcCp (c : Cp) (n : Nat) (v : Word) : Cp :=
  match n with
  | 0 => { c with nie := v.getLsbD 0, fie := v.getLsbD 1 }
  | 1 => { c with nvec := align4 v }
  | 2 => { c with fvec := align4 v }
  | 3 => { c with nepc := v }
  | 4 => { c with fepc := v }
  | 5 => { c with nsave := v &&& 0x1FFE }
  | _ => { c with fsave := v &&& 0x1FFE }

/-- MFC (R321) -/
def execCpMfc (w : Word) (s : State) : Res :=
  .next (issueCp 0x3E00 w true (fun s x w => done s (putRd x w (mfcValue s.cp (rs2Of w)))) s)
/-- MTC (R321) -/
def execCpMtc (w : Word) (s : State) : Res :=
  .next (issueCp 0x3E01 w true (fun s x w => done (setCp s (mtcCp s.cp (rs2Of w) (rs1V x w))) x.r) s)
/-- WFI (R322) -/
def execCpWfi (w : Word) (s : State) : Res :=
  .next (issueCp 0x3F01 w true (fun s x _ => done (setCp s { s.cp with wfi := true }) x.r) s)
/-- FENCE (R232): every earlier RBST and MOVREQ has been accepted when the next instruction issues. -/
def execCpFence (w : Word) (s : State) : Res := .next (issueCp 0x3F02 w true (fun s x _ => done s x.r) s)

/-! ### Entry and return (R322) -/

/-- the state of c5 and c6 -/
def saveWord (c : Cp) : Word :=
  BitVec.ofNat 32 (c.regs.p.toNat / 2 * 2 % 256 + 256 * b2n c.regs.v + 512 * b2n c.regs.dz + 1024 * b2n c.regs.inHandler
    + 2048 * b2n c.nie + 4096 * b2n c.fie)
def restoreRegs (r : Regs) (v pc : Word) (rep : Option Repeat) : Regs :=
  { r with p := v.extractLsb' 0 8 &&& 0xFE, v := v.getLsbD 8, dz := v.getLsbD 9, inHandler := v.getLsbD 10
           pc := align4 pc, rep := rep }
/-- g1 to g15 exchanged with the shadow bank: what was in use becomes the other bank (R322) -/
def swapBank (c : Cp) : Cp :=
  let main : Tab Word := c.regs.g.filter fun e => decide (e.1 ≤ 15)
  { c with regs := { c.regs with g := c.shadow ++ c.regs.g.filter fun e => decide (15 < e.1) }, shadow := main }

def enterNormal (c : Cp) : Cp :=
  { c with nepc := c.regs.pc, nsave := saveWord c, nrep := c.regs.rep, nie := false, inNormal := true, wfi := false
           regs := { c.regs with inHandler := false, pc := align4 c.nvec, rep := none } }
def enterFast (c : Cp) : Cp :=
  swapBank { c with fepc := c.regs.pc, fsave := saveWord c, frep := c.regs.rep, nie := false, fie := false, inFast := true, wfi := false
                    regs := { c.regs with inHandler := false, pc := align4 c.fvec, rep := none } }
def returnFast (c : Cp) : Cp :=
  let c := swapBank c
  { c with regs := restoreRegs c.regs c.fsave c.fepc c.frep, nie := c.fsave.getLsbD 11, fie := c.fsave.getLsbD 12
           inFast := false, frep := none }
def returnNormal (c : Cp) : Cp :=
  { c with regs := restoreRegs c.regs c.nsave c.nepc c.nrep, nie := c.nsave.getLsbD 11, fie := c.nsave.getLsbD 12
           inNormal := false, nrep := none }
def leaveHandler (c : Cp) : Cp := if c.inFast then returnFast c else returnNormal c

/-- IRET (R322): the program counter is the restored one. -/
def execCpIret (w : Word) (s : State) : Res :=
  .next (issueCp 0x3F00 w true (fun s _ _ => let c := leaveHandler s.cp; .jump (setCp s c) c.regs) s)

/-- between instructions, or between REPI iterations, and not waiting (R212, R321) -/
def interruptible (c : Cp) : Bool := c.running && !c.faulted && c.stall.isNone && !(inRep c.regs)
/-- INTERRUPT_ENTRY (R321, R322) -/
def execInterruptEntry (s : State) : Res :=
  let c := s.cp
  .next (if !(interruptible c && controlRuns s) then s
    else if s.evt.fast.presented.isSome && c.fie && !c.inFast then setCp s (enterFast c)
    else if s.evt.normal.presented.isSome && c.nie && !c.inNormal && !c.inFast then setCp s (enterNormal c)
    else s)

/-! ### Claims and completions (R319) -/

/-- a claim of one class: the value read and the class after -/
def claimOf (c : IcClass) : Word × IcClass :=
  match c.presented with
  | some n => (BitVec.ofNat 32 (n + 2 ^ 31), { presented := none, window := false, service := some n })
  | none => (0, c)
def clearPend (s : State) (v : Word) : State :=
  if v.getLsbD 31 then { s with evt := { s.evt with icPend := setBit s.evt.icPend (v.toNat % 1024) false } } else s
/-- IC_CLAIM_N, IC_CLAIM_F: the value read and the state after -/
def claimNormal (s : State) : Word × State :=
  let r := claimOf s.evt.normal
  (r.1, icEval (clearPend { s with evt := { s.evt with normal := r.2 } } r.1))
def claimFast (s : State) : Word × State :=
  let r := claimOf s.evt.fast
  (r.1, icEval (clearPend { s with evt := { s.evt with fast := r.2 } } r.1))
/-- IC_COMPLETE_N, IC_COMPLETE_F: a number that is not in service is rejected -/
def completeNormal (s : State) (v : Word) : State :=
  if s.evt.normal.service == some v.toNat then icEval { s with evt := { s.evt with normal := { s.evt.normal with service := none } } }
  else reject s 11
def completeFast (s : State) (v : Word) : State :=
  if s.evt.fast.service == some v.toNat then icEval { s with evt := { s.evt with fast := { s.evt.fast with service := none } } }
  else reject s 11

/-- IC_CLAIM_N (R319, R317) -/
def execIcClaimN (who : Master) (s : State) : Res :=
  .next (if who = 0 then let r := claimNormal s; emit r.2 (.value who r.1) else emit s (.value who 0))
/-- IC_CLAIM_F (R319, R317) -/
def execIcClaimF (who : Master) (s : State) : Res :=
  .next (if who = 0 then let r := claimFast s; emit r.2 (.value who r.1) else emit s (.value who 0))
/-- IC_COMPLETE_N (R319, R317) -/
def execIcCompleteN (who : Master) (v : Word) (s : State) : Res :=
  .next (if who = 0 then completeNormal s v else reject s 11)
/-- IC_COMPLETE_F (R319, R317) -/
def execIcCompleteF (who : Master) (v : Word) (s : State) : Res :=
  .next (if who = 0 then completeFast s v else reject s 11)

end Sys2Proof.Machine
end

