-- ==== Sys2Proof/Machine/Faults.lean ====
section
/-!
DEFINITION. Faults (14_faults_and_wraparound.md R426 to R441): counting, capture, retirement and fences, the shared
operations.
-/

namespace Sys2Proof.Machine

/-! ### Counting and capture (R427, R428) -/

/-- the capture registers; of two errors of one cycle the higher code, then the higher unit, is held -/
def capture (s : State) (code unit : Nat) (addr : Dword) (multi : Bool) : State :=
  let f := s.flt
  let keeps := multi && decide (512 * code + unit < 512 * f.capStr.toNat + f.capUnit.toNat)
  if keeps then { s with flt := { f with capMulti := true } }
  else { s with flt := { f with capStr := BitVec.ofNat 4 code, capUnit := BitVec.ofNat 9 unit, capMulti := multi, capAddr := addr
                                capTick := s.dev.tick } }
/-- an uncorrectable error, after its immediate effect: counted, captured, logged, source 293 -/
def noteUe (s : State) (code unit : Nat) (addr : Dword) (multi : Bool) : State :=
  let s := rcPulse s.flt.ue { s with flt := { s.flt with ue := satInc s.flt.ue } }
  let s := capture s code unit addr multi
  pulse (logEvent s 0x01 (BitVec.ofNat 8 code) unit addr []) 293

/-! ### Stranded pronouns (R440) -/

def isStranded (s : State) (p : Pron) : Bool :=
  isBound p && s.flt.engines.any (fun e => p.affinity.getLsbD e)
    && (List.range 32).all fun e => !(p.affinity.getLsbD e) || s.flt.engines.contains e
/-- the list as it now stands; each that joins it pulses source 297 -/
def evalStranded (s : State) : State :=
  let now := (s.sched.recs.filter fun e => isStranded s e.2).map (·.1)
  let fresh := now.filter fun n => !(s.sched.stranded.contains n)
  fresh.foldl (fun s _ => pulse s 297) { s with sched := { s.sched with stranded := now } }

/-! ### Fences (R433, R435, R439, R441) -/

def logFence (s : State) (code unit : Nat) (source : Nat) : State :=
  pulse (logEvent s 0x03 (BitVec.ofNat 8 code) unit 0 []) source
/-- a pronoun that a fence affects: its clause is doomed with FENCED, and it goes CHECKED at its boundary or placement -/
def fencePron (code : Nat) (s : State) (n : Nat) : State :=
  if !(isBound (getP s n)) || (getP s n).resetting then s
  else
    let s := match openClause s n with | some c => doom s c.begin_ 0x0B [] | none => s
    modP s n fun p => { p with fenceDue := some (BitVec.ofNat 8 code) }
/-- the pronoun of one slot -/
def fenceSlotPron (code : Nat) (s : State) (k : Nat) : State :=
  match (getSlot s k).prn with
  | none => s
  | some n => fencePron code (breakLocks s n) n
/-- A slot fenced. -/
def fenceSlot (s : State) (k : Nat) : State :=
  if slotFenced s k then s
  else
    let s := { s with flt := { s.flt with slots := linsert k s.flt.slots } }
    logFence (fenceSlotPron 3 s k) 3 k 288
/-- An engine fenced, for an error of this structure. -/
def fenceEngine (code : Nat) (s : State) (e : Nat) : State :=
  if s.flt.engines.contains e then s
  else
    let s := { s with flt := { s.flt with engines := linsert e s.flt.engines } }
    let s := (List.range 16).foldl (fun s i => fenceSlotPron code s (16 * e + i)) s
    evalStranded (resetMaster (logFence s code e 289) (BitVec.ofNat 8 (0x10 + e)))
/-- a pronoun whose transfer a mover's fence cancelled: its CCW has nothing left to run, or its script goes on (R435) -/
def moverFenced (s : State) (n : Nat) : State :=
  let s := resetWaits (fencePron 9 s n) n
  let p := getP s n
  match (p.cur.map (·.phase) : Option Phase) with
  | some .moving => if onSlot s n && !(wordsHeld s n) then boundary s n p.ccwAddr else s
  | some .barrier => if onSlot s n && !(wordsHeld s n) then boundary s n p.ccwAddr else s
  | _ => resumeEnding (releaseHold s n) n
/-- both movers of an engine's entry are fenced -/
def moversGone (s : State) (e : Nat) : Bool := (getMv s (engineMap s e).1).fenced && (getMv s (engineMap s e).2).fenced
/-- engines left without a mover are fenced -/
def fenceLame (s : State) : State :=
  (List.range 32).foldl (fun s e => if moversGone s e then fenceEngine 9 s e else s) s
/-- A mover fenced: its transfers are cancelled. -/
def fenceMover (s : State) (m : Nat) : State :=
  if (getMv s m).fenced then s
  else
    let (s, ns) := cancelMover (modMv s m fun x => { x with fenced := true }) m
    fenceLame (logFence (ns.foldl moverFenced s) 9 m 290)
/-- A quad fenced: every port leaves up. -/
def fenceQuad (s : State) (q : Nat) : State :=
  if quadFenced s q then s
  else
    let s := quadDown 7 { s with flt := { s.flt with quads := linsert q s.flt.quads } } q
    logFence s 10 q 291
/-- one set of a fenced bank: dirty records go to the table -/
def emptySet (s : State) (e : Nat × List Way) : State :=
  let s := (e.2.filter (·.dirty)).foldl (fun s w =>
    let n := w.tag * 4096 + e.1
    { s with sched := { s.sched with table := tset {} n (getP s n) s.sched.table } }) s
  { s with sched := { s.sched with cache := tset [] e.1 [] s.sched.cache } }
/-- A pronoun cache bank fenced. -/
def fenceBank (s : State) (b : Nat) : State :=
  if s.flt.banks.contains b then s
  else
    let s := (s.sched.cache.filter fun e => e.1 % 8 == b).foldl emptySet s
    logFence { s with flt := { s.flt with banks := linsert b s.flt.banks } } 4 b 292
/-- The staging SRAM fenced for open clauses: every one of them is doomed, and its pronoun goes CHECKED (R439). -/
def fenceStaging (s : State) : State :=
  if s.flt.staging then s
  else
    let open_ := s.cls.clauses.filter fun c => c.doom.isNone
    let s := open_.foldl (fun s c => doom s c.begin_ 0x0B []) { s with flt := { s.flt with staging := true } }
    logFence s 5 0 302

/-! ### Retirement (R430, Table 14-1) -/

/-- retirements after which nothing of a structure is retired further; none without a budget -/
def budgetOf : Nat → Option Nat
  | 0 => some 32 | 1 => some 16 | 2 => some 64 | 3 => some 0 | 4 => some 64 | 6 => some 64 | 7 => some 256
  | _ => none
def zeroRow (t : Tab Byte) (a : Nat) : Tab Byte := putBytes t a (List.replicate 64 0)
/-- a retired row's spare reads as zero -/
def spareRow (s : State) (code unit loc : Nat) : State :=
  match code with
  | 0 => { s with mem := { s.mem with tcm := zeroRow s.mem.tcm (64 * loc) } }
  | 1 => { s with mem := { s.mem with loc := zeroRow s.mem.loc (0x20000 * unit + 64 * loc) } }
  | 2 => { s with ce := { s.ce with icache := tmod [] unit (fun l => l.take (1024 - retiredOf s 2 unit)) s.ce.icache } }
  | _ => s
/-- the unit that a spent budget fences -/
def spend (s : State) (code unit : Nat) : State :=
  let n := retiredOf s code unit
  match code with
  | 1 => if n = 16 then fenceEngine 1 s unit else s
  | 2 => if n = 64 then fenceEngine 2 s unit else s
  | 4 => if n = 64 then fenceBank s unit else s
  | 5 =>
    let s := if 2048 < n then { s with flt := { s.flt with stageLow := true } } else s
    if n = 114688 then fenceStaging s else s
  | _ => s
def isRetired (s : State) (code unit loc : Nat) : Bool := s.flt.retired.contains { code := code, unit := unit, loc := loc }
/-- the firmware's list in configuration slot 4 -/
def listRetired (s : State) (r : Retired) : State :=
  let l := (bankUse s.nv.retire).getD []
  if l.contains r then s else { s with nv := { s.nv with retire := bankPut s.nv.retire (l ++ [r]) } }
/-- A granule goes out of use: counted, logged, source 294, and the budget. -/
def retire (s : State) (code unit loc : Nat) : State :=
  let full := match budgetOf code with | some b => decide (b ≤ retiredOf s code unit) | none => false
  if full || isRetired s code unit loc then s
  else
    let r : Retired := { code := code, unit := unit, loc := loc }
    let s := { s with flt := { s.flt with retired := s.flt.retired ++ [r] } }
    let s := listRetired (spareRow s code unit loc) r
    let s := rcPulse s.flt.retiredCount { s with flt := { s.flt with retiredCount := satInc s.flt.retiredCount } }
    let s := logEvent s 0x02 (BitVec.ofNat 8 code) unit (BitVec.ofNat 64 loc) []
    spend (pulse s 294) code unit

/-! ### Effects on data (R431, R436 to R438) -/

/-- a key vault entry is emptied, without a bank write -/
def emptyKey (s : State) (n : Nat) : State := { s with sec := { s.sec with vault := adel n s.sec.vault } }
/-- every open clause is doomed with DIRECTORY_FULL (R438) -/
def doomDirectory (s : State) : State :=
  (s.cls.clauses.filter fun c => c.doom.isNone).foldl (fun s c => doom s c.begin_ 2 []) s
/-- the DRAM channel of a line of buffer DRAM: bits [10:8] of its offset (06 R159) -/
def dramChannel (l : Nat) : Nat := 64 * l / 256 % 8
/-- a line of buffer DRAM is poisoned, its row queued for repair (R431) -/
def poisonLine (s : State) (l : Nat) : State :=
  let r : Retired := { code := 11, unit := dramChannel l, loc := l }
  let s := { s with mem := { s.mem with poison := linsert l s.mem.poison }
                    flt := { s.flt with retired := if s.flt.retired.contains r then s.flt.retired else s.flt.retired ++ [r] } }
  pulse s 295
/-- staged data of an open clause is lost: the clause aborts with CONDITION, DETAIL 0x85 (R437) -/
def stagedLost (s : State) (n : Nat) : State :=
  match openClause s n with
  | none => s
  | some _ => stopCondition s n 0 0 0x85 0 (getP s n).ccwAddr
/-- staged data of a numbered clause is lost (05 R135) -/
def committedLost (s : State) (number i : Nat) : State := modNum s number (modEffect i fun e => { e with bad := true })
/-- the cache way that holds a record -/
def recordWay (s : State) (n : Nat) : Nat :=
  16 * (n % 4096 / 8) + ((cacheSet s n).findIdx fun w => w.tag == n / 4096)

/-! ### The correction tracker (R429) -/

def sameLoc (code unit loc : Nat) (t : Track) : Bool := t.code == code && t.unit == unit && t.loc == loc
def dropTrack (s : State) (code unit loc : Nat) : State :=
  { s with flt := { s.flt with tracker := s.flt.tracker.filter fun t => !(sameLoc code unit loc t) } }
/-- the entry to be replaced: the oldest of the lowest count -/
def leastTrack : List Track → Option Track
  | [] => none
  | t :: ts => match leastTrack ts with
    | none => some t
    | some u => if t.count ≤ u.count then some t else some u
/-- a location's first correction -/
def newTrack (s : State) (code unit loc : Nat) : State :=
  let x : Track := { code := code, unit := unit, loc := loc, count := 1 }
  if s.flt.tracker.length < 256 then { s with flt := { s.flt with tracker := s.flt.tracker ++ [x] } }
  else match leastTrack s.flt.tracker with
    | none => s
    | some t => { s with flt := { s.flt with tracker := s.flt.tracker.filter (· != t) ++ [x], trackFull := true } }
/-- A correction counted on its location; the threshold retires it. -/
def track (s : State) (code unit loc : Nat) : State :=
  let s := match s.flt.tracker.find? (sameLoc code unit loc) with
    | none => logEvent (newTrack s code unit loc) 0x08 (BitVec.ofNat 8 code) unit (BitVec.ofNat 64 loc) []
    | some _ => { s with flt := { s.flt with tracker := s.flt.tracker.map fun t => if sameLoc code unit loc t then { t with count := t.count + 1 } else t } }
  match s.flt.tracker.find? (sameLoc code unit loc) with
  | some t => if s.flt.threshold.toNat ≤ t.count then retire (dropTrack s code unit loc) code unit loc else s
  | none => s

/-! ### FLT_FENCE and FLT_RETIRE (R433, R442) -/

/-- units of each kind of fence: slot, engine, mover, quad, cache bank -/
def fenceUnits : Nat → Nat
  | 0 => 512 | 1 => 32 | 2 => 8 | 3 => 32 | 4 => 8
  | _ => 0
def fenceUnit (s : State) (kind n : Nat) : State :=
  match kind with
  | 0 => fenceSlot s n
  | 1 => fenceEngine 1 s n
  | 2 => fenceMover s n
  | 3 => fenceQuad s n
  | _ => fenceBank s n
/-- a fence by number, rejected beyond the kind's range -/
def fenceBy (s : State) (kind n : Nat) : State := if n < fenceUnits kind then fenceUnit s kind n else reject s 15
/-- FLT_FENCE -/
def fltFence (s : State) (v : Word) : State := fenceBy s (bitsAt v 0 3) (bitsAt v 16 9)
/-- units and locations of each structure that FLT_RETIRE names -/
def retireRange : Nat → Nat × Nat
  | 0 => (1, 8192) | 1 => (32, 2048) | 2 => (32, 1024) | 3 => (1, 512) | 4 => (8, 8192) | 5 => (1, 262144) | 6 => (1, 65536)
  | 7 => (1, 8192) | 8 => (1, 4096)
  | _ => (0, 0)
/-- a retirement by FLT_RETIRE: slot state has a budget of none, so its slot is fenced -/
def retireBy (s : State) (code unit loc : Nat) : State :=
  match code with
  | 3 => fenceSlot s loc
  | 8 => retire (emptyKey s loc) 8 0 loc
  | _ => retire s code unit loc
def fltRetire (s : State) (v : Word) : State :=
  let code := bitsAt v 0 4
  let unit := if (retireRange code).1 = 1 then 0 else bitsAt v 4 5
  let loc := bitsAt v 9 23
  if unit < (retireRange code).1 ∧ loc < (retireRange code).2 then retireBy s code unit loc else reject s 15

end Sys2Proof.Machine
end

