-- ==== Sys2Proof/Machine/FaultRows.lean ====
section
/-!
DEFINITION. The fault rows (14_faults_and_wraparound.md R427 to R444).
-/

namespace Sys2Proof.Machine

/-! ### Uncorrectable errors (R427, R431, R434 to R438, R489) -/

/-- a script's access traps, its instruction counted in the budget (07 R203, R188); a doomed clause's script takes no trap
(07 R227) -/
def accessTraps (s : State) (k : Nat) (cause : Byte) (v : Regs → Word) : State :=
  match scriptReady s k with
  | none => s
  | some (n, sc) => if (doomedRerun s n).isSome then s else raise s k n { sc with left := sc.left - (if sc.left = 0 then 0 else 1) } cause (v sc.regs)
/-- the next CCW of a slot is about to be fetched, or fetched and about to execute -/
def ccwMeets (s : State) (k : Nat) (inside : Bool) : State :=
  match slotPron s k with
  | none => s
  | some n =>
    let p := getP s n
    if !(running p) || p.fin.isSome || wordsHeld s n || p.resetting || slotStopped s k || (doomedRerun s n).isSome then s
    else match p.cur with
      | some c => if c.phase == .ready && inside then stopCondition s n 0 0 0x81 (firstCcw p).count (firstCcw p).addr else s
      | none =>
        let count : Word := match lookAt s n p.ccwAddr 16 with
          | .ok l => (parseCcw p.ccwAddr l).count
          | _ => 0
        stopCondition s n 0 0 0x81 (if inside then count else 0) p.ccwAddr
/-- the base of an index table in local memory cannot be read -/
def eccBase (s : State) (x : Cx) (q : MReq) : BaseGot :=
  if qIdx q && spaceOf q.src == 0xA then .err .ecc else readBase s x q
/-- what the user of a local memory word meets -/
def userMeets (s : State) (a : Nat) (multi : Bool) : ErrUser → State
  | .nobody => s
  | .script k => accessTraps s k.toNat 0x05 fun _ => BitVec.ofNat 32 a
  | .fetch k => accessTraps s k.toNat 0x01 (·.pc)
  | .ccw k inside => ccwMeets s k.toNat inside
  | .request (.engine k) w => issueEngine 0x3700 k.toNat w true (movreqWith eccBase) s
  | .request .control w => issueCp 0x3700 w true (movreqWith eccBase) s
  | .mover m k => moverCheck s m.toNat k.toNat .ecc multi
  | .record m k =>
    match ctxAt (getMv s m.toNat) k.toNat with
    | some t =>
      (match t.xf with
       | some x => if x.record.isEmpty then transferStops s m.toNat k.toNat t 0 0x81 { result := 0x06 } none else s
       | none => s)
    | none => s
/-- the instruction fetch of a slot meets its line's error: the line goes -/
def fetchMeets (s : State) (e : Nat) (slot : Option (BitVec 9)) : State :=
  match slot with
  | none => s
  | some k =>
    let line := match scriptReady s k.toNat with | some (_, sc) => some (iline (codeAddr sc.base sc.regs.pc)) | none => none
    let s := accessTraps s k.toNat 0x01 (·.pc)
    { s with ce := { s.ce with icache := tmod [] e (fun l => l.filter fun x => some x.1 != line) s.ce.icache } }
def localAddr (a : Nat) : Dword := BitVec.ofNat 64 (0xA000000000000000 + a)
/-- after the immediate effect: counted, captured and logged, the tracker entry freed, the granule retired -/
def ueTail (s : State) (code unit loc : Nat) (addr : Dword) (multi : Bool) : State :=
  retire (dropTrack (noteUe s code unit addr multi) code unit loc) code unit loc
/-- the same where nothing is retired at once -/
def ueNote (s : State) (code unit loc : Nat) (addr : Dword) (multi : Bool) : State := dropTrack (noteUe s code unit addr multi) code unit loc
/-- UNCORRECTABLE_ERROR (R427) -/
def execUncorrectableError (site : ErrSite) (multi : Bool) (s : State) : Res :=
  .next (match site with
    | .tcm off => ueTail (cpFault s) 0 0 (off.toNat / 64) (BitVec.ofNat 64 off.toNat) multi
    | .sram a user =>
      ueTail (userMeets s a.toNat multi user) 1 (a.toNat / 0x20000) (a.toNat % 0x20000 / 64) (localAddr a.toNat) multi
    | .icache e way slot => ueTail (fetchMeets s e.toNat slot) 2 e.toNat way.toNat (BitVec.ofNat 64 way.toNat) multi
    | .slot k => ueNote (fenceSlot s k.toNat) 3 k.toNat 0 0 multi
    | .record n =>
      if cached s n.toNat then
        let way := recordWay s n.toNat
        let s := cachePut (recordLost (cacheTake s n.toNat) n.toNat) n.toNat true
        ueTail s 4 (n.toNat % 8) way (BitVec.ofNat 64 way) multi
      else s
    | .staged n b => ueTail (stagedLost s n.toNat) 5 0 b.toNat (BitVec.ofNat 64 b.toNat) multi
    | .committed number i b => ueTail (committedLost s number.toNat i.toNat) 5 0 b.toNat (BitVec.ofNat 64 b.toNat) multi
    | .directory way => ueTail (doomDirectory s) 6 0 way.toNat (BitVec.ofNat 64 way.toNat) multi
    | .lock off entry => ueTail (delLock s off.toNat) 7 0 entry.toNat (BitVec.ofNat 64 entry.toNat) multi
    | .key n => ueTail (emptyKey s n.toNat) 8 0 n.toNat (BitVec.ofNat 64 n.toNat) multi
    | .mover m => ueNote (fenceMover s m.toNat) 9 m.toNat 0 0 multi
    | .quad q => ueNote (fenceQuad s q.toNat) 10 q.toNat 0 0 multi
    | .dram l => ueNote (poisonLine s l.toNat) 11 (dramChannel l.toNat) l.toNat (BitVec.ofNat 64 (0x8000000000000000 + 64 * l.toNat)) multi
    | .mram off => ueNote s 12 0 off.toNat (BitVec.ofNat 64 off.toNat) multi
    | .logic => ueNote (cpFault s) 13 0 0 0 multi)

/-! ### Corrected errors (R427, R429) -/

/-- structures with a correcting code -/
def correctable (code : Nat) : Bool := [0, 1, 2, 4, 5, 6, 7, 8, 9, 11, 12].contains code
/-- those with a granule to retire -/
def hasGranule (code : Nat) : Bool := [0, 1, 2, 4, 5, 6, 7, 8, 11].contains code
/-- CORRECTED_ERROR (R427, R429): code 14 stands for a disagreement of the triplicate state. -/
def execCorrectedError (code : BitVec 4) (unit : BitVec 9) (loc : BitVec 32) (s : State) : Res :=
  .next (if code = 14 then rcPulse s.flt.tmr { s with flt := { s.flt with tmr := satInc s.flt.tmr } }
    else if correctable code.toNat then
      let s := rcPulse s.flt.ce { s with flt := { s.flt with ce := satInc s.flt.ce } }
      if hasGranule code.toNat then track s code.toNat (if code = 11 then dramChannel loc.toNat else unit.toNat) loc.toNat else s
    else s)

/-! ### The persistent store (R432) -/

/-- copy B, or A, of a record fails: the other, if valid, is used and the failed copy rewritten from it -/
def copyFails {α : Type} (r : Banked α) (b : Bool) : Banked α :=
  let used := bankUsesB r == b
  if b then (if used && (copySeq r.a).isSome then { r with b := r.a } else { r with b := .invalid })
  else (if used && (copySeq r.b).isSome then { r with a := r.b } else { r with a := .invalid })
/-- a failure in a copy in use is counted (R388) -/
def failCounted (s : State) (used : Bool) : State := if used then ignoreCopy s else s
/-- PERSISTENT_COPY_CRC_FAILURE (R432) -/
def execPersistentCopyCrcFailure (rec : StoreRec) (copyB : Bool) (s : State) : Res :=
  .next (match rec with
    | .reservation => failCounted { s with nv := { s.nv with resv := copyFails s.nv.resv copyB } } (bankUsesB s.nv.resv == copyB)
    | .twin => failCounted { s with nv := { s.nv with twin := copyFails s.nv.twin copyB } } (bankUsesB s.nv.twin == copyB)
    | .subsystem => failCounted { s with nv := { s.nv with subsys := copyFails s.nv.subsys copyB } } (bankUsesB s.nv.subsys == copyB)
    | .board => failCounted { s with nv := { s.nv with board := copyFails s.nv.board copyB } } (bankUsesB s.nv.board == copyB)
    | .retirements => failCounted { s with nv := { s.nv with retire := copyFails s.nv.retire copyB } } (bankUsesB s.nv.retire == copyB)
    | .keys => failCounted { s with nv := { s.nv with keys := copyFails s.nv.keys copyB } } (bankUsesB s.nv.keys == copyB)
    | .saveArea => if copyB then { s with nv := { s.nv with areaB := .invalid (areaSeq s.nv.areaB) } } else { s with nv := { s.nv with areaA := .invalid (areaSeq s.nv.areaA) } }
    | .lifecycle third =>
      lcRepair (if third then { s with nv := { s.nv with lc2 := .invalid } }
        else if copyB then { s with nv := { s.nv with lc1 := .invalid } } else { s with nv := { s.nv with lc0 := .invalid } }))

/-! ### Fences, retirements, the log -/

/-- FENCE_SLOT (R433) -/
def execFenceSlot (n : BitVec 9) (s : State) : Res := .next (fenceBy s 0 n.toNat)
/-- FENCE_ENGINE (R433) -/
def execFenceEngine (n : BitVec 9) (s : State) : Res := .next (fenceBy s 1 n.toNat)
/-- FENCE_MOVER (R433) -/
def execFenceMover (n : BitVec 9) (s : State) : Res := .next (fenceBy s 2 n.toNat)
/-- FENCE_QUAD (R433) -/
def execFenceQuad (n : BitVec 9) (s : State) : Res := .next (fenceBy s 3 n.toNat)
/-- FENCE_CACHE_BANK (R433) -/
def execFenceCacheBank (n : BitVec 9) (s : State) : Res := .next (fenceBy s 4 n.toNat)
/-- FLT_RETIRE (R430, R442) -/
def execFltRetire (v : Word) (s : State) : Res := .next (fltRetire s v)
/-- LOG_FLUSH (R444) -/
def execLogFlush (s : State) : Res := .next (if s.rst.held then s else logFlush s)

end Sys2Proof.Machine
end

