-- ==== Sys2Proof/Machine/Holdup.lean ====
section
/-!
DEFINITION. The hold-up die, its measurements and requests, and power failures (12 R377 to R384, 16 R469, R470).
-/

namespace Sys2Proof.Machine

/-! ### Fields (Table 12-8) -/

def hvFail (h : Hu) : Nat := bitsAt h.cfg0 0 12
def hvOk (h : Hu) : Nat := bitsAt h.cfg0 16 12
def vTarget (h : Hu) : Nat := bitsAt h.cfg1 0 12
def vMin (h : Hu) : Nat := bitsAt h.cfg1 16 12
def chargeI (h : Hu) : Nat := bitsAt h.cfg1 28 4
def capMin (h : Hu) : Nat := bitsAt h.cfg2 16 16
def sat16 (n : Nat) : Half := BitVec.ofNat 16 (min n 65535)
/-- USABLE in mJ (R380): a code is 18.75 mV -/
def usable (h : Hu) : Nat :=
  if !h.capValid || decide (h.vcap.toNat ≤ vMin h) then 0
  else min 65535 (h.cap.toNat * (h.vcap.toNat ^ 2 - vMin h ^ 2) * 9 / 51200000)
/-- HOLDUP_OK follows LINK_OK, USABLE and NEED (R380) -/
def evalHoldup (s : State) : State :=
  let ok := s.hu.linkOk && decide (s.hu.need.toNat ≤ usable s.hu)
  if s.hu.holdupOk == ok then s else pulse { s with hu := { s.hu with holdupOk := ok } } (if ok then 259 else 258)
def setHu (s : State) (h : Hu) : State := { s with hu := h }

/-! ### Measurements (R377, R378, R380) -/

/-- the charger under a pair of measurements (R378) -/
def chargeRule (h : Hu) : Hu :=
  let full := decide (vTarget h ≤ h.vcap.toNat)
  let on := if h.hv.toNat < hvFail h then false else if hvOk h ≤ h.hv.toNat then h.gate != 0 else h.charging
  { h with charging := on && !full && !h.chargeOff, chargerFault := h.chargerFault && !full }
/-- HU_STATUS_FRAME (R377, R378, R380) -/
def execHuStatusFrame (good : Bool) (hv vcap : BitVec 12) (s : State) : Res :=
  .next (if !s.hu.on then s
    else if !good then pulse s 263
    else
      let rose := decide (s.hu.hv.toNat < hvOk s.hu) && decide (hvOk s.hu ≤ hv.toNat)
      let s := setHu s (chargeRule { s.hu with hv := hv, vcap := vcap, linkOk := true })
      evalHoldup (if rose then pulse s 257 else s))
/-- CHARGER_TIMEOUT (R378) -/
def execChargerTimeout (s : State) : Res :=
  .next (if s.hu.charging then pulse (setHu s { s.hu with chargerFault := true }) 262 else s)

/-! ### Requests and the capacitance check (R380, R381) -/

/-- the die takes a request: the logic side is joined to it and no failure has been declared (R391) -/
def huTakes (s : State) : Bool := s.hu.on && s.hu.linkOk && !s.hu.failLine
/-- the check moves the bus to the bank -/
def startCheck (s : State) : State :=
  if huTakes s && !s.hu.checking && s.hu.gate == 1 then setHu s { s.hu with checking := true, again := false, gate := 2 } else s
def stopCharge (s : State) : State := if huTakes s then setHu s (chargeRule { s.hu with chargeOff := true }) else s
def resumeCharge (s : State) : State := if huTakes s then setHu s (chargeRule { s.hu with chargeOff := false }) else s
/-- A request code; another is rejected (R381). -/
def huRequest (s : State) (code : Nat) : State :=
  match code with
  | 1 => startCheck s
  | 2 => stopCharge s
  | 3 => resumeCharge s
  | _ => reject s 13
/-- CAPACITANCE_CHECK_TIMER (R380) -/
def execCapacitanceCheckTimer (s : State) : Res := .next (if bitsAt s.hu.cfg2 0 16 = 0 then s else startCheck s)
/-- CAPACITANCE_CHECK_REQUEST (R381, code 0x1) -/
def execCapacitanceCheckRequest (s : State) : Res := .next (startCheck s)
/-- CHARGE_STOP (R381, code 0x2) -/
def execChargeStop (s : State) : Res := .next (stopCharge s)
/-- CHARGE_RESUME (R381, code 0x3) -/
def execChargeResume (s : State) : Res := .next (resumeCharge s)
/-- CAP in µF from the fall in codes and the climb in µs (R380) -/
def capOf (h : Hu) (fall us : Nat) : Half := sat16 (chargeI h * us * 8 / (3 * fall))
/-- the end of a check -/
def endCheck (s : State) : State :=
  let s := pulse (setHu s { s.hu with checking := false, again := false, gate := 1 }) 260
  evalHoldup (if s.hu.cap.toNat < capMin s.hu then pulse s 261 else s)
/-- CAPACITANCE_CHECK_DONE (R380): a fall below 27 codes repeats the check once. -/
def execCapacitanceCheckDone (fall : BitVec 12) (us : BitVec 32) (s : State) : Res :=
  .next (if !s.hu.checking then s
    else if fall.toNat < 27 then (if s.hu.again then endCheck s else setHu s { s.hu with again := true })
    else endCheck (setHu s { s.hu with cap := capOf s.hu fall.toNat us.toNat, capValid := true }))

/-! ### The die's own supply (16 R469) -/

/-- HOLDUP_DIE_START: its HU fields take their Reset values. -/
def execHoldupDieStart (s : State) : Res := .next (if s.hu.on then s else evalHoldup (setHu s { on := true }))
/-- HOLDUP_DIE_STOP: every gate is held at its source. -/
def execHoldupDieStop (s : State) : Res :=
  .next (setHu s { s.hu with on := false, gate := 0, charging := false, checking := false, again := false })
/-- HV_OK_SETTLED -/
def execHvOkSettled (s : State) : Res :=
  .next (if s.hu.on && s.hu.gate == 0 && !s.hu.failLine then
    setHu s { s.hu with gate := 1, charging := !s.hu.chargeOff && decide (s.hu.vcap.toNat < vTarget s.hu) } else s)

/-! ### Power failures (R377, R379, R382, R384) -/

/-- the die declares a failure: the bus goes to the bank, a check ends (R379, R391) -/
def dieDeclares (s : State) : State :=
  if s.hu.on && !s.hu.failLine then
    setHu s { s.hu with failLine := true, gate := 2, charging := false, checking := false, again := false }
  else s
/-- POWER_FAIL_DECLARED (R379) -/
def execPowerFailDeclared (s : State) : Res := .next (dieDeclares s)
/-- HV_OVERVOLTAGE (R379) -/
def execHvOvervoltage (s : State) : Res := .next (if s.hu.on && !s.hu.failLine then dieDeclares (pulse s 267) else s)
/-- the part holds itself in reset -/
def holdInReset (s : State) : State :=
  { s with rst := { s.rst with held := true, fwReady := false, rom := false, drained := false }, pwr := { s.pwr with failed := true } }
/-- A power failure as the logic side sees it: a drain in ACTIVE and IDLE; in sleep, its entry or the boot nothing is
saved (R382, R384, 16 R488). -/
def logicFails (s : State) : State :=
  if s.pwr.drain.isSome then startDrain s 0x01 none
  else if s.rst.held then s
  else if s.rst.fwReady && s.pwr.sleep == .awake then startDrain s 0x01 none
  else holdInReset (shedHost (shed s))
/-- FAIL_LINE_EDGE (R382) -/
def execFailLineEdge (s : State) : Res := .next (if s.hu.failLine then logicFails s else s)
/-- ISOLATED_LINK_LOSS (R377) -/
def execIsolatedLinkLoss (s : State) : Res :=
  .next (if s.hu.linkOk then logicFails (evalHoldup (setHu s { s.hu with linkOk := false })) else s)

end Sys2Proof.Machine
end

