-- ==== Sys2Proof/Machine/Power.lean ====
section
/-!
DEFINITION. Power states (12 R367 to R376), GPIO pins (16 R467), the acts of conjunctions (10 R306 to R315), doorbells
(03 R69 to R72) and WAIT expiries as sleep holds them: the shared operations.
-/

namespace Sys2Proof.Machine

/-! ### GPIO pins (16 R467, 10 R302) -/

/-- A change at the pins: each that rises is one occurrence of its source, and those that rise together are one edge at a
conjunction (R302, Table 10-6). -/
def withPins (s : State) (f : State → State) : State :=
  let old := gpioLevels s
  let s := f s
  let rise := gpioLevels s &&& ~~~old
  let ns := ((List.range 16).filter fun i => rise.getLsbD i).map (240 + ·)
  ns.foldl occur (raiseInputs s old ns)
/-- GPIO_OUT as a register write leaves it: pulses in progress end (R467) -/
def gpioOutWrite (s : State) (v : BitVec 16) : State :=
  withPins s fun s => { s with pwr := { s.pwr with gpioOut := v, pulses := [] } }
/-- GPIO_DIR: a pin made an input stops driving, its level bit stays (16 Table 16-20) -/
def gpioDirWrite (s : State) (v : BitVec 16) : State :=
  withPins s fun s => { s with pwr := { s.pwr with gpioDir := v, pulses := s.pwr.pulses.filter fun e => v.getLsbD e.1 } }
/-- a conjunction's act on a pin: set, clear, toggle, pulse; an input is not affected (R309) -/
def gpioAct (s : State) (pin op : Nat) : State :=
  if !(s.pwr.gpioDir.getLsbD pin) then s
  else
    let drive (b : Bool) (t : Nat) : State := withPins s fun s =>
      { s with pwr := { s.pwr with gpioOut := setBit s.pwr.gpioOut pin b, pulses := tset 0 pin t s.pwr.pulses } }
    match op with
    | 0 => drive true 0
    | 1 => drive false 0
    | 2 => drive (!(s.pwr.gpioOut.getLsbD pin)) 0
    | _ => drive true 10
/-- one tick of the pulses in progress: 100 ns are ten -/
def pulsesTick (s : State) : State :=
  s.pwr.pulses.foldl (fun s e =>
    let s := { s with pwr := { s.pwr with pulses := tset 0 e.1 (e.2 - 1) s.pwr.pulses } }
    if e.2 = 1 then withPins s fun s => { s with pwr := { s.pwr with gpioOut := setBit s.pwr.gpioOut e.1 false } } else s) s

/-! ### Acts on pronouns (R309, R311, R314, R315) -/

def getCj (s : State) (n : Nat) : Cj := tget {} s.evt.cj n
def setCj (s : State) (n : Nat) (c : Cj) : State := { s with evt := { s.evt with cj := tset {} n c s.evt.cj } }
def modCj (s : State) (n : Nat) (f : Cj → Cj) : State := setCj s n (f (getCj s n))
/-- the kind of a target word -/
def tgtKind (w : Word) : Nat := bitsAt w 0 4
/-- a PF's conjunction reaches its own pronouns only (R311) -/
def actDenied (s : State) (owner : Master) (n : Nat) : Bool := isPf owner && isBound (getP s n) && pfOf (getP s n).hostFn != owner
def discardAct (s : State) : State := { s with sched := { s.sched with waitDiscarded := s.sched.waitDiscarded + 1 } }
/-- a wait-input or start act applied -/
def pronAct (s : State) (n : Nat) (w : Word) : State :=
  let prn := bitsAt w 4 20
  if tgtKind w = 1 then
    let r := waitEvent s prn (bitsAt w 24 3)
    if r.2 then modCj r.1 n fun c => { c with saturated := true } else r.1
  else if !s.sched.configured then discardAct s
  else
    let r := startOp s prn (getP s prn).startAddr
    if r.2 then countIgnored r.1 else r.1
/-- held for the wake, or lost (R315) -/
def deferAct (s : State) (n : Nat) (w : Word) : State :=
  if s.evt.deferred.length < 64 then { s with evt := { s.evt with deferred := s.evt.deferred ++ [(n, w)] } }
  else { s with evt := { s.evt with lost := true } }
def captureAct (s : State) (k : Nat) : State :=
  let c := tget {} s.evt.caps k
  let c : Cap := { tick := s.dev.tick, count := satInc c.count, overflow := c.overflow || c.count == 15 }
  { s with evt := { s.evt with caps := tset {} k c s.evt.caps } }

/-! ### Doorbells and expiries (03 R69 to R72, 02 R36) -/

/-- a doorbell word of a FENCED part is ignored and counted (11 R356) -/
def wordActs (fn : Master) (s : State) (w : Word) : State :=
  if isFenced s && w != 0 then countIgnored s else doorbellWord fn s w
/-- a WAIT's time-out at its tick -/
def expireWait (s : State) (n : Nat) : State :=
  let p := getP s n
  match p.state, p.wait with
  | .waiting, some x =>
    (match x.expiry with
     | some e => endWait (reachTick s e) n .timeout
     | none => s)
  | _, _ => s
def holdAct (s : State) (h : HeldAct) : State := { s with pwr := { s.pwr with held := s.pwr.held ++ [h] } }
def asleep (s : State) : Bool := s.pwr.sleep == .standby || s.pwr.sleep == .deep

/-! ### The key vault across a sleep (Table 12-2 step 5, 13 R409, R412) -/

/-- a bank with these entries is written -/
def writeBank (s : State) (l : List (Nat × VKey)) : State := { s with nv := { s.nv with keys := bankPut s.nv.keys l } }
/-- the bank written at step 5 carries every counter as it stands -/
def exactCounts (l : List (Nat × VKey)) : List (Nat × VKey) := l.map fun e => (e.1, { e.2 with reserved := e.2.count })
/-- the vault as the bank gives it, unless unsealing is off (R409, R420) -/
def unsealKeys (s : State) : State :=
  if s.sec.unsealOff then s
  else
    let l := (bankUse s.nv.keys).getD []
    { s with sec := { s.sec with vault := l.map fun e => (e.1, { e.2 with count := e.2.reserved }) } }

/-! ### Sleep entry (R369 to R372, R375, R376) -/

/-- records held dirty in the cache are written to the table -/
def flushCache (s : State) : State :=
  let dirty := (s.sched.cache.map fun e => (e.2.filter (·.dirty)).map fun w => w.tag * 4096 + e.1).flatten
  let s := dirty.foldl (fun s n => { s with sched := { s.sched with table := tset {} n (getP s n) s.sched.table } }) s
  { s with sched := { s.sched with cache := s.sched.cache.map fun e => (e.1, e.2.map fun w => { w with dirty := false }) } }
/-- steps 1 and 2: ports and Malid Link go down -/
def enterLow (s : State) : State :=
  let s := quadsDown s 1
  let s := if s.tw.link == 2 then pulse s 231 else s
  { s with tw := { s.tw with link := 0 } }
/-- step 6: what is not retained is gone -/
def powerDown (s : State) : State := { s with ce := { s.ce with icache := [] } }
/-- STANDBY, steps 1 and 2 -/
def enterStandby (s : State) : State :=
  let s := enterLow s
  { s with pwr := { s.pwr with sleep := .entering, light := true } }
/-- STANDBY, steps 6 to 9, the last the commit cycle -/
def commitStandby (s : State) : State :=
  let s := powerDown s
  { s with pwr := { s.pwr with sleep := .standby, light := false } }

/-- cells copied to another place -/
def copyCells (t : Tab Byte) (base : Nat) : Tab Byte → Tab Byte
  | [] => t
  | e :: es => copyCells (tset emptyByte (base + e.1) e.2 t) base es
/-- the cells of a range, by their offset in it -/
def cellsFrom (t : Tab Byte) (a n : Nat) : Tab Byte :=
  (t.filter fun e => decide (a ≤ e.1) && decide (e.1 < a + n)).map fun e => (e.1 - a, e.2)
def clearRange (t : Tab Byte) (a n : Nat) : Tab Byte := t.filter fun e => !(decide (a ≤ e.1) && decide (e.1 < a + n))
def imageStart (s : State) : Nat := s.pwr.imageBase.toNat * mib64
/-- bytes of TCM, and of TCM and the local memories, in the image -/
def imageTcm : Nat := 0x80000
def imageMem : Nat := 0x480000
/-- Step 4: TCM, the 32 local memories and the lock registry at IMAGE_BASE. The layout is the model's, and the registry's
bytes are free values (log entry 46). -/
def writeImage (s : State) : State :=
  let a := imageStart s
  let d := copyCells (copyCells (clearRange s.mem.dram a imageMem) a s.mem.tcm) (a + imageTcm) s.mem.loc
  let s := { s with mem := { s.mem with dram := d, poison := healPoison s.mem.poison a imageMem } }
  let l := (List.range (16 * s.cls.locks.length)).map fun i => Sys2Proof.Config.storeByte (0x3000000 + i) s.free
  writeDram { s with free := s.free + 1 } (a + imageMem) l
/-- the image restored (R373 step 3) -/
def readImage (s : State) : State :=
  let a := imageStart s
  { s with mem := { s.mem with tcm := cellsFrom s.mem.dram a imageTcm, loc := cellsFrom s.mem.dram (a + imageTcm) (imageMem - imageTcm) } }
/-- DEEP SLEEP, steps 1 to 5 -/
def enterDeep (s : State) : State :=
  let s := writeImage (flushCache (enterLow s))
  let s := { s with pwr := { s.pwr with sleep := .entering, light := false } }
  if s.sec.unsealOff then s else writeBank s (exactCounts s.sec.vault)
/-- DEEP SLEEP, steps 6 to 9 -/
def commitDeep (s : State) : State :=
  let s := powerDown s
  { s with pwr := { s.pwr with sleep := .deep }, sched := { s.sched with cache := [] } }
/-- every PF on each host link is in D3hot and each link is in L1 (R375) -/
def deepReady (s : State) : Bool :=
  (getFunc s 0x40).d3hot && (getFunc s 0x41).d3hot && s.hp.linkA.l1 && (!s.hp.split || s.hp.linkB.l1)

/-! ### Wake and abandonment (R371 to R373, R376) -/

/-- acts, words and expiries held are applied, in that order (R373 step 5); held requests wait for their own turn -/
def applyHeld (s : State) : State :=
  let acts := s.evt.deferred
  let held := s.pwr.held
  let s := { s with evt := { s.evt with deferred := [] }
                    pwr := { s.pwr with held := held.filter fun h => match h with | .request _ _ => true | _ => false } }
  let s := acts.foldl (fun s a => pronAct s a.1 a.2) s
  let s := held.foldl (fun s h => match h with | .word fn w => wordActs fn s w | _ => s) s
  held.foldl (fun s h => match h with | .timeout n => expireWait s n | _ => s) s
/-- The entry is abandoned (R372, R376): why is 1 for a wake source, 2 for the wait of D3hot and L1. A FENCE_IN seen meanwhile
is obeyed (11 R353). -/
def abandonSleep (s : State) (why : Nat) : State :=
  let s := if s.pwr.light || s.sec.unsealOff then s else writeBank s s.sec.vault
  let s := { s with pwr := { s.pwr with sleep := .awake, light := false, woke := true, aborted := true } }
  let s := if s.tw.fenceIn then obeyFenceIn s else s
  let s := quadsStart (applyHeld (pulse s 264))
  finishHeld s .sleep 0 (BitVec.ofNat 192 (1 + 256 * why))
/-- The part wakes (R373). A FENCE_IN seen in sleep is obeyed first (11 R352). -/
def wake (s : State) : State :=
  let deep := s.pwr.sleep == .deep
  let s := { s with pwr := { s.pwr with sleep := .awake, woke := true, lastDeep := deep } }
  let s := if deep then unsealKeys (readImage s) else s
  let s := if s.tw.fenceIn then obeyFenceIn s else s
  let s := quadsStart (pulse (applyHeld s) 265)
  finishHeld s .sleep 0 0
/-- A wake source fires (R371, R372): lines 0 to 7, WAKE_IN_N and the rest set their bit; an enabled one ends the entry or
wakes the part. -/
def wakeSource (s : State) (bit : Nat) : State :=
  let s := { s with pwr := { s.pwr with cause := setBit s.pwr.cause bit true } }
  if !(s.pwr.mask.getLsbD bit || bit == 11) then s
  else match s.pwr.sleep with
    | .awake => s
    | .entering => abandonSleep s 1
    | .standby => wake s
    | .deep => wake s
/-- Sources 9 and 10 are wake sources only of a part that sleeps, enters sleep or has left it in this cycle (R371); log entry
69 says how the model tells that cycle. -/
def sleepSource (s : State) (bit : Nat) : State := if s.pwr.sleep == .awake && !s.pwr.woke then s else wakeSource s bit

/-! ### Conjunctions (R306, R310, R312, R314) -/

/-- the acts a delivery makes, in target order -/
def cjActs (c : Cj) (n : Nat) : List (Nat × Nat × Word) :=
  (List.range 8).filterMap fun k => let w := tget 0 c.tgt k; if tgtKind w = 0 then none else some (n, k, w)
/-- an act on a pronoun that R311 refuses its conjunction's owner -/
def actRefused (s : State) (owner : Master) (w : Word) : Bool :=
  (tgtKind w == 1 || tgtKind w == 2) && actDenied s owner (bitsAt w 4 20)
/-- the conjunction delivers: the inhibit arms, and an act R311 refuses is discarded (R306, R311, R312) -/
def cjDeliver (s : State) (n : Nat) (c : Cj) : State :=
  let acts := cjActs c n
  let ok := acts.filter fun a => !(actRefused s c.owner a.2.2)
  let c := { c with fired := true, armed := true, deliveries := wrapInc c.deliveries, denied := c.denied || ok.length != acts.length }
  setCj { s with evt := { s.evt with acts := s.evt.acts ++ ok } } n c
/-- An edge of the input: a clear EN or a disabled group blocks it, an armed inhibit stops it and counts it, else it is
delivered (R306, R310, R312). -/
def cjEdge (s : State) (n : Nat) : State :=
  let c := getCj s n
  let off := !c.en || !(s.evt.grpEn.getLsbD c.group.toNat)
  if c.armed then
    rcPulse s.evt.loops
      (setCj { s with evt := { s.evt with loops := satInc s.evt.loops } } n { c with loop := true, blocked := c.blocked || off })
  else if off then setCj s n { c with blocked := true }
  else cjDeliver s n c
/-- An act reaches its target (R309, R314, R315). -/
def applyAct (s : State) (n : Nat) (w : Word) : State :=
  match tgtKind w with
  | 1 | 2 => if asleep s then deferAct s n w else pronAct s n w
  | 3 => captureAct s (bitsAt w 4 4)
  | 4 => wakeSource s (bitsAt w 4 3)
  | 5 => gpioAct s (bitsAt w 4 4) (bitsAt w 8 2)
  | 6 => huRequest s (bitsAt w 4 4)
  | 7 => { s with evt := { s.evt with grpEn := setBit s.evt.grpEn (bitsAt w 4 4) true } }
  | 8 => { s with evt := { s.evt with grpEn := setBit s.evt.grpEn (bitsAt w 4 4) false } }
  | _ => s

/-! ### Mailbox posts that wake (R328) -/

/-- a post that takes effect for the control processor or an engine also wakes the part -/
def mbxPostWake (s : State) (m : Nat) : State :=
  let x := getMbx s m
  let s := mbxPostOp s m false
  if !x.full && (x.receiver == 0x00 || isCe x.receiver) then wakeSource s 11 else s

end Sys2Proof.Machine
end

