-- ==== Sys2Proof/Machine/HostRegs.lean ====
section
/-!
DEFINITION. The function-local block, the admin queue's rings, moderation and host power states (09 R285, R286, R292,
R294 to R299): the shared operations.
-/

namespace Sys2Proof.Machine

/-! ### Functions -/

/-- a function the host can name: a PF, or a VF while its PF's VF Enable is set -/
def fnPresent (s : State) (m : Master) : Bool := isPf m || (isVf m && (getFunc s (pfOf m)).vfEnable)
/-- requests of the host reach a function: its link is up -/
def hostReaches (s : State) (m : Master) : Bool := fnPresent s m && (fnLink s m).rate != 0 && !s.rst.held
/-- a PF followed by its VFs, or a VF alone -/
def familyOf (m : Master) : List Master :=
  if m == 0x40 then m :: (List.range 32).map fun k => BitVec.ofNat 8 (0x48 + k)
  else if m == 0x41 then m :: (List.range 32).map fun k => BitVec.ofNat 8 (0x68 + k)
  else [m]
def numFns : List Master := familyOf 0x40 ++ familyOf 0x41

/-! ### Fetching packets (R286) -/

/-- the part takes a function's commands: enabled, not stopped, and able to issue requests (R286, R297) -/
def takesPackets (s : State) (m : Master) : Bool :=
  let f := getFunc s m
  f.enable && f.ready && !f.stopped && canIssue s m
/-- packets from SQ_HEAD up to TAIL; fuel is the ring's size -/
def fetchPackets (m : Master) : Nat → State → State
  | 0, s => s
  | k + 1, s =>
    let f := getFunc s m
    if !(takesPackets s m) || f.sqHead == f.tail then s
    else
      let a := offOf f.sqBase + 64 * f.sqHead.toNat
      match hostFault s a 64 with
      | some _ => setFunc s m { f with fetchErr := true, stopped := true }
      | none =>
        let p : BitVec 512 := BitVec.ofNat 512 (ofLE (getBytes s.mem.host a 64))
        let next := BitVec.ofNat 12 ((f.sqHead.toNat + 1) % ringSize f)
        fetchPackets m k (setFunc s m { f with sqHead := next, fetched := f.fetched ++ [p] })
def pumpAdmin (s : State) (m : Master) : State := fetchPackets m 4096 s

/-! ### The admin registers (Table 9-4, R285, R286) -/

/-- fields of a base register's low half -/
def baseLow (b : Dword) (v : Word) : Dword := b.extractLsb' 32 32 ++ v
def baseHigh (b : Dword) (v : Word) : Dword := v ++ b.extractLsb' 0 32
/-- HF_ADM_SQ_BASE_LO, HF_ADM_RQ_BASE_LO: a value with [11:0] nonzero, or a change while enabled, is rejected -/
def lowRefused (f : Func) (b : Dword) (v : Word) : Bool := bitsAt v 0 12 != 0 || (f.enable && baseLow b v != b)
def hfSqLo (s : State) (m : Master) (v : Word) : State :=
  let f := getFunc s m
  if lowRefused f f.sqBase v then rejectHf s m else setFunc s m { f with sqBase := baseLow f.sqBase v }
def hfRqLo (s : State) (m : Master) (v : Word) : State :=
  let f := getFunc s m
  if lowRefused f f.rqBase v then rejectHf s m else setFunc s m { f with rqBase := baseLow f.rqBase v }
def hfSqHi (s : State) (m : Master) (v : Word) : State :=
  let f := getFunc s m
  if f.enable && baseHigh f.sqBase v != f.sqBase then rejectHf s m else setFunc s m { f with sqBase := baseHigh f.sqBase v }
def hfRqHi (s : State) (m : Master) (v : Word) : State :=
  let f := getFunc s m
  if f.enable && baseHigh f.rqBase v != f.rqBase then rejectHf s m else setFunc s m { f with rqBase := baseHigh f.rqBase v }
/-- ENABLE set: the queue is in service, its indices zero -/
def admStarted (f : Func) : Func :=
  { f with enable := true, ready := true, stopped := false, tail := 0, head := 0, sqHead := 0, prod := 0, phase := true, fetched := [] }
/-- a reply held under R288 -/
def heldReply (w : HeldWhy) : Bool :=
  match w with
  | .unbind _ => true | .halt _ => true | .sleep => true | .replay => true
  | .reset _ => false | .linkTest => false | .keyBank => false | .unpair => false | .room _ => false
/-- ENABLE cleared: packets not started and replies held under R288 are discarded; of a stopped queue all replies are -/
def admStop (s : State) (m : Master) : State :=
  let f := getFunc s m
  let s := setFunc s m { f with enable := false, stopped := false, fetched := [] }
  settleReady { s with hp := { s.hp with held := s.hp.held.filter fun h => h.fn != m || !(f.stopped || heldReply h.why) } } m
/-- DESIGN CHOICE (log entry 117): a queue that starts again forgets the replies of its last service still to be written. -/
def dropReplies (s : State) (m : Master) : State := { s with hp := { s.hp with held := s.hp.held.filter fun h => h.fn != m } }
/-- HF_ADM_CFG -/
def hfCfg (s : State) (m : Master) (v : Word) : State :=
  let f := getFunc s m
  let size : BitVec 4 := v.extractLsb' 0 4
  let vec : BitVec 11 := v.extractLsb' 16 11
  let sizeOk := decide (4 ≤ size.toNat) && decide (size.toNat ≤ 12) && !(f.enable && size != f.size)
  let vecOk := decide (vec.toNat < vecCount m) && !(f.enable && vec != f.vector)
  let g := { f with size := if sizeOk then size else f.size, vector := if vecOk then vec else f.vector }
  let s := if v.getLsbD 31 && !f.enable then dropReplies (setFunc s m (admStarted g)) m else setFunc s m g
  let s := if !(v.getLsbD 31) && f.enable then admStop s m else s
  if sizeOk && vecOk then s else rejectHf s m
/-- HF_ADM_SQ_TAIL: discarded while ENABLE is 0 -/
def hfTail (s : State) (m : Master) (v : Word) : State :=
  let f := getFunc s m
  let t : BitVec 12 := v.extractLsb' 0 12
  if !f.enable then s
  else if ringSize f ≤ t.toNat then rejectHf s m
  else pumpAdmin (pulse (setFunc s m { f with tail := t }) 327) m
/-- HF_ADM_RQ_HEAD: replies that waited for room follow -/
def hfRqHead (s : State) (m : Master) (v : Word) : State :=
  let f := getFunc s m
  let h : BitVec 12 := v.extractLsb' 0 12
  if ringSize f ≤ h.toNat then rejectHf s m else flushReplies (setFunc s m { f with head := h }) m

/-! ### Status-queue heads and moderation (R292, R295) -/

/-- HF_SQ_HEADn -/
def hfSqHead (s : State) (m : Master) (n : Nat) (v : Word) : State :=
  match getSq s n with
  | none => rejectHf s m
  | some q =>
    let h := bitsAt v 0 16
    let size := 2 ^ q.log2
    if q.owner != m || decide (size ≤ h) || decide ((q.prod + size - q.cons) % size < (h + size - q.cons) % size) then rejectHf s m
    else
      let q := { q with cons := h }
      drainQueue (setSq s n { q with full := sqFull q }) n
/-- HF_MODn -/
def hfMod (s : State) (m : Master) (n : Nat) (v : Word) : State :=
  let x := getVec s m n
  let c : Byte := v.extractLsb' 0 8
  let t : Half := v.extractLsb' 8 16
  let c' := if c = 0 then x.count else c
  let s := if c = 0 ∨ (t = 0 ∧ 1 < c'.toNat) then rejectHf s m else s
  if t = 0 ∧ 1 < c'.toNat then s
  else evalVec (setVec s m n { getVec s m n with count := c', time := t, timing := t != 0 && x.pending != 0 }) m n
/-- the TIME timer of a vector expires: not evaluated in D3hot (R299) -/
def modTimer (s : State) (m : Master) (n : Nat) : State :=
  let x := getVec s m n
  if x.timing && x.time != 0 && x.pending != 0 && !(getFunc s (pfOf m)).d3hot then fallDue s m n else s
/-- a pending bit set while masked sends once the vector and its function are unmasked (R295) -/
def sendPba (s : State) (m : Master) (n : Nat) : State :=
  let f := getFunc s m
  let x := getVec s m n
  if x.pba && !x.masked && !f.fmask && f.msixEn && mayMessage s m n then sendMsg s m n else s
/-- the vectors of a function that differ from reset, in ascending order -/
def vecNums (s : State) (m : Master) : List Nat := (getFunc s m).vecs.map (·.1)
/-- the MSI-X table of a function: entry n, dword k (PCI Express) -/
def msixRead (s : State) (m : Master) (n k : Nat) : Word :=
  let x := getVec s m n
  match k with
  | 0 => x.addr.extractLsb' 0 32
  | 1 => x.addr.extractLsb' 32 32
  | 2 => x.data
  | _ => BitVec.ofNat 32 (b2n x.masked)
def msixWrite (s : State) (m : Master) (n k : Nat) (v : Word) : State :=
  let x := getVec s m n
  match k with
  | 0 => setVec s m n { x with addr := baseLow x.addr (v &&& 0xFFFFFFFC) }
  | 1 => setVec s m n { x with addr := baseHigh x.addr v }
  | 2 => setVec s m n { x with data := v }
  | _ => sendPba (setVec s m n { x with masked := v.getLsbD 0 }) m n
/-- 32 bits of the pending bit array -/
def pbaRead (s : State) (m : Master) (k : Nat) : Word :=
  (List.range 32).foldl (fun w i => setBit w i (getVec s m (32 * k + i)).pba) 0

/-! ### What a function's return to service lets through (R297, R299) -/

/-- words waiting for queues of the function, packets and replies follow -/
def resumeFn (s : State) (m : Master) : State :=
  let qs := (s.hp.sqs.filter fun q => q.2.owner == m).map (·.1)
  let s := qs.foldl drainQueue s
  pumpAdmin (flushReplies s m) m
/-- one message for a vector with PENDING above zero (R298, R299) -/
def sendPending (m : Master) (s : State) (n : Nat) : State :=
  let f := getFunc s m
  let x := getVec s m n
  if x.pending = 0 then s
  else if !(mayMessage s m n) then s
  else if x.masked || f.fmask || !f.msixEn then setVec s m n { x with pba := true, pending := 0, timing := false }
  else sendMsg s m n
def sendAllPending (s : State) (pf : Master) : State :=
  (familyOf pf).foldl (fun s m => (vecNums s m).foldl (sendPending m) s) s
/-- D3hot written to a PF's PowerState (R298): its completion follows the messages -/
def d3Entry (s : State) (pf : Master) : State :=
  if (getFunc s pf).d3hot then s
  else
    let s := modFunc (sendAllPending s pf) pf fun f => { f with d3hot := true }
    pulse s (if pf == 0x40 then 320 else 321)
/-- D0 written to it (R299) -/
def d0Entry (s : State) (pf : Master) : State :=
  if !(getFunc s pf).d3hot then s
  else
    let s := modFunc s pf fun f => { f with d3hot := false }
    let s := (familyOf pf).foldl (fun s m => (vecNums s m).foldl (fun s n => sendPba s m n) s) s
    let s := sendAllPending s pf
    let s := (familyOf pf).foldl (fun s m => modFunc s m fun f => { f with pendAtSleep := false }) s
    (familyOf pf).foldl resumeFn (pulse s (if pf == 0x40 then 320 else 321))
/-- what a Bus Master Enable just set, or a link just up, lets through -/
def busMasterOn (s : State) (m : Master) : State :=
  let s := (vecNums s m).foldl (fun s n => sendPba (evalVec s m n) m n) s
  resumeFn s m

end Sys2Proof.Machine
end

