-- ==== Sys2Proof/Machine/Reset.lean ====
section
/-!
DEFINITION. Resets, the boot and firmware's start (15_reset_and_bring_up.md R446 to R455, 13 R394, R400, R403 to R409,
05 R125, R142, 16 R470, R474 to R476): the shared operations.
-/

namespace Sys2Proof.Machine

/-! ### What a reset leaves (R447, R449) -/

/-- the hold-up die runs on; its register fields take their Reset values -/
def coldHu (h : Hu) : Hu :=
  { on := h.on, gate := h.gate, failLine := h.failLine, charging := h.charging, chargeOff := h.chargeOff, checking := h.checking
    again := h.again }
/-- buffer DRAM rows queued for repair (14 R431) -/
def repairRows (s : State) : List Retired := s.flt.retired.filter fun r => r.code == 11
/-- A cold reset (R447): what lies outside the part, the persistent store and buffer DRAM stay. -/
def coldReset (s : State) (k : ResetKind) : State :=
  { mem := { dram := s.mem.dram, poison := s.mem.poison, host := s.mem.host, hostFaults := s.mem.hostFaults }
    hp := { split := s.pins.hostSplit }, tw := { id := s.pins.twinId, fenceIn := s.tw.fenceIn }, nv := s.nv
    sec := { tap := s.sec.tap }, flt := { retired := repairRows s }, hu := coldHu s.hu, rst := { kind := k, drained := s.rst.drained }
    pins := { s.pins with testHold := s.pins.testmode }, free := s.free, out := s.out, pending := s.pending }

def warmFunc (f : Func) : Func := { f with enable := false, ready := false, stopped := false, fetched := [] }
def warmQuad (x : Quad) : Quad :=
  { x with ports := tmap {} (fun p : Port => { ep := { bucketBase := p.ep.bucketBase, bucketShift := p.ep.bucketShift, bucketEn := p.ep.bucketEn } }) x.ports
           xoff := false, testing := false }
/-- a bound pronoun is IDLE with the fields of R77 step 5 cleared, or stays CHECKED -/
def warmPron (p : Pron) : Pron :=
  let q : Pron := { p with fin := none, unbinding := false, resetting := false, fenceDue := none, limitDue := none, rerun := none }
  match p.state with
  | .unbound => q
  | .checked => q
  | _ => { q with state := .idle, startPending := false, pendStart := 0, moverHold := false, checkedBy := none, script := none, cur := none
                  retryCount := 0, waitPending := 0, waitOverflow := 0, loops := [], tickets := [], wait := none, again := false }
/-- LAST_ABORT of a clause lost with its staging (04 Table 4-6, 0x0A) -/
def lostClause (t : Tab Pron) (c : Clause) : Tab Pron := tmod {} c.prn (fun p => { p with lastAbort := 0x0A }) t
def warmSched (x : Sched) (lost : List Clause) : Sched :=
  let recs := tmap {} warmPron (lost.foldl lostClause x.recs)
  { configured := x.configured, prnBase := x.prnBase, prnLocked := x.prnLocked, ctmBase := x.ctmBase, ctmSize := x.ctmSize
    moverLimit := x.moverLimit, recs := recs, table := recs }
def warmEvt (e : Evt) : Evt :=
  { e with icPend := 0, icEn := 0, icCls := 0, normal := {}, fast := {} }
def warmTwin (t : Twin) : Twin :=
  { id := t.id, timeout := t.timeout, fenceMode := t.fenceMode, autoFence := t.autoFence, key := t.key, split := t.split
    storeBase := t.storeBase, ctmBase := t.ctmBase, qmap := t.qmap, fenceOut := t.fenceOut, fenceIn := t.fenceIn }
def warmSec (x : Sec) : Sec := { level := x.level, unsealOff := x.unsealOff, lockout := x.lockout, fails := x.fails, tap := x.tap }
def warmPwr (x : Pwr) : Pwr :=
  { cause := x.cause, wakeTimer := x.wakeTimer, imageBase := x.imageBase, imageSet := x.imageSet, d3wait := x.d3wait
    gpioDir := x.gpioDir, gpioOut := x.gpioOut, gpioPull := x.gpioPull, pulses := x.pulses, tempLogic := x.tempLogic
    tempDram := x.tempDram, tempHu := x.tempHu, dramHot := x.dramHot, trip := x.trip }
/-- A warm reset (R449), its drain over. -/
def warmReset (s : State) (k : ResetKind) : State :=
  let s : State :=
    { dev := { tick := s.dev.tick }
      mem := { dram := s.mem.dram, poison := s.mem.poison, host := s.mem.host, hostFaults := s.mem.hostFaults }
      hp := { s.hp with funcs := tmap {} warmFunc s.hp.funcs, routes := [], held := [] }
      evt := warmEvt s.evt, sched := warmSched s.sched s.cls.clauses
      mv := { map := s.mv.map, window := s.mv.window, nextId := s.mv.nextId, profiles := s.mv.profiles
              arbs := tmap {} (fun a : Arb => { hold := a.hold, starve := a.starve, map := a.map }) s.mv.arbs }
      ce := { slots := tmap {} (fun x : Slot => { rsov := x.rsov, dzt := x.dzt }) s.ce.slots }
      lk := { quads := tmap {} warmQuad s.lk.quads, flowBase := s.lk.flowBase, flowSize := s.lk.flowSize, flowEn := s.lk.flowEn
              nextOp := s.lk.nextOp }
      tw := warmTwin s.tw, nv := s.nv, sec := warmSec s.sec
      flt := { cpFaultLast := s.cp.faulted, retired := repairRows s, repairOut := s.flt.repairOut }
      pwr := warmPwr s.pwr, hu := s.hu
      rst := { kind := k, drained := s.rst.drained, warm := satInc s.rst.warm, heldAdm := s.rst.heldAdm }
      pins := s.pins, free := s.free, out := s.out, pending := s.pending }
  resetMaster s 0x00

/-! ### The boot, steps 2 to 5 (Table 15-4) -/

/-- buffer DRAM reads as zero -/
def wipeDram (s : State) : State :=
  { s with mem := { s.mem with dram := [], poison := [] }, rst := { s.rst with dramWiped := true } }
/-- one queued row: repaired, or left in service -/
def repairRow (s : State) (r : Retired) : State :=
  if Sys2Proof.Config.repairFits r.loc then s
  else pulse { s with flt := { s.flt with repairOut := true } } 296
/-- step 3 of a cold reset -/
def bootDram (s : State) : State :=
  if !(isCold s.rst.kind) then s
  else
    let rows := repairRows s
    let s := rows.foldl repairRow { s with flt := { s.flt with retired := [] } }
    if (lcRec s).wipeDram then wipeDram s else s
/-- the persistent store but for the lifecycle record, and buffer DRAM, are wiped (13 R413) -/
def wipeAll (s : State) : State :=
  wipeDram { s with nv := { lc0 := s.nv.lc0, lc1 := s.nv.lc1, lc2 := s.nv.lc2 } }
/-- step 4: the record is repaired, and a pending wipe run (R394, R400) -/
def bootRecord (s : State) : State :=
  let s := lcRepair s
  let s := { s with sec := { s.sec with lcInvalid := (lcCopy s).isNone } }
  if (lcRec s).wipePending then
    let s := wipeAll s
    lcWrite s { lcRec s with wipePending := false }
  else s
def saveInvalid : SaveArea → Bool
  | .invalid _ => true
  | _ => false
/-- n bytes that a debugger wrote in the store, zero where it wrote none -/
def rawBytes (s : State) (o n : Nat) : List Byte := (List.range n).map fun i => (tget none s.nv.raw (o + i)).getD 0
/-- the 8 KiB slot at an offset holds a valid copy (12 R387, R388) -/
def slotGood (s : State) (o : Nat) : Bool :=
  let h := rawBytes s o 32
  let n := ofLE (subBytes h 12 4)
  decide (n ≤ 8160) && ofLE (subBytes h 18 2) == 1 && ofLE (subBytes h 8 4) == (crc32c (rawBytes s (o + 12) (20 + n))).toNat
/-- the slots that this model's firmware keeps no record in, and that a debugger has written, by number in both banks -/
def rawSlots (s : State) : List Nat :=
  (s.nv.raw.filter fun e => decide (e.1 < 0x100000) && !([0, 1, 2, 4, 5].contains (e.1 % 0x80000 / 0x2000))).foldl
    (fun l e => linsert (e.1 / 0x2000) l) []
/-- those whose header is not all zero and that hold no valid copy -/
def badSlots (s : State) : Nat :=
  ((rawSlots s).filter fun n => (rawBytes s (0x2000 * n) 32).any (· != 0) && !(slotGood s (0x2000 * n))).length
/-- step 5: copies found invalid (12 R388) -/
def bootScan (s : State) : State :=
  let v := s.nv
  ignoreCopies (badSlots s + badCopies v.resv + badCopies v.twin + badCopies v.subsys + badCopies v.retire + badCopies v.board + badCopies v.keys
    + b2n (saveInvalid v.areaA) + b2n (saveInvalid v.areaB)) s
/-- the full-stop counter starts at LIMIT, and a new reservation is written (05 R125) -/
def bootReserve (s : State) : State :=
  let next := (bankUse s.nv.resv).getD 1
  let limit := next + 2 ^ 32
  { s with fs := { s.fs with next := next, limit := limit }, nv := { s.nv with resv := bankPut s.nv.resv limit } }
/-- the valid save with the higher sequence number, and its area -/
def newestSave (s : State) : Option (Nat × Save) :=
  match s.nv.areaA, s.nv.areaB with
  | .valid a, .valid b => if a.seq ≤ b.seq then some (1, b) else some (0, a)
  | .valid a, _ => some (0, a)
  | _, .valid b => some (1, b)
  | _, _ => none
def savePends (v : Save) : Bool := (!v.clauses.isEmpty || !v.lost.isEmpty) && v.cause != 0x10
/-- the newest save is invalid (05 R142, R149): the other area's is older, or there is none -/
def newestInvalid (x y : SaveArea) : Bool :=
  match x, y with
  | .invalid n, .valid v => decide (v.seq < n)
  | .invalid _, _ => true
  | _, _ => false
/-- the save found at boot (05 R142); the drain that wrote it is counted (12 Table 12-8) -/
def bootSave (s : State) : State :=
  let found := newestSave s
  let counts := s.rst.drained && found.isSome
  let bad := newestInvalid s.nv.areaA s.nv.areaB || newestInvalid s.nv.areaB s.nv.areaA
  { s with fs := { s.fs with pendingSave := found.filter fun v => savePends v.2, saveInvalid := bad }
           nv := { s.nv with drains := if counts then satInc s.nv.drains else s.nv.drains }
           rst := { s.rst with drained := counts && s.rst.kind != .powerOn } }
/-- steps 2 to 5 -/
def bootSteps (s : State) : State :=
  let s := bootReserve (bootScan (bootRecord (bootDram s)))
  let s := bootSave s
  let s := { s with flt := { s.flt with logSeq := s.nv.logSeq } }
  let s := logEvent s 0x06 0xFF 0 0 []
  let s := if s.tw.fenceIn then setTwinState s 6 else s
  { s with rst := { s.rst with booted := true } }
/-- The boot begins; RESET_N low, TESTMODE and a part that holds itself in reset stop it at step 1 (16 R474, R463). -/
def bootRun (s : State) : State := if s.pins.resetLow || s.pins.testHold || s.rst.held || s.rst.booted then s else bootSteps s

/-! ### Starting a reset (R446, R452) -/

def finishReset (s : State) (k : ResetKind) : State := bootRun (if isCold k then coldReset s k else warmReset s k)
/-- A reset of a kind that restarts the control processor: after a drain once firmware runs, at once during the boot. -/
def takeReset (s : State) (k : ResetKind) (cause : Byte) : State :=
  if s.rst.held then s
  else if s.pwr.drain.isSome || s.rst.fwReady then startDrain s cause (some k)
  else finishReset { s with rst := { s.rst with drained := s.rst.drained && !s.rst.booted } } k
/-- the logic side's power-on without its supplies removed, or after OFF -/
def powerOn (s : State) : State := finishReset s .powerOn
/-- the die returns the bus to HV_IN, and the logic side takes a power-on reset (16 R470) -/
def busReturns (s : State) : State := powerOn (setHu s { s.hu with gate := 1, failLine := false })
def mayReturn (s : State) : Bool := s.hu.on && s.hu.failLine && s.hu.gate == 2 && decide (hvOk s.hu ≤ s.hu.hv.toNat)
/-- The drain has written what it saves (12 Table 12-5 steps 3 to 6). -/
def drainDone (s : State) : State :=
  match s.pwr.drain with
  | none => s
  | some d =>
    let s := match d.save with | some v => putSave s v | none => s
    let n := match d.save with | some v => v.clauses.length | none => 0
    let l := match d.save with | some v => v.lost.length | none => 0
    let s := logFlush (logEvent s 0x05 0xFF 0 0 (d.cause :: toLE 4 n ++ toLE 2 l))
    let s := { s with pwr := { s.pwr with drain := none }, rst := { s.rst with drained := d.save.isSome } }
    if s.pwr.failed then
      (if mayReturn s then busReturns s else { s with rst := { s.rst with held := true } })
    else match d.reset with
      | some k => finishReset s k
      | none => s

/-! ### The boot image (13 R404, R405) -/

/-- the result of one slot's check, in the order of R404 -/
def imageResult (s : State) (i : Image) : BitVec 3 :=
  let n := i.length.toNat
  if i.readError then 6
  else if i.magic != 0x4B5A3731 || i.format != 1 || decide (1 < i.flags.toNat) || !i.zeros || decide (n % 4 ≠ 0) || decide (n < 4)
      || decide (524288 < n) || decide (i.entry.toNat % 4 ≠ 0) || decide (n ≤ i.entry.toNat) || decide (i.payload.length ≠ n) then 1
  else if !i.keyOk then 2
  else if !i.sigOk then 3
  else if i.svn.toNat < (lcRec s).minSvn.toNat then 5
  else if !i.hashOk then 4 else 0
/-- slot B is the one that boots -/
def picksB (ra rb : BitVec 3) (a b : Image) : Bool := rb == 0 && (ra != 0 || decide (a.seq.toNat ≤ b.seq.toNat))
/-- the ROM serves the admin queues itself (R406) -/
def romServes (s : State) : State := { s with rst := { s.rst with rom := true } }
/-- the key vault is unsealed, and the image in TCM starts -/
def startImage (s : State) (i : Image) : State :=
  let s := unsealKeys s
  { s with mem := { s.mem with tcm := putBytes [] 0 i.payload }, cp := { regs := { pc := i.entry }, running := true } }
/-- steps 6 and 7; the ROM stays if no slot is valid -/
def bootImage (s : State) (a b : Image) : State :=
  if s.sec.lcInvalid || lcState s == 4 then romServes { s with sec := { s.sec with resA := 7, resB := 7 } }
  else
    let ra := imageResult s a
    let rb := imageResult s b
    let s := { s with sec := { s.sec with resA := ra, resB := rb } }
    if ra != 0 && rb != 0 then romServes s
    else
      let useB := picksB ra rb a b
      let i := if useB then b else a
      let back := ra != 0 || rb != 0
      let s := { s with sec := { s.sec with slotB := useB, fallback := back } }
      let s := if back then pulse s 357 else s
      let s := if i.flags.getLsbD 0 && decide ((lcRec s).minSvn.toNat < i.svn.toNat) then lcWrite s { lcRec s with minSvn := i.svn } else s
      startImage s i

/-! ### Step 8: firmware (R455, R492) -/

/-- the sources enabled by firmware -/
def bootSources : List Nat :=
  (List.range 27).map (· + 64) ++ [93] ++ (List.range 12).map (· + 256) ++ (List.range 15).map (· + 288) ++ [328]
def fwInterrupts (s : State) : State :=
  icEval { s with evt := { s.evt with icEn := bootSources.foldl (fun v n => setBit v n true) s.evt.icEn
                                      icCls := bootSources.foldl (fun v n => setBit v n false) s.evt.icCls } }
/-- the starvation limits of the DRAM channels -/
def fwArbiters (s : State) : State :=
  (List.range 8).foldl (fun s a => setArb s a { getArb s a with starve := 40 }) s
/-- board values of the hold-up fields -/
def fwBoard (s : State) : State :=
  match bankUse s.nv.board with
  | some r => evalHoldup (setHu s { s.hu with cfg0 := r.cfg0, cfg1 := r.cfg1, cfg2 := r.cfg2, need := r.need })
  | none => s
/-- the twin record -/
def fwTwin (s : State) : State :=
  match bankUse s.nv.twin with
  | some r =>
    { s with tw := { s.tw with ownLow := r.ownLow, ownHigh := r.ownHigh, timeout := r.timeout, fenceMode := r.fenceMode
                               autoFence := r.autoFence, key := r.key, split := r.split, storeBase := r.storeBase, ctmBase := r.ctmBase
                               qmap := r.qmap, peerSerial := r.peerSerial, tookOver := r.tookOver, mark := r.mark, peerCtm := r.peerCtm } }
  | none => { s with tw := { s.tw with ownLow := !s.tw.id, ownHigh := s.tw.id } }
/-- each recorded retirement again -/
def fwRetirements (s : State) : State :=
  ((bankUse s.nv.retire).getD []).foldl (fun s r => retireBy s r.code r.unit r.loc) s
/-- admin-register writes held until now, in register order (R492) -/
def heldWrite (s : State) (r : Nat) (e : Nat × Nat × Word) : State :=
  if e.2.1 != r then s
  else
    let m : Master := BitVec.ofNat 8 e.1
    match r with
    | 0 => hfSqLo s m e.2.2
    | 1 => hfSqHi s m e.2.2
    | 2 => hfRqLo s m e.2.2
    | 3 => hfRqHi s m e.2.2
    | _ => hfCfg s m e.2.2
def applyHeldAdm (s : State) : State :=
  let l := s.rst.heldAdm
  let s := { s with rst := { s.rst with heldAdm := [] } }
  (List.range 5).foldl (fun s r => l.foldl (fun s e => heldWrite s r e) s) s
/-- step 8 -/
def firmwareStarts (s : State) : State :=
  let s := fwRetirements (fwTwin (fwBoard (fwArbiters (fwInterrupts s))))
  let s := if s.flt.cpFaultLast then pulse s 298 else s
  let s := { s with rst := { s.rst with wdog := 100, fwReady := true } }
  applyHeld (quadsStart (applyHeldAdm s))

/-! ### Function resets (R450) -/

/-- a host-memory effect of a clause of these functions, not yet issued, is dropped -/
def dropsEffect (fs : List Master) (c : NClause) (e : Effect) : Bool :=
  fs.contains c.hostFn && e.state == .pending && (match e.body with | .host _ => true | .status _ => true | _ => false)
def dropEffects (s : State) (fs : List Master) : State :=
  let n := (s.fs.window.map fun c => (c.effects.filter (dropsEffect fs c)).length).sum
  let s := { s with rst := { s.rst with flrDropped := BitVec.ofNat 32 (min (s.rst.flrDropped.toNat + n) (2 ^ 32 - 1)) } }
  let w := s.fs.window.map fun c => { c with effects := c.effects.map fun e => if dropsEffect fs c e then { e with state := .done } else e }
  let s := { s with fs := { s.fs with window := w } }
  finishReissue ((w.map (·.number)).foldl clauseReleased s)
/-- one pronoun of a function that is reset -/
def flrPron (s : State) (n : Nat) : State :=
  resetPron (modP s n fun p => { p with unbinding := true }) n
/-- one function's own registers, queues and routes -/
def flrFunc (s : State) (m : Master) : State :=
  let f := getFunc s m
  let s := setFunc s m { prnFirst := f.prnFirst, prnCount := f.prnCount, sqFirst := f.sqFirst, sqCount := f.sqCount }
  let s := { s with hp := { s.hp with routes := s.hp.routes.filter fun r => r.2.1 != m, held := s.hp.held.filter fun h => h.fn != m }
                    rst := { s.rst with heldAdm := s.rst.heldAdm.filter fun e => e.1 != m.toNat } }
  resetMaster s m
/-- the event of a Function Level Reset -/
def flrSource (m : Master) : Nat := if m == 0x40 then 322 else if m == 0x41 then 323 else 324
/-- A Function Level Reset of a function, with its VFs when it is a PF. -/
def flr (s : State) (m : Master) : State :=
  let fs := familyOf m
  let s := { s with hp := { s.hp with sqs := s.hp.sqs.filter fun q => !(fs.contains q.2.owner) } }
  let ns := (s.sched.recs.filter fun e => isBound e.2 && fs.contains e.2.hostFn).map (·.1)
  let s := ns.foldl flrPron s
  fs.foldl flrFunc (dropEffects s fs)
/-- a host link goes down; leaving L0 for Detect is its source (10 Table 10-1) -/
def linkFalls (s : State) (b : Bool) : State :=
  let l := if b then s.hp.linkB else s.hp.linkA
  if l.rate == 0 then s
  else
    let s := if b then { s with hp := { s.hp with linkB := linkOff l } } else { s with hp := { s.hp with linkA := linkOff l } }
    pulse s (if b then 326 else 325)

/-! ### Engine reset (R451) -/

/-- its slots' state, instruction cache and local memory are cleared -/
def clearEngine (s : State) (e : Nat) : State :=
  let mine (k : Nat) : Bool := decide (16 * e ≤ k) && decide (k < 16 * e + 16)
  { s with ce := { s.ce with slots := tmap {} id (s.ce.slots.map fun x => if mine x.1 then (x.1, { rsov := x.2.rsov, dzt := x.2.dzt }) else x)
                             icache := tset [] e [] s.ce.icache, last := tset 15 e 15 s.ce.last }
           mem := { s.mem with loc := s.mem.loc.filter fun b => !(decide (0x20000 * e ≤ b.1) && decide (b.1 < 0x20000 * e + 0x20000)) } }
def engineReset (s : State) (e : Nat) : State :=
  let ns := (List.range 16).filterMap fun i => (getSlot s (16 * e + i)).prn
  let s := clearEngine (ns.foldl resetPron s) e
  resetMaster s (BitVec.ofNat 8 (0x10 + e))

end Sys2Proof.Machine
end

