-- ==== Sys2Proof/Machine/Signature.lean ====
section
/-!
DEFINITION. SHA-384 (FIPS 180-4), ECDSA verification on P-384 (FIPS 186-5) and P-384 ECDH (SP 800-56A), as 13 R397
and R410 name them. Byte strings keep the standards' order, first byte highest.
-/

namespace Sys2Proof.Machine

/-! ### SHA-384 -/

/-- the first 80 primes -/
def sha512Primes : List Nat :=
  sha256Primes ++ [313, 317, 331, 337, 347, 349, 353, 359, 367, 373, 379, 383, 389, 397, 401, 409]
/-- first 64 bits of the fraction of the square root of the ninth to sixteenth prime -/
def sha384H0 : List Dword :=
  ((sha512Primes.drop 8).take 8).map fun p => BitVec.ofNat 64 (isqrtFuel 70 (p * 2 ^ 128) 0)
/-- first 64 bits of the fraction of the cube root -/
def sha512K : List Dword := sha512Primes.map fun p => BitVec.ofNat 64 (icbrtFuel 70 (p * 2 ^ 192) 0)
def ror64 (x : Dword) (n : Nat) : Dword := x.rotateRight n
/-- message schedule, newest word first -/
def sha512Schedule : Nat → List Dword → List Dword
  | 0, ws => ws
  | n + 1, ws =>
    let w15 := ws.getD 14 0; let w2 := ws.getD 1 0
    let s0 := ror64 w15 1 ^^^ ror64 w15 8 ^^^ (w15 >>> 7)
    let s1 := ror64 w2 19 ^^^ ror64 w2 61 ^^^ (w2 >>> 6)
    sha512Schedule n ((ws.getD 15 0 + s0 + ws.getD 6 0 + s1) :: ws)
def sha512Round (st : List Dword) (kw : Dword × Dword) : List Dword :=
  let a := st.getD 0 0; let b := st.getD 1 0; let c := st.getD 2 0; let d := st.getD 3 0
  let e := st.getD 4 0; let f := st.getD 5 0; let g := st.getD 6 0; let h := st.getD 7 0
  let t1 := h + (ror64 e 14 ^^^ ror64 e 18 ^^^ ror64 e 41) + ((e &&& f) ^^^ (~~~e &&& g)) + kw.1 + kw.2
  let t2 := (ror64 a 28 ^^^ ror64 a 34 ^^^ ror64 a 39) + ((a &&& b) ^^^ (a &&& c) ^^^ (b &&& c))
  [t1 + t2, a, b, c, d + t1, e, f, g]
def sha512Block (h : List Dword) (blk : List Byte) : List Dword :=
  let w0 := (chunksOf 8 blk).map fun x => BitVec.ofNat 64 (ofBE x)
  let ws := (sha512Schedule 64 w0.reverse).reverse
  List.zipWith (· + ·) h ((List.zip sha512K ws).foldl sha512Round h)
/-- SHA-384 digest as a number, its first byte highest. -/
def sha384 (m : List Byte) : Nat :=
  let z := (239 - m.length % 128) % 128
  let p := m ++ [0x80] ++ List.replicate z 0#8 ++ toBE 16 (8 * m.length)
  ofBE ((((chunksOf 128 p).foldl sha512Block sha384H0).take 6).map fun w => toBE 8 w.toNat).flatten

/-! ### P-384 -/

def p384P : Nat := 2 ^ 384 - 2 ^ 128 - 2 ^ 96 + 2 ^ 32 - 1
def p384N : Nat := 0xffffffffffffffffffffffffffffffffffffffffffffffffc7634d81f4372ddf581a0db248b0a77aecec196accc52973
def p384B : Nat := 0xb3312fa7e23ee7e4988e056be3f82d19181d9c6efe8141120314088f5013875ac656398d8a2ed19d2a85c8edd3ec2aef
def p384G : Nat × Nat :=
  (0xaa87ca22be8b05378eb1c71ef320ad746e1d3b628ba79b9859f741e082542a385502f25dbf55296c3a545e3872760ab7,
   0x3617de4a96262c6f5d9e98bf9292dc29f8f41dbd289a147ce9da3113b5f0b8c00a60b1ce1d7e819d7a431d7c90ea0e5f)
/-- b to the power e modulo m, over the low k bits of e, highest first -/
def powMod (m b e : Nat) : Nat → Nat → Nat
  | 0, r => r
  | k + 1, r => powMod m b e k (if (e / 2 ^ k) % 2 = 1 then (r * r % m) * b % m else r * r % m)
/-- inverse modulo a prime -/
def invMod (m a : Nat) : Nat := powMod m (a % m) (m - 2) 384 1
/-- a point of the curve; none is the point at infinity -/
abbrev Point := Option (Nat × Nat)
def subMod (m a b : Nat) : Nat := (a + (m - b % m)) % m
/-- the third intersection of a line of slope l, mirrored -/
def chord (l : Nat) (a b : Nat × Nat) : Point :=
  let x := subMod p384P (subMod p384P (l * l) a.1) b.1
  some (x, subMod p384P (l * subMod p384P a.1 x) a.2)
def pointAdd (a b : Point) : Point :=
  match a, b with
  | none, q => q
  | p, none => p
  | some p, some q =>
    if p.1 = q.1 then
      if (p.2 + q.2) % p384P = 0 then none
      else chord (subMod p384P (3 * p.1 * p.1) 3 * invMod p384P (2 * p.2) % p384P) p q
    else chord (subMod p384P q.2 p.2 * invMod p384P (subMod p384P q.1 p.1) % p384P) p q
/-- k times a point, over the low n bits of k, highest first -/
def pointMul (k : Nat) (p : Point) : Nat → Point → Point
  | 0, r => r
  | n + 1, r =>
    let d := pointAdd r r
    pointMul k p n (if (k / 2 ^ n) % 2 = 1 then pointAdd d p else d)
/-- a public key of 96 bytes, X then Y; none unless it is a point of the curve -/
def pointOf (l : List Byte) : Point :=
  let x := ofBE (l.take 48)
  let y := ofBE (l.drop 48)
  if x < p384P ∧ y < p384P ∧ y * y % p384P = subMod p384P (x * x * x + p384B) (3 * x) then some (x, y) else none
/-- An ECDSA signature r then s over a message whose SHA-384 is h verifies under a 96-byte public key. -/
def ecdsaVerify (pub sig msg : List Byte) : Bool :=
  let r := ofBE (sig.take 48)
  let s := ofBE (sig.drop 48)
  match pointOf pub with
  | none => false
  | some q =>
    if r = 0 ∨ s = 0 ∨ p384N ≤ r ∨ p384N ≤ s then false
    else
      let w := invMod p384N s
      match pointAdd (pointMul (sha384 msg * w % p384N) (some p384G) 384 none) (pointMul (r * w % p384N) (some q) 384 none) with
      | none => false
      | some v => v.1 % p384N == r
/-- The shared X coordinate of P-384 ECDH; none for an invalid public key. -/
def ecdhX (priv : Nat) (pub : List Byte) : Option Nat := (pointMul priv (pointOf pub) 384 none).map (·.1)
/-- a private key's public half, X then Y in standard order -/
def pubOf (priv : Nat) : List Byte :=
  match pointMul priv (some p384G) 384 none with
  | some q => toBE 48 q.1 ++ toBE 48 q.2
  | none => List.replicate 96 0

end Sys2Proof.Machine
end

