-- ==== Sys2Proof/Machine/Security.lean ====
section
/-!
DEFINITION. Lifecycle transitions, key imports and erasures, the debug port (13 R396 to R422): the shared operations.
-/

namespace Sys2Proof.Machine

/-! ### Answers of admin commands (09 R288, R290) -/

/-- What an admin command answers: done with its RESULT, its reply held, or refused. -/
inductive Ans where
  | done (s : State) (result : BitVec 192)
  | held (s : State)
  | no (s : State) (status : Half) (field : Byte) (result : BitVec 192)
deriving DecidableEq, Repr

def stInvalidOp : Half := 1
def stField : Half := 2
def stDenied : Half := 3
def stNotFound : Half := 4
def stState : Half := 5
def stBinding : Half := 6
def stResource : Half := 7
def stHost : Half := 8
def stFenced : Half := 9
def refuse (s : State) (st : Half) : Ans := .no s st 0 0
def badField (s : State) (f : Byte) : Ans := .no s stField f 0
/-- a host buffer of the issuing function, or HOST_ERROR with DETAIL (R290) -/
def hostRead (s : State) (a n : Nat) : Except Byte (List Byte) :=
  match hostFault s a n with
  | some d => .error d
  | none => .ok (getBytes s.mem.host a n)
def hostError (s : State) (d : Byte) : Ans := .no s stHost 0 (d.setWidth 192)

/-! ### Authentication failures (R402) -/

def authFail (s : State) : State :=
  let s := pulse { s with sec := { s.sec with fails := if s.sec.fails.toNat < 16 then s.sec.fails + 1 else s.sec.fails } } 353
  if s.sec.fails == 16 && !s.sec.lockout then pulse { s with sec := { s.sec with lockout := true } } 354 else s
/-- a nonce drawn for the host, replacing any current one (R423) -/
def newNonce (s : State) : State :=
  { s with free := s.free + 1, sec := { s.sec with nonce := some (Sys2Proof.Config.drbg s.free) } }
def dropNonce (s : State) : State := { s with sec := { s.sec with nonce := none } }

/-! ### Lifecycle transitions (R396 to R401) -/

/-- the package's fields (Table 13-4) -/
def pkTarget (l : List Byte) : Nat := byteAt l 2
def pkOwner (l : List Byte) : List Byte := subBytes l 48 96
def pkBoot (l : List Byte) : BitVec 384 := BitVec.ofNat 384 (ofBE (subBytes l 144 48))
def pkDebug (l : List Byte) : BitVec 384 := BitVec.ofNat 384 (ofBE (subBytes l 192 48))
/-- bytes of the package that must be zero -/
def pkZero (i : Nat) (target : Nat) : Bool :=
  (decide (4 ≤ i) && decide (i < 8)) || (target != 2 && (i == 3 || (decide (144 ≤ i) && decide (i < 240))))
/-- the first byte of the package in error: FORMAT, TARGET or a zero field -/
def pkBad (l : List Byte) (target : Nat) : Option Nat :=
  (List.range 240).find? fun i =>
    (i == 0 && ofLE (subBytes l 0 2) != 1) || (i == 2 && pkTarget l != target) || (i == 3 && 1 < byteAt l 3) || (pkZero i target && byteAt l i != 0)
/-- FIELD_OFFSET of a package byte -/
def pkOffset (i : Nat) : Byte := if i < 128 then BitVec.ofNat 8 (0x80 + i) else 24
/-- the transitions of Table 13-3 -/
def lcAllowed (from_ goal : Nat) : Bool :=
  (from_ == 1 && (goal == 2 || goal == 4)) || (from_ == 2 && (goal == 3 || goal == 4)) || (from_ == 3 && (goal == 2 || goal == 4))
/-- states that refuse a target other than RETIRED (R398) -/
def lcBusy (s : State) : Bool := (s.sched.recs.any fun e => isBound e.2) || s.tw.state != 0 || s.fs.pendingSave.isSome
/-- the package's authorisation: 0 good, 1 denied, 2 denied and counted -/
def pkAuth (s : State) (l : List Byte) : Nat :=
  let r := lcRec s
  if s.sec.lockout then 1
  else if ofLE (subBytes l 8 8) ≠ r.serial.toNat then 1
  else if s.sec.nonce != some (BitVec.ofNat 256 (ofLE (subBytes l 16 32))) then 2
  else if r.state != 1 && sha384 (pkOwner l) != r.ownerHash.toNat then 1
  else if !(ecdsaVerify (pkOwner l) (subBytes l 240 96) (l.take 240)) then 2 else 0
/-- the record with the fields a transition sets -/
def lcNext (r : LcRec) (goal : Nat) (l : List Byte) : LcRec :=
  let r := { r with transitions := satInc r.transitions }
  let policy := byteAt l 3 % 2
  match r.state.toNat, goal with
  | 1, 2 => { r with state := 2, ownerHash := BitVec.ofNat 384 (sha384 (pkOwner l)), bootHash := pkBoot l, debugHash := pkDebug l
                     minSvn := 0, wipeDram := policy == 0 }
  | 2, 3 => { r with state := 3 }
  | 3, 2 =>
    let changes := pkBoot l != 0 && pkBoot l != r.bootHash
    { r with state := 2, bootHash := if pkBoot l = 0 then r.bootHash else pkBoot l
             debugHash := if pkDebug l = 0 then r.debugHash else pkDebug l
             minSvn := if changes then 0 else r.minSvn, wipeDram := policy == 0 }
  | _, _ => { r with state := 4, wipeDram := true }
/-- The transition, its reply written (R399): the record, the wipe, the record again, and the boot. -/
def transition (s : State) (r : LcRec) : State :=
  let s := shedHost (shed (dropNonce s))
  let s := pulse (lcWrite s { r with wipePending := true }) 355
  let old := s
  let s := coldReset s .lifecycle
  let s := { s with dev := { s.dev with tick := old.dev.tick }, tw := { s.tw with fenceOut := old.tw.fenceOut }, rst := { s.rst with drained := false }
                    sec := { s.sec with lockout := old.sec.lockout, fails := old.sec.fails, unsealOff := old.sec.unsealOff } }
  let s := wipeAll s
  bootRun (lcWrite s { lcRec s with wipePending := false })
/-- LIFECYCLE_REQUEST's checks (R398): the refusal, or the record to write. -/
def lcCheck (s : State) (goal len : Nat) (iova : Nat) : Ans × Option LcRec :=
  let st := lcState s
  let blankOut := st == 1 && goal == 4
  if !(len == 336 || (len == 0 && blankOut)) then (badField s 24, none)
  else match (if len = 0 then .ok [] else hostRead s iova 336) with
    | .error d => (hostError s d, none)
    | .ok l =>
      match (if len = 0 then none else pkBad l goal) with
      | some i => (badField s (pkOffset i), none)
      | none =>
        let a := if len = 0 then b2n s.sec.lockout else pkAuth s l
        if a = 1 then (refuse s stDenied, none)
        else if a = 2 then (refuse (authFail (dropNonce s)) stDenied, none)
        else if !(lcAllowed st goal) || (goal != 4 && lcBusy s) then (refuse s stState, none)
        else (.done s 0, some (lcNext (lcRec s) goal l))

/-! ### Keys (R407 to R412) -/

/-- what a bank write carries: the vault, over the stored keys while unsealing is off (R420) -/
def bankList (s : State) : List (Nat × VKey) :=
  if s.sec.unsealOff then s.sec.vault.foldl (fun l e => aset e.1 e.2 l) ((bankUse s.nv.keys).getD []) else s.sec.vault
/-- a bank write begins -/
def startBank (s : State) (l : List (Nat × VKey)) : State := { s with sec := { s.sec with bankDue := some l } }
/-- counters whose reservation must be raised (R412) -/
def resvDue (k : VKey) : Bool := decide (k.reserved ≤ k.count + 2 ^ 19)
def raiseResv (l : List (Nat × VKey)) : List (Nat × VKey) :=
  l.map fun e => if resvDue e.2 then (e.1, { e.2 with reserved := e.2.count + 2 ^ 20 }) else e
/-- The bank is complete: its reservations are in force (R412), and replies that waited for it follow (R409). -/
def bankWritten (s : State) : State :=
  match s.sec.bankDue with
  | none => s
  | some l =>
    let s := writeBank { s with sec := { s.sec with bankDue := none } } l
    let vault := s.sec.vault.map fun e => match aget l e.1 with
      | some k => (e.1, { e.2 with reserved := k.reserved })
      | none => e
    finishHeld { s with sec := { s.sec with vault := vault } } .keyBank 0 0
def useBad (u : Nat) : Bool := decide (7 < u) || (decide (4 ≤ u) && u != 4)
/-- the first byte of a blob in error (R410) -/
def blobBad (l : List Byte) (form : Nat) (blank : Bool) : Option Nat :=
  (List.range l.length).find? fun i =>
    (i == 1 && byteAt l 1 != 0) || (i == 2 && useBad (ofLE (subBytes l 2 2))) || ((i == 6 || i == 7) && byteAt l i != 0)
      || (form == 2 && (i == 4 || i == 5) && byteAt l i != 0) || (form == 2 && blank && decide (164 ≤ i) && byteAt l i != 0)
def serialBytes (s : State) : List Byte := toLE 8 (lcRec s).serial.toNat
/-- the unwrap under a key (R410) -/
def unwrap (s : State) (l : List Byte) (k : BitVec 256) : Option (BitVec 256) :=
  let iv := subBytes l 8 12
  let c := subBytes l 20 32
  if gcmTag k iv (l.take 8 ++ serialBytes s) c == subBytes l 52 16 then some (BitVec.ofNat 256 (ofLE (gcmCrypt k iv c))) else none
/-- the owner's authorisation of a FORM 0x02 blob -/
def ownerAuth (s : State) (l : List Byte) : Bool :=
  lcState s == 1 || (sha384 (subBytes l 164 96) == (lcRec s).ownerHash.toNat && ecdsaVerify (subBytes l 164 96) (subBytes l 260 96) (l.take 260))
/-- the wrapping key of a FORM 0x02 blob -/
def wrapKey (s : State) (l : List Byte) : Option (BitVec 256) :=
  (ecdhX Sys2Proof.Config.identityKey (subBytes l 68 96)).map fun z =>
    BitVec.ofNat 256 (ofLE ((toBE 48 (sha384 (toBE 48 z ++ serialBytes s))).take 32))
def kekOf (s : State) (i : Nat) : Option (BitVec 256) := ((getKey s i).filter fun k => k.use.getLsbD 2).map (·.key)
/-- the key a blob carries, none where its tag or signature fails -/
def blobKey (s : State) (l : List Byte) (form : Nat) : Option (BitVec 256) :=
  if form = 1 then (kekOf s (ofLE (subBytes l 4 2))).bind (unwrap s l)
  else if ownerAuth s l then (wrapKey s l).bind (unwrap s l) else none
/-- the imported entry enters the vault, and a bank write begins; its reply waits (R409, R410) -/
def importKey (s : State) (i : Nat) (use : Half) (k : BitVec 256) : State :=
  let s := { s with sec := { s.sec with vault := aset i { use := use, key := k, count := 0, reserved := 0 } s.sec.vault } }
  pulse (startBank s (bankList s)) 358
/-- KEY_IMPORT (R410) -/
def keyImport (s : State) (i len iova : Nat) : Ans :=
  if 4096 ≤ i then badField s 8
  else if len ≠ 68 ∧ len ≠ 356 then badField s 24
  else match hostRead s iova len with
    | .error d => hostError s d
    | .ok l =>
      let form := byteAt l 0
      if form ≠ 1 ∧ form ≠ 2 then badField s 0x80
      else if (form = 1) ≠ (len = 68) then badField s 24
      else match blobBad l form (lcState s == 1) with
        | some b => badField s (pkOffset b)
        | none =>
          if form = 1 ∧ (kekOf s (ofLE (subBytes l 4 2))).isNone then refuse s stNotFound
          else if (getKey s i).isSome || lcState s == 4 then refuse s stState
          else if s.sec.lockout then refuse s stDenied
          else match blobKey s l form with
            | none => refuse (authFail s) stDenied
            | some k => .held (importKey s i (BitVec.ofNat 16 (ofLE (subBytes l 2 2))) k)
/-- a profile in use, or the pairing, names the key (R411) -/
def keyNamed (s : State) (i : Nat) : Bool :=
  (s.mv.profiles.any fun e => pfEnable e.2 && ((usesKey e.2 && pfKey e.2 == i) || (usesKey2 e.2 && pfKey2 e.2 == i)))
    || (s.tw.state != 0 && s.tw.key.toNat == i)
/-- KEY_ERASE (R411) -/
def keyErase (s : State) (i : Nat) : Ans :=
  if 4096 ≤ i then badField s 8
  else if keyNamed s i then refuse s stState
  else
    let l := adel i (bankList s)
    .held (pulse (startBank (emptyKey s i) l) 358)
/-- KEY_INFO (09 Table 9-11) -/
def keyInfo (s : State) (i : Nat) : Ans :=
  if 4096 ≤ i then badField s 8
  else match getKey s i with
    | some k => .done s (BitVec.ofNat 192 (1 + 2 ^ 64 * k.count))
    | none => .done s 0

/-! ### Debug levels (R417 to R420) -/

/-- the level changes: an event, and a reset of master 0xF0 when it returns to CLOSED; entry to OPEN empties the vault -/
def setLevel (s : State) (n : BitVec 2) : State :=
  if s.sec.level == n then s
  else
    let s := pulse { s with sec := { s.sec with level := n } } 352
    let s := if n == 2 then { s with sec := { s.sec with vault := [], unsealOff := true } } else s
    if n == 0 then resetMaster s 0xF0 else s
/-- levels a lifecycle state reaches (Table 13-1) -/
def levelReach (st level : Nat) : Bool := level == 1 || (level == 2 && (st == 1 || st == 3))
/-- a response of the debug mailbox -/
def answer (s : State) (status : Byte) (data : List Byte) : State := { s with sec := { s.sec with mbxStatus := status, mbxData := data } }
/-- the part is powered -/
def powered (s : State) : Bool := !s.rst.held
/-- the debug mailbox is selected and answers -/
def mailboxOn (s : State) : Bool := powered s && s.sec.tap.ir == 0x10
def lowPower (s : State) : Bool := s.pwr.sleep == .standby || s.pwr.sleep == .deep
/-- STATUS (Table 13-11) -/
def dbgStatusBytes (s : State) : List Byte :=
  [BitVec.ofNat 8 (lcState s), s.sec.level.setWidth 8, s.sec.fails.setWidth 8, BitVec.ofNat 8 (b2n s.sec.lockout + 2 * b2n s.sec.unsealOff), 0, 0, 0, 0]
    ++ serialBytes s
/-- the 48 bytes of a CHALLENGE response -/
def chalBytes (s : State) (nonce : BitVec 256) (level : Byte) : List Byte :=
  serialBytes s ++ toLE 32 nonce.toNat ++ [level, BitVec.ofNat 8 (lcState s), 0, 0, 0, 0, 0, 0]
/-- CHALLENGE (R418) -/
def challengeOp (s : State) (level : Byte) : State :=
  if lowPower s then answer s 0x04 []
  else if level != 1 && level != 2 then answer s 0x07 []
  else if !(levelReach (lcState s) level.toNat) then answer s 0x02 []
  else
    let n := Sys2Proof.Config.drbg s.free
    let s := { s with free := s.free + 1, sec := { s.sec with chal := some (n, level) } }
    answer s 0 (chalBytes s n level)
/-- UNLOCK's key and signature verify over the challenge -/
def unlockGood (s : State) (key sig : List Byte) (n : BitVec 256) (level : Byte) : Bool :=
  sha384 key == (lcRec s).debugHash.toNat && ecdsaVerify key sig (chalBytes s n level)
/-- UNLOCK (R418) -/
def unlockDbg (s : State) (key sig : List Byte) : State :=
  let st := lcState s
  let auth := st == 2 || st == 3
  if lowPower s then answer s 0x04 []
  else if auth && s.sec.lockout then answer s 0x06 []
  else match s.sec.chal with
    | none => answer s 0x08 []
    | some (n, level) =>
      let s := { s with sec := { s.sec with chal := none } }
      if auth && !(unlockGood s key sig n level) then answer (authFail s) 0x03 []
      else answer (setLevel s (level.setWidth 2)) 0 [level]
/-- RELOCK (R419) -/
def relockOp (s : State) (level : Byte) : State :=
  if level.toNat < s.sec.level.toNat then answer (setLevel s (level.setWidth 2)) 0 [level] else answer s 0x07 []

/-! ### The TAP (R415) -/

def setTap (s : State) (t : Tap) : State := { s with sec := { s.sec with tap := t } }
/-- EXTEST, CLAMP and HIGHZ act -/
def boundaryOpen (s : State) : Bool := lcState s == 1 || lcState s == 4 || (lcState s == 3 && s.sec.level == 2)
def selectIr (s : State) (ir : Byte) : State := setTap s { s.sec.tap with ir := ir, drives := false, hiz := false }
/-- an instruction of the boundary, or BYPASS -/
def boundaryIr (s : State) (ir : Byte) : State :=
  if boundaryOpen s then setTap s { s.sec.tap with ir := ir, drives := ir != 0x04, hiz := ir == 0x04 } else selectIr s 0xFF
/-- the identification code: 0xs712_8097 -/
def idCode : Word := Sys2Proof.Config.stepping ++ (0x7128097 : BitVec 28)

/-! ### Memory through the debug port (R417) -/

/-- a banked header of R387 -/
def bankHead (seq slot len : Nat) (body : List Byte) : List Byte :=
  let tail := toLE 4 len ++ toLE 2 slot ++ toLE 2 1 ++ List.replicate 12 0
  toLE 8 seq ++ toLE 4 (crc32c (tail ++ body)).toNat ++ tail
/-- the 192-byte body of Table 13-2 -/
def lcBody (r : LcRec) : List Byte :=
  [r.state, BitVec.ofNat 8 (b2n r.wipePending + 2 * b2n r.wipeDram)] ++ toLE 2 r.transitions.toNat ++ toLE 4 r.minSvn.toNat
    ++ toLE 8 r.serial.toNat ++ toBE 48 r.ownerHash.toNat ++ toBE 48 r.bootHash.toNat ++ toBE 48 r.debugHash.toNat ++ List.replicate 32 0
/-- the bytes of a lifecycle copy, none for one that is not valid -/
def lcCopyBytes : Copy LcRec → Option (List Byte)
  | .valid n r => some (bankHead n 0xFFFE 192 (lcBody r) ++ lcBody r)
  | _ => none
/-- byte of a save area by offset, none where it is not valid -/
def areaByte (a : SaveArea) (o : Nat) : Option Byte :=
  match a with
  | .valid v =>
    let b := saveBytes v
    some (if o < 0x2080 then b.1.getD o 0 else if o < 0x400000 then b.2.1.getD (o - 0x2080) 0 else b.2.2.getD (o - 0x400000) 0)
  | .empty => some 0
  | .invalid _ => none
/-- a copy without its content -/
def copyMark {α : Type} : Copy α → Copy Unit
  | .empty => .empty
  | .invalid => .invalid
  | .valid n _ => .valid n ()
/-- the copy of a configuration slot in bank A or B; none for the slots this model's firmware keeps no record in -/
def slotCopy (s : State) (slot : Nat) (b : Bool) : Option (Copy Unit) :=
  let pick {α : Type} (r : Banked α) : Option (Copy Unit) := some (copyMark (if b then r.b else r.a))
  match slot with
  | 0 => pick s.nv.resv
  | 1 => pick s.nv.twin
  | 2 => pick s.nv.subsys
  | 4 => pick s.nv.retire
  | 5 => pick s.nv.board
  | _ => none
/-- byte k of a valid slot (R387): the header, but for the CRC and the LENGTH of a body whose layout is not given, and that body
are free values (log entry 20); a reservation record is 64 bytes -/
def slotByte (seq slot k : Nat) (free : Byte) : Byte :=
  if k < 8 then (toLE 8 seq).getD k 0
  else if k < 12 then free
  else if k < 16 then (if slot = 0 then (toLE 4 32).getD (k - 12) 0 else free)
  else if k < 18 then (toLE 2 slot).getD (k - 16) 0
  else if k < 32 then (if k = 18 then 1 else 0) else free
/-- a byte of the store -/
def storeAt (s : State) (o : Nat) : Byte :=
  let free := Sys2Proof.Config.storeByte o s.free
  let raw := tget none s.nv.raw o
  if o < 0x100000 then
    match slotCopy s (o % 0x80000 / 0x2000) (decide (0x80000 ≤ o)) with
    | some (.valid n _) => slotByte n (o % 0x80000 / 0x2000) (o % 0x2000) free
    | some .invalid => raw.getD free
    | _ => raw.getD 0
  else if 0x180000 ≤ o ∧ o < 0x18C000 then
    let c := if o < 0x184000 then s.nv.lc0 else if o < 0x188000 then s.nv.lc1 else s.nv.lc2
    (match lcCopyBytes c with | some l => l.getD (o % 0x4000) 0 | none => free)
  else if 0x200000 ≤ o ∧ o < 0xE00000 then
    (match s.nv.areaA with | .invalid _ => raw.getD free | a => (areaByte a (o - 0x200000)).getD free)
  else if 0xE00000 ≤ o ∧ o < 0x1A00000 then
    (match s.nv.areaB with | .invalid _ => raw.getD free | a => (areaByte a (o - 0xE00000)).getD free)
  else match raw with
    | some b => b
    | none => if 0x1A00000 ≤ o then (logRead s (64 * ((o - 0x1A00000) / 64)) 64).getD (o % 64) 0 else 0
/-- a configuration slot or save area that a debugger has written over is valid no longer -/
def spoilCopy {α : Type} (r : Banked α) (b : Bool) : Banked α := if b then { r with b := .invalid } else { r with a := .invalid }
def spoilStore (s : State) (o : Nat) : State :=
  if o < 0x100000 then
    let b := decide (0x80000 ≤ o)
    match o % 0x80000 / 0x2000 with
    | 0 => { s with nv := { s.nv with resv := spoilCopy s.nv.resv b } }
    | 1 => { s with nv := { s.nv with twin := spoilCopy s.nv.twin b } }
    | 2 => { s with nv := { s.nv with subsys := spoilCopy s.nv.subsys b } }
    | 4 => { s with nv := { s.nv with retire := spoilCopy s.nv.retire b } }
    | 5 => { s with nv := { s.nv with board := spoilCopy s.nv.board b } }
    | _ => s
  else if 0x200000 ≤ o ∧ o < 0xE00000 then { s with nv := { s.nv with areaA := .invalid (areaSeq s.nv.areaA) } }
  else if 0xE00000 ≤ o ∧ o < 0x1A00000 then { s with nv := { s.nv with areaB := .invalid (areaSeq s.nv.areaB) } } else s
def storeWrite (s : State) (o : Nat) (l : List Byte) : State :=
  let s := (List.range l.length).foldl (fun s i => spoilStore s (o + i)) s
  { s with nv := { s.nv with raw := l.zipIdx.foldl (fun t e => tset none (o + e.2) (some e.1) t) s.nv.raw } }
/-- size of each space the debug port reaches -/
def dbgSpace (a : Dword) : Option Nat :=
  match spaceOf a with
  | 8 => some dramSize
  | 0xA => some 0x400000
  | 0xC => some 0x80000
  | 0xD => some 0x2000000
  | _ => none
/-- a protected part of the store: key banks, and for a write the lifecycle record -/
def dbgProtected (a : Dword) (n : Nat) (write : Bool) : Bool :=
  spaceOf a == 0xD && (overlaps (offOf a) n 0x100000 0x80000 || (write && overlaps (offOf a) n 0x180000 0x10000))
/-- the unit behind a space sleeps (R422) -/
def dbgAsleep (s : State) (a : Dword) : Bool := lowPower s && spaceOf a != 0xD
def dbgAddrBad (a : Dword) (n limit : Nat) : Bool :=
  match dbgSpace a with
  | none => true
  | some size => n == 0 || n % 4 != 0 || decide (limit < n) || decide (size < offOf a + n)
def dbgBytes (s : State) (a : Dword) (n : Nat) : List Byte :=
  let o := offOf a
  match spaceOf a with
  | 8 => if dramPoisoned s o n then (List.range n).map fun i => Sys2Proof.Config.storeByte (0x2000000 + i) s.free else getBytes s.mem.dram o n
  | 0xA => getBytes s.mem.loc o n
  | 0xC => getBytes s.mem.tcm o n
  | _ => (List.range n).map fun i => storeAt s (o + i)
/-- READ_MEM -/
def readMemOp (s : State) (a : Dword) (n : Nat) : State :=
  if s.sec.level != 2 then answer s 0x02 []
  else if dbgAddrBad a n 256 then answer s 0x07 []
  else if dbgProtected a n false then answer s 0x02 []
  else if dbgAsleep s a then answer s 0x04 []
  else answer { s with free := s.free + 1 } 0 (dbgBytes s a n)
/-- WRITE_MEM -/
def writeMemOp (s : State) (a : Dword) (n : Nat) (l : List Byte) : State :=
  let l := padTo n l
  let o := offOf a
  if s.sec.level != 2 then answer s 0x02 []
  else if dbgAddrBad a n 240 then answer s 0x07 []
  else if dbgProtected a n true then answer s 0x02 []
  else if dbgAsleep s a then answer s 0x04 []
  else
    let s := match spaceOf a with
      | 8 => writeDram s o l
      | 0xA => writeLoc s o l
      | 0xC => writeTcm s o l
      | _ => storeWrite s o l
    answer s 0 []
/-- TRACE_READ: the firmware trace ring (14 R444) -/
def traceReadOp (s : State) (o : Nat) : State :=
  if s.sec.level == 0 then answer s 0x02 []
  else if lowPower s then answer s 0x04 []
  else if 65536 < o + 256 then answer s 0x07 []
  else answer s 0 (getBytes s.flt.trace o 256)

end Sys2Proof.Machine
end

