-- ==== Sys2Proof/Machine/RegRead.lean ====
section
/-!
DEFINITION. Reads of the registers of BAR0 (R4, R12, R283 and the register tables of every chapter): the value, and the
state the read leaves.
-/

namespace Sys2Proof.Machine

/-! ### What a read answers -/

/-- the value read and the state after -/
abbrev Rd := Word × State
def low32 (n : Nat) : Word := BitVec.ofNat 32 (n % 2 ^ 32)
/-- a read without an effect -/
def ro (s : State) (n : Nat) : Rd := (low32 n, s)
/-- the low half of a pair: the read captures the upper half under the offset of the high half (R12) -/
def lo (s : State) (hiOff : Nat) (n : Nat) : Rd :=
  (low32 n, { s with dev := { s.dev with hiCap := tset 0 hiOff (low32 (n / 2 ^ 32)) s.dev.hiCap } })
/-- the high half, as captured -/
def hi (s : State) (off : Nat) : Rd := (tget 0 s.dev.hiCap off, s)
/-- a counter that clears on a read, unless the debug port reads it (R4, 13 R417) -/
def rc (s : State) (dbg : Bool) (n : Nat) (clear : State → State) : Rd := (low32 n, if dbg then s else clear s)
/-- bits of a list of unit numbers in 32 units from base -/
def unitBits (l : List Nat) (base : Nat) : Nat := ((List.range 32).map fun i => b2n (l.contains (base + i)) * 2 ^ i).sum
/-- a word of bits from a test -/
def bitWord (f : Nat → Bool) : Nat := ((List.range 32).map fun i => b2n (f i) * 2 ^ i).sum
/-- the debug port counts as the control processor in the checks of R308 and R317 (R417) -/
def asControl (who : Master) : Bool := who == 0 || who == 0xF0

/-! ### The first blocks -/

def readDev (s : State) (o : Nat) : Rd :=
  match o with
  | 0 => lo s 4 s.dev.tick.toNat
  | 4 => hi s 4
  | 0x100 => ro s s.dev.wrj.toNat
  | _ => ro s 0
def readSched (s : State) (dbg : Bool) (o : Nat) : Rd :=
  match o with
  | 0 => ro s s.sched.prnBase.toNat
  | 4 => ro s s.sched.moverLimit.toNat
  | 0x10 => lo s 0x1014 s.sched.hits.toNat
  | 0x14 => hi s 0x1014
  | 0x18 => lo s 0x101C s.sched.misses.toNat
  | 0x1C => hi s 0x101C
  | 0x20 => ro s (b2n s.sched.dbReject)
  | 0x24 => rc s dbg s.sched.dbIgnored.toNat fun s => { s with sched := { s.sched with dbIgnored := 0 } }
  | 0x28 => rc s dbg s.sched.dbRejected.toNat fun s => { s with sched := { s.sched with dbRejected := 0 } }
  | _ => ro s 0
def readCls (s : State) (dbg : Bool) (o : Nat) : Rd :=
  match o with
  | 0 => ro s (s.cls.clauses.length + 2 ^ 16 * s.cls.clbWait.length)
  | 4 => ro s (64 * openBlocks s)
  | 8 => lo s 0x200C s.cls.beginNext
  | 0xC => hi s 0x200C
  | 0x40 => ro s (s.cls.locks.length + 2 ^ 16 * b2n s.cls.lockFull)
  | 0x44 => rc s dbg s.cls.lockBroken.toNat fun s => { s with cls := { s.cls with lockBroken := 0 } }
  | o =>
    if 0x10 ≤ o ∧ o < 0x3C then
      let n := (o - 0xC) / 4
      rc s dbg (tget 0 s.cls.aborts n).toNat fun s => { s with cls := { s.cls with aborts := tset 0 n 0 s.cls.aborts } }
    else ro s 0
def fsStatus (s : State) : Nat :=
  b2n (isPaired s) + 2 * b2n (numHeld s) + 4 * b2n (windowWait s) + 8 * b2n s.fs.pendingSave.isSome + 16 * b2n s.fs.saveInvalid
def fsSave (s : State) : Nat :=
  match s.fs.pendingSave with
  | some (area, v) => v.clauses.length + 2 ^ 14 * v.lost.length + 2 ^ 24 * area
  | none => 0
def readFs (s : State) (dbg : Bool) (o : Nat) : Rd :=
  match o with
  | 0 => ro s (fsStatus s)
  | 8 => lo s 0x300C s.fs.next
  | 0xC => hi s 0x300C
  | 0x10 => ro s (winBytes s)
  | 0x14 => ro s (s.fs.window.length + 2 ^ 15 * winEffects s)
  | 0x18 => ro s (fsSave s)
  | 0x1C => rc s dbg s.fs.relErrors.toNat fun s => { s with fs := { s.fs with relErrors := 0 } }
  | 0x20 => rc s dbg s.fs.lostUnbound.toNat fun s => { s with fs := { s.fs with lostUnbound := 0 } }
  | _ => ro s 0
def linkBits (l : HLink) : Nat := l.rate.toNat + 8 * b2n l.flit + 16 * l.width.toNat
def hpStatus (s : State) : Nat :=
  b2n s.hp.split + 2 * linkBits s.hp.linkA + 2 ^ 10 * (if s.hp.split then linkBits s.hp.linkB else 0)
    + 2 ^ 19 * b2n (getFunc s 0x40).d3hot + 2 ^ 20 * b2n (getFunc s 0x41).d3hot
def sqIsFull (s : State) (n : Nat) : Bool := match getSq s n with | some q => q.full | none => false
def readHp (s : State) (o : Nat) : Rd :=
  if o = 0 then ro s (hpStatus s)
  else if 0x100 ≤ o ∧ o < 0x300 then ro s (bitWord fun i => sqIsFull s (8 * (o - 0x100) + i))
  else ro s 0

/-! ### Movers, profiles, arbiters, engines -/

def mvStatus (x : Mover) : Nat :=
  b2n x.ready + 2 * b2n x.check + 4 * b2n x.fenced + 16 * x.queue.length + 2 ^ 16 * x.ctx.length
def mvInfo (s : State) (m : Nat) (x : Mover) : Nat :=
  x.source.toNat + 8 * b2n x.multi + 16 * x.error.toNat + 2 ^ 8 * x.fn.toNat + 2 ^ 16 * (heldBy s m).length
def mapByte (s : State) (e : Nat) : Nat := (engineMap s e).1 + 16 * (engineMap s e).2
def readMv (s : State) (dbg : Bool) (o : Nat) : Rd :=
  if o < 0x800 then
    let m := o / 0x100
    let x := getMv s m
    match o % 0x100 with
    | 0 => ro s (mvStatus x)
    | 8 => lo s (0x10000 + o + 4) x.addr.toNat
    | 0xC => hi s (0x10000 + o)
    | 0x10 => ro s (mvInfo s m x)
    | 0x14 => rc s dbg x.checks.toNat fun s => modMv s m fun x => { x with checks := 0 }
    | _ => ro s 0
  else if o < 0x820 then
    let e := o - 0x800
    ro s (mapByte s e + 2 ^ 8 * mapByte s (e + 1) + 2 ^ 16 * mapByte s (e + 2) + 2 ^ 24 * mapByte s (e + 3))
  else if o = 0x820 then ro s s.mv.window.toNat else ro s 0
def readXf (s : State) (o : Nat) : Rd :=
  if 0x2000 ≤ o then ro s 0
  else
    let p := getProf s (o / 32)
    match o % 32 with
    | 0 => ro s p.ctl.toNat
    | 4 => ro s p.keys.toNat
    | 8 => ro s p.salt.toNat
    | 0xC => ro s (p.result.toNat % 2 ^ 32)
    | 0x10 => ro s (p.result.toNat / 2 ^ 32)
    | _ => ro s 0
def readArb (s : State) (dbg : Bool) (o : Nat) : Rd :=
  let a := o / 0x40
  let x := getArb s a
  if 20 ≤ a then ro s 0
  else
    let r := o % 0x40
    if 8 ≤ r ∧ r < 0x20 then ro s (ofLE (((arbMap a x).drop (r - 8)).take 4 |>.map (BitVec.ofNat 8)))
    else match r with
      | 0 => ro s (x.hold.toNat + 2 ^ 16 * x.starve.toNat)
      | 0x20 => ro s (b2n x.cutoff)
      | 0x24 => ro s x.starved.toNat
      | 0x28 => rc s dbg x.cutoffs.toNat fun s => setArb s a { getArb s a with cutoffs := 0 }
      | _ => ro s 0
/-- `SLOTk_STATUS` (07 Table 7-13) -/
def slotStatus (s : State) (k : Nat) : Nat :=
  match (slotPron s k).bind (getScript s) with
  | some x =>
    let r := x.regs
    b2n r.v + 2 * b2n r.dz + 4 * b2n r.inHandler + 8 + 16 * r.rs.length + 2 ^ 8 * (match r.rep with | some p => p.left | none => 0)
  | none => 0
def readCe (s : State) (dbg : Bool) (o : Nat) : Rd :=
  if o < 0x1000 then
    let k := o / 8
    let x := getSlot s k
    ro s (if o % 8 = 0 then b2n x.rsov + 2 * b2n x.dzt else slotStatus s k)
  else if o < 0x1100 ∧ o % 8 = 4 then
    let e := (o - 0x1000) / 8
    rc s dbg (tget 0 s.ce.traps e).toNat fun s => { s with ce := { s.ce with traps := tset 0 e 0 s.ce.traps } }
  else ro s 0

/-! ### Quads -/

def quadCfg (x : Quad) : Nat :=
  x.profile.toNat + 4 * x.arrange.toNat + 16 * x.fec.toNat + 2 ^ 8 * x.portEn.toNat + 2 ^ 12 * x.rxInv.toNat + 2 ^ 16 * x.txInv.toNat
def portLink (x : Port) : Nat := x.state.toNat + 16 * x.rate.toNat + 2 ^ 8 * x.width.toNat + 2 ^ 12 * x.cause.toNat
def bucketReg (x : EPort) : Nat := x.bucketBase.toNat + 2 ^ 17 * x.bucketShift.toNat + 2 ^ 22 * b2n x.bucketEn
/-- counter i of a port, its low and high halves (08 R274) -/
def readCtr (s : State) (dbg : Bool) (q p i : Nat) (high : Bool) (off : Nat) : Rd :=
  let pr := (getQ s q).profile.toNat
  let wide := wideCtr pr i
  let v := tget 0 (getPort s q p).ctr (ctrAt pr i)
  let clear (s : State) : State := setPort s q p { getPort s q p with ctr := tset 0 (ctrAt pr i) 0 (getPort s q p).ctr }
  if high then (if wide then hi s off else ro s 0)
  else
    let r := if wide then lo s (off + 4) v else ro s v
    (r.1, if dbg then r.2 else clear r.2)
def readQ (s : State) (dbg : Bool) (o : Nat) : Rd :=
  let q := o / 0x4000
  let r := o % 0x4000
  let x := getQ s q
  if 0x10 ≤ r ∧ r < 0x20 then ro s (portLink (getPort s q ((r - 0x10) / 4)))
  else if 0x30 ≤ r ∧ r < 0x40 then ro s (bucketReg (getPort s q ((r - 0x30) / 4)).ep)
  else if 0x1000 ≤ r ∧ r < 0x2000 then
    readCtr s dbg q ((r - 0x1000) / 0x400) (r % 0x400 / 8) (r % 8 == 4) (0x80000 + o)
  else match r with
    | 0 => ro s (quadCfg x)
    | 4 => ro s (x.opTimeout.toNat + 2 ^ 24 * x.busyRetries.toNat)
    | 0x20 => ro s (x.keymask.toNat + 2 ^ 8 * x.rxQuota.toNat + 2 ^ 16 * x.pause.toNat)
    | _ => ro s 0
def readEcl (s : State) (o : Nat) : Rd :=
  if o = 0 then ro s (s.lk.flowBase.toNat + 2 ^ 12 * s.lk.flowSize.toNat + 2 ^ 15 * b2n s.lk.flowEn) else ro s 0

/-! ### The event fabric, interrupts and mailboxes (10 R308, R317, R325) -/

def cjStatus (c : Cj) : Nat :=
  b2n c.fired + 2 * b2n c.loop + 4 * b2n c.blocked + 8 * b2n c.saturated + 16 * b2n c.denied + 2 ^ 8 * b2n c.armed
    + 2 ^ 16 * c.deliveries.toNat
def readCj (s : State) (who : Master) (n r : Nat) : Nat :=
  let c := getCj s n
  if c.sec && !(asControl who) then 0
  else if 0x20 ≤ r ∧ r < 0x40 then (tget 0 c.tgt ((r - 0x20) / 4)).toNat
  else match r with
    | 0 => b2n c.en + 16 * c.group.toNat
    | 4 => c.owner.toNat + 2 ^ 8 * b2n c.sec
    | 8 => c.srcA.toNat
    | 0xC => c.srcB.toNat
    | 0x10 => cjStatus c
    | _ => 0
/-- 32 bits of a register of one bit per source -/
def srcWord (v : BitVec 1024) (k : Nat) : Nat := bitsAt v (32 * k) 32
def readIc (s : State) (o : Nat) : Rd :=
  if 0x5000 ≤ o ∧ o < 0x5080 then ro s (srcWord s.evt.icEn ((o - 0x5000) / 4))
  else if 0x5080 ≤ o ∧ o < 0x5100 then ro s (srcWord s.evt.icCls ((o - 0x5080) / 4))
  else if 0x5100 ≤ o ∧ o < 0x5180 then ro s (srcWord s.evt.icPend ((o - 0x5100) / 4))
  else match o with
    | 0x5180 => claimNormal s
    | 0x5184 => claimFast s
    | 0x5190 =>
      let f (x : Option Nat) : Nat := match x with | some n => n + 2 ^ 15 | none => 0
      ro s (f s.evt.normal.service + 2 ^ 16 * f s.evt.fast.service)
    | _ => ro s 0
/-- a party of a valid mailbox -/
def mbxParty (x : Mbx) (who : Master) : Bool := x.valid && (x.sender == who || x.receiver == who)
def mbxFlags (x : Mbx) : Nat := b2n x.full + 2 * b2n x.orphan + 4 * b2n x.crossed + 8 * b2n x.aborted + 16 * b2n x.refused
/-- a mailbox's registers; a master that is no party reads zero (R324, R325) -/
def readMbx (s : State) (who : Master) (m r : Nat) : Nat :=
  let x := getMbx s m
  if !(mbxParty x who) then 0
  else if r < 0x20 then bitsAt x.data (8 * r) 32
  else match r with
    | 0x24 => mbxFlags x
    | 0x28 => x.postEpoch.toNat + 2 ^ 16 * (epochOf s x.sender).toNat
    | _ => 0
def mbxBindReg (x : Mbx) : Nat := x.sender.toNat + 2 ^ 8 * x.receiver.toNat + 2 ^ 16 * b2n x.valid
def readCap (s : State) (dbg : Bool) (k r off : Nat) : Rd :=
  let c := tget {} s.evt.caps k
  match r with
  | 0 => lo s (off + 4) c.tick.toNat
  | 4 => hi s off
  | 8 => rc s dbg (c.count.toNat + 16 * b2n c.overflow) fun s =>
      { s with evt := { s.evt with caps := tmod {} k (fun c : Cap => { c with count := 0 }) s.evt.caps } }
  | _ => ro s 0
def readEvt (s : State) (who : Master) (dbg : Bool) (o : Nat) : Rd :=
  if o < 0x4000 then ro s (readCj s who (o / 64) (o % 64))
  else if 0x4100 ≤ o ∧ o < 0x4200 then readCap s dbg ((o - 0x4100) / 16) (o % 16) (0x110000 + o)
  else if 0x5000 ≤ o ∧ o < 0x5194 then (if asControl who then readIc s o else ro s 0)
  else if 0x6000 ≤ o ∧ o < 0x6100 then ro s (mbxBindReg (getMbx s ((o - 0x6000) / 4)))
  else if 0x7000 ≤ o ∧ o < 0x8000 then ro s (readMbx s who ((o - 0x7000) / 64) (o % 64))
  else match o with
    | 0x4000 => ro s s.evt.grpEn.toNat
    | 0x4004 => rc s dbg s.evt.loops.toNat fun s => { s with evt := { s.evt with loops := 0 } }
    | 0x4008 => ro s (s.evt.deferred.length + 2 ^ 16 * b2n s.evt.lost)
    | _ => ro s 0

/-! ### Twin, power, security, faults, resets -/

def twinState (t : Twin) : Nat :=
  t.state.toNat + 16 * b2n t.id + 32 * b2n (t.link == 2) + 64 * b2n t.aligned + 128 * b2n t.fenceOut + 2 ^ 8 * b2n t.fenceIn
    + 2 ^ 9 * b2n t.ownLow + 2 ^ 10 * b2n t.ownHigh + 2 ^ 11 * b2n (!t.shadow.isEmpty) + 2 ^ 12 * t.failCause.toNat
    + 2 ^ 16 * b2n t.tookOver
def twinOffset (t : Twin) : Nat :=
  let o : Int := if t.theta < -32767 then -32767 else if 32767 < t.theta then 32767 else t.theta
  (BitVec.ofInt 16 o).toNat + 2 ^ 16 * min t.delta 65535
def qmapReg (t : Twin) (k : Nat) : Nat := ofLE ((List.range 4).map fun j => tget 0 t.qmap (4 * k + j))
def readTwin (s : State) (dbg : Bool) (o : Nat) : Rd :=
  let t := s.tw
  if 0x20 ≤ o ∧ o < 0x40 then ro s (qmapReg t ((o - 0x20) / 4))
  else if 0x60 ≤ o ∧ o < 0x7C then
    let i := (o - 0x60) / 4
    rc s dbg (tget 0 t.ctr i).toNat fun s => { s with tw := { s.tw with ctr := tset 0 i 0 s.tw.ctr } }
  else match o with
    | 0 => ro s (t.timeout.toNat + 2 ^ 14 * t.fenceMode.toNat + 2 ^ 16 * b2n t.autoFence + 2 ^ 20 * t.key.toNat)
    | 4 => ro s t.split.toNat
    | 8 => ro s (t.storeBase.toNat + 2 ^ 16 * t.ctmBase.toNat)
    | 0xC => ro s (twinState t)
    | 0x40 => ro s (twinOffset t)
    | 0x48 => lo s 0x12004C t.mark
    | 0x4C => hi s 0x12004C
    | _ => ro s 0
/-- all slots free and no transfer anywhere (12 R368) -/
def isIdle (s : State) : Bool := (s.ce.slots.all fun x => x.2.prn.isNone) && (allTransfers s).isEmpty
def pwrState (s : State) : Nat :=
  if s.pwr.drain.isSome then 4
  else match s.pwr.sleep with
    | .entering => 2
    | .standby => 3
    | .deep => 5
    | .awake => if isIdle s then 1 else 0
def pwrStatus (s : State) : Nat :=
  pwrState s + 8 * b2n s.pwr.aborted + 16 * b2n s.hu.holdupOk + 32 * b2n s.hu.charging + 64 * b2n s.hu.chargerFault
    + 128 * b2n s.hu.linkOk + 2 ^ 8 * b2n s.pwr.lastDeep
def pwrTemp (p : Pwr) : Nat :=
  p.tempLogic.toNat + 2 ^ 8 * p.tempDram.toNat + 2 ^ 16 * p.tempHu.toNat + 2 ^ 24 * b2n p.dramHot + 2 ^ 25 * b2n p.trip
def readPwr (s : State) (dbg : Bool) (o : Nat) : Rd :=
  match o with
  | 0 => ro s (pwrStatus s)
  | 4 => ro s (s.pwr.imageBase.toNat + 2 ^ 16 * s.pwr.d3wait.toNat)
  | 8 => ro s s.pwr.cause.toNat
  | 0xC => ro s s.pwr.wakeTimer.toNat
  | 0x20 => ro s s.hu.cfg0.toNat
  | 0x24 => ro s s.hu.cfg1.toNat
  | 0x28 => ro s s.hu.cfg2.toNat
  | 0x30 => ro s (s.hu.hv.toNat + 2 ^ 16 * s.hu.vcap.toNat)
  | 0x34 => ro s (s.hu.cap.toNat + 2 ^ 16 * b2n s.hu.capValid)
  | 0x38 => ro s (usable s.hu + 2 ^ 16 * s.hu.need.toNat)
  | 0x40 => rc s dbg s.nv.drains.toNat fun s => { s with nv := { s.nv with drains := 0 } }
  | 0x44 => rc s dbg s.pwr.psInvalid.toNat fun s => { s with pwr := { s.pwr with psInvalid := 0 } }
  | 0x80 => ro s s.pwr.gpioDir.toNat
  | 0x84 => ro s s.pwr.gpioOut.toNat
  | 0x88 => ro s (gpioLevels s).toNat
  | 0x8C => ro s s.pwr.gpioPull.toNat
  | 0x90 => ro s (pwrTemp s.pwr)
  | _ => ro s 0
def secStatus (s : State) : Nat :=
  lcState s + 8 * s.sec.level.toNat + 32 * b2n (lcRec s).wipeDram + 64 * b2n s.sec.unsealOff + 128 * b2n s.sec.lcInvalid
    + 2 ^ 8 * b2n s.sec.lockout
def secBoot (x : Sec) : Nat := b2n x.slotB + 2 * b2n x.fallback + 4 * x.resA.toNat + 32 * x.resB.toNat
def readSec (s : State) (o : Nat) : Rd :=
  if 0x20 ≤ o ∧ o < 0x40 then ro s (match s.sec.nonce with | some n => bitsAt n (8 * (o - 0x20)) 32 | none => 0)
  else if 0x40 ≤ o ∧ o < 0xA0 then ro s (ofLE (((pubOf Sys2Proof.Config.identityKey).drop (o - 0x40)).take 4))
  else match o with
    | 0 => ro s (secStatus s)
    | 8 => ro s (lcRec s).minSvn.toNat
    | 0xC => ro s (secBoot s.sec)
    | 0x10 => ro s s.sec.fails.toNat
    | _ => ro s 0
def fltStatus (f : Flt) : Nat := b2n f.cpFaultLast + 2 * b2n f.trackFull + 4 * b2n f.repairOut + 8 * b2n f.stageLow
def readFlt (s : State) (dbg : Bool) (o : Nat) : Rd :=
  let f := s.flt
  if 0x40 ≤ o ∧ o < 0x80 then ro s (unitBits f.slots (8 * (o - 0x40)))
  else match o with
    | 0 => ro s (fltStatus f)
    | 4 => ro s f.threshold.toNat
    | 0x10 => ro s (unitBits f.engines 0)
    | 0x14 => ro s (unitBits f.quads 0)
    | 0x18 => ro s ((List.range 8).map (fun m => b2n (getMv s m).fenced * 2 ^ m) |>.sum |> (· + 2 ^ 8 * (unitBits f.banks 0) + 2 ^ 16 * b2n f.staging))
    | 0x80 => ro s (f.capStr.toNat + 16 * f.capUnit.toNat + 2 ^ 13 * b2n f.capMulti)
    | 0x84 => lo s 0x150088 f.capAddr.toNat
    | 0x88 => hi s 0x150088
    | 0x8C => lo s 0x150090 f.capTick.toNat
    | 0x90 => hi s 0x150090
    | 0xA0 => rc s dbg f.ue.toNat fun s => { s with flt := { s.flt with ue := 0 } }
    | 0xA4 => rc s dbg f.ce.toNat fun s => { s with flt := { s.flt with ce := 0 } }
    | 0xA8 => rc s dbg f.retiredCount.toNat fun s => { s with flt := { s.flt with retiredCount := 0 } }
    | 0xAC => ro s s.sched.stranded.length
    | 0xB0 => rc s dbg f.tmr.toNat fun s => { s with flt := { s.flt with tmr := 0 } }
    | 0xB4 => rc s dbg f.traceLost.toNat fun s => { s with flt := { s.flt with traceLost := 0 } }
    | 0xC0 => ro s (64 * logNext s)
    | 0xC4 => lo s 0x1500C8 f.logSeq
    | 0xC8 => hi s 0x1500C8
    | _ => ro s 0
def kindCode : ResetKind → Nat
  | .powerOn => 1 | .resetN => 2 | .perst => 3 | .firmware => 4 | .watchdog => 5 | .lifecycle => 6
def readRst (s : State) (dbg : Bool) (o : Nat) : Rd :=
  let r := s.rst
  match o with
  | 0 => ro s (kindCode r.kind + 16 * b2n r.drained + 32 * b2n r.dramWiped + 64 * b2n r.fwReady)
  | 4 => ro s r.wdog.toNat
  | 0x10 => rc s dbg r.flrDropped.toNat fun s => { s with rst := { s.rst with flrDropped := 0 } }
  | 0x14 => ro s r.warm.toNat
  | _ => ro s 0

/-! ### One read (Table 9-2) -/

/-- A read of a register by its BAR0 offset; the function-local window reads zero here (R280, R281). -/
def regRead (s : State) (who : Master) (off : Nat) : Rd :=
  let dbg := who == 0xF0
  if off % 4 ≠ 0 then ro s 0
  else if off < 0x1000 then readDev s off
  else if off < 0x2000 then readSched s dbg (off - 0x1000)
  else if off < 0x3000 then readCls s dbg (off - 0x2000)
  else if off < 0x4000 then readFs s dbg (off - 0x3000)
  else if off < 0x10000 then readHp s (off - 0x4000)
  else if off < 0x12000 then readMv s dbg (off - 0x10000)
  else if off < 0x20000 then readXf s (off - 0x12000)
  else if off < 0x40000 then readArb s dbg (off - 0x20000)
  else if off < 0x80000 then readCe s dbg (off - 0x40000)
  else if off < 0x100000 then readQ s dbg (off - 0x80000)
  else if off < 0x110000 then readEcl s (off - 0x100000)
  else if off < 0x120000 then readEvt s who dbg (off - 0x110000)
  else if off < 0x130000 then readTwin s dbg (off - 0x120000)
  else if off < 0x140000 then readPwr s dbg (off - 0x130000)
  else if off < 0x150000 then readSec s (off - 0x140000)
  else if off < 0x160000 then readFlt s dbg (off - 0x150000)
  else if off < 0x170000 then readRst s dbg (off - 0x160000)
  else ro s 0

end Sys2Proof.Machine
end

