-- ==== Sys2Proof/Machine/TwinRows.lean ====
section
/-!
DEFINITION. The rows of twin pairing (11_twin_pairing.md), but for those that reach registers.
-/

namespace Sys2Proof.Machine

/-- messages arrive while the link is ACTIVE (R335) -/
def onLink (s : State) (f : State → State) : Res := .next (if s.tw.link == 2 then f s else s)

/-! ### Joins -/

/-- HELLO (R342 to R344) -/
def execTwHello (body : List Byte) (s : State) : Res := onLink s fun s => helloRx s body
/-- AUTH (R342, R343) -/
def execTwAuth (body : List Byte) (s : State) : Res := onLink s fun s => authRx s body
/-- JOIN_LINK_TIMEOUT (R343, cause 8) -/
def execTwJoinLinkTimeout (s : State) : Res := .next (if s.tw.state == 1 && s.tw.link != 2 then joinFail s 8 else s)
/-- JOIN_ALIGN_TIMEOUT (R343, cause 9) -/
def execTwJoinAlignTimeout (s : State) : Res := .next (if s.tw.state == 2 && s.tw.stepped && !s.tw.aligned then joinFail s 9 else s)
/-- lines of a region still wait to be sent -/
def copyPending (s : State) : Bool := (s.tw.txq.any fun m => m.type == 0x20) || !s.tw.restBulk.isEmpty
/-- steps 6 and 7 of a join (R342) -/
def sendMirrors (s : State) : State :=
  let s := s.fs.window.foldl (fun s c => twinSend s { type := 0x22, param := BitVec.ofNat 64 c.number, body := mirrorBody c }) s
  let s := { s with tw := { s.tw with mirrorsSent := true, sentMark := releasedMark s } }
  if s.tw.id then s else propose s 0x01
/-- REGION_COPY_SENT (R342 steps 5 to 7; R362) -/
def execRegionCopySent (s : State) : Res :=
  .next (if copyPending s then s
    else if s.tw.state == 2 && s.tw.copied && !s.tw.mirrorsSent then sendMirrors s
    else if s.tw.state == 3 && s.tw.handing then propose { s with tw := { s.tw with handing := false } } 0x04
    else s)

/-! ### The tick and launches -/

/-- HEARTBEAT (R348, R349) -/
def execTwHeartbeat (param : Dword) (body : List Byte) (s : State) : Res := onLink s fun s => heartbeatRx s param body
/-- HEARTBEAT_SEND (R348) -/
def execTwHeartbeatSend (s : State) : Res := onLink s heartbeatTx
/-- ALIGNMENT_TIMEOUT (R349) -/
def execTwAlignmentTimeout (s : State) : Res := .next (setAligned { s with tw := { s.tw with good := 0 } } false)
/-- LAUNCH (R350) -/
def execTwLaunch (param : Dword) (body : List Byte) (s : State) : Res := onLink s fun s => launchRx s (body.headD 0) param
/-- LAUNCH_ACK (R350) -/
def execTwLaunchAck (param : Dword) (body : List Byte) (s : State) : Res :=
  onLink s fun s => launchAckRx s param ((body.headD 0).getLsbD 0)
/-- LAUNCH_TICK (R350): the launch acts at its tick if it was accepted. -/
def execTwLaunchTick (action : Byte) (s : State) : Res :=
  .next (match getLaunch s action with
    | none => s
    | some l =>
      let s := reachTick s l.tick.toNat
      if l.mine && !l.acked then s else launchAct (dropLaunch s action) action)
/-- LAUNCH_RETRY (R350) -/
def execTwLaunchRetry (action : Byte) (s : State) : Res :=
  .next (if s.tw.wants.contains action && s.tw.aligned then propose s action else s)

/-! ### Mirroring -/

/-- MIRROR (R346) -/
def execTwMirror (param : Dword) (body : List Byte) (s : State) : Res :=
  onLink s fun s => if BitVec.ofNat 64 (mirrorNumber body) == param then mirrorRx s body else s
/-- acknowledgements count from step 6 of a join until the pairing ends, or the fence of a lost peer completes (R127, R366) -/
def takesAcks (s : State) : Bool := s.tw.state == 2 || s.tw.state == 3 || s.tw.state == 4 || s.tw.state == 7
/-- MIRROR_ACK (R127) -/
def execTwMirrorAck (param : Dword) (s : State) : Res := onLink s fun s => if takesAcks s then mirrorAckRx s param.toNat else s
/-- RELEASED (R347) -/
def execTwReleased (param : Dword) (s : State) : Res := onLink s fun s => releasedRx s param.toNat
/-- lines are taken from JOINING to UNPAIRING (R345) -/
def takesLines (s : State) : Bool := s.tw.state == 2 || s.tw.state == 3 || s.tw.state == 7
/-- CTM_COPY (R345) -/
def execTwCtmCopy (param : Dword) (body : List Byte) (s : State) : Res := onLink s fun s => if takesLines s then lineRx s param body else s
/-- CTM_WRITE (R345) -/
def execTwCtmWrite (param : Dword) (body : List Byte) (s : State) : Res := onLink s fun s => if takesLines s then lineRx s param body else s
/-- RELEASED, MIRROR and the lines share one stream; REG_RESP answers a register request of this part (R338, R339). -/
def execTwRegResp (param : Dword) (body : List Byte) (s : State) : Res :=
  onLink s fun s => { s with tw := { s.tw with regResp := s.tw.regResp ++ [(param, BitVec.ofNat 32 (ofLE (body.take 4)))] } }
/-- a post by identity 0x90 (R326, R339) -/
def twinPost (s : State) (m : Nat) (body : List Byte) : State :=
  let x := getMbx s m
  if x.valid && x.sender == 0x90 then
    mbxPostOp (if x.full then s else setMbx s m { x with data := BitVec.ofNat 256 (ofLE (padTo 32 body)) }) m true
  else reject s 11
/-- MAILBOX (R326, R327, R339) -/
def execTwMailbox (param : Dword) (body : List Byte) (s : State) : Res :=
  let m := bitsAt param 0 6
  onLink s fun s => match bitsAt param 6 2 with
    | 0 => twinPost s m body
    | 1 => if (getMbx s m).valid && (getMbx s m).receiver == 0x90 then mbxAckOp s m true else reject s 11
    | _ => reject s 11

/-! ### Loss and fences -/

/-- TWIN_LOSS (R351) -/
def execTwTwinLoss (s : State) : Res := .next (declareLoss s)
/-- FENCE_MSG (R354): at its tick, or at once if that has passed. -/
def execTwFenceMsg (param : Dword) (s : State) : Res :=
  onLink s fun s => if param.toNat ≤ s.dev.tick.toNat then fenceStop s else { s with tw := { s.tw with stopAt := some param } }
/-- FENCE_TICK (R354); in DEEP SLEEP the count stands still (01 R11). -/
def execFenceTick (s : State) : Res :=
  .next (match s.tw.stopAt with
    | some t => if s.pwr.sleep == .deep then s else fenceStop (reachTick s t.toNat)
    | none => s)
/-- FENCE_ACK (R355) -/
def execTwFenceAck (_param : Dword) (s : State) : Res :=
  onLink s fun s => if s.tw.fencing == 1 || s.tw.fencing == 2 then fenceComplete s else s
/-- PIN_FENCE_COMPLETE (R355) -/
def execTwPinFenceComplete (s : State) : Res := .next (if s.tw.fencing == 3 then fenceComplete s else s)
/-- LINK_FENCE_TIMEOUT (R355): the link fence alone fails; with pins behind it, the pin fence follows. -/
def execTwLinkFenceTimeout (s : State) : Res :=
  .next (if s.tw.fencing == 1 then fenceFails s else if s.tw.fencing == 2 then pinFence s else s)
/-- FENCE_IN seen asserted (R352, R353): in sleep it is kept for the wake, before the boot for the boot. -/
def seeFenceIn (s : State) (held : Bool) : State :=
  if s.pwr.sleep != .awake then { s with tw := { s.tw with fenceIn := true } }
  else
    let s := { s with tw := { s.tw with fenceIn := held } }
    if s.rst.booted && logicRuns s then obeyFenceIn s else s
/-- FENCE_IN_ASSERT (R352, R353, 16 R479): a pulse of ns nanoseconds, or a level still held. -/
def execTwFenceInAssert (ns : BitVec 32) (held : Bool) (s : State) : Res :=
  if 100 ≤ ns.toNat then .next (seeFenceIn s held)
  else if ns.toNat < 5 then .next s else .fault .forbiddenPulse

/-! ### The link -/

/-- MALID_FLIT_RX (R336) -/
def execTwMalidFlitRx (f : Flit) (s : State) : Res := .next (flitRx s f)
/-- MALID_REPLAY_TIMEOUT (R336) -/
def execTwMalidReplayTimeout (s : State) : Res := onLink s fun s => if s.tw.replay.isEmpty then s else flitReplayAgain s
/-- MALID_UNDEF_MESSAGE (R337) -/
def execTwMalidUndefMessage (type : Byte) (bulk : Bool) (s : State) : Res :=
  onLink s fun s => if isTwinMessage type bulk then s else twinCount s 3
/-- MALID_TRAIN_TIMEOUT (R335) -/
def execTwMalidTrainTimeout (s : State) : Res := .next (if s.tw.link == 1 then { s with tw := { s.tw with link := 0 } } else s)
/-- MALID_RETRY_DELAY (R335) -/
def execMalidRetryDelay (s : State) : Res :=
  .next (if s.tw.link == 0 && quadsPowered s then { s with tw := { s.tw with link := 1 } } else s)
/-- MALID_LINK_ACTIVE (R335, R342) -/
def execMalidLinkActive (s : State) : Res := .next (if quadsPowered s then linkActive s else s)

end Sys2Proof.Machine
end

