-- ==== Sys2Proof/Machine/RegWrite.lean ====
section
/-!
DEFINITION. Writes of the registers of BAR0 (R4 to R6, R283 and the register tables of every chapter). A rejected field
keeps its value, and the other fields of the write take effect.
-/

namespace Sys2Proof.Machine

/-! ### Shared forms -/

/-- the state of a meaning that always goes on -/
def got (r : Res) (s : State) : State := match r with | .next t => t | _ => s
/-- a field that takes the value written, or rejects it -/
def rejectIf (b : Bool) (s : State) (blk : Nat) : State := if b then reject s blk else s
/-- W1C bits -/
def w1c {w : Nat} (old : BitVec w) (v : Word) : BitVec w := old &&& ~~~(v.setWidth w)
/-- a W1C flag at a bit -/
def clears (old : Bool) (v : Word) (i : Nat) : Bool := old && !(v.getLsbD i)

/-! ### The first blocks -/

def writeDev (s : State) (o : Nat) (v : Word) : State :=
  if o = 0x100 then { s with dev := { s.dev with wrj := w1c s.dev.wrj v } } else s
def writeSched (s : State) (o : Nat) (v : Word) : State :=
  match o with
  | 0 => reject s 1
  | 4 => if bitsAt v 0 4 = 0 then reject s 1 else { s with sched := { s.sched with moverLimit := v.extractLsb' 0 4 } }
  | 0x20 => { s with sched := { s.sched with dbReject := clears s.sched.dbReject v 0 } }
  | _ => s
def writeCls (s : State) (o : Nat) (v : Word) : State :=
  if o = 0x40 then { s with cls := { s.cls with lockFull := clears s.cls.lockFull v 16 } } else s
def writeFs (s : State) (o : Nat) (v : Word) : State :=
  if o = 0 then { s with fs := { s.fs with saveInvalid := clears s.fs.saveInvalid v 4 } } else s

/-! ### Movers, profiles, arbiters, engines -/

/-- `MVm_CTL`: a write setting two of its bits is rejected (Table 6-10) -/
def writeMvCtl (s : State) (m : BitVec 3) (v : Word) : State :=
  match bitsAt v 0 3 with
  | 0 => s
  | 1 => got (execMvReinit m s) s
  | 2 => got (execResumeHeld m s) s
  | 4 => got (execMvClose m s) s
  | _ => reject s 5
/-- `MV_ENGINE_MAPk` -/
def writeMap (s : State) (k : Nat) (v : Word) : State :=
  (List.range 4).foldl (fun s j =>
    let e := 4 * k + j
    { s with mv := { s.mv with map := tset (defaultMap e) e (bitsAt v (8 * j) 3, bitsAt v (8 * j + 4) 3) s.mv.map } }) s
def writeMv (s : State) (o : Nat) (v : Word) : State :=
  if o < 0x800 then (if o % 0x100 = 4 then writeMvCtl s (BitVec.ofNat 3 (o / 0x100)) v else s)
  else if o < 0x820 then fenceLame (writeMap s ((o - 0x800) / 4) v)
  else match o with
    | 0x820 => if bitsAt v 0 4 = 0 then reject s 5 else { s with mv := { s.mv with window := v.extractLsb' 0 4 } }
    | 0x824 => got (execMvHoldClear v s) s
    | _ => s
/-- defined bits of `XF_PROFn_CTL` but for MODE and ENABLE -/
def ctlMask : Word := 0x03FF1F00
def setProf (s : State) (n : Nat) (p : Profile) : State := { s with mv := { s.mv with profiles := tset {} n p s.mv.profiles } }
/-- `XF_PROFn_CTL` while ENABLE reads 0: a reserved pair keeps MODE -/
def ctlAfter (p : Profile) (v : Word) : Word :=
  let mode : Word := if pairLegal (bitsAt v 0 4) (bitsAt v 4 4) then v &&& 0xFF else p.ctl &&& 0xFF
  mode ||| (v &&& ctlMask) ||| (v &&& 0x80000000)
/-- the space nibbles a result record may have -/
def recordSpace (x : Nat) : Bool := x == 0 || x == 8 || x == 0xA
def writeXf (s : State) (o : Nat) (v : Word) : State :=
  let n := o / 32
  let p := getProf s n
  if 0x2000 ≤ o then s
  else if pfEnable p then
    -- only ENABLE changes (R165)
    match o % 32 with
    | 0 => rejectIf ((v &&& (0xFF ||| ctlMask)) != p.ctl &&& 0x7FFFFFFF) (setProf s n { p with ctl := (p.ctl &&& 0x7FFFFFFF) ||| (v &&& 0x80000000) }) 6
    | 4 => rejectIf (v &&& 0x0FFF0FFF != p.keys) s 6
    | 8 => rejectIf (v != p.salt) s 6
    | 0xC => rejectIf (v != p.result.extractLsb' 0 32) s 6
    | 0x10 => rejectIf (v != p.result.extractLsb' 32 32) s 6
    | _ => s
  else match o % 32 with
    | 0 => rejectIf (!(pairLegal (bitsAt v 0 4) (bitsAt v 4 4))) (setProf s n { p with ctl := ctlAfter p v }) 6
    | 4 => setProf s n { p with keys := v &&& 0x0FFF0FFF }
    | 8 => setProf s n { p with salt := v }
    | 0xC => if bitsAt v 0 6 = 0 then setProf s n { p with result := baseLow p.result v } else reject s 6
    | 0x10 => if recordSpace (bitsAt v 28 4) then setProf s n { p with result := baseHigh p.result v } else reject s 6
    | _ => s
/-- `ARB_x_CFG` -/
def writeArbCfg (s : State) (a : Nat) (v : Word) : State :=
  let x := getArb s a
  let h := bitsAt v 0 11
  let good := h != 0 && decide (h ≤ 1024)
  rejectIf (!good) (setArb s a { x with hold := if good then v.extractLsb' 0 11 else x.hold, starve := v.extractLsb' 16 8 }) 7
def writeArb (s : State) (o : Nat) (v : Word) : State :=
  let a := o / 0x40
  let x := getArb s a
  if 20 ≤ a then s
  else match o % 0x40 with
    | 0 => writeArbCfg s a v
    | 4 => got (execArbSwap (BitVec.ofNat 5 a) v s) s
    | 0x20 => setArb s a { x with cutoff := clears x.cutoff v 0 }
    | 0x24 => setArb s a { x with starved := w1c x.starved v }
    | _ => s
def writeCe (s : State) (o : Nat) (v : Word) : State :=
  if o < 0x1000 then
    (if o % 8 = 0 then setSlot s (o / 8) { getSlot s (o / 8) with rsov := v.getLsbD 0, dzt := v.getLsbD 1 } else s)
  else if o < 0x1100 ∧ o % 8 = 0 ∧ v.getLsbD 0 then invalidate s ((o - 0x1000) / 8) else s

/-! ### Quads and the flow table (08 R234, R257, R259, R260) -/

/-- a table may be placed: CONFIGURE done, inside usable DRAM, clear of CTM and the pronoun tables (R257, 15 R448) -/
def placeable (s : State) (a n : Nat) : Bool :=
  s.sched.configured && decide (a + n ≤ dramSize) && !(overlaps a n (ctmStart s) (ctmBytes s)) && !(overlaps a n (prnStart s) prnTablesLen)
/-- `Qq_TIMING` -/
def writeTiming (s : State) (q : Nat) (v : Word) : State :=
  let x := getQ s q
  let zero := bitsAt v 0 24 == 0
  rejectIf zero (setQ s q { x with opTimeout := if zero then x.opTimeout else v.extractLsb' 0 24, busyRetries := v.extractLsb' 24 4 }) 9
/-- `Eq_CFG` -/
def writeEcfg (s : State) (q : Nat) (v : Word) : State :=
  let x := getQ s q
  let noQuota := bitsAt v 8 8 == 0
  let badPause := bitsAt v 16 2 == 3
  rejectIf (noQuota || badPause) (setQ s q { x with keymask := v.extractLsb' 0 7, rxQuota := if noQuota then x.rxQuota else v.extractLsb' 8 8
                                                    pause := if badPause then x.pause else v.extractLsb' 16 2 }) 9
/-- `Eq_PORTn_BUCKETS` -/
def writeBuckets (s : State) (q p : Nat) (v : Word) : State :=
  let x := (getPort s q p).ep
  let shiftOk := decide (bitsAt v 17 5 ≤ 16)
  let y := { x with bucketBase := v.extractLsb' 0 17, bucketShift := if shiftOk then v.extractLsb' 17 5 else x.bucketShift }
  let enOk := !(v.getLsbD 22) || placeable s (y.bucketBase.toNat * 0x40000) (4 * 2 ^ y.bucketShift.toNat)
  rejectIf (!shiftOk || !enOk) (modEP s q p fun _ => { y with bucketEn := if enOk then v.getLsbD 22 else x.bucketEn }) 9
def writeQ (s : State) (o : Nat) (v : Word) : State :=
  let q := o / 0x4000
  let r := o % 0x4000
  if 0x30 ≤ r ∧ r < 0x40 then writeBuckets s q ((r - 0x30) / 4) v
  else match r with
    | 0 => quadCfgWrite s q v
    | 4 => writeTiming s q v
    | 0x20 => writeEcfg s q v
    | _ => s
/-- an E quad has a port enabled -/
def ePortsOn (s : State) : Bool := s.lk.quads.any fun q => q.2.profile == 2 && q.2.portEn != 0
/-- `ECL_FLOW_CFG` -/
def writeEcl (s : State) (o : Nat) (v : Word) : State :=
  if o ≠ 0 then s
  else
    let x := s.lk
    let b := bitsAt v 0 9
    let z := bitsAt v 12 3
    let bOk := decide (b ≤ 479) && (b == x.flowBase.toNat || !(ePortsOn s))
    let zOk := decide (z ≤ 4) && (z == x.flowSize.toNat || !(ePortsOn s))
    let base : BitVec 9 := if bOk then v.extractLsb' 0 9 else x.flowBase
    let size : BitVec 3 := if zOk then v.extractLsb' 12 3 else x.flowSize
    let enOk := !(v.getLsbD 15) || placeable s (base.toNat * 0x4000000) (64 * 2 ^ (16 + size.toNat))
    rejectIf (!bOk || !zOk || !enOk) { s with lk := { x with flowBase := base, flowSize := size, flowEn := if enOk then v.getLsbD 15 else x.flowEn } } 10

/-! ### Conjunctions (10 R308 to R310) -/

def ownerLegal (m : Master) : Bool := m == 0 || m == 0x40 || m == 0x41 || m == 0x90 || m == 0xF0
/-- a target only a secure conjunction may have -/
def tgtSecure (w : Word) : Bool :=
  match tgtKind w with
  | 4 | 6 => true
  | 7 | 8 => decide (12 ≤ bitsAt w 4 4)
  | _ => false
/-- bits of a target's fields, KIND included -/
def tgtMask (kind : Nat) : Word :=
  match kind with
  | 1 => 0x07FFFFFF
  | 2 => 0x00FFFFFF
  | 4 => 0x0000007F
  | 5 => 0x000003FF
  | 3 | 6 | 7 | 8 => 0x000000FF
  | _ => 0x0000000F
/-- a target word R309 rejects -/
def tgtBad (c : Cj) (w : Word) : Bool :=
  let k := tgtKind w
  let prn := k == 1 || k == 2
  decide (8 < k) || (w &&& ~~~(tgtMask k)) != 0 || (prn && bitsAt w 4 20 == 0) || (tgtSecure w && !c.sec)
    || (prn && (c.owner == 0x90 || c.owner == 0xF0))
/-- `CJn_OWNER` -/
def writeOwner (s : State) (n : Nat) (v : Word) : State :=
  let c := getCj s n
  let owner : Master := v.extractLsb' 0 8
  let keeps := c.sec && !(v.getLsbD 8) && (decide (12 ≤ c.group.toNat) || c.tgt.any fun t => tgtSecure t.2)
  rejectIf (!(ownerLegal owner) || keeps)
    (setCj s n { c with owner := if ownerLegal owner then owner else c.owner, sec := if keeps then c.sec else v.getLsbD 8 }) 11
/-- `CJn_CTL` -/
def writeCjCtl (s : State) (n : Nat) (v : Word) : State :=
  let c := getCj s n
  let bad := decide (12 ≤ bitsAt v 4 4) && !c.sec
  rejectIf bad (setCj s n { c with en := v.getLsbD 0, group := if bad then c.group else v.extractLsb' 4 4 }) 11
/-- `CJn_STATUS` -/
def writeCjStatus (c : Cj) (v : Word) : Cj :=
  { c with fired := clears c.fired v 0, loop := clears c.loop v 1, blocked := clears c.blocked v 2, saturated := clears c.saturated v 3
           denied := clears c.denied v 4 }
/-- new sources: an input that a pin now holds high has risen (R306) -/
def selectSources (s : State) (n : Nat) (c : Cj) : State :=
  let rises := cjHigh (gpioLevels s) c && !(cjHigh (gpioLevels s) (getCj s n))
  let s := setCj s n c
  if rises then { s with evt := { s.evt with edges := linsert n s.evt.edges } } else s
/-- who may write a conjunction's registers other than its owner's (R308) -/
def cjWriter (c : Cj) (who : Master) : Bool := asControl who || (!c.sec && c.owner == who)
def writeCj (s : State) (who : Master) (n r : Nat) (v : Word) : State :=
  let c := getCj s n
  if r = 4 then (if asControl who then writeOwner s n v else reject s 11)
  else if !(cjWriter c who) then (if r < 0x14 || (decide (0x20 ≤ r) && decide (r < 0x40)) then reject s 11 else s)
  else if 0x20 ≤ r ∧ r < 0x40 then
    (if tgtBad c v then reject s 11 else setCj s n { c with tgt := tset 0 ((r - 0x20) / 4) v c.tgt })
  else match r with
    | 0 => writeCjCtl s n v
    | 8 => selectSources s n { c with srcA := v &&& 0x83FF83FF }
    | 0xC => selectSources s n { c with srcB := v &&& 0x83FF83FF }
    | 0x10 => setCj s n (writeCjStatus c v)
    | _ => s
/-- an owner of a conjunction -/
def ownsCj (s : State) (who : Master) : Bool := (List.range 256).any fun n => (getCj s n).owner == who
/-- `CJ_GRP_EN` (R310): GRP_S is written by 0x00 alone, the debug port not counting as it here (13 R417) -/
def writeGroups (s : State) (who : Master) (v : Word) : State :=
  let n := who == 0 || ownsCj s who
  let e := s.evt.grpEn
  let e := if n then setField e 0 12 (bitsAt v 0 12) else e
  let e := if who == 0 then setField e 12 4 (bitsAt v 12 4) else e
  rejectIf (who != 0) { s with evt := { s.evt with grpEn := e } } 11

/-! ### The interrupt controller and mailboxes (10 R317, R319, R324 to R327) -/

def putSrcWord (v : BitVec 1024) (k : Nat) (w : Word) : BitVec 1024 := setField v (32 * k) 32 w.toNat
def writeIc (s : State) (o : Nat) (v : Word) : State :=
  let e := s.evt
  if 0x5000 ≤ o ∧ o < 0x5080 then icEval { s with evt := { e with icEn := putSrcWord e.icEn ((o - 0x5000) / 4) v } }
  else if 0x5080 ≤ o ∧ o < 0x5100 then icEval { s with evt := { e with icCls := putSrcWord e.icCls ((o - 0x5080) / 4) v } }
  else if 0x5100 ≤ o ∧ o < 0x5180 then
    let k := (o - 0x5100) / 4
    icEval { s with evt := { e with icPend := putSrcWord e.icPend k (BitVec.ofNat 32 (srcWord e.icPend k) &&& ~~~v) } }
  else match o with
    | 0x5188 => completeNormal s v
    | 0x518C => completeFast s v
    | _ => s
/-- A binding's first write locks it; an illegal pair of parties is rejected and does not lock (R324). -/
def bindLegal (a b : Master) : Bool := a != b && masterLegal a && masterLegal b
def mbxBindOp (s : State) (m : Nat) (a b : Master) (valid : Bool) : State :=
  setMbx s m { getMbx s m with sender := a, receiver := b, valid := valid, locked := true }
def writeBind (s : State) (who : Master) (m : Nat) (v : Word) : State :=
  let a : Master := v.extractLsb' 0 8
  let b : Master := v.extractLsb' 8 8
  if who != 0 || (getMbx s m).locked || !(bindLegal a b) then reject s 11 else mbxBindOp s m a b (v.getLsbD 16)
/-- MBXm_CTL by a party -/
def writeMbxCtl (s : State) (who : Master) (m : Nat) (v : Word) (bad : State → State) : State :=
  let x := getMbx s m
  match bitsAt v 0 2 with
  | 0 => s
  | 1 => if x.sender == who then mbxPostWake s m else bad s
  | 2 => if x.receiver == who then mbxAckOp s m false else bad s
  | _ => bad s
/-- a write of a mailbox's registers by its window; bad says how it is rejected -/
def writeMbx (s : State) (who : Master) (m r : Nat) (v : Word) (bad : State → State) : State :=
  let x := getMbx s m
  if !(mbxParty x who) then (if r < 0x2C then bad s else s)
  else if 0x28 ≤ r then s
  else if r < 0x20 then
    (if x.sender == who && !x.full then setMbx s m { x with data := setField x.data (8 * r) 32 v.toNat } else bad s)
  else if r = 0x20 then writeMbxCtl s who m v bad
  else setMbx s m { x with crossed := clears x.crossed v 2, aborted := clears x.aborted v 3, refused := clears x.refused v 4 }
def writeEvt (s : State) (who : Master) (o : Nat) (v : Word) : State :=
  if o < 0x4000 then writeCj s who (o / 64) (o % 64) v
  else if 0x4100 ≤ o ∧ o < 0x4200 then
    (if o % 16 = 8 then { s with evt := { s.evt with caps := tmod {} ((o - 0x4100) / 16) (fun c : Cap => { c with overflow := clears c.overflow v 4 }) s.evt.caps } } else s)
  else if 0x5000 ≤ o ∧ o < 0x5194 then (if asControl who then writeIc s o v else reject s 11)
  else if 0x6000 ≤ o ∧ o < 0x6100 then writeBind s who ((o - 0x6000) / 4) v
  else if 0x7000 ≤ o ∧ o < 0x8000 then writeMbx s who ((o - 0x7000) / 64) (o % 64) v fun s => reject s 11
  else match o with
    | 0x4000 => writeGroups s who v
    | 0x4008 => { s with evt := { s.evt with lost := clears s.evt.lost v 16 } }
    | _ => s

/-! ### Twin (11 R362, R364) -/

/-- firmware records the twin's registers in the configuration bank (Table 11-8) -/
def noteTwin (s : State) : State := if s.rst.fwReady then saveTwin s else s
def setTw (s : State) (t : Twin) : State := { s with tw := t }
/-- `TWIN_CFG` -/
def writeTwinCfg (s : State) (v : Word) : State :=
  let t := s.tw
  let timeOk := decide (5 ≤ bitsAt v 0 14) && decide (bitsAt v 0 14 ≤ 10000)
  let modeOk := bitsAt v 14 2 != 3
  let keyOk := t.state == 0 || bitsAt v 20 12 == t.key.toNat
  let s := setTw s { t with timeout := if timeOk then v.extractLsb' 0 14 else t.timeout, fenceMode := if modeOk then v.extractLsb' 14 2 else t.fenceMode
                            autoFence := v.getLsbD 16, key := if keyOk then v.extractLsb' 20 12 else t.key }
  noteTwin (rejectIf (!timeOk || !modeOk || !keyOk) s 12)
/-- `TWIN_SPLIT` -/
def writeSplit (s : State) (v : Word) : State :=
  let x := bitsAt v 0 20
  if x < 2 || (s.tw.state != 0 && x != s.tw.split.toNat) then reject s 12 else noteTwin (setTw s { s.tw with split := v.extractLsb' 0 20 })
/-- `TWIN_SHADOW` -/
def writeShadow (s : State) (v : Word) : State :=
  let t := s.tw
  let out := t.state == 0
  let sOk := decide (bitsAt v 0 9 ≤ 479) && (out || bitsAt v 0 9 == t.storeBase.toNat)
  let cOk := decide (bitsAt v 16 7 ≤ 119) && (out || bitsAt v 16 7 == t.ctmBase.toNat)
  let s := setTw s { t with storeBase := if sOk then v.extractLsb' 0 9 else t.storeBase, ctmBase := if cOk then v.extractLsb' 16 7 else t.ctmBase }
  noteTwin (rejectIf (!sOk || !cOk) s 12)
/-- a pronoun of the range taken over -/
def inTaken (s : State) (n : Nat) : Bool := isLow s n == s.tw.id
/-- HANDBACK in PAIRED (R362) -/
def handback (s : State) : State :=
  if s.tw.state != 3 || !s.tw.tookOver || boundIn s s.tw.id || s.fs.window.any (fun c => inTaken s c.prn) then reject s 12
  else if s.tw.handing then s
  else copyLines { s with tw := { s.tw with handing := true } } (regionLines s true)
def writeTwin (s : State) (o : Nat) (v : Word) : State :=
  if 0x20 ≤ o ∧ o < 0x40 then
    let k := (o - 0x20) / 4
    noteTwin (setTw s { s.tw with qmap := (List.range 4).foldl (fun q j => tset 0 (4 * k + j) (v.extractLsb' (8 * j) 8 &&& 0x9F) q) s.tw.qmap })
  else match o with
    | 0 => writeTwinCfg s v
    | 4 => writeSplit s v
    | 8 => writeShadow s v
    | 0x10 => if v.getLsbD 0 then handback s else s
    | _ => s

/-! ### Power (12 Table 12-8, 16 R467) -/

/-- the hold-up fields' board values are recorded (15 Table 15-5) -/
def noteBoard (s : State) : State :=
  let s := evalHoldup s
  if s.rst.fwReady then
    { s with nv := { s.nv with board := bankPut s.nv.board { cfg0 := s.hu.cfg0, cfg1 := s.hu.cfg1, cfg2 := s.hu.cfg2, need := s.hu.need } } }
  else s
/-- a unit that `PWR_SLEEP_CFG` may name (Table 12-8) -/
def imageUnitOk (s : State) (u : Nat) : Bool :=
  let a := u * mib64
  let shadow := s.tw.state != 0 || s.tw.storeBase != 0 || s.tw.ctmBase != 0
  decide (u ≤ 479) && rangeClear s a mib64
    && !(shadow && (overlaps a mib64 (storeStart s) storeBytes || overlaps a mib64 (shadowStart s) (s.tw.peerCtm.toNat * unit256)))
/-- `PWR_SLEEP_CFG` -/
def writeSleepCfg (s : State) (v : Word) : State :=
  if !s.sched.configured then reject s 13
  else
    let u := bitsAt v 0 9
    let ok := !s.pwr.imageSet && imageUnitOk s u
    let wOk := bitsAt v 16 8 != 0
    let s := { s with pwr := { s.pwr with imageBase := if ok then v.extractLsb' 0 9 else s.pwr.imageBase, imageSet := s.pwr.imageSet || ok
                                          d3wait := if wOk then v.extractLsb' 16 8 else s.pwr.d3wait } }
    rejectIf (!ok || !wOk) s 13
/-- `HU_CFG0` -/
def writeHu0 (s : State) (v : Word) : State :=
  let ok := decide (bitsAt v 0 12 + 16 ≤ bitsAt v 16 12)
  let new : Word := if ok then v &&& 0xFFFF0FFF else (v &&& 0xF0000000) ||| (s.hu.cfg0 &&& 0x0FFFFFFF)
  noteBoard (rejectIf (!ok) (setHu s { s.hu with cfg0 := new }) 13)
/-- `HU_CFG1`, field by field (R6); VCAP_MIN is judged beside the VCAP_TARGET that this write leaves -/
def writeHu1 (s : State) (v : Word) : State :=
  let old := s.hu.cfg1
  let tOk := decide (1067 ≤ bitsAt v 0 12) && decide (bitsAt v 0 12 ≤ 3040)
  let new : Word := if tOk then setField old 0 12 (bitsAt v 0 12) else old
  let mOk := decide (bitsAt v 16 12 < bitsAt new 0 12)
  let new : Word := if mOk then setField new 16 12 (bitsAt v 16 12) else new
  let iOk := bitsAt v 28 4 != 0
  let new : Word := if iOk then setField new 28 4 (bitsAt v 28 4) else new
  noteBoard (rejectIf (!tOk || !mOk || !iOk) (setHu s { s.hu with cfg1 := new }) 13)
def writePwr (s : State) (o : Nat) (v : Word) : State :=
  match o with
  | 0 => { s with pwr := { s.pwr with aborted := clears s.pwr.aborted v 3 } }
  | 4 => writeSleepCfg s v
  | 8 => { s with pwr := { s.pwr with cause := w1c s.pwr.cause v } }
  | 0xC => { s with pwr := { s.pwr with wakeTimer := v } }
  | 0x20 => writeHu0 s v
  | 0x24 => writeHu1 s v
  | 0x28 => noteBoard (setHu s { s.hu with cfg2 := v })
  | 0x38 => noteBoard (setHu s { s.hu with need := v.extractLsb' 16 16 })
  | 0x3C => huRequest s (bitsAt v 0 4)
  | 0x80 => gpioDirWrite s (v.extractLsb' 0 16)
  | 0x84 => gpioOutWrite s (v.extractLsb' 0 16)
  | 0x8C => { s with pwr := { s.pwr with gpioPull := v } }
  | _ => s

/-! ### Security, faults, resets -/

def writeSec (s : State) (o : Nat) (v : Word) : State := if o = 4 ∧ v.getLsbD 0 then newNonce s else s
def writeFlt (s : State) (o : Nat) (v : Word) : State :=
  let f := s.flt
  match o with
  | 0 => { s with flt := { f with trackFull := clears f.trackFull v 1, repairOut := clears f.repairOut v 2, stageLow := clears f.stageLow v 3 } }
  | 4 => if bitsAt v 0 8 = 0 then reject s 15 else { s with flt := { f with threshold := v.extractLsb' 0 8 } }
  | 8 => fltFence s v
  | 0xD0 => fltRetire s v
  | _ => s
/-- `RST_WDOG`, `RST_WDOG_KICK` and `RST_ENGINE` (15 R460) -/
def wdogWrite (s : State) (who : Master) (v : Word) : State :=
  if who = 0 then { s with rst := { s.rst with wdog := v.extractLsb' 0 16 } } else reject s 16
def kickWrite (s : State) (who : Master) (v : Word) : State := if who = 0 ∧ v = 0xA5C3 then s else reject s 16
def engineWrite (s : State) (who : Master) (v : Word) : State := if who = 0 then engineReset s (bitsAt v 0 5) else reject s 16
def writeRst (s : State) (who : Master) (o : Nat) (v : Word) : State :=
  match o with
  | 4 => wdogWrite s who v
  | 8 => kickWrite s who v
  | 0xC => engineWrite s who v
  | _ => s

/-! ### One write (Table 9-2) -/

/-- A write of a register by its BAR0 offset; in the function-local window it is discarded here (R280, R281). -/
def regWrite (s : State) (who : Master) (off : Nat) (v : Word) : State :=
  if off % 4 ≠ 0 then s
  else if off < 0x1000 then writeDev s off v
  else if off < 0x2000 then writeSched s (off - 0x1000) v
  else if off < 0x3000 then writeCls s (off - 0x2000) v
  else if off < 0x4000 then writeFs s (off - 0x3000) v
  else if off < 0x10000 then s
  else if off < 0x12000 then writeMv s (off - 0x10000) v
  else if off < 0x20000 then writeXf s (off - 0x12000) v
  else if off < 0x40000 then writeArb s (off - 0x20000) v
  else if off < 0x80000 then writeCe s (off - 0x40000) v
  else if off < 0x100000 then writeQ s (off - 0x80000) v
  else if off < 0x110000 then writeEcl s (off - 0x100000) v
  else if off < 0x120000 then writeEvt s who (off - 0x110000) v
  else if off < 0x130000 then writeTwin s (off - 0x120000) v
  else if off < 0x140000 then writePwr s (off - 0x130000) v
  else if off < 0x150000 then writeSec s (off - 0x140000) v
  else if off < 0x160000 then writeFlt s (off - 0x150000) v
  else if off < 0x170000 then writeRst s who (off - 0x160000) v
  else s

end Sys2Proof.Machine
end

