-- ==== Sys2Proof/Machine/HostAccess.lean ====
section
/-!
DEFINITION. Accesses of the host: the function-local block (09 R280 to R286, R292, R295), BAR0, BAR2 and doorbell pages
(R281 to R284, 03 R69, 01 R15), as sleep, D3hot and a part without firmware meet them (12 R371, R375, 15 R492).
-/

namespace Sys2Proof.Machine

/-! ### The function-local block (Tables 9-3, 9-4) -/

def hfStatus (f : Func) : Nat :=
  b2n f.ready + 2 * b2n f.fetchErr + 4 * b2n f.wrReject + 8 * b2n f.pendAtSleep + 2 ^ 16 * f.sqHead.toNat
def hfModReg (x : Vec) : Nat := x.count.toNat + 2 ^ 8 * x.time.toNat + 2 ^ 24 * x.pending.toNat
def sqHeadReg (s : State) (m : Master) (n : Nat) : Nat :=
  match getSq s n with
  | some q => if q.owner == m then q.cons + 2 ^ 16 * q.prod else 0
  | none => 0
/-- a read of the function's own block -/
def hfRead (s : State) (m : Master) (o : Nat) : Word :=
  let f := getFunc s m
  if 0x1000 ≤ o ∧ o < 0x2000 then low32 (readMbx s m ((o - 0x1000) / 64) (o % 64))
  else if 0x2000 ≤ o ∧ o < 0x4000 then (if (o - 0x2000) / 4 < vecCount m then low32 (hfModReg (getVec s m ((o - 0x2000) / 4))) else 0)
  else if 0x4000 ≤ o ∧ o < 0x8000 then low32 (sqHeadReg s m ((o - 0x4000) / 4))
  else if 0x10000 ≤ o ∧ o < 0x18000 then (if (o - 0x10000) / 16 < vecCount m then msixRead s m ((o - 0x10000) / 16) (o % 16 / 4) else 0)
  else if 0x18000 ≤ o then (if 8 * (o - 0x18000) < vecCount m then pbaRead s m ((o - 0x18000) / 4) else 0)
  else match o with
    | 0 => f.sqBase.extractLsb' 0 32
    | 4 => f.sqBase.extractLsb' 32 32
    | 8 => f.rqBase.extractLsb' 0 32
    | 0xC => f.rqBase.extractLsb' 32 32
    | 0x10 => low32 (f.size.toNat + 2 ^ 16 * f.vector.toNat + 2 ^ 31 * b2n f.enable)
    | 0x14 => low32 f.tail.toNat
    | 0x18 => low32 f.head.toNat
    | 0x1C => low32 (hfStatus f)
    | _ => 0
/-- a write of the function's own block -/
def hfWrite (s : State) (m : Master) (o : Nat) (v : Word) : State :=
  if 0x1000 ≤ o ∧ o < 0x2000 then writeMbx s m ((o - 0x1000) / 64) (o % 64) v fun s => rejectHf s m
  else if 0x2000 ≤ o ∧ o < 0x4000 then (if (o - 0x2000) / 4 < vecCount m then hfMod s m ((o - 0x2000) / 4) v else s)
  else if 0x4000 ≤ o ∧ o < 0x8000 then hfSqHead s m ((o - 0x4000) / 4) v
  else if 0x10000 ≤ o ∧ o < 0x18000 then (if (o - 0x10000) / 16 < vecCount m then msixWrite s m ((o - 0x10000) / 16) (o % 16 / 4) v else s)
  else match o with
    | 0 => hfSqLo s m v
    | 4 => hfSqHi s m v
    | 8 => hfRqLo s m v
    | 0xC => hfRqHi s m v
    | 0x10 => hfCfg s m v
    | 0x14 => hfTail s m v
    | 0x18 => hfRqHead s m v
    | 0x1C => modFunc s m fun f => { f with fetchErr := clears f.fetchErr v 1, wrReject := clears f.wrReject v 2 }
    | _ => s

/-! ### One word of BAR0 (R281, R492) -/

/-- size of a function's BAR0 -/
def bar0Size (m : Master) : Nat := if isPf m then 0x400000 else 0x20000
/-- offset in the function-local block, for an access that reaches it -/
def hfOffset (m : Master) (off : Nat) : Option Nat :=
  if isVf m then some off else if 0x3E0000 ≤ off then some (off - 0x3E0000) else none
/-- an admin register whose writes are held before firmware is ready, by its order -/
def heldReg (o : Nat) : Option Nat :=
  match o with
  | 0 => some 0 | 4 => some 1 | 8 => some 2 | 0xC => some 3 | 0x10 => some 4
  | _ => none
/-- the last value written to each register is kept -/
def holdAdm (s : State) (m : Master) (r : Nat) (v : Word) : State :=
  { s with rst := { s.rst with heldAdm := (s.rst.heldAdm.filter fun e => !(e.1 == m.toNat && e.2.1 == r)) ++ [(m.toNat, r, v)] } }
def inRst (off : Nat) : Bool := decide (0x160000 ≤ off) && decide (off < 0x170000)
/-- the ROM serves a PF's admin registers (13 R406) -/
def romTakes (s : State) (m : Master) (o : Nat) : Bool := s.rst.rom && isPf m && decide (o < 0x20)
/-- a read before firmware is ready: the RST block and `HF_STATUS`, and what the ROM serves -/
def earlyRead (s : State) (m : Master) (off : Nat) : Rd :=
  match hfOffset m off with
  | some o => if o = 0x1C ∨ romTakes s m o then (hfRead s m o, s) else ro s 0
  | none => if inRst off then regRead s m off else ro s 0
def earlyWrite (s : State) (m : Master) (off : Nat) (v : Word) : State :=
  match hfOffset m off with
  | some o =>
    if romTakes s m o then hfWrite s m o v
    else match heldReg o with
      | some r => holdAdm s m r v
      | none => s
  | none => if inRst off then regWrite s m off v else s
/-- a 4-byte read through a function's BAR0 -/
def bar0Read (s : State) (m : Master) (off : Nat) : Rd :=
  if !s.rst.fwReady then earlyRead s m off
  else match hfOffset m off with
    | some o => (hfRead s m o, s)
    | none => regRead s m off
/-- a 4-byte write through it; in sleep and in its entry it is a wake source (12 Table 12-3) -/
def bar0Write (s : State) (m : Master) (off : Nat) (v : Word) : State :=
  if !s.rst.fwReady then earlyWrite s m off v
  else
    let s := match hfOffset m off with
      | some o => hfWrite s m o v
      | none => regWrite s m off v
    sleepSource s 9

/-! ### BAR0 accesses (R281) -/

/-- naturally aligned, of 4 or 8 bytes, inside the BAR -/
def accessGood (m : Master) (off len : Nat) : Bool :=
  (len == 4 || len == 8) && off % len == 0 && decide (off + len ≤ bar0Size m)
/-- the host reaches memory of a function: in D0, with Memory Space Enable set (PCI Express) -/
def memoryOn (s : State) (m : Master) : Bool :=
  let f := getFunc s (pfOf m)
  !f.d3hot && (if isPf m then f.mse else f.vfMse)
def unsupported (s : State) (m : Master) : State := emit s (.completion m false [] false)
def wordAt (l : List Byte) (i : Nat) : Word := low32 (ofLE ((l.drop (4 * i)).take 4))
def bar0Reads (s : State) (m : Master) (off : Nat) : Nat → State × List Byte
  | 0 => (s, [])
  | k + 1 =>
    let r := bar0Read s m off
    let q := bar0Reads r.2 m (off + 4) k
    (q.1, toLE 4 r.1.toNat ++ q.2)
def bar0Writes (s : State) (m : Master) (off : Nat) : List Word → State
  | [] => s
  | w :: l => bar0Writes (bar0Write s m off w) m (off + 4) l
def bar0Op (s : State) (m : Master) (a : BarAccess) : State :=
  let off := a.off.toNat
  let len := a.len.toNat
  if !(accessGood m off len) || !(memoryOn s m) then unsupported s m
  else if a.write then bar0Writes s m off ((List.range (len / 4)).map (wordAt a.data))
  else
    let r := bar0Reads s m off (len / 4)
    emit r.1 (.completion m true r.2 false)

/-! ### BAR2 (R282, 01 R15, 03 R59) -/

/-- outside usable DRAM, or in the pronoun or script frame tables -/
def bar2Gone (s : State) (o n : Nat) : Bool := decide (dramSize < o + n) || (s.sched.configured && overlaps o n (prnStart s) prnTablesLen)
def bar2Op (s : State) (m : Master) (a : BarAccess) : State :=
  let o := a.off.toNat
  let n := a.len.toNat
  if !(isPf m) || !(memoryOn s m) || !s.rst.fwReady || bar2Gone s o n then unsupported s m
  else if a.write then
    (if overlaps o n (ctmStart s) (ctmBytes s) then unsupported s m else writeDram s o (padTo n a.data))
  else emit s (.completion m true (getBytes s.mem.dram o n) (dramPoisoned s o n))

/-! ### Doorbells (R284, 03 R69) -/

def dbAligned (off n : Nat) : Bool := (n == 4 || n == 8 || n == 16 || n == 32 || n == 64) && off % n == 0
/-- a write of another size or alignment is discarded -/
def dbWriteBad (s : State) : State :=
  rcPulse s.sched.dbRejected { s with sched := { s.sched with dbRejected := satInc s.sched.dbRejected, dbReject := true } }
/-- a word acts, or is held while the part enters a sleep or sleeps (12 Table 12-2) -/
def dbWord (m : Master) (s : State) (w : Word) : State :=
  if s.pwr.sleep == .awake then wordActs m s w else if w = 0 then s else holdAct s (.word m w)
def doorbellOp (s : State) (m : Master) (off : Nat) (l : List Byte) : State :=
  if !s.rst.fwReady then s
  else if !(memoryOn s m) || (isVf m && decide (4096 ≤ off)) then s
  else if !(dbAligned off l.length) then sleepSource (dbWriteBad s) 9
  else sleepSource (((List.range (l.length / 4)).map (wordAt l)).foldl (dbWord m) s) 9

/-! ### Configuration writes (R297 to R299, Table 9-1, 15 R450) -/

def setLinkOf (s : State) (m : Master) (f : HLink → HLink) : State :=
  if s.hp.split && pfOf m == 0x41 then { s with hp := { s.hp with linkB := f s.hp.linkB } } else { s with hp := { s.hp with linkA := f s.hp.linkA } }
/-- VF Enable cleared resets the VFs, in one pulse of source 324 (10 Table 10-10, R302) -/
def vfEnableWrite (s : State) (pf : Master) (on : Bool) : State :=
  let was := (getFunc s pf).vfEnable
  if was && !on then
    modFunc (pulse (((familyOf pf).drop 1).foldl flr s) 324) pf fun f => { f with vfEnable := false }
  else modFunc s pf fun f => { f with vfEnable := on }
def configOp (s : State) (m : Master) (w : CfgWrite) : State :=
  match w with
  | .busMaster on =>
    let was := (getFunc s m).bme
    let s := modFunc s m fun f => { f with bme := on }
    if on && !was then busMasterOn s m else s
  | .msix en mask =>
    let s := modFunc s m fun f => { f with msixEn := en, fmask := mask }
    (vecNums s m).foldl (fun s n => sendPba s m n) s
  | .memorySpace on => if isPf m then modFunc s m fun f => { f with mse := on } else s
  | .vfMemorySpace on => if isPf m then modFunc s m fun f => { f with vfMse := on } else s
  | .sizes pay read => modFunc s m fun f => { f with mps := if 2 < pay.toNat then 2 else pay, mrrs := if read.toNat ≤ 5 then read else f.mrrs }
  | .pmeEnable on => if isPf m then modFunc s m fun f => { f with pmeEn := on } else s
  | .vfEnable on => if isPf m then vfEnableWrite s m on else s
  | .aspm on => setLinkOf s m fun l => { l with aspm := on, l1 := l.l1 && on }

/-! ### The configuration space's values (R278, Table 9-1, R299) -/

/-- What configuration space holds for a function, as read; nothing else of it is present. -/
inductive CfgItem where
  | vendorId | deviceId | revisionId | classCode | subsystemIds | maxPayloadCap | vectors | totalVfs | vfStride | firstVf | l1ExitLatency
deriving DecidableEq, Repr
def cfgValue (s : State) (m : Master) : CfgItem → Nat
  | .vendorId => 0x1F4B
  | .deviceId => if isPf m then 0x7128 else 0x7129
  | .revisionId => Sys2Proof.Config.stepping.toNat
  | .classCode => 0x120000
  | .subsystemIds => ((bankUse s.nv.subsys).getD 0).toNat
  -- codes of 512 bytes, and of 2 to 4 µs (PCI Express)
  | .maxPayloadCap => 2
  | .l1ExitLatency => 2
  | .vectors => vecCount m
  | .totalVfs => if isPf m then 32 else 0
  | .vfStride => if isPf m then 1 else 0
  | .firstVf => if !(isPf m) then 0 else if m == 0x41 && !s.hp.split then 39 else 8

/-! ### A request of the host (12 R375) -/

/-- the host's configuration write is complete (R298) -/
def cfgDone (s : State) (m : Master) : State := emit s (.completion m true [] false)
/-- what a request does once the part answers it -/
def hostDoes (m : Master) (r : HostReq) (s : State) : State :=
  match r with
  | .bar0 a => bar0Op s m a
  | .bar2 a => bar2Op s m a
  | .doorbell off l => doorbellOp s m off l
  | .power d3hot => cfgDone (if d3hot then d3Entry s m else d0Entry s m) m
  | .config w => cfgDone (configOp s m w) m
  | .flr => pulse (flr (cfgDone s m) m) (flrSource m)
/-- held requests run once the part has woken -/
def afterWake (s : State) : State :=
  if s.pwr.sleep != .awake || s.pwr.held.isEmpty then s
  else
    let l := s.pwr.held
    l.foldl (fun s h => match h with | .request m r => hostDoes m r s | _ => s) { s with pwr := { s.pwr with held := [] } }
/-- a write of one word of a function's own block, by its offset there -/
def hfWord (m : Master) (o : Nat) (v : Word) : HostReq :=
  .bar0 { write := true, off := BitVec.ofNat 35 ((if isPf m then 0x3E0000 else 0) + o), len := 4, data := toLE 4 v.toNat }
/-- A request of a function reaches the part, by a link that is in L0 for it: in DEEP SLEEP it is a wake source, and is held
while the part sleeps on. -/
def hostRequest (s0 : State) (m : Master) (r : HostReq) : State :=
  let s := exitL1 s0 m
  if !(hostReaches s0 m) then s0
  else if s.pwr.sleep == .deep then
    let s := afterWake (sleepSource s 9)
    if s.pwr.sleep == .deep then holdAct s (.request m r) else hostDoes m r s
  else afterWake (hostDoes m r s)

end Sys2Proof.Machine
end

