-- ==== Sys2Proof/Machine/Admin.lean ====
section
/-!
DEFINITION. Admin commands: packets, the order of checks and permission (09 R286 to R291), and the device, quad and port
commands (09 Table 9-9, R491).
-/

namespace Sys2Proof.Machine

/-! ### Packets (Table 9-6) -/

abbrev Packet := BitVec 512

/-- n bytes of the packet from byte i -/
def pkF (p : Packet) (i n : Nat) : Nat := bitsAt p (8 * i) (8 * n)
def pkBit (p : Packet) (i b : Nat) : Bool := p.getLsbD (8 * i + b)
def pkIova (p : Packet) : Nat := pkF p 16 8

/-- the defined opcodes (Tables 9-9 to 9-11) -/
def adminOps : List Nat :=
  [0x0001, 0x0002, 0x0003, 0x0004, 0x0005, 0x0101, 0x0102, 0x0103, 0x0104, 0x0105, 0x0106, 0x0107, 0x0108, 0x0109, 0x010A, 0x010B,
   0x010C, 0x0201, 0x0202, 0x0203, 0x0204, 0x0205, 0x0206, 0x0207, 0x0208, 0x0209, 0x0301, 0x0302, 0x0303, 0x0304, 0x0401, 0x0402,
   0x0403, 0x0501, 0x0502, 0x0503, 0x0504, 0x0601, 0x0602, 0x0603, 0x0604, 0x0605, 0x0701, 0x0702, 0x0801, 0x0802, 0x0803]
/-- those a VF may issue (R291) -/
def vfOps : List Nat :=
  [0x0001, 0x0201, 0x0202, 0x0203, 0x0204, 0x0205, 0x0206, 0x0207, 0x0208, 0x0209, 0x0401, 0x0402, 0x0403, 0x0701]
/-- those a FENCED part serves (11 R356) -/
def fencedOps : List Nat := [0x0001, 0x0601, 0x0605, 0x0801, 0x0803]
/-- OPCODE, FLAGS.ORDERED, TAG, and the bits a command names, as byte and value pairs -/
def namedBits (l : List (Nat × Nat)) : Packet :=
  (l ++ [(0, 0xFFFF), (2, 1), (4, 0xFFFF)]).foldl (fun (m : Packet) (e : Nat × Nat) => m ||| BitVec.ofNat 512 (e.2 * 2 ^ (8 * e.1))) 0
/-- n whole bytes from byte i -/
def wholeBytes (i n : Nat) : Nat × Nat := (i, 2 ^ (8 * n) - 1)
/-- the lowest byte with a bit outside those named (R290 step 2) -/
def strayByte (p : Packet) (l : List (Nat × Nat)) : Option Nat :=
  (List.range 64).find? fun i => pkF (p &&& ~~~(namedBits l)) i 1 != 0

/-! ### Starting a command (R286 to R288) -/

/-- replies of earlier commands of the queue are still to be written -/
def replyDue (s : State) (fn : Master) : Bool := s.hp.held.any fun h => h.fn == fn
/-- an earlier command of the queue has not taken effect yet, and its reply is none that R288 holds (R287) -/
def inEffect (s : State) (fn : Master) : Bool :=
  s.hp.held.any fun h => h.fn == fn && !(heldReply h.why) && (match h.why with | .room _ => false | _ => true)
/-- a queue has a packet that may start: the part serves it, and the reply ring has room -/
def hasWork (s : State) (fn : Master) : Bool :=
  let f := getFunc s fn
  (s.rst.fwReady || (s.rst.rom && isPf fn)) && controlRuns s && takesPackets s fn && replyRoom f && !(inEffect s fn)
    && (match f.fetched with | p :: _ => !(pkBit p 2 0 && replyDue s fn) | [] => false)
/-- every function, in descending master identity -/
def fnsDown : List Master := ((List.range 72).map fun k => BitVec.ofNat 8 (0x87 - k)).filter fun m => isFn m
/-- the queue whose turn it is: the next with work, in descending master identity (R287) -/
def nextTurn (s : State) : Option Master :=
  let l := fnsDown.filter (hasWork s)
  match s.hp.turn with
  | none => l.head?
  | some t => ((l.filter fun m => decide (m.toNat < t.toNat)) ++ l).head?
/-- the function's next packet may start: it is the queue's turn -/
def mayStart (s : State) (fn : Master) (p : Packet) : Bool :=
  hasWork s fn && (getFunc s fn).fetched.head? == some p && nextTurn s == some fn
def takePacket (s : State) (fn : Master) : State :=
  modFunc { s with hp := { s.hp with turn := some fn } } fn fun f => { f with fetched := f.fetched.drop 1 }
/-- the checks before a command's own: its opcode, the ROM's service (13 R406), a FENCED part, reserved bytes, a VF's
commands -/
def firstChecks (s : State) (fn : Master) (p : Packet) (named : List (Nat × Nat)) (f : State → Ans) : Ans :=
  let op := pkF p 0 2
  if !(adminOps.contains op) then refuse s stInvalidOp
  else if s.rst.rom && op != 1 then refuse s stState
  else if isFenced s && !(fencedOps.contains op) then refuse s stFenced
  else match strayByte p named with
    | some i => badField s (BitVec.ofNat 8 i)
    | none => if isVf fn && !(vfOps.contains op) then refuse s stDenied else f s
/-- the reply, or what the command leaves to come -/
def answerCmd (fn : Master) (p : Packet) : Ans → State
  | .done s r => reply s fn (p.extractLsb' 32 16) 0 0 r
  | .held s => s
  | .no s st f r => reply s fn (p.extractLsb' 32 16) st f r
/-- One command of an admin queue. A packet of another defined opcode is not this command's. -/
def adm (op : Nat) (named : List (Nat × Nat)) (f : State → Ans) (fn : Master) (p : Packet) (s : State) : State :=
  if !(mayStart s fn p) || (pkF p 0 2 != op && adminOps.contains (pkF p 0 2)) then s
  else answerCmd fn p (firstChecks (takePacket s fn) fn p named f)

def admTag (p : Packet) : Half := p.extractLsb' 32 16
def num192 (n : Nat) : BitVec 192 := BitVec.ofNat 192 n
/-- commands R448 refuses before CONFIGURE, at step 6 -/
def configured (s : State) (f : Unit → Ans) : Ans := if s.sched.configured then f () else refuse s stState
/-- an IOVA lies in host space -/
def iovaBad (a align : Nat) : Bool := decide (2 ^ 60 ≤ a) || a % align != 0
/-- a host buffer is written, or HOST_ERROR (Table 9-8) -/
def hostPut (s : State) (a : Nat) (l : List Byte) (r : BitVec 192) : Ans :=
  match hostFault s a l.length with
  | some d => hostError s d
  | none => .done (writeHostRaw s a l) r

/-! ### Device commands (Table 9-9) -/

/-- IDENTIFY: a PF may use every pronoun and status queue, a VF its ranges -/
def cmdIdentify (fn : Master) (s : State) : Ans :=
  let f := getFunc s fn
  let pf := isPf fn
  let l := toLE 2 0x7128 ++ [Sys2Proof.Config.stepping.setWidth 8, BitVec.ofNat 8 (lcState s)]
    ++ toLE 4 (if s.rst.rom then 0 else Sys2Proof.Config.firmwareVersion.toNat)
    ++ [s.sched.ctmSize, BitVec.ofNat 8 (pwrState s), s.tw.state.setWidth 8, 0]
    ++ toLE 4 (if pf then 1 else f.prnFirst) ++ toLE 4 (if pf then 0xFFFFF else f.prnCount)
    ++ toLE 2 (if pf then 0 else f.sqFirst) ++ toLE 2 (if pf then 4096 else f.sqCount)
  .done s (num192 (ofLE l))
/-- every record of the pronoun table is written to zero (15 R447) -/
def clearTable (s : State) : State :=
  let a := prnStart s
  let n := unit256
  { s with mem := { s.mem with dram := s.mem.dram.filter fun e => !(overlaps e.1 1 a n), poison := s.mem.poison.filter fun l => !(overlaps (64 * l) 64 a n) }
           sched := { s.sched with recs := [], table := [] } }
/-- CONFIGURE (R448) -/
def cmdConfigure (p : Packet) (s : State) : Ans :=
  let b := pkF p 8 1
  let n := pkF p 9 1
  let t := pkF p 10 1
  if n = 0 ∨ 16 < n then badField s 9
  else if 120 < b + n then badField s 8
  else if 118 < t then badField s 10
  else if s.sched.configured then refuse s stState
  else if overlaps (b * unit256) (n * unit256) (t * unit256) prnTablesLen then refuse s stBinding
  else .done (clearTable { s with sched := { s.sched with configured := true, prnBase := BitVec.ofNat 7 t, prnLocked := true
                                                          ctmBase := BitVec.ofNat 8 b, ctmSize := BitVec.ofNat 8 n } }) 0
/-- RESET_DEVICE: the reply is written first -/
def cmdResetDevice (fn : Master) (p : Packet) (s : State) : Ans :=
  if pkF p 8 1 = 1 then .held (takeReset (reply s fn (admTag p) 0 0 0) .firmware 4) else badField s 8
/-- what SLEEP requires (12 R369) -/
def sleepReady (s : State) (deep : Bool) : Bool :=
  s.sched.configured && s.tw.state == 0 && (s.cls.clauses.all fun c => c.doom.isSome) && s.fs.window.isEmpty
    && (s.sched.recs.all fun e => e.2.state != .queued && e.2.state != .active && e.2.state != .halting)
    && (allTransfers s).isEmpty && s.fs.pendingSave.isNone && (!deep || s.pwr.imageSet)
/-- SLEEP (12 R369, R370, R376): its reply follows the wake or the abandonment -/
def cmdSleep (fn : Master) (p : Packet) (s : State) : Ans :=
  let st := pkF p 8 1
  if st ≠ 2 ∧ st ≠ 3 then badField s 8
  else if s.pwr.sleep != .awake || !(sleepReady s (st == 3)) then refuse s stState
  else
    let s := hold s fn (admTag p) .sleep
    let s := { s with pwr := { s.pwr with mask := p.extractLsb' 128 12 } }
    .held (if st = 2 then enterStandby s else enterDeep s)
/-- ranges [a, a + n) and [b, b + m) share a number -/
def rangesMeet (a n b m : Nat) : Bool := n != 0 && m != 0 && overlaps a n b m
/-- VF n of a PF -/
def vfOf (pf : Master) (n : Nat) : Master := BitVec.ofNat 8 ((if pf == 0x40 then 0x48 else 0x68) + n)
def allVfs : List Master := (List.range 64).map fun k => BitVec.ofNat 8 (0x48 + k)
/-- VF_CONFIG (R291) -/
def cmdVfConfig (fn : Master) (p : Packet) (s : State) : Ans :=
  let a := pkF p 12 4
  let n := pkF p 16 4
  let b := pkF p 20 2
  let m := pkF p 22 2
  if 31 < pkF p 8 1 then badField s 8
  else if 2 ^ 20 ≤ a then badField s 12
  else if 2 ^ 20 < a + n then badField s 16
  else if 4096 ≤ b then badField s 20
  else if 4096 < b + m then badField s 22
  else
    let vf := vfOf fn (pkF p 8 1)
    if (s.sched.recs.any fun e => isBound e.2 && e.2.hostFn == vf) || (s.hp.sqs.any fun q => q.2.owner == vf) then refuse s stState
    else if allVfs.any fun v =>
        let f := getFunc s v
        v != vf && (rangesMeet a n f.prnFirst f.prnCount || rangesMeet b m f.sqFirst f.sqCount) then refuse s stBinding
    else .done (modFunc s vf fun f => { f with prnFirst := a, prnCount := n, sqFirst := b, sqCount := m }) 0

/-! ### Quad and port commands (Table 9-9, R491) -/

/-- QUAD_CONFIG -/
def cmdQuadConfig (p : Packet) (s : State) : Ans :=
  let q := pkF p 8 1
  let v : Word := p.extractLsb' 96 32
  let x := getQ s q
  let y := cfgFields x v
  let en : BitVec 4 := v.extractLsb' 8 4
  if 31 < q then badField s 8
  else if v &&& 0xFFF000C0 != 0 || !(comboLegal y) || en &&& portMask y != en then badField s 12
  else if quadFenced s q then refuse s stFenced
  else if !(sameCfg x y) && x.portEn != 0 then refuse s stState
  else if !(sameCfg x y) && quadBound s q then refuse s stBinding
  else .done (quadCfgWrite s q v) 0
/-- a command on a port of a quad with this profile -/
def onPort (p : Packet) (profile : Nat) (bad : Option Byte) (s : State) (f : Nat → Nat → Ans) : Ans :=
  let q := pkF p 8 1
  let n := pkF p 9 1
  let x := getQ s q
  if 31 < q then badField s 8
  else if 3 < n then badField s 9
  else match bad with
    | some b => badField s b
    | none =>
      if x.profile.toNat ≠ profile ∨ portsOf profile x.arrange.toNat ≤ n then refuse s stNotFound
      else if quadFenced s q then refuse s stFenced
      else f q n
/-- bytes 8 and 9 -/
def portBits : Nat × Nat := wholeBytes 8 2
def whenBad (b : Bool) (i : Nat) : List Byte := if b then [BitVec.ofNat 8 i] else []
/-- inbound regions of other ports meet a range -/
def regionTaken (s : State) (q n a len : Nat) : Bool :=
  s.lk.quads.any fun e => e.2.ports.any fun r =>
    !(e.1 == q && r.1 == n) && r.2.pp.size != 0 && overlaps a len (regionStart r.2.pp) (r.2.pp.size * mib64)
/-- PORT_REGION (08 R240) -/
def cmdPortRegion (p : Packet) (s : State) : Ans :=
  let b := pkF p 12 2
  let z := pkF p 14 2
  onPort p 1 (whenBad (decide (480 < b + z)) 12).head? s fun q n => configured s fun _ =>
    let a := b * mib64
    let len := z * mib64
    if rangesMeet a len (ctmStart s) (ctmBytes s) || rangesMeet a len (prnStart s) prnTablesLen || (z != 0 && regionTaken s q n a len) then
      refuse s stBinding
    else
      let s := modPP s q n fun x => { x with base := b, size := z }
      .done (if portUp (getPort s q n) then adminStart s q n else s) 0
/-- NVME_QUEUES, NS_ADD and RING_SET need the port up with a region -/
def portReady (s : State) (q n : Nat) (f : DeviceInfo → Ans) : Ans :=
  configured s fun _ =>
    let x := getPort s q n
    match x.pp.device with
    | some d => if portUp x && x.pp.size != 0 then f d else refuse s stState
    | none => refuse s stState
/-- the I/O queue pairs laid out after the admin queue, each queue on its own pages (log entry 22) -/
def makePairs (x : PPort) (n e : Nat) : List (Nat × NvPair) :=
  let sq := roundPage (64 * e)
  let per := sq + roundPage (16 * e)
  let from_ := regionStart x + 2 * pageBytes
  (List.range n).map fun i => (i + 1, { entries := e, sqBase := from_ + per * i, cqBase := from_ + per * i + sq })
/-- The admin commands that replace the port's I/O queue pairs (R244; log entry 114): Delete I/O SQ and CQ for those there
are, Set Features 0x07, Create I/O CQ and SQ. -/
def pairCommands (s : State) (q p : Nat) (old new : List (Nat × NvPair)) : State :=
  let s := (old.filter (·.1 != 0)).foldl (fun s e => fwAdmin (fwAdmin s q p 0x00 0 0 [e.1]) q p 0x04 0 0 [e.1]) s
  let s := fwAdmin s q p 0x09 0 0 [7, (new.length - 1) * 65537]
  new.foldl (fun s e =>
    let size := e.1 + (e.2.entries - 1) * 65536
    fwAdmin (fwAdmin s q p 0x05 0 e.2.cqBase [size, 3 + e.1 * 65536]) q p 0x01 0 e.2.sqBase [size, 1 + e.1 * 65536]) s
/-- NVME_QUEUES (08 R243): the controller may grant fewer pairs -/
def cmdNvmeQueues (p : Packet) (s : State) : Ans :=
  let k := pkF p 10 1
  let e := pkF p 12 2
  onPort p 1 (whenBad (k == 0 || decide (64 < k)) 10 ++ whenBad (decide (e < 2) || decide (1024 < e)) 12).head? s fun q n =>
    portReady s q n fun d =>
      if d.nvme.isNone || (boundTo s fun b => bKind b == 1 && bQuad b == q && bPort b == n).isSome then refuse s stState
      else
        let k := min k d.pairs.toNat
        let old := (getPort s q n).pp.pairs
        let l := makePairs (getPort s q n).pp k e
        let s := modPP (l.foldl (fun s e => clearPair s e.2) s) q n fun x => { x with pairs := (old.filter (·.1 == 0)) ++ l }
        .done (pairCommands s q n old l) (num192 k)
/-- NS_ADD (08 R245), in the order of R290 -/
def cmdNsAdd (p : Packet) (s : State) : Ans :=
  let id := pkF p 16 4
  let app := pkBit p 20 1
  let base := pkF p 24 8
  let blocks := pkF p 32 8
  onPort p 1 (whenBad (app && blocks == 0) 32).head? s fun q n =>
    match (getPort s q n).pp.device with
    | none => refuse s stState
    | some d =>
      if d.nvme.isNone then refuse s stState
      else match d.spaces.find? fun x => x.nsid.toNat == id with
        | none => refuse s stNotFound
        | some x =>
          let sh := x.shift.toNat
          let l := (getPort s q n).pp.spaces
          if app ∧ x.blocks.toNat < base + blocks then badField s 24
          else portReady s q n fun _ =>
            if (l.any fun e => e.nsid == id) || (sh != 9 && sh != 12) || x.hasMeta then refuse s stState
            else if 32 ≤ l.length then refuse s stResource
            else
              let e : NsEntry := { nsid := id, tagCarry := pkBit p 20 0, append := app, shift := sh, base := base, blocks := blocks }
              .done (fwAdmin (modPP s q n fun y => { y with spaces := y.spaces ++ [e] }) q n 0x06 id 0 [0])
                (num192 (sh + 2 ^ 64 * x.blocks.toNat))
/-- NS_REMOVE (08 R245) -/
def cmdNsRemove (p : Packet) (s : State) : Ans :=
  let id := pkF p 12 4
  onPort p 1 none s fun q n =>
    if !((getPort s q n).pp.spaces.any fun e => e.nsid == id) then refuse s stNotFound
    else if (boundTo s fun b => bKind b == 1 && bQuad b == q && bPort b == n && bTarget b == id).isSome then refuse s stBinding
    else .done (modPP s q n fun x => { x with spaces := x.spaces.filter fun e => e.nsid != id }) 0
/-- a power of two -/
def isPow2 (n : Nat) : Bool := n != 0 && n &&& (n - 1) == 0
/-- [a, a + n) lies in the port's region -/
def spanInRegion (x : PPort) (a n : Nat) : Bool := decide (regionStart x ≤ a) && decide (a + n ≤ regionEnd x)
/-- the fields of a ring entry out of their ranges, as packet bytes (08 Table 8-9) -/
def ringBad (x : PPort) (e : BitVec 384) : List Byte :=
  let back := rgMode e == 1
  let desc := 2 ^ rgDescShift e
  let comp := 2 ^ rgCompShift e
  let bits := 8 * (if back then desc else comp)
  let n := rgEntries e
  whenBad (decide (rgDescShift e < 4) || decide (6 < rgDescShift e)) 17
    ++ whenBad (decide (1 < rgMode e)) 18
    ++ whenBad (if back then rgCompShift e != 0 else decide (rgCompShift e < 3) || decide (6 < rgCompShift e)) 19
    ++ whenBad (!(isPow2 n) || decide (n < 16) || decide (4096 < n)) 20
    ++ whenBad (decide (bits ≤ rgFlagBit e)) 22
    ++ whenBad (x.size != 0 && !(spanInRegion x (rgBase e) (n * desc))) 24
    ++ whenBad (if back then rgCompBase e != 0 else x.size != 0 && !(spanInRegion x (rgCompBase e) (n * comp))) 32
    ++ whenBad (decide (5 < rgDbBar e)) 40
    ++ whenBad (decide (5 < rgStBar e)) 41
    ++ whenBad (rgErrBit e != 0xFFFF && decide (bits ≤ rgErrBit e)) 42
    ++ whenBad (rgDbOff e % 4 != 0) 44
    ++ whenBad (rgStOff e % 4 != 0) 48
    ++ whenBad (decide (rgStSize e < 4) || decide (256 < rgStSize e) || rgStSize e % 4 != 0) 52
def ringBound (s : State) (q n r : Nat) : Bool := (boundTo s fun b => bKind b == 2 && bQuad b == q && bPort b == n && bQueue b == r).isSome
/-- RING_SET (08 R250) -/
def cmdRingSet (p : Packet) (s : State) : Ans :=
  let r := pkF p 10 1
  let e : BitVec 384 := p.extractLsb' 128 384
  let x := (getPort s (pkF p 8 1) (pkF p 9 1)).pp
  onPort p 1 (whenBad (decide (15 < r)) 10 ++ ringBad x e).head? s fun q n =>
    portReady s q n fun d =>
      if !(d.funcs.any fun f => f.num.toNat == rgFunction e) || ringBound s q n r then refuse s stState
      else .done (modPP (clearRing s { entry := e }) q n fun x => { x with rings := aset r { entry := e } x.rings }) 0
/-- RING_CLEAR -/
def cmdRingClear (p : Packet) (s : State) : Ans :=
  let r := pkF p 10 1
  onPort p 1 (whenBad (decide (15 < r)) 10).head? s fun q n =>
    if (aget (getPort s q n).pp.rings r).isNone then refuse s stNotFound
    else if ringBound s q n r then refuse s stState
    else .done (modPP s q n fun x => { x with rings := adel r x.rings }) 0
/-- ETH_UNICAST -/
def cmdEthUnicast (p : Packet) (s : State) : Ans :=
  let i := pkF p 10 1
  let a : Option (BitVec 48) := if pkBit p 11 0 then some (p.extractLsb' 128 48) else none
  onPort p 2 (whenBad (decide (15 < i)) 10).head? s fun q n =>
    .done (modEP s q n fun x => { x with uni := tset none i a x.uni }) 0
/-- ETH_MULTICAST -/
def cmdEthMulticast (p : Packet) (s : State) : Ans :=
  let i := pkF p 10 2
  onPort p 2 (whenBad (decide (511 < i)) 10).head? s fun q n =>
    .done (modEP s q n fun x => { x with multi := setBit x.multi i (pkBit p 12 0) }) 0

/-! ### Flow table and buckets (08 R257 to R259) -/

def flowEntries (s : State) : Nat := 4 * flowGroups s
/-- FLOW_ADD -/
def cmdFlowAdd (p : Packet) (s : State) : Ans :=
  let e := (toLE 64 p.toNat).drop 16
  let key := e.take 44
  if pkF p 17 1 / 4 % 4 = 3 then badField s 17
  else if quadFenced s (bitsAt p (8 * 16) 5) then refuse s stFenced
  else if !s.sched.configured || !s.lk.flowEn then refuse s stState
  else if (flowFind s key).isSome then refuse s stState
  else match (groupEntries (hash1 s key) ++ groupEntries (hash2 s key)).find? fun i => !(resValid (entryRes s i)) with
    | none => refuse s stResource
    | some i => .done (writeDram s (flowEntryAt s i) (e.take 48 ++ List.replicate 16 0)) (num192 i)
/-- FLOW_DELETE: an index whose entry is not VALID, or a table that is not enabled, names no entry -/
def cmdFlowDelete (p : Packet) (s : State) : Ans :=
  let i := pkF p 8 4
  if flowEntries s ≤ i then badField s 8
  else if !s.lk.flowEn || !(resValid (entryRes s i)) then refuse s stNotFound
  else if (boundTo s fun b => bKind b == 3 && bTarget b == i).isSome then refuse s stBinding
  else
    let w := setBit (entryRes s i) 20 false
    .done (writeDram s (flowEntryAt s i + 44) (toLE 4 w.toNat)) 0
/-- BUCKET_SET -/
def cmdBucketSet (p : Packet) (s : State) : Ans :=
  let k := pkF p 12 4
  let v : Word := p.extractLsb' 128 32
  let x := (getPort s (pkF p 8 1) (pkF p 9 1)).ep
  onPort p 2 (whenBad (decide (2 ^ x.bucketShift.toNat ≤ k)) 12).head? s fun q n =>
    if !s.sched.configured || !x.bucketEn then refuse s stState
    else
      let old : Word := BitVec.ofNat 32 (ofLE (getBytes s.mem.dram (bucketAt x k) 4))
      let bound := (boundTo s fun b => bKind b == 4 && bQuad b == q && bPort b == n && bTarget b == k).isSome
      if bound && (resPron old != resPron v || !(resValid v)) then refuse s stBinding
      else .done (writeDram s (bucketAt x k) (toLE 4 v.toNat)) 0

end Sys2Proof.Machine
end

