-- ==== Sys2Proof/Machine/AdminPron.lean ====
section
/-!
DEFINITION. Admin commands on pronouns, saves, status queues, events and mailboxes (09 Table 9-10; 03 R60 to R83;
05 R144 to R147).
-/

namespace Sys2Proof.Machine

/-! ### Permission on pronouns and queues (R291) -/

/-- a function acts on what another owns: the owner itself, or the owner's PF -/
def mayUse (fn owner : Master) : Bool := owner == fn || (isPf fn && pfOf owner == fn)
def inVfRange (s : State) (vf : Master) (n : Nat) : Bool :=
  let f := getFunc s vf
  decide (f.prnFirst ≤ n) && decide (n < f.prnFirst + f.prnCount)
/-- the function may name the pronoun -/
def prnAllowed (s : State) (fn : Master) (n : Nat) : Bool :=
  let p := getP s n
  (isPf fn || inVfRange s fn n) && (!(isBound p) || mayUse fn p.hostFn)
/-- bytes 8 to 11 as a pronoun -/
def prnBits : Nat × Nat := (8, 0xFFFFF)
def pkPrn (p : Packet) : Nat := pkF p 8 4
/-- a command on a pronoun: permission, the null pronoun (R58), its ranges, and CONFIGURE done (R448) -/
def onPron (fn : Master) (p : Packet) (bad : Option Byte) (s : State) (f : Nat → Ans) : Ans :=
  let n := pkPrn p
  if !(prnAllowed s fn n) then refuse s stDenied
  else if n = 0 then badField s 8
  else match bad with
    | some b => badField s b
    | none => configured s fun _ => f n

/-! ### Records as bytes (Table 3-2) -/

def stateCode : PState → Nat
  | .unbound => 0 | .idle => 1 | .queued => 2 | .active => 3 | .waiting => 4 | .parenthesis => 5 | .halting => 6 | .checked => 7
/-- record byte 0x03 -/
def recFlags (s : State) (n : Nat) (p : Pron) : Nat :=
  b2n p.autoStart + 2 * b2n p.startPending + 4 * b2n (p.state == .halting) + 8 * b2n p.moverHold + 16 * b2n (clauseOf s n).isSome
    + 32 * b2n p.script.isSome
/-- record bytes 0x00 to 0x7F -/
def recBytes (s : State) (n : Nat) : List Byte :=
  let p := getP s n
  toLE 1 (stateCode p.state) ++ toLE 1 p.runLevel.toNat ++ toLE 1 (p.retryLimit.toNat + 16 * p.retryCount.toNat)
    ++ toLE 1 (recFlags s n p) ++ toLE 4 p.affinity.toNat ++ toLE 2 p.statusQueue.toNat ++ [p.resumeMask, p.waitOverflow]
    ++ toLE 4 p.waitPending.toNat ++ toLE 1 (p.wakeInput.toNat + 16 * p.wakeCause.toNat) ++ [p.checkKind] ++ toLE 2 p.seq.toNat
    ++ [p.lastPc, p.lastAbort, p.hostFn, 0] ++ toLE 8 p.startAddr.toNat ++ toLE 8 p.ccwAddr.toNat ++ toLE 4 p.residual.toNat
    ++ toLE 4 p.framesIn.toNat ++ toLE 6 p.lastTag.toNat ++ [0, 0] ++ toLE 4 p.starts.toNat ++ [0, 0, 0, 0] ++ toLE 64 p.binds.toNat

/-! ### BIND (R60, R62, R63; 11 R333, R357) -/

/-- the bits of a binding entry that its KIND may set (Tables 3-4, 3-5) -/
def bindMask (k : Nat) : Nat :=
  let head := 0x00031FFF
  match k with
  | 0 => head
  | 1 => 2 ^ 128 - 1 - 0xFCE000 
  | 2 => head + 0xFF000000
  | 3 => head + 0xFF000000 + 0xFFFFF * 2 ^ 32
  | 4 => head + 0xFF000000 + 0xFFFF * 2 ^ 32
  | 5 => head + 0xFF000000 + 0xFF * 2 ^ 32
  | _ => 2 ^ 128 - 1
/-- record bytes 0x00 to 0x3F that BIND sets -/
def headMask : Nat :=
  [(1, 0x07), (2, 0x0F), (3, 0x01), (4, 0xFFFFFFFF), (8, 0x0FFF), (10, 0xFF), (0x16, 0xFF), (0x18, 0xFFFFFFFFFFFFFFFF)].foldl
    (fun m e => m + e.2 * 2 ^ (8 * e.1)) 0
/-- the record image: its settings and its bindings -/
structure RecImage where
  bits : BitVec 1024
deriving DecidableEq, Repr
def imBind (x : RecImage) (i : Nat) : BitVec 128 := x.bits.extractLsb' (512 + 128 * i) 128
def imFn (x : RecImage) : Byte := x.bits.extractLsb' 176 8
def imAffinity (x : RecImage) : Word := x.bits.extractLsb' 32 32
def imSq (x : RecImage) : BitVec 12 := x.bits.extractLsb' 64 12
/-- all bits the image may set -/
def imMask (x : RecImage) : BitVec 1024 :=
  BitVec.ofNat 1024 (((List.range 4).map fun i => bindMask (bKind (imBind x i)) * 2 ^ (512 + 128 * i)).sum + headMask)
/-- the lowest byte with a bit that must be zero -/
def imStray (x : RecImage) : Option Nat := (List.range 128).find? fun i => bitsAt (x.bits &&& ~~~(imMask x)) (8 * i) 8 != 0
/-- a binding entry's first byte out of range -/
def bindRange (b : BitVec 128) : List Nat :=
  let k := bKind b
  let q := bQueue b
  let bad : Bool := match k with
    | 1 => q == 0 || decide (64 < q)
    | 2 => decide (15 < q)
    | 3 => decide (7 < q)
    | 4 => decide (7 < q)
    | 5 => decide (3 < q)
    | _ => false
  (if 5 < k then [0] else []) ++ (if bad then [3] else []) ++ (if k = 1 ∧ (bTarget b = 0 ∨ bTarget b = 2 ^ 32 - 1) then [4] else [])
/-- the lowest byte of the image out of range -/
def imRange (x : RecImage) : Option Nat :=
  ((if imAffinity x = 0 then [4] else []) ++ (if isFn (imFn x) then [] else [0x16])
    ++ ((List.range 4).map fun i => (bindRange (imBind x i)).map fun j => 0x40 + 16 * i + j).flatten).head?
/-- the record's FIELD_OFFSET of an image byte -/
def imOffset (i : Nat) : Byte := BitVec.ofNat 8 (0x80 + i)
/-- the permission BIND's content needs: HOST_FUNCTION and STATUS_QUEUE (R291) -/
def imAllowed (s : State) (fn : Master) (n : Nat) (x : RecImage) : Bool :=
  (isPf fn || imFn x == fn) && (allVfs.all fun v => !(inVfRange s v n) || imFn x == v)
    && (match getSq s (imSq x).toNat with | some q => mayUse fn q.owner | none => true)
/-- the flow-table entry is one of the binding's quad and port (08 Table 8-11) -/
def flowHere (s : State) (b : BitVec 128) : Bool :=
  let k := getBytes s.mem.dram (flowEntryAt s (bTarget b)) 2
  decide (byteAt k 0 % 32 = bQuad b) && decide (byteAt k 1 % 4 = bPort b)
/-- the binding's target is configured and names the pronoun (R63) -/
def targetGood (s : State) (n i : Nat) (b : BitVec 128) : Bool :=
  let k := bKind b
  let x := getQ s (bQuad b)
  let pt := getPort s (bQuad b) (bPort b)
  let here := x.profile.toNat == kindProfile k && decide (bPort b < portsOf x.profile.toNat x.arrange.toNat)
  let named := resValid (flowResult s b) && resPron (flowResult s b) == n
  match k with
  | 0 => true
  | 1 => here && (aget pt.pp.pairs (bQueue b)).isSome
  | 2 => here && (ringOf s b).isSome
  | 3 => here && i == 0 && s.lk.flowEn && decide (bTarget b < flowEntries s) && flowHere s b && named
  | 4 => here && i == 0 && pt.ep.bucketEn && decide (bTarget b < 2 ^ pt.ep.bucketShift.toNat) && named
  | _ => here
/-- two entries name one exclusive target (Table 3-5, Sharing) -/
def sameTarget (a b : BitVec 128) : Bool :=
  bKind a == bKind b && (match bKind a with
    | 2 => bQuad a == bQuad b && bPort a == bPort b && bQueue a == bQueue b
    | 3 => bTarget a == bTarget b
    | 4 => bQuad a == bQuad b && bPort a == bPort b && bTarget a == bTarget b
    | 5 => bQuad a == bQuad b && bPort a == bPort b && bTarget a == bTarget b && bQueue a == bQueue b
    | _ => false)
def targetTaken (s : State) (n : Nat) (x : RecImage) (i : Nat) : Bool :=
  (s.sched.recs.any fun e => e.1 != n && isBound e.2 && (List.range 4).any fun j => sameTarget (imBind x i) (bindOf e.2 j))
    || ((List.range i).any fun j => bKind (imBind x i) == 5 && sameTarget (imBind x i) (imBind x j))
/-- a pronoun number the part may bind (11 R333, R357) -/
def rangeOwned (s : State) (n : Nat) : Bool := s.tw.state == 0 || s.tw.state == 5 || owns s n
def bindConflict (s : State) (n : Nat) (x : RecImage) (q : SQueue) : Bool :=
  let p := getP s n
  isBound p || p.unbinding || !(rangeOwned s n) || q.owner != imFn x
    || (List.range 4).any fun i => !(targetGood s n i (imBind x i)) || targetTaken s n x i
/-- the record of a pronoun just bound -/
def boundRecord (x : RecImage) : Pron :=
  { state := .idle, runLevel := x.bits.extractLsb' 8 3, retryLimit := x.bits.extractLsb' 16 4, autoStart := x.bits.getLsbD 24
    affinity := imAffinity x, statusQueue := imSq x, resumeMask := x.bits.extractLsb' 80 8, hostFn := imFn x
    startAddr := x.bits.extractLsb' 192 64, binds := x.bits.extractLsb' 512 512 }
/-- BIND of an image -/
def bindImage (fn : Master) (n : Nat) (x : RecImage) (s : State) : Ans :=
  match imStray x with
  | some i => badField s (imOffset i)
  | none =>
    if !(imAllowed s fn n x) then refuse s stDenied
    else match imRange x with
      | some i => badField s (imOffset i)
      | none =>
        match getSq s (imSq x).toNat with
        | none => refuse s stNotFound
        | some q =>
          if !s.sched.configured then refuse s stState
          else if bindConflict s n x q then refuse s stBinding
          else .done (evalStranded (setP s n (boundRecord x))) 0
/-- BIND -/
def cmdBind (fn : Master) (p : Packet) (s : State) : Ans :=
  let n := pkPrn p
  let a := pkIova p
  if !(prnAllowed s fn n) then refuse s stDenied
  else if n = 0 then badField s 8
  else if iovaBad a 64 then badField s 16
  else match hostRead s a 128 with
    | .error d => hostError s d
    | .ok l => bindImage fn n { bits := BitVec.ofNat 1024 (ofLE l) } s

/-! ### The other pronoun commands -/

/-- UNBIND (R67) -/
def cmdUnbind (fn : Master) (p : Packet) (s : State) : Ans :=
  onPron fn p none s fun n =>
    let st := (getP s n).state
    if st != .idle && st != .checked then refuse s stState
    else .held (evalStranded (finishUnbind (becomeUnbound (hold s fn (admTag p) (.unbind n)) n) n))
/-- MODIFY's mask bit -/
def modBit (p : Packet) (i : Nat) : Bool := pkBit p 12 i
/-- the bits MODIFY names: a value byte only under its mask bit -/
def modifyBits (p : Packet) : List (Nat × Nat) :=
  [prnBits, (12, 0x3F)] ++ (if modBit p 0 then [wholeBytes 13 1] else []) ++ (if modBit p 1 then [wholeBytes 14 1] else [])
    ++ (if modBit p 2 then [(15, 1)] else []) ++ (if modBit p 3 then [wholeBytes 16 4] else [])
    ++ (if modBit p 4 then [wholeBytes 20 1] else []) ++ (if modBit p 5 then [wholeBytes 24 8] else [])
def modifyRange (p : Packet) : Option Byte :=
  (whenBad (decide (7 < pkF p 13 1)) 13 ++ whenBad (decide (15 < pkF p 14 1)) 14 ++ whenBad (modBit p 3 && pkF p 16 4 == 0) 16).head?
/-- the record with the masked fields changed (R82) -/
def modified (p : Packet) (r : Pron) : Pron :=
  { r with runLevel := if modBit p 0 then p.extractLsb' 104 3 else r.runLevel
           retryLimit := if modBit p 1 then p.extractLsb' 112 4 else r.retryLimit
           autoStart := if modBit p 2 then pkBit p 15 0 else r.autoStart
           affinity := if modBit p 3 then p.extractLsb' 128 32 else r.affinity
           resumeMask := if modBit p 4 then p.extractLsb' 160 8 else r.resumeMask
           startAddr := if modBit p 5 then p.extractLsb' 192 64 else r.startAddr }
def inQueue (s : State) (n : Nat) : Bool := (List.range 8).any fun l => (runq s l).contains n
/-- every engine an affinity names is fenced (R83) -/
def allFenced (s : State) (a : Word) : Bool := (List.range 32).all fun e => !(a.getLsbD e) || s.flt.engines.contains e
/-- MODIFY (R82, R83): a queued pronoun whose level changes goes to the tail of its new one -/
def cmdModify (fn : Master) (p : Packet) (s : State) : Ans :=
  onPron fn p (modifyRange p) s fun n =>
    let r := getP s n
    let r' := modified p r
    if !(isBound r) then refuse s stState
    else if modBit p 3 && allFenced s r'.affinity then refuse s stBinding
    else
      let moves := r'.runLevel != r.runLevel && inQueue s n
      let s := setP s n r'
      .done (evalStranded (if moves then enqueue s n else s)) 0
/-- START with USE_ADDR names a CCW address -/
def startBits (p : Packet) : List (Nat × Nat) := [prnBits, (12, 1)] ++ (if pkBit p 12 0 then [wholeBytes 16 8] else [])
/-- a doorbell outcome as a reply: "Ignored" is STATE_CONFLICT (R72) -/
def unlessIgnored (s : State) (r : State × Bool) : Ans := if r.2 then refuse s stState else .done r.1 0
/-- START (Table 3-8, R72) -/
def cmdStart (fn : Master) (p : Packet) (s : State) : Ans :=
  onPron fn p none s fun n =>
    unlessIgnored s (startOp s n (if pkBit p 12 0 then p.extractLsb' 128 64 else (getP s n).startAddr))
/-- HALT (Table 3-8, R73, R288) -/
def cmdHalt (fn : Master) (p : Packet) (s : State) : Ans :=
  onPron fn p none s fun n =>
    let r := haltOp s n
    match r.2 with
    | none => refuse s stState
    | some 0 => .done r.1 0
    | some _ => .held (hold r.1 fn (admTag p) (.halt n))
/-- RESUME (Table 3-8) -/
def cmdResume (fn : Master) (p : Packet) (s : State) : Ans := onPron fn p none s fun n => unlessIgnored s (resumeOp s n)
/-- CLEAR (R76) -/
def cmdClear (fn : Master) (p : Packet) (s : State) : Ans :=
  onPron fn p none s fun n =>
    let r := getP s n
    if r.state != .checked then refuse s stState
    else
      let r := { r with checkKind := 0, retryCount := 0, waitOverflow := 0, loops := [] }
      .done (if pkBit p 12 0 then startAt (setP s n r) n r.startAddr 5 else setP s n { r with state := .idle }) 0
/-- RESET (R77): its reply tells the word posted -/
def cmdPronounReset (fn : Master) (p : Packet) (s : State) : Ans :=
  onPron fn p none s fun n =>
    if !(isBound (getP s n)) then refuse s stState
    else .held (resetPron (hold s fn (admTag p) (.reset n)) n)
/-- QUERY (R87; 14 R436 where the record cannot be read) -/
def cmdQuery (fn : Master) (p : Packet) (s : State) : Ans :=
  onPron fn p (whenBad (iovaBad (pkIova p) 64) 16).head? s fun n =>
    let s := if (slotOf s n).isNone && !(cached s n) && copyBad s n then recordLost s n else s
    hostPut s (pkIova p) (recBytes s n) (num192 (stateCode (getP s n).state))

/-! ### Saves (05 R144 to R147, R432; 11 R357, R358, R360) -/

/-- the commit save area of the pending save still reads as it was found (14 R432) -/
def saveReads (s : State) (area : Nat) (v : Save) : Bool := (if area = 0 then s.nv.areaA else s.nv.areaB) == .valid v
/-- a save area in use that fails: SAVE_INVALID, and HOST_ERROR with DETAIL 0x00 (14 R432) -/
def saveFails (s : State) : Ans := hostError { s with fs := { s.fs with saveInvalid := true } } 0
/-- the clauses a takeover by the twin drops (R146 step 1, 11 R360) -/
def dropsClause (s : State) (c : NClause) : Bool := s.tw.peerTook && (decide (c.number % 2 ^ 64 ≤ s.tw.peerMark) || !c.mirrored)
/-- the local binding a saved entry must equal; for a taken-over clause its quad is the peer's (11 R357) -/
def bindMatches (s : State) (peer : Bool) (saved own : BitVec 128) : Bool :=
  if !peer || bKind saved == 0 then saved == own
  else
    let m := tget 0 s.tw.qmap (bQuad saved)
    if !(m.getLsbD 7) then bKind own == 0
    else
      let moved := setField saved 8 8 (bitsAt m 0 5)
      if bKind saved = 3 ∨ bKind saved = 4 then setField moved 32 32 0 == setField own 32 32 0 else moved == own
/-- a saved clause's pronoun is bound as it was (R145) -/
def clauseBound (s : State) (peer : Bool) (c : NClause) : Bool :=
  let p := getP s c.prn
  isBound p && p.hostFn == c.hostFn && p.statusQueue.toNat == c.sq && (getSq s c.sq).isSome
    && (List.range 4).all fun i => bindMatches s peer (c.binds.extractLsb' (128 * i) 128) (bindOf p i)
/-- BINDING_CONFLICT names the first clause that fails -/
def clauseConflict (s : State) (c : NClause) : Ans := .no s stBinding 0 (num192 (c.number % 2 ^ 64))
/-- one entry of the lost list (R146 step 2): answers whether a word was posted -/
def postLost (r : State × Nat) (e : Nat × Dword) : State × Nat :=
  let s := r.1
  if isBound (getP s e.1) then
    ((postDirect s e.1 { kind := 0x08, ccw := e.2, chan := chanLost, det := 0x0A }).1, r.2 + 1)
  else (rcPulse s.fs.lostUnbound { s with fs := { s.fs with lostUnbound := satInc s.fs.lostUnbound } }, r.2)
/-- into the window, in full-stop order -/
def insertClause (c : NClause) : List NClause → List NClause
  | [] => [c]
  | x :: t => if c.number % 2 ^ 64 < x.number % 2 ^ 64 then c :: x :: t else x :: insertClause c t
/-- the effects to release again: the PENDING and the ISSUED ones (R146 step 3) -/
def reissued (e : Effect) : Effect := if e.state == .done then e else { e with state := .pending }
/-- clauses are loaded as committed and unpaired (R146 step 3, 11 R358 step 3) -/
def loadClauses (s : State) (l : List NClause) : State :=
  let before := winBytes s
  watermarkPulse { s with fs := { s.fs with window := l.foldl (fun w c => insertClause { c with committed := true } w) s.fs.window } } before
/-- REPLAY -/
def cmdReplay (fn : Master) (p : Packet) (s : State) : Ans :=
  configured s fun _ =>
    match s.fs.pendingSave with
    | none => refuse s stState
    | some (area, v) =>
      if s.fs.replay.isSome then refuse s stState
      else if !(saveReads s area v) then saveFails s
      else if v.paired && !(pkBit p 12 0) && !s.tw.joined then refuse s stState
      else
        let keep := v.clauses.filter fun c => !(dropsClause s c)
        match keep.find? fun c => !(clauseBound s false c) with
        | some c => clauseConflict s c
        | none =>
          let r := v.lost.foldl postLost (s, 0)
          let s := loadClauses r.1 (keep.map fun c => { c with replayed := true, peer := false, effects := c.effects.map reissued })
          let s := hold s fn (admTag p) .replay
          .held (finishReissue { s with fs := { s.fs with replay := some (fn, admTag p, keep.length, v.clauses.length - keep.length, r.2) } })
/-- the used bytes of a save, in the layout of Table 5-4 -/
def exportBytes (v : Save) : List Byte :=
  let b := saveBytes v
  let head := b.1.take 128 ++ (if b.2.1.isEmpty ∧ b.2.2.isEmpty then (b.1.drop 128).take (16 * v.lost.length) else b.1.drop 128)
  if b.2.2.isEmpty then head ++ b.2.1 else padTo 0x400000 (head ++ b.2.1) ++ b.2.2
/-- EXPORT_SAVED -/
def cmdExportSaved (p : Packet) (s : State) : Ans :=
  if iovaBad (pkIova p) 64 then badField s 16
  else match s.fs.pendingSave with
    | none => refuse s stState
    | some (area, v) =>
      if !(saveReads s area v) then saveFails s
      else
        let l := exportBytes v
        if pkF p 24 4 < l.length then .no s stResource 0 (num192 l.length)
        else hostPut s (pkIova p) l (num192 l.length)
/-- DISCARD_SAVED -/
def cmdDiscardSaved (s : State) : Ans :=
  if s.fs.pendingSave.isNone || s.fs.replay.isSome then refuse s stState else .done (consumeSave s) 0
/-- CLAUSE_TUNE -/
def cmdClauseTune (p : Packet) (s : State) : Ans :=
  let w := pkF p 8 4
  if w % 65536 ≠ 0 ∨ 8388608 < w then badField s 8
  else configured s fun _ => .done { s with fs := { s.fs with watermark := BitVec.ofNat 32 w } } 0

/-! ### Status queues, events, mailboxes -/

/-- the function may name the queue -/
def sqAllowed (s : State) (fn : Master) (n : Nat) : Bool :=
  let f := getFunc s fn
  (isPf fn || (decide (f.sqFirst ≤ n) && decide (n < f.sqFirst + f.sqCount)))
    && (match getSq s n with | some q => mayUse fn q.owner | none => true)
/-- a VF names a vector that is not its own (R291) -/
def vecDenied (fn : Master) (v : Nat) : Bool := isVf fn && decide (vecCount fn ≤ v)
/-- SQ_CREATE (R292) -/
def cmdSqCreate (fn : Master) (p : Packet) (s : State) : Ans :=
  let n := pkF p 8 2
  let lg := pkF p 10 1
  let vec := pkF p 12 2
  let a := pkIova p
  if !(sqAllowed s fn n) || vecDenied fn vec then refuse s stDenied
  else if 4096 ≤ n then badField s 8
  else if lg < 4 ∨ 16 < lg then badField s 10
  else if vecCount fn ≤ vec then badField s 12
  else if iovaBad a (min (32 * 2 ^ lg) 4096) then badField s 16
  else if (getSq s n).isSome then refuse s stState
  else .done (setSq s n { owner := fn, base := BitVec.ofNat 64 a, log2 := lg, vec := vec, prod := 0, cons := 0, phase := true, full := false }) 0
/-- a command on a queue that exists -/
def onSq (fn : Master) (p : Packet) (s : State) (f : Nat → SQueue → Ans) : Ans :=
  let n := pkF p 8 2
  if !(sqAllowed s fn n) then refuse s stDenied
  else if 4096 ≤ n then badField s 8
  else match getSq s n with
    | none => refuse s stNotFound
    | some q => f n q
/-- SQ_DELETE -/
def cmdSqDelete (fn : Master) (p : Packet) (s : State) : Ans :=
  onSq fn p s fun n _ =>
    if s.sched.recs.any fun e => isBound e.2 && e.2.statusQueue.toNat == n then refuse s stState
    else .done { s with hp := { s.hp with sqs := adel n s.hp.sqs } } 0
/-- SQ_QUERY -/
def cmdSqQuery (fn : Master) (p : Packet) (s : State) : Ans :=
  onSq fn p s fun _ q => .done s (num192 (q.prod + 2 ^ 16 * q.cons + 2 ^ 32 * b2n q.phase + 2 ^ 33 * b2n q.full))
/-- a mailbox source of a mailbox that names the function (10 R304) -/
def ownMailSource (s : State) (fn : Master) (n : Nat) : Bool :=
  let x := getMbx s (if 160 ≤ n then n - 160 else n - 96)
  decide (96 ≤ n) && decide (n < 224) && x.valid && (x.sender == fn || x.receiver == fn)
/-- EVENT_ROUTE (10 R304) -/
def cmdEventRoute (fn : Master) (p : Packet) (s : State) : Ans :=
  let n := pkF p 8 2
  let v := pkF p 10 2
  if (isVf fn && !(ownMailSource s fn n)) || vecDenied fn v then refuse s stDenied
  else if 1024 ≤ n then badField s 8
  else if vecCount fn ≤ v then badField s 10
  else if s.hp.routes.any fun r => r.1 == n && r.2.1 != fn then refuse s stBinding
  else
    let l := s.hp.routes.filter fun r => r.1 != n
    .done { s with hp := { s.hp with routes := if pkBit p 12 0 then l ++ [(n, fn, v)] else l } } 0
/-- MBX_BIND (10 R324) -/
def cmdMbxBind (p : Packet) (s : State) : Ans :=
  let m := pkF p 8 1
  let a : Master := p.extractLsb' 72 8
  let b : Master := p.extractLsb' 80 8
  if 63 < m then badField s 8
  else if !(masterLegal a) then badField s 9
  else if !(bindLegal a b) then badField s 10
  else if (getMbx s m).locked then refuse s stState
  else .done (mbxBindOp s m a b true) 0

end Sys2Proof.Machine
end

