-- ==== Sys2Proof/Machine/AdminTwin.lean ====
section
/-!
DEFINITION. Admin commands on keys, the lifecycle, the twin and diagnostics (09 Table 9-11; 11 R341 to R361; 13 R398 to
R411; 14 R444; 15 R458, R459).
-/

namespace Sys2Proof.Machine

/-! ### Keys and the lifecycle -/

/-- a reply that waits for the key bank (13 R409) -/
def bankHeld (fn : Master) (p : Packet) : Ans → Ans
  | .held s => .held (hold s fn (admTag p) .keyBank)
  | a => a
/-- KEY_IMPORT (13 R410) -/
def cmdKeyImport (fn : Master) (p : Packet) (s : State) : Ans :=
  if iovaBad (pkIova p) 1 then badField s 16 else bankHeld fn p (keyImport s (pkF p 8 2) (pkF p 24 2) (pkIova p))
/-- KEY_ERASE (13 R411) -/
def cmdKeyErase (fn : Master) (p : Packet) (s : State) : Ans := bankHeld fn p (keyErase s (pkF p 8 2))
/-- KEY_INFO -/
def cmdKeyInfo (p : Packet) (s : State) : Ans := keyInfo s (pkF p 8 2)
/-- LIFECYCLE_REQUEST (13 R398, R399): the reply is written before the transition -/
def cmdLifecycle (fn : Master) (p : Packet) (s : State) : Ans :=
  if iovaBad (pkIova p) 1 then badField s 16
  else match lcCheck s (pkF p 8 1) (pkF p 24 2) (pkIova p) with
    | (a, none) => a
    | (_, some r) => .held (transition (reply s fn (admTag p) 0 0 0) r)

/-! ### The twin -/

/-- TWIN_PAIR's states (11 Table 11-3, R341) -/
def mayPair (s : State) : Bool :=
  s.tw.state == 0 || (s.tw.state == 5 && s.tw.shadow.isEmpty && s.tw.shadowWait.isEmpty) || (s.tw.state == 6 && !s.tw.fencedRunning)
/-- LINKING begins: a link that is down starts to train afresh -/
def startLinking (s : State) (join : Bool) : State :=
  let t := s.tw
  let t := { t with before := t.state, joinOpt := join, hello := [], peerHello := [], authOk := false, stepped := false, copied := false
                    mirrorsSent := false }
  let t := if t.link == 2 then t
    else { t with txSeq := 0, rxSeq := 0, nakSent := false, replay := [], stalls := 0, link := 1, restCtl := [], restBulk := [] }
  let s := setTwinState { s with tw := t } 1
  if s.tw.link == 2 then sendHello s else s
/-- TWIN_PAIR (11 R341) -/
def cmdTwinPair (p : Packet) (s : State) : Ans :=
  configured s fun _ =>
    if !(mayPair s) then refuse s stState
    else if !(shadowFits s 1) then refuse s stBinding
    else
      let s := startLinking s (pkBit p 12 0)
      .done s (num192 s.tw.state.toNat)
/-- TWIN_UNPAIR (11 R361) -/
def cmdTwinUnpair (fn : Master) (p : Packet) (s : State) : Ans :=
  if s.tw.state == 3 then .held (propose (setTwinState (hold s fn (admTag p) .unpair) 7) 0x02)
  else if s.tw.state == 5 && s.tw.shadow.isEmpty && s.tw.shadowWait.isEmpty then .done (resetMaster (setTwinState s 0) 0x90) 0
  else refuse s stState
/-- TWIN_FENCE (11 R355) -/
def cmdTwinFence (p : Packet) (s : State) : Ans :=
  let m := pkF p 8 1
  if m ≠ 1 ∧ m ≠ 2 then badField s 8
  else if s.tw.state != 3 && s.tw.state != 4 then refuse s stState
  else .done (startFence s (if m = 1 then 1 else 0)) 0
/-- a taken-over clause: its number kept apart from the part's own of the same value, its bindings the local ones; an error in
its stored record is reported when its effects come to be issued (R346) -/
def takenClause (s : State) (c : NClause) : NClause :=
  { c with number := c.number % 2 ^ 64 + 2 ^ 64, peer := true, committed := true, binds := (getP s c.prn).binds
           effects := c.effects.map fun e => { e with state := .pending, bad := e.bad || recordBad s c } }
/-- TWIN_TAKEOVER (11 R357, R358) -/
def cmdTwinTakeover (s : State) : Ans :=
  configured s fun _ =>
    let l := s.tw.shadow
    if s.tw.state != 5 || l.isEmpty || s.tw.taking then refuse s stState
    else match l.find? fun c => !(clauseBound s true c) with
      | some c => clauseConflict s c
      | none =>
        let top := (l.map fun c => c.number % 2 ^ 64).foldl max 0
        let s := { s with tw := { s.tw with ownLow := true, ownHigh := true, tookOver := true, mark := top, taking := true }
                          fs := { s.fs with takeHold := true } }
        let s := saveTwin (raiseNext s (max (top + 1) s.tw.peerLimit))
        .done (finishReissue (loadClauses s (l.map (takenClause s)))) (num192 top)
/-- TWIN_STATUS -/
def cmdTwinStatus (s : State) : Ans := .done s (num192 (s.tw.state.toNat + 2 ^ 64 * (BitVec.ofInt 64 s.tw.theta).toNat))

/-! ### Diagnostics -/

/-- what SELF_TEST requires (15 R458) -/
def testReady (s : State) (mask : Nat) : Bool :=
  (s.sched.recs.all fun e => e.2.state == .unbound || e.2.state == .idle || e.2.state == .checked)
    && (s.cls.clauses.all fun c => c.doom.isSome) && s.fs.window.isEmpty && (allTransfers s).isEmpty
    && (!(mask.testBit 4) || s.cls.locks.isEmpty)
/-- what a test leaves (15 Table 15-6) -/
def testLeaves (s : State) (t : Nat) : State :=
  match t with
  | 1 => { s with mem := { s.mem with loc := [] }, ce := { s.ce with icache := [] } }
  | 2 => let s := flushCache s; { s with sched := { s.sched with cache := [] } }
  | _ => s
/-- a test that fails is an uncorrectable error of the unit it exercised, which is fenced (15 R458) -/
def testFails (s : State) (t : Nat) (unit : Word) : State :=
  let u := unit.toNat
  match t with
  | 0 => ueNote (cpFault s) 13 0 0 0 false
  | 1 => ueNote (fenceEngine 1 s (u % 32)) 1 (u % 32) 0 0 false
  | 2 => ueNote (fenceBank s (u % 8)) 4 (u % 8) 0 0 false
  | 3 => ueNote (fenceStaging s) 5 0 0 0 false
  | 4 => ueNote (doomDirectory s) 6 0 0 0 false
  | 5 => ueNote (fenceMover s (u % 8)) 9 (u % 8) 0 0 false
  | 6 => ueNote (fenceMover s (u % 8)) 9 (u % 8) 0 0 false
  | 7 => ueNote (poisonLine s u) 11 (dramChannel u) u (BitVec.ofNat 64 (0x8000000000000000 + 64 * u)) false
  | _ => ueNote s 12 0 u (BitVec.ofNat 64 u) false
/-- the named tests in ascending order, with the failures each meets -/
def runTests (mask : Nat) (fails : List (BitVec 4 × Word)) (s : State) : State :=
  (List.range 9).foldl (fun s t =>
    if mask.testBit t then
      (fails.filter fun f => f.1.toNat == t).foldl (fun s f => testFails s t f.2) (testLeaves s t)
    else s) s
/-- the failed mask -/
def failedMask (mask : Nat) (fails : List (BitVec 4 × Word)) : Nat :=
  ((List.range 9).filter fun t => mask.testBit t && fails.any fun f => f.1.toNat == t).foldl (fun m t => m + 2 ^ t) 0
/-- SELF_TEST (15 R458): a lockstep failure is a control processor fault, after which nothing replies -/
def cmdSelfTest (p : Packet) (fails : List (BitVec 4 × Word)) (s : State) : Ans :=
  let mask := pkF p 8 4
  if 512 ≤ mask then badField s 8
  else if !(testReady s mask) then refuse s stState
  else if (failedMask mask fails).testBit 0 then .held (testFails s 0 0)
  else .done (runTests mask fails s) (num192 (failedMask mask fails))
/-- LINK_TEST (15 R459): in PAIRED the peer agrees to the launch first -/
def cmdLinkTest (fn : Master) (p : Packet) (s : State) : Ans :=
  let qs : Word := p.extractLsb' 64 32
  let t : Dword := p.extractLsb' 128 64
  let named (f : Nat → Bool) : Bool := (List.range 32).any fun q => qs.getLsbD q && f q
  if t.toNat < s.dev.tick.toNat + 100000 then badField s 16
  else if named (quadFenced s) then refuse s stFenced
  else if (named fun q => (getQ s q).portEn != 0) || s.lk.test.isSome || (s.tw.state == 3 && !s.tw.aligned) then refuse s stState
  else
    let s := hold { s with lk := { s.lk with test := some (t, qs, false) } } fn (admTag p) .linkTest
    .held (if s.tw.state == 3 then proposeAt s 0x03 t else s)
/-- the log region in bytes -/
def logRegion : Nat := 64 * logEntries
/-- LOG_READ (14 R444): up to the end of the region -/
def cmdLogRead (p : Packet) (s : State) : Ans :=
  let o := pkF p 8 4
  let n := min (pkF p 24 4) (logRegion - o)
  if o % 64 ≠ 0 ∨ logRegion ≤ o then badField s 8
  else if iovaBad (pkIova p) 1 then badField s 16
  else hostPut s (pkIova p) (logRead s o n) (num192 n)

end Sys2Proof.Machine
end

