-- ==== Sys2Proof/Machine/AdminRows.lean ====
section
/-!
DEFINITION. The admin commands as rows (09 Tables 9-9 to 9-11): each names its opcode and the packet bits that are its own.
-/

namespace Sys2Proof.Machine

/-- IDENTIFY (R289, R290) -/
def execAdmIdentify (fn : Master) (pkt : Packet) (s : State) : Res := .next (adm 0x0001 [] (cmdIdentify fn) fn pkt s)
/-- CONFIGURE (15 R448) -/
def execAdmConfigure (fn : Master) (pkt : Packet) (s : State) : Res := .next (adm 0x0002 [wholeBytes 8 3] (cmdConfigure pkt) fn pkt s)
/-- RESET_DEVICE (15 R446) -/
def execAdmResetDevice (fn : Master) (pkt : Packet) (s : State) : Res := .next (adm 0x0003 [wholeBytes 8 1] (cmdResetDevice fn pkt) fn pkt s)
/-- SLEEP (12 R369 to R376): mask bit 11 must be zero -/
def execAdmSleep (fn : Master) (pkt : Packet) (s : State) : Res := .next (adm 0x0004 [wholeBytes 8 1, (16, 0x7FF)] (cmdSleep fn pkt) fn pkt s)
/-- VF_CONFIG (R291) -/
def execAdmVfConfig (fn : Master) (pkt : Packet) (s : State) : Res := .next (adm 0x0005 [wholeBytes 8 1, wholeBytes 12 12] (cmdVfConfig fn pkt) fn pkt s)
/-- QUAD_CONFIG (08 R234, R235) -/
def execAdmQuadConfig (fn : Master) (pkt : Packet) (s : State) : Res := .next (adm 0x0101 [wholeBytes 8 1, wholeBytes 12 4] (cmdQuadConfig pkt) fn pkt s)
/-- PORT_REGION (08 R240) -/
def execAdmPortRegion (fn : Master) (pkt : Packet) (s : State) : Res := .next (adm 0x0102 [portBits, wholeBytes 12 4] (cmdPortRegion pkt) fn pkt s)
/-- NVME_QUEUES (08 R243) -/
def execAdmNvmeQueues (fn : Master) (pkt : Packet) (s : State) : Res := .next (adm 0x0103 [portBits, wholeBytes 10 1, wholeBytes 12 2] (cmdNvmeQueues pkt) fn pkt s)
/-- NS_ADD (08 R245): the fields the part sets must be zero -/
def execAdmNsAdd (fn : Master) (pkt : Packet) (s : State) : Res := .next (adm 0x0104 [portBits, wholeBytes 16 4, (20, 3), wholeBytes 24 16] (cmdNsAdd pkt) fn pkt s)
/-- NS_REMOVE (08 R245) -/
def execAdmNsRemove (fn : Master) (pkt : Packet) (s : State) : Res := .next (adm 0x0105 [portBits, wholeBytes 12 4] (cmdNsRemove pkt) fn pkt s)
/-- RING_SET (08 R250) -/
def execAdmRingSet (fn : Master) (pkt : Packet) (s : State) : Res := .next (adm 0x0106 [portBits, wholeBytes 10 1, (16, 7), wholeBytes 17 41] (cmdRingSet pkt) fn pkt s)
/-- RING_CLEAR -/
def execAdmRingClear (fn : Master) (pkt : Packet) (s : State) : Res := .next (adm 0x0107 [portBits, wholeBytes 10 1] (cmdRingClear pkt) fn pkt s)
/-- ETH_UNICAST -/
def execAdmEthUnicast (fn : Master) (pkt : Packet) (s : State) : Res := .next (adm 0x0108 [portBits, wholeBytes 10 1, (11, 1), wholeBytes 16 6] (cmdEthUnicast pkt) fn pkt s)
/-- ETH_MULTICAST -/
def execAdmEthMulticast (fn : Master) (pkt : Packet) (s : State) : Res := .next (adm 0x0109 [portBits, wholeBytes 10 2, (12, 1)] (cmdEthMulticast pkt) fn pkt s)
/-- FLOW_ADD (08 R258) -/
def execAdmFlowAdd (fn : Master) (pkt : Packet) (s : State) : Res := .next (adm 0x010A [(16, 0x1F), (17, 0x0F), (18, 0x0FFF), (20, 0x0FFF), wholeBytes 22 1, wholeBytes 24 36, (60, 0xFF7FFFFF)] (cmdFlowAdd pkt) fn pkt s)
/-- FLOW_DELETE (08 R258) -/
def execAdmFlowDelete (fn : Master) (pkt : Packet) (s : State) : Res := .next (adm 0x010B [wholeBytes 8 4] (cmdFlowDelete pkt) fn pkt s)
/-- BUCKET_SET (08 R259) -/
def execAdmBucketSet (fn : Master) (pkt : Packet) (s : State) : Res := .next (adm 0x010C [portBits, wholeBytes 12 4, (16, 0xFF7FFFFF)] (cmdBucketSet pkt) fn pkt s)
/-- BIND (03 R60 to R63) -/
def execAdmBind (fn : Master) (pkt : Packet) (s : State) : Res := .next (adm 0x0201 [prnBits, wholeBytes 16 8] (cmdBind fn pkt) fn pkt s)
/-- UNBIND (03 R67) -/
def execAdmUnbind (fn : Master) (pkt : Packet) (s : State) : Res := .next (adm 0x0202 [prnBits] (cmdUnbind fn pkt) fn pkt s)
/-- MODIFY (03 R82) -/
def execAdmModify (fn : Master) (pkt : Packet) (s : State) : Res := .next (adm 0x0203 (modifyBits pkt) (cmdModify fn pkt) fn pkt s)
/-- START (03 R72) -/
def execAdmStart (fn : Master) (pkt : Packet) (s : State) : Res := .next (adm 0x0204 (startBits pkt) (cmdStart fn pkt) fn pkt s)
/-- HALT (03 R73) -/
def execAdmHalt (fn : Master) (pkt : Packet) (s : State) : Res := .next (adm 0x0205 [prnBits] (cmdHalt fn pkt) fn pkt s)
/-- RESUME (03 Table 3-8) -/
def execAdmResume (fn : Master) (pkt : Packet) (s : State) : Res := .next (adm 0x0206 [prnBits] (cmdResume fn pkt) fn pkt s)
/-- CLEAR (03 R76) -/
def execAdmClear (fn : Master) (pkt : Packet) (s : State) : Res := .next (adm 0x0207 [prnBits, (12, 1)] (cmdClear fn pkt) fn pkt s)
/-- RESET (03 R77) -/
def execAdmPronounReset (fn : Master) (pkt : Packet) (s : State) : Res := .next (adm 0x0208 [prnBits] (cmdPronounReset fn pkt) fn pkt s)
/-- QUERY (03 R87) -/
def execAdmQuery (fn : Master) (pkt : Packet) (s : State) : Res := .next (adm 0x0209 [prnBits, wholeBytes 16 8] (cmdQuery fn pkt) fn pkt s)
/-- REPLAY (05 R144 to R146) -/
def execAdmReplay (fn : Master) (pkt : Packet) (s : State) : Res := .next (adm 0x0301 [(12, 1)] (cmdReplay fn pkt) fn pkt s)
/-- EXPORT_SAVED (05 R147) -/
def execAdmExportSaved (fn : Master) (pkt : Packet) (s : State) : Res := .next (adm 0x0302 [wholeBytes 16 12] (cmdExportSaved pkt) fn pkt s)
/-- DISCARD_SAVED (05 R147) -/
def execAdmDiscardSaved (fn : Master) (pkt : Packet) (s : State) : Res := .next (adm 0x0303 [] cmdDiscardSaved fn pkt s)
/-- CLAUSE_TUNE (Table 9-10) -/
def execAdmClauseTune (fn : Master) (pkt : Packet) (s : State) : Res := .next (adm 0x0304 [wholeBytes 8 4] (cmdClauseTune pkt) fn pkt s)
/-- SQ_CREATE (R292) -/
def execAdmSqCreate (fn : Master) (pkt : Packet) (s : State) : Res := .next (adm 0x0401 [wholeBytes 8 3, wholeBytes 12 2, wholeBytes 16 8] (cmdSqCreate fn pkt) fn pkt s)
/-- SQ_DELETE -/
def execAdmSqDelete (fn : Master) (pkt : Packet) (s : State) : Res := .next (adm 0x0402 [wholeBytes 8 2] (cmdSqDelete fn pkt) fn pkt s)
/-- SQ_QUERY -/
def execAdmSqQuery (fn : Master) (pkt : Packet) (s : State) : Res := .next (adm 0x0403 [wholeBytes 8 2] (cmdSqQuery fn pkt) fn pkt s)
/-- EVENT_ROUTE (10 R304) -/
def execAdmEventRoute (fn : Master) (pkt : Packet) (s : State) : Res := .next (adm 0x0701 [wholeBytes 8 4, (12, 1)] (cmdEventRoute fn pkt) fn pkt s)
/-- MBX_BIND (10 R324) -/
def execAdmMbxBind (fn : Master) (pkt : Packet) (s : State) : Res := .next (adm 0x0702 [wholeBytes 8 3] (cmdMbxBind pkt) fn pkt s)
/-- KEY_IMPORT (13 R410) -/
def execAdmKeyImport (fn : Master) (pkt : Packet) (s : State) : Res := .next (adm 0x0501 [wholeBytes 8 2, wholeBytes 16 10] (cmdKeyImport fn pkt) fn pkt s)
/-- KEY_ERASE (13 R411) -/
def execAdmKeyErase (fn : Master) (pkt : Packet) (s : State) : Res := .next (adm 0x0502 [wholeBytes 8 2] (cmdKeyErase fn pkt) fn pkt s)
/-- KEY_INFO -/
def execAdmKeyInfo (fn : Master) (pkt : Packet) (s : State) : Res := .next (adm 0x0503 [wholeBytes 8 2] (cmdKeyInfo pkt) fn pkt s)
/-- LIFECYCLE_REQUEST (13 R398, R399) -/
def execAdmLifecycleRequest (fn : Master) (pkt : Packet) (s : State) : Res := .next (adm 0x0504 [wholeBytes 8 1, wholeBytes 16 10] (cmdLifecycle fn pkt) fn pkt s)
/-- TWIN_PAIR (11 R341) -/
def execAdmTwinPair (fn : Master) (pkt : Packet) (s : State) : Res := .next (adm 0x0601 [(12, 1)] (cmdTwinPair pkt) fn pkt s)
/-- TWIN_UNPAIR (11 R361) -/
def execAdmTwinUnpair (fn : Master) (pkt : Packet) (s : State) : Res := .next (adm 0x0602 [] (cmdTwinUnpair fn pkt) fn pkt s)
/-- TWIN_FENCE (11 R355) -/
def execAdmTwinFence (fn : Master) (pkt : Packet) (s : State) : Res := .next (adm 0x0603 [wholeBytes 8 1] (cmdTwinFence pkt) fn pkt s)
/-- TWIN_TAKEOVER (11 R357, R358) -/
def execAdmTwinTakeover (fn : Master) (pkt : Packet) (s : State) : Res := .next (adm 0x0604 [] cmdTwinTakeover fn pkt s)
/-- TWIN_STATUS -/
def execAdmTwinStatus (fn : Master) (pkt : Packet) (s : State) : Res := .next (adm 0x0605 [] cmdTwinStatus fn pkt s)
/-- SELF_TEST (15 R458) -/
def execAdmSelfTest (fn : Master) (pkt : Packet) (fails : List (BitVec 4 × Word)) (s : State) : Res := .next (adm 0x0801 [wholeBytes 8 4] (cmdSelfTest pkt fails) fn pkt s)
/-- LINK_TEST (15 R459) -/
def execAdmLinkTest (fn : Master) (pkt : Packet) (s : State) : Res := .next (adm 0x0802 [wholeBytes 8 4, wholeBytes 16 8] (cmdLinkTest fn pkt) fn pkt s)
/-- LOG_READ (14 R444) -/
def execAdmLogRead (fn : Master) (pkt : Packet) (s : State) : Res := .next (adm 0x0803 [wholeBytes 8 4, wholeBytes 16 12] (cmdLogRead pkt) fn pkt s)
/-- LINK_TEST_LAUNCH (15 R459): an unpaired part starts at its launch tick; in DEEP SLEEP the count stands still (01 R11) -/
def execLinkTestLaunch (s : State) : Res :=
  .next (match s.lk.test with
    | some (t, _, false) => if s.tw.state == 3 || s.pwr.sleep == .deep then s else startTest (reachTick s t.toNat)
    | _ => s)
/-- LINK_TEST_END (15 R459): the failed quads among those named -/
def execLinkTestEnd (failed : Word) (s : State) : Res :=
  .next (match s.lk.test with
    | some (t, qs, true) =>
      if s.pwr.sleep == .deep then s else
      let s := reachTick { s with lk := { s.lk with test := none } } (t.toNat + 1000000)
      finishHeld s .linkTest 0 ((failed &&& qs).setWidth 192)
    | _ => s)

end Sys2Proof.Machine
end

