-- ==== Sys2Proof/Machine/HostRows.lean ====
section
/-!
DEFINITION. The rows of the host port and of register accesses (01 R4, R12, 03 R69, 07 R232, 08 R235, 09 R281 to R299,
11 R339), and the host links (09 R276, R277, 15 R450, R453).
-/

namespace Sys2Proof.Machine

/-! ### Host accesses -/

/-- DOORBELL_WRITE (03 R69) -/
def execDoorbellWrite (fn : Master) (off : BitVec 20) (bytes : List Byte) (env : List HostStore) (s : State) : Res :=
  .next (hostRequest (hostStores s env) fn (.doorbell off.toNat bytes))
/-- BAR0_ACCESS (R281, R492) -/
def execBar0Access (fn : Master) (acc : BarAccess) (env : List HostStore) (s : State) : Res :=
  .next (hostRequest (hostStores s env) fn (.bar0 acc))
/-- BAR2_ACCESS (R282, R15, R59) -/
def execBar2Access (fn : Master) (acc : BarAccess) (env : List HostStore) (s : State) : Res :=
  .next (hostRequest (hostStores s env) fn (.bar2 acc))
/-- HF_ADM_CFG_WRITE (R285) -/
def execHfAdmCfgWrite (fn : Master) (v : Word) (s : State) : Res := .next (hostRequest s fn (hfWord fn 0x10 v))
/-- HF_ADM_SQ_TAIL_WRITE (R286) -/
def execHfAdmSqTailWrite (fn : Master) (v : Word) (env : List HostStore) (s : State) : Res :=
  .next (hostRequest (hostStores s env) fn (hfWord fn 0x14 v))
/-- HF_ADM_RQ_HEAD_WRITE (R286) -/
def execHfAdmRqHeadWrite (fn : Master) (v : Word) (s : State) : Res := .next (hostRequest s fn (hfWord fn 0x18 v))
/-- HF_SQ_HEAD_WRITE (R292) -/
def execHfSqHeadWrite (fn : Master) (n : BitVec 12) (v : Word) (s : State) : Res := .next (hostRequest s fn (hfWord fn (0x4000 + 4 * n.toNat) v))
/-- HF_MOD_WRITE (R295); a vector the function lacks is a reserved offset. -/
def execHfModWrite (fn : Master) (n : BitVec 11) (v : Word) (s : State) : Res :=
  .next (if n.toNat < vecCount fn then hostRequest s fn (hfWord fn (0x2000 + 4 * n.toNat) v) else s)
/-- MODERATION_TIMER_EXPIRY (R295, R299) -/
def execModerationTimerExpiry (fn : Master) (n : BitVec 11) (s : State) : Res := .next (modTimer s fn n.toNat)
/-- VECTOR_UNMASK (R295) -/
def execVectorUnmask (fn : Master) (n : BitVec 11) (s : State) : Res :=
  .next (if n.toNat < vecCount fn then hostRequest s fn (hfWord fn (0x1000C + 16 * n.toNat) 0) else s)
/-- ASPM_L1_ENTRY (R299) -/
def execAspmL1Entry (link : Bool) (s : State) : Res :=
  let enter (l : HLink) : HLink := { l with l1 := l.l1 || (l.aspm && l.rate != 0) }
  .next (if link then { s with hp := { s.hp with linkB := enter s.hp.linkB } } else { s with hp := { s.hp with linkA := enter s.hp.linkA } })
/-- D3HOT_ENTRY (R298) -/
def execD3hotEntry (pf : Bool) (s : State) : Res := .next (hostRequest s (if pf then 0x41 else 0x40) (.power true))
/-- D0_ENTRY (R299) -/
def execD0Entry (pf : Bool) (s : State) : Res := .next (hostRequest s (if pf then 0x41 else 0x40) (.power false))
/-- CONFIG_SPACE_WRITE (R297, Table 9-1) -/
def execConfigSpaceWrite (fn : Master) (w : CfgWrite) (s : State) : Res := .next (hostRequest s fn (.config w))

/-! ### Register accesses by master (R4, R12) -/

/-- what identity 0x90 reaches: the TWIN block to read, and the mailbox windows (11 R339) -/
def inMailboxes (off : Nat) : Bool := decide (0x117000 ≤ off) && decide (off < 0x118000)
def inTwin (off : Nat) : Bool := decide (0x120000 ≤ off) && decide (off < 0x130000)
/-- the block of an offset by its bit in `WRITE_REJECT` (Table 9-2) -/
def blockOf (off : Nat) : Option Nat :=
  if off < 0x4000 then some (off / 0x1000)
  else if off < 0x10000 then some 4 else if off < 0x12000 then some 5 else if off < 0x20000 then some 6
  else if off < 0x40000 then some 7 else if off < 0x80000 then some 8 else if off < 0x100000 then some 9
  else if off < 0x170000 then some (off / 0x10000 - 6) else none
def twinRead (s : State) (off : Nat) : Rd := if inTwin off || inMailboxes off then regRead s 0x90 off else ro s 0
def twinWrite (s : State) (off : Nat) (v : Word) : State :=
  if inMailboxes off then regWrite s 0x90 off v
  else match blockOf off with
    | some b => reject s b
    | none => s
/-- what the debug port may not read below OPEN's memory commands (13 R417) -/
def dbgHidden (off : Nat) : Bool := inMailboxes off || (decide (0x140020 ≤ off) && decide (off < 0x140040)) || decide (0x3E0000 ≤ off)
/-- REGISTER_WRITE (R4, R6): by the control processor's register bus, a PF's BAR0, the twin, or the debug port -/
def execRegisterWrite (who : Master) (off : BitVec 22) (v : Word) (s : State) : Res :=
  .next (if who = 0 then regWrite s 0 off.toNat v
    else if isPf who then hostRequest s who (.bar0 { write := true, off := off.setWidth 35, len := 4, data := toLE 4 v.toNat })
    else if who = 0x90 then (if s.tw.link == 2 then twinWrite s off.toNat v else s)
    else if who = 0xF0 then (if s.sec.level == 2 then regWrite s 0xF0 off.toNat v else s)
    else s)
/-- a register read by a master: its value goes to the master -/
def readBy (s : State) (who : Master) (off : Nat) : State :=
  let give (r : Rd) : State := emit r.2 (.value who r.1)
  if who = 0 then give (regRead s 0 off)
  else if isPf who then hostRequest s who (.bar0 { write := false, off := BitVec.ofNat 35 off, len := 4, data := [] })
  else if who = 0x90 then (if s.tw.link == 2 then give (twinRead s off) else s)
  else if who = 0xF0 then (if s.sec.level == 0 || dbgHidden off then s else give (regRead s 0xF0 off))
  else s
/-- TIME_TICK_LO_READ (R12): the read of a _LO register -/
def execTimeTickLoRead (who : Master) (off : BitVec 22) (s : State) : Res := .next (readBy s who off.toNat)
/-- COUNTER_READ_CLEAR (R4): the read of an RC counter -/
def execCounterReadClear (who : Master) (off : BitVec 22) (s : State) : Res := .next (readBy s who off.toNat)
/-- QUAD_CONFIG_WRITE (08 R235) -/
def execQuadConfigWrite (who : Master) (q : BitVec 5) (v : Word) (s : State) : Res :=
  execRegisterWrite who (BitVec.ofNat 22 (0x80000 + 0x4000 * q.toNat)) v s
/-- REG_REQ (11 R339): answered by REG_RESP -/
def execTwRegReq (param : Dword) (body : List Byte) (s : State) : Res :=
  let off := bitsAt param 0 22
  onLink s fun s =>
    if param.getLsbD 32 then
      twinSend (twinWrite s off (low32 (ofLE (body.take 4)))) { type := 0x0B, param := param, body := [0, 0, 0, 0] }
    else
      let r := twinRead s off
      twinSend r.2 { type := 0x0B, param := param, body := toLE 4 r.1.toNat }
/-- HANDBACK (11 R362): a write of `TWIN_CTL` -/
def execTwHandback (who : Master) (v : Word) (s : State) : Res := execRegisterWrite who 0x120010 v s

/-! ### Privileged register-bus instructions (07 Table 7-15) -/

/-- MISALIGNED, then RANGE -/
def busTrap (a : Word) : Option Byte :=
  if a.toNat % 4 ≠ 0 then some 0x03 else if 0x400000 ≤ a.toNat then some 0x04 else none
/-- RBLD (R232) -/
def execCpRbld (w : Word) (s : State) : Res :=
  .next (issueCp 0x3C00 w true (fun s x w =>
    let a := dataAddr x w
    match busTrap a with
    | some c => .trap c a
    | none => let r := regRead s 0 a.toNat; done r.2 (putRd x w r.1)) s)
/-- RBST (R232) -/
def execCpRbst (w : Word) (s : State) : Res :=
  .next (issueCp 0x3D00 w true (fun s x w =>
    let a := dataAddr x w
    match busTrap a with
    | some c => .trap c a
    | none => done (regWrite s 0 a.toNat (getG x.r (rdOf w))) x.r) s)

/-! ### Host links -/

/-- a rate, a width and an encoding a host link reaches: 64 GT/s in FLIT mode only (Table 9-5, R276, R277) -/
def hostLinkLegal (s : State) (b : Bool) (rate : BitVec 3) (width : BitVec 5) (flit : Bool) : Bool :=
  rate != 0 && rate != 7 && (rate != 6 || flit) && (width == 1 || width == 2 || width == 4 || width == 8 || (width == 16 && !s.hp.split && !b))
/-- HOST_LINK_UP (R276): the link has trained; what waited for it follows. -/
def execHostLinkUp (link : Bool) (rate : BitVec 3) (width : BitVec 5) (flit : Bool) (s : State) : Res :=
  let shut := if link then !s.hp.split || s.pins.perst1 else s.pins.perst0
  .next (if shut || s.rst.held || !s.rst.booted || !(hostLinkLegal s link rate width flit) then s
    else
      let up (l : HLink) : HLink := { l with rate := rate, width := width, flit := flit, l1 := false }
      let s := if link then { s with hp := { s.hp with linkB := up s.hp.linkB } } else { s with hp := { s.hp with linkA := up s.hp.linkA } }
      numFns.foldl (fun s m => if (fnLink s m).rate != 0 then busMasterOn s m else s) s)
/-- HOST_LINK_DOWN (R301): the link leaves L0 for Detect. -/
def execHostLinkDown (link : Bool) (s : State) : Res := .next (linkFalls s link)

end Sys2Proof.Machine
end

