-- ==== Sys2Proof/Machine/ResetRows.lean ====
section
/-!
DEFINITION. The rows of resets, the boot and the pins that bear on them (15 R446 to R460, R492, 12 R382, 14 R434, 16 R466,
R467, R470, R474 to R479).
-/

namespace Sys2Proof.Machine

/-! ### Pulses at balls (16 Table 16-10) -/

/-- A pulse of this many nanoseconds: recognised, ignored, or of a length the board must not produce (R479). -/
def onPulse (ns recognised ignored : Nat) (s t : State) : Res :=
  if recognised ≤ ns then .next t else if ns < ignored then .next s else .fault .forbiddenPulse

/-! ### Power-on, RESET_N and rails -/

/-- POWER_ON_RESET (R446, R474): the straps are sampled; buffer DRAM was without supply. -/
def execPowerOnReset (straps : Straps) (s : State) : Res :=
  let s := { s with pins := { s.pins with hostSplit := straps.hostSplit, twinId := straps.twinId, testmode := straps.testmode, resetLow := straps.resetLow }
                    mem := { s.mem with dram := [], poison := [] }, sec := { s.sec with tap := {} }
                    rst := { s.rst with drained := s.rst.drained && (s.rst.held || !s.rst.booted) } }
  .next (powerOn s)
/-- RESET_N (R446, R479): low for this many nanoseconds so far; it stays low. -/
def execResetN (ns : BitVec 32) (s : State) : Res :=
  onPulse ns.toNat 1000 800 s (takeReset { s with pins := { s.pins with resetLow := true } } .resetN 3)
/-- RESET_N_RELEASE (R474): a boot held at step 1 goes on. -/
def execResetNRelease (s : State) : Res := .next (bootRun { s with pins := { s.pins with resetLow := false } })
/-- a drain that ends before its save is written leaves the area it was writing invalid (05 R149) -/
def drainCut (s : State) : State := match s.pwr.drain.bind (·.save) with | some _ => cutSave s | none => s
/-- RAIL_LOSS (R475): the part stops at once and saves nothing; with RESET_N low after its drain it was down already (R476). -/
def execRailLoss (s : State) : Res :=
  .next (if s.rst.held then s
    else if !s.rst.booted && s.pins.resetLow && s.pwr.drain.isNone then { s with rst := { s.rst with held := true } }
    else
      let s := drainCut s
      let s := shedHost (shed { s with pwr := { s.pwr with drain := none } })
      holdInReset s)
/-- BUS_RETURN_TO_HV_IN (R470) -/
def execBusReturnToHvIn (s : State) : Res := .next (if s.rst.held && mayReturn s then busReturns s else s)
/-- DRAIN_END (12 R382, R384) -/
def execDrainEnd (s : State) : Res := .next (drainDone s)

/-! ### PERST -/

/-- DEVICE_PERST (R446, R453): PERST0_N, and PERST1_N with it in 2 × x8 -/
def execDevicePerst (ns : BitVec 32) (s : State) : Res :=
  onPulse ns.toNat 20 5 s (takeReset { s with pins := { s.pins with perst0 := true, perst1 := s.pins.perst1 || s.hp.split } } .perst 2)
/-- LINK_PERST (R450): in 2 × x8, one of the pins while the other is deasserted -/
def linkPerst (s : State) (b : Bool) : State :=
  if !s.hp.split || s.rst.held || (if b then s.pins.perst0 || s.pins.perst1 else s.pins.perst1 || s.pins.perst0) then s
  else
    let s := if b then { s with pins := { s.pins with perst1 := true } } else { s with pins := { s.pins with perst0 := true } }
    flr (linkFalls s b) (if b then 0x41 else 0x40)
def execLinkPerst (link : Bool) (ns : BitVec 32) (s : State) : Res := onPulse ns.toNat 20 5 s (linkPerst s link)
/-- PERST_DEASSERT (R453) -/
def execPerstDeassert (link : Bool) (s : State) : Res :=
  .next (if link then { s with pins := { s.pins with perst1 := false } } else { s with pins := { s.pins with perst0 := false } })

/-! ### Function, engine, firmware and watchdog resets -/

/-- FUNCTION_LEVEL_RESET (R450): a request of the host, which DEEP SLEEP holds (12 R375) -/
def execFunctionLevelReset (fn : Master) (s : State) : Res := .next (if isFn fn then hostRequest s fn .flr else s)
/-- ENGINE_RESET (R451, R460): a write of `RST_ENGINE` -/
def execEngineReset (who : Master) (v : Word) (s : State) : Res := execRegisterWrite who 0x16000C v s
/-- WATCHDOG_KICK (R460): a write of `RST_WDOG_KICK` -/
def execWatchdogKick (who : Master) (v : Word) (s : State) : Res := execRegisterWrite who 0x160008 v s
/-- WATCHDOG_EXPIRY (R446) -/
def execWatchdogExpiry (s : State) : Res :=
  .next (if s.rst.wdog != 0 && controlRuns s && s.rst.fwReady then takeReset s .watchdog 5 else s)
/-- CONTROL_PROCESSOR_FAULT (14 R434) -/
def execControlProcessorFault (s : State) : Res := .next (if s.cp.running && controlRuns s then cpFault s else s)

/-! ### Firmware (R455, R492, 13 R403 to R406) -/

/-- FIRMWARE_READY: steps 6 to 8 of the boot with the image slots as the flash holds them -/
def execFirmwareReady (a b : Image) (s : State) : Res :=
  .next (if !s.rst.booted || s.rst.fwReady || s.rst.rom || s.rst.held || s.pwr.drain.isSome then s
    else
      let s := bootImage s a b
      if s.rst.rom then applyHeldAdm s else firmwareStarts s)

/-! ### Temperatures (16 R466, R467) -/

/-- THERMTRIP_N: driven at 132 °C, released when every sensor reads 120 °C or less -/
def tripAfter (was : Bool) (temps : List Int) : Bool :=
  if temps.any fun t => decide (132 ≤ t) then true else if temps.all fun t => decide (t ≤ 120) then false else was
/-- DRAM_HOT: set above 85 °C, cleared below 83 °C -/
def hotAfter (was : Bool) (t : Int) : Bool := if 85 < t then true else if t < 83 then false else was
/-- TEMP_SENSOR_READ (R467) -/
def execTempSensorRead (logic dram holdup : Byte) (s : State) : Res :=
  .next { s with pwr := { s.pwr with tempLogic := logic, tempDram := dram, tempHu := holdup, dramHot := hotAfter s.pwr.dramHot dram.toInt } }
/-- THERMTRIP (R466): an analog comparator at each die, which the part does not act on otherwise -/
def execThermtrip (logic dram holdup : BitVec 9) (s : State) : Res :=
  .next { s with pwr := { s.pwr with trip := tripAfter s.pwr.trip [logic.toInt, dram.toInt, holdup.toInt] } }

end Sys2Proof.Machine
end

