-- ==== Sys2Proof/Machine/EventRows.lean ====
section
/-!
DEFINITION. The rows of conjunctions, GPIO pins and mailboxes (10 R302 to R331, 16 R467, R479), of WAIT time-outs (02 R36)
and of sleep and wake (12 R369 to R376).
-/

namespace Sys2Proof.Machine

/-! ### Conjunctions and pins -/

/-- CJ_INPUT_EDGE (R306, R312): the conjunction meets the rising edge of its input; without one nothing happens. -/
def execCjInputEdge (n : Byte) (s : State) : Res :=
  .next (if !s.rst.held && s.evt.edges.contains n.toNat then
      cjEdge { s with evt := { s.evt with edges := s.evt.edges.filter (· != n.toNat) } } n.toNat
    else s)
/-- remove the first act of a conjunction's target k -/
def takeAct (n k : Nat) : List (Nat × Nat × Word) → Option (Word × List (Nat × Nat × Word))
  | [] => none
  | (n', k', w) :: l =>
    if n = n' ∧ k = k' then some (w, l)
    else match takeAct n k l with
      | some (x, r) => some (x, (n', k', w) :: r)
      | none => none
/-- CONJUNCTION_ACT (R309, R314): a delivered act is applied at its target. -/
def execConjunctionAct (n : Byte) (k : BitVec 3) (s : State) : Res :=
  .next (match takeAct n.toNat k.toNat s.evt.acts with
    | some (w, l) => afterWake (applyAct { s with evt := { s.evt with acts := l } } n.toNat w)
    | none => s)
/-- INHIBIT_DISARM (R312): the input has been low for 20 ns; while a pin holds it high, or a rise of it is not yet handled, it
has not. -/
def execInhibitDisarm (n : Byte) (s : State) : Res :=
  .next (if cjHigh (gpioLevels s) (getCj s n.toNat) || s.evt.edges.contains n.toNat then s
    else modCj s n.toNat fun c => { c with armed := false })
/-- GPIO_INPUT_EDGE (R302, 16 R479): the board raises a pin for this many nanoseconds so far, or lowers it. -/
def execGpioInputEdge (pin : BitVec 4) (high : Bool) (ns : BitVec 32) (s : State) : Res :=
  let t := withPins s fun s => { s with pins := { s.pins with gpio := setBit s.pins.gpio pin.toNat high } }
  if high then onPulse ns.toNat 10 3 s t else .next t

/-! ### Mailboxes (R325 to R328) -/

/-- A party that is not the mailbox's: a register write is rejected in the EVT window (R325, Table 10-9). An engine posts by
SIGNAL alone, which is turned away when it executes (R303), with no effect here. -/
def mbxRefused (s : State) (who : Master) : State := if isCe who then s else reject s 11
/-- A function's post or acknowledgement is a write of MBXm_CTL: a VF by its own window, a PF by the EVT window (Table 10-9). -/
def mbxWrite (who : Master) (m : Nat) (v : Word) : HostReq :=
  .bar0 { write := true, off := BitVec.ofNat 35 ((if isVf who then 0x1020 else 0x117020) + 64 * m), len := 4, data := toLE 4 v.toNat }
/-- MBX_POST (R326) -/
def execMbxPost (who : Master) (m : BitVec 6) (s : State) : Res :=
  let x := getMbx s m.toNat
  .next (if isFn who then hostRequest s who (mbxWrite who m.toNat 1)
    else if s.rst.held then s else if x.valid && x.sender == who then afterWake (mbxPostWake (ceData s m.toNat) m.toNat) else mbxRefused s who)
/-- MBX_ACK (R327) -/
def execMbxAck (who : Master) (m : BitVec 6) (s : State) : Res :=
  let x := getMbx s m.toNat
  .next (if isFn who then hostRequest s who (mbxWrite who m.toNat 2)
    else if s.rst.held then s else if x.valid && x.receiver == who then mbxAckOp s m.toNat false else mbxRefused s who)

/-! ### WAIT time-outs and wake sources -/

/-- the tick a WAIT in progress times out at -/
def waitExpiry (s : State) (n : Nat) : Option Nat :=
  let p := getP s n
  if p.state == .waiting then p.wait.bind (·.expiry) else none
/-- WAIT_TIMEOUT (02 R36, 12 Table 12-2, R374): held while the part enters a sleep or stands by; in DEEP SLEEP it stops. -/
def execWaitTimeout (prn : PrnNum) (s : State) : Res :=
  let n := prn.toNat
  .next (match waitExpiry s n with
    | none => s
    | some e =>
      if s.pwr.drain.isSome || s.rst.held || isFenced s then s
      else match s.pwr.sleep with
        | .awake => expireWait s n
        | .deep => s
        | _ => if s.pwr.held.contains (.timeout n) then s else holdAct (reachTick s e) (.timeout n))
/-- WAKE_IN_FALL (12 Table 12-3, 16 R479) -/
def execWakeInFall (ns : BitVec 32) (s : State) : Res := onPulse ns.toNat 2000 500 s (if s.rst.held then s else afterWake (wakeSource s 8))
/-- WAKE_TIMER_EXPIRY: counted from the commit cycle; 0 is off -/
def execWakeTimerExpiry (s : State) : Res :=
  .next (if s.pwr.wakeTimer != 0 && (asleep s || s.pwr.woke) && !s.rst.held then afterWake (wakeSource s 10) else s)
/-- DEEP_SLEEP_PREREQ_MET (R375, R376) -/
def execDeepSleepPrereqMet (s : State) : Res := .next (if s.pwr.sleep == .entering && !s.pwr.light && logicRuns s && deepReady s then commitDeep s else s)
/-- D3_WAIT_TIMEOUT (R376) -/
def execD3WaitTimeout (s : State) : Res := .next (if s.pwr.sleep == .entering && !s.pwr.light && logicRuns s then abandonSleep s 2 else s)

end Sys2Proof.Machine
end

