-- ==== Sys2Proof/Machine/LinkRows.lean ====
section
/-!
DEFINITION. The rows of the link quads (08_link_quads.md R236 to R273).
-/

namespace Sys2Proof.Machine

def profileOf (s : State) (q : Nat) : Nat := (getQ s q).profile.toNat

/-! ### Port states -/

/-- the rate and width a P port may report: those of its arrangement or lower (R238) -/
def linkLegal (x : Quad) (l : LinkUp) : Bool :=
  decide (1 ≤ l.rate.toNat) && decide (l.rate.toNat ≤ 5) && [1, 2, 4].contains l.width.toNat && decide (l.width.toNat ≤ lanesOf x)
/-- the queues firmware recreates after an enumeration: the pairs the controller grants and the rings of its functions (R273) -/
def recreated (d : DeviceInfo) (x : PPort) : PPort :=
  { x with pairs := if d.nvme.isSome then x.pairs.filter fun e => decide (e.1 ≤ d.pairs.toNat) else []
           rings := x.rings.filter fun e => d.funcs.any fun f => f.num.toNat == rgFunction e.2.entry }
def recreate (s : State) (q p : Nat) (d : DeviceInfo) : State :=
  let x := (getPort s q p).pp
  let s := (recreated d x).pairs.foldl (fun s e => clearPair s e.2) s
  let s := (recreated d x).rings.foldl (fun s e => clearRing s e.2) s
  modPP s q p (recreated d)
/-- memory BARs placed in the 4 GiB outbound window, each aligned to its size, in order from an offset; none where they do
not fit (R239) -/
def placeBars (at_ : Nat) : List (Nat × DevBar) → Option (List (Nat × Nat × Nat))
  | [] => some []
  | e :: es =>
    let sz := 2 ^ e.2.shift.toNat
    let a := (at_ + sz - 1) / sz * sz
    if 2 ^ 32 < a + sz then none else (placeBars (a + sz) es).map ((e.1, e.2.index.toNat, a) :: ·)
def barsOf (d : DeviceInfo) : List (Nat × DevBar) := (d.funcs.map fun f => f.bars.map fun b => (f.num.toNat, b)).flatten
/-- max payload size: 512 bytes, or less if a function supports less (Table 8-6) -/
def maxPayload (d : DeviceInfo) : Nat := d.funcs.foldl (fun m f => min m (128 * 2 ^ f.payload.toNat)) 512
/-- what enumeration sets in one function (R239, R242) -/
def setupOf (pay : Nat) (bars : List (Nat × Nat × Nat)) (f : DevFunc) : List DevSetup :=
  ((bars.filter fun b => b.1 == f.num.toNat).map fun b => .bar b.2.1 b.2.2)
    ++ [.enable, .sizes pay 4096, .errors] ++ (List.range f.vectors.toNat).map .vector
def setUp (s : State) (q p : Nat) (d : DeviceInfo) (bars : List (Nat × Nat × Nat)) : State :=
  d.funcs.foldl (fun s f => (setupOf (maxPayload d) bars f).foldl (fun s w => emit s (.devSetup q p f.num.toNat w)) s) s
/-- enumeration ends with the port UP, or disabled for its device (R239) -/
def enumerated (s : State) (q p : Nat) (l : LinkUp) : State :=
  match if l.device.bridge then none else placeBars 0 (barsOf l.device) with
  | none => portLeaves s q p 0 8
  | some bars =>
    let s := modPort s q p fun x =>
      { x with rate := l.rate, width := l.width, pp := { x.pp with device := some l.device, bars := bars, payload := maxPayload l.device } }
    adminStart (setLinkState (recreate (setUp s q p l.device bars) q p l.device) q p 4) q p
/-- A P or E port's STATE moves one step towards up (R236, Table 8-4). -/
def portUpStep (s : State) (q p : Nat) (l : LinkUp) : State :=
  let x := getQ s q
  let st := (getPort s q p).state.toNat
  if !(portOn s q p) then s
  else match profileOf s q, st, l.state.toNat with
    | 1, 1, 2 => setLinkState s q p 2
    | 1, 2, 3 => setLinkState s q p 3
    | 1, 3, 4 => if linkLegal x l then enumerated s q p l else s
    | 1, 5, 4 | 1, 6, 4 =>
      if linkLegal x l then setLinkState (modPort s q p fun y => { y with rate := l.rate, width := l.width }) q p 4 else s
    | 2, 1, 2 => setLinkState s q p 2
    | 2, 2, 4 =>
      startTx (setLinkState (modPort s q p fun y =>
        { y with rate := 6 + x.arrange.setWidth 4, width := BitVec.ofNat 3 (lanesOf x) }) q p 4) q p
    | _, _, _ => s
/-- PORT_LINK_UP (R236, R239) -/
def execPortLinkUp (q : BitVec 5) (p : BitVec 2) (link : LinkUp) (s : State) : Res := .next (portUpStep s q.toNat p.toNat link)

/-- the causes of a P or E port's exit that the line gives (Table 8-3) -/
def lossCause (profile cause : Nat) : Bool := (profile == 1 && decide (2 ≤ cause) && decide (cause ≤ 5)) || (profile == 2 && (cause == 2 || cause == 3))
/-- PORT_LINK_DOWN (R273): a port in training goes back to DOWN. -/
def execPortLinkDown (q : BitVec 5) (p : BitVec 2) (cause : BitVec 4) (s : State) : Res :=
  .next (if lossCause (profileOf s q.toNat) cause.toNat && decide (2 ≤ (getPort s q.toNat p.toNat).state.toNat)
    then portLeaves s q.toNat p.toNat 1 cause else s)

/-- PORT_RECOVERY_ENTRY (R236) -/
def execPortRecoveryEntry (q : BitVec 5) (p : BitVec 2) (s : State) : Res :=
  let st := (getPort s q.toNat p.toNat).state
  .next (if profileOf s q.toNat == 1 && (st == 4 || st == 6) then setLinkState (count s q.toNat p.toNat 7) q.toNat p.toNat 5 else s)
/-- PORT_LOW_POWER_ENTRY (R238) -/
def execPortLowPowerEntry (q : BitVec 5) (p : BitVec 2) (s : State) : Res :=
  .next (if profileOf s q.toNat == 1 && (getPort s q.toNat p.toNat).state == 4 then setLinkState s q.toNat p.toNat 6 else s)

/-! ### P profile -/

/-- a request lies in the port's inbound region -/
def inRegion (x : PPort) (a n : Nat) : Bool := x.size != 0 && decide (regionStart x ≤ a) && decide (a + n ≤ regionEnd x)
/-- A device memory request (R240). -/
def inbound (s : State) (q p : Nat) (r : InboundReq) : State :=
  let x := getPort s q p
  if profileOf s q != 1 || !(portUp x) then s
  else match r with
    | .read a n =>
      if inRegion x.pp a.toNat n.toNat then
        emit s (.inbound q p true (getBytes s.mem.dram a.toNat n.toNat) (dramPoisoned s a.toNat n.toNat))
      else emit (count s q p 6) (.inbound q p false [] false)
    | .write a l => if inRegion x.pp a.toNat l.length then writeDram s a.toNat l else count s q p 6
/-- INBOUND_MEMORY_REQUEST (R240) -/
def execInboundMemoryRequest (q : BitVec 5) (p : BitVec 2) (req : InboundReq) (s : State) : Res := .next (inbound s q.toNat p.toNat req)
/-- INBOUND_MSIX_WRITE (R242) -/
def execInboundMsixWrite (q : BitVec 5) (p : BitVec 2) (fn : Byte) (vector : BitVec 11) (s : State) : Res :=
  .next (if profileOf s q.toNat == 1 && portUp (getPort s q.toNat p.toNat) then deviceVector s q.toNat p.toNat fn.toNat vector.toNat else s)
/-- PCIE_ERROR_MESSAGE (R238, R273) -/
def execPcieErrorMessage (q : BitVec 5) (p : BitVec 2) (sev : PcieErr) (s : State) : Res :=
  if profileOf s q.toNat != 1 || !(portUp (getPort s q.toNat p.toNat)) then .next s
  else match sev with
    | .correctable => .next (count s q.toNat p.toNat 4)
    | .nonFatal => .next (count s q.toNat p.toNat 5)
    | .fatal => .next (portLeaves (count s q.toNat p.toNat 5) q.toNat p.toNat 1 6)
/-- CQ_SCAN_TIMER (R243) -/
def execCqScanTimer (q : BitVec 5) (p : BitVec 2) (pair : BitVec 7) (s : State) : Res :=
  .next (if portUp (getPort s q.toNat p.toNat) then scanPair s q.toNat p.toNat pair.toNat else s)
/-- NVME_RESUBMIT (R249) -/
def execNvmeResubmit (op : BitVec 32) (s : State) : Res :=
  match getOp s op.toNat with
  | some o =>
    if o.kind == .nvme && o.stage == .busyWait then
      .next (tryIssue (setOp s { o with stage := .queued }) { o with stage := .queued } 0)
    else .next s
  | none => .next s
/-- RING_SCAN_TIMER (R251) -/
def execRingScanTimer (q : BitVec 5) (p : BitVec 2) (ring : BitVec 4) (s : State) : Res :=
  .next (if portUp (getPort s q.toNat p.toNat) then scanRing s q.toNat p.toNat ring.toNat else s)
/-- DEVICE_OPERATION_END (R270): the end of a ring function's BAR, configuration or status access; the other profiles'
operations end by their own rows. -/
def execDeviceOperationEnd (op : BitVec 32) (data : List Byte) (ok : Bool) (s : State) : Res :=
  match getOp s op.toNat with
  | some o =>
    if o.kind == .ring && o.verb != 0x21 && o.stage == .issued then
      .next (if ok then finishOp s { o with rx := data.take o.count, long := decide (o.count < data.length) } devDone 0 0
             else finishOp s o devUnit 0x01 o.count)
    else .next s
  | none => .next s

/-! ### E profile -/

def eUp (s : State) (q p : Nat) : Bool := profileOf s q == 2 && portUp (getPort s q p)
/-- received frames are taken: a FENCED part discards them (11 R356) -/
def eTakes (s : State) (q p : Nat) : Bool := eUp s q p && !(isFenced s)
/-- ETH_FRAME_RX (R255): the bytes from the destination address to the payload's end, and whether the FCS was good. -/
def execEthFrameRx (q : BitVec 5) (p : BitVec 2) (bytes : List Byte) (good : Bool) (s : State) : Res :=
  .next (if eTakes s q.toNat p.toNat then ethRx s q.toNat p.toNat bytes good else s)
/-- PAUSE_FRAME_RX (R260) -/
def execPauseFrameRx (q : BitVec 5) (p : BitVec 2) (bytes : List Byte) (s : State) : Res :=
  .next (if eTakes s q.toNat p.toNat && isPauseFrame (getPort s q.toNat p.toNat).ep bytes then ethRx s q.toNat p.toNat bytes true else s)
/-- PAUSE_TIMER_EXPIRY (R260) -/
def execPauseTimerExpiry (q : BitVec 5) (p : BitVec 2) (queues : BitVec 8) (s : State) : Res :=
  .next (if eUp s q.toNat p.toNat then
    startTx (modEP s q.toNat p.toNat fun x => { x with paused := x.paused &&& ~~~queues }) q.toNat p.toNat else s)
/-- The frame leaving the MAC has been sent (R253). -/
def frameSent (s : State) (q p : Nat) : State :=
  match (getPort s q p).ep.sending with
  | none => s
  | some (id, f) =>
    let s := emit (modEP s q p fun x => { x with sending := none }) (.frame q p (withFcs f))
    let s := countBy (count s q p 0) q p 2 (f.length + 4)
    let s := match getOp s id with
      | some o => if isEnded o then s else finishOp s o devDone 0 0
      | none => s
    startTx s q p
/-- ETH_FRAME_TX_DONE (R253) -/
def execEthFrameTxDone (q : BitVec 5) (p : BitVec 2) (s : State) : Res :=
  .next (if eUp s q.toNat p.toNat then frameSent s q.toNat p.toNat else s)

/-! ### K profile -/

def kState (s : State) (q p : Nat) : Nat := if profileOf s q == 3 then (getPort s q p).state.toNat else 0
/-- KDL_SIGNAL_DETECT (R262) -/
def execKdlSignalDetect (q : BitVec 5) (p : BitVec 2) (s : State) : Res :=
  .next (if kState s q.toNat p.toNat == 1 && !(getPort s q.toNat p.toNat).kp.failed then setLinkState s q.toNat p.toNat 2 else s)
/-- KDL_TS1_RX (R261, R262) -/
def execKdlTs1Rx (q : BitVec 5) (p : BitVec 2) (inverted : Bool) (s : State) : Res :=
  let st := kState s q.toNat p.toNat
  .next (if st == 2 || st == 5 then
    trainSet (modKP s q.toNat p.toNat fun k => { k with inverted := k.inverted != inverted }) q.toNat p.toNat false else s)
/-- KDL_TS2_RX (R262) -/
def execKdlTs2Rx (q : BitVec 5) (p : BitVec 2) (s : State) : Res :=
  let st := kState s q.toNat p.toNat
  .next (if st == 2 || st == 5 then trainSet s q.toNat p.toNat true else s)
/-- KDL_SKP_RX (R261): clock compensation alone (log entry 111). -/
def execKdlSkpRx (_q : BitVec 5) (_p : BitVec 2) (s : State) : Res := .next s
/-- KDL_EIOS_RX (R261): it announces the sender's electrical idle, whose effects are their own happenings. -/
def execKdlEiosRx (_q : BitVec 5) (_p : BitVec 2) (s : State) : Res := .next s
/-- KDL_TRAIN_TIMEOUT (R262) -/
def execKdlTrainTimeout (q : BitVec 5) (p : BitVec 2) (s : State) : Res :=
  match kState s q.toNat p.toNat with
  | 2 => .next (modKP (portLeaves s q.toNat p.toNat 1 3) q.toNat p.toNat fun k => { k with failed := true })
  | 5 => .next (portLeaves s q.toNat p.toNat 1 4)
  | _ => .next s
/-- KDL_CONFIG_TIMEOUT (R262) -/
def execKdlConfigTimeout (q : BitVec 5) (p : BitVec 2) (s : State) : Res :=
  .next (if kState s q.toNat p.toNat == 3 then portLeaves s q.toNat p.toNat 1 3 else s)
/-- KDL_RETRY_DELAY (R262) -/
def execKdlRetryDelay (q : BitVec 5) (p : BitVec 2) (s : State) : Res :=
  .next (if kState s q.toNat p.toNat == 1 && (getPort s q.toNat p.toNat).kp.failed then
    setLinkState (modKP s q.toNat p.toNat fun k => { k with failed := false }) q.toNat p.toNat 2 else s)
/-- KDL_BLOCK_LOCK_LOSS (R262) -/
def execKdlBlockLockLoss (q : BitVec 5) (p : BitVec 2) (s : State) : Res :=
  .next (if kState s q.toNat p.toNat == 4 then enterRetrain s q.toNat p.toNat else s)
/-- KDL_INIT (R263) -/
def execKdlInit (q : BitVec 5) (p : BitVec 2) (f : KdlFrame) (s : State) : Res := .next (kdlOfType s q.toNat p.toNat 0x13 f)
/-- KDL_IDLE (R263) -/
def execKdlIdle (q : BitVec 5) (p : BitVec 2) (f : KdlFrame) (s : State) : Res := .next (kdlOfType s q.toNat p.toNat 0x00 f)
/-- KDL_DATA (R267) -/
def execKdlData (q : BitVec 5) (p : BitVec 2) (f : KdlFrame) (s : State) : Res := .next (kdlOfType s q.toNat p.toNat 0x02 f)
/-- KDL_STATUS (R268) -/
def execKdlStatus (q : BitVec 5) (p : BitVec 2) (f : KdlFrame) (s : State) : Res := .next (kdlOfType s q.toNat p.toNat 0x03 f)
/-- KDL_ATTN (R268) -/
def execKdlAttn (q : BitVec 5) (p : BitVec 2) (f : KdlFrame) (s : State) : Res := .next (kdlOfType s q.toNat p.toNat 0x04 f)
/-- KDL_ACK (R264) -/
def execKdlAck (q : BitVec 5) (p : BitVec 2) (f : KdlFrame) (s : State) : Res := .next (kdlOfType s q.toNat p.toNat 0x10 f)
/-- KDL_NAK (R264) -/
def execKdlNak (q : BitVec 5) (p : BitVec 2) (f : KdlFrame) (s : State) : Res := .next (kdlOfType s q.toNat p.toNat 0x11 f)
/-- KDL_CREDIT (R266) -/
def execKdlCredit (q : BitVec 5) (p : BitVec 2) (f : KdlFrame) (s : State) : Res := .next (kdlOfType s q.toNat p.toNat 0x12 f)
/-- the frame is undefined at a port in this state (R265) -/
def isUndefined (st : Nat) (t : Byte) : Bool := !(kdlFromController t) || (t == 0x13 && st != 3)
/-- KDL_UNDEFINED_FRAME (R265) -/
def execKdlUndefinedFrame (q : BitVec 5) (p : BitVec 2) (f : KdlFrame) (s : State) : Res :=
  .next (if isUndefined (kState s q.toNat p.toNat) f.type then kdlRx s q.toNat p.toNat f else s)
/-- KDL_REPLAY_TIMEOUT (R264) -/
def execKdlReplayTimeout (q : BitVec 5) (p : BitVec 2) (s : State) : Res :=
  .next (if kState s q.toNat p.toNat == 4 && !(getPort s q.toNat p.toNat).kp.replay.isEmpty
    then replayAgain s q.toNat p.toNat false else s)
/-- CANCEL for an operation (R268) -/
def cancelFrame (o : DevOp) : KdlFrame :=
  { type := 0x05, seqVc := BitVec.ofNat 16 (4096 * (bQueue o.bind % 4)), device := BitVec.ofNat 8 (bTarget o.bind)
    opId := BitVec.ofNat 16 o.cid }
/-- An operation is not done within OP_TIMEOUT (R237, R268, R272). -/
def opTimesOut (s : State) (o : DevOp) : State :=
  let s := if o.kind == .kdl && o.stage == .issued then kdlEnqueue s o.q o.p [cancelFrame o] else s
  let s := if o.kind == .eth then
      modEP s o.q o.p fun x => { x with txq := x.txq.filterMap fun e =>
        let l := e.2.filter fun f => f.1 != o.id
        if l.isEmpty then none else some (e.1, l) }
    else s
  retryQueued (finishOp s o devTimeout 0 o.count) o.q o.p
/-- OP_TIMEOUT_EXPIRY (R268) -/
def execOpTimeoutExpiry (op : BitVec 32) (s : State) : Res :=
  match getOp s op.toNat with
  | some o => .next (if isEnded o then s else opTimesOut s o)
  | none => .next s
/-- KDL_BUSY_RESEND (R268): the operation is sent again with a new OP_ID. -/
def execKdlBusyResend (op : BitVec 32) (s : State) : Res :=
  match getOp s op.toNat with
  | some o =>
    if o.kind == .kdl && o.stage == .busyWait then
      .next (tryIssue (setOp s { o with stage := .queued, rx := [] }) { o with stage := .queued, rx := [] } 0)
    else .next s
  | none => .next s
/-- INIT as this part sends it: its limits, and 4,096-byte payloads -/
def initFrame (k : KPort) : KdlFrame := kdlSimple 0x13 0 (limitBytes k ++ [4, 0, 0, 0])
/-- KDL_INIT_SEND (R262) -/
def execKdlInitSend (q : BitVec 5) (p : BitVec 2) (s : State) : Res :=
  if kState s q.toNat p.toNat != 3 then .next s
  else
    let k := (getPort s q.toNat p.toNat).kp
    let s := sendKdl (modKP s q.toNat p.toNat fun k => { k with initTx := true }) q.toNat p.toNat (initFrame k)
    .next (if k.initRx then enterActive s q.toNat p.toNat false else s)

end Sys2Proof.Machine
end

