-- ==== Sys2Proof/Machine/SecurityRows.lean ====
section
/-!
DEFINITION. The rows of key banks, nonces, the TAP and the debug mailbox (13 R398, R409 to R423).
-/

namespace Sys2Proof.Machine

/-! ### Keys and nonces -/

/-- KEY_RESERVATION_WRITE (R412): a counter near its reservation has a bank written with a higher one. -/
def execKeyReservationWrite (s : State) : Res :=
  .next (if controlRuns s && s.rst.fwReady && s.sec.bankDue.isNone && (s.sec.vault.any fun e => resvDue e.2) then startBank s (raiseResv (bankList s)) else s)
/-- KEY_BANK_WRITTEN (R409, R412) -/
def execKeyBankWritten (s : State) : Res := .next (if s.rst.held then s else bankWritten s)
/-- NEW_NONCE (R398, R423): `SEC_CTL.NEW_NONCE` written with 1 -/
def execNewNonce (s : State) : Res := .next (if s.rst.held then s else newNonce s)

/-! ### The TAP (R415, R421, R422) -/

def onTap (s : State) (f : State → State) : Res := .next (if powered s then f s else s)
/-- EXTEST -/
def execExtest (s : State) : Res := onTap s fun s => boundaryIr s 0x00
/-- SAMPLE_PRELOAD: the boundary register is loaded; outputs stay as they are -/
def execSamplePreload (cells : List Bool) (s : State) : Res :=
  onTap s fun s => let s := selectIr s 0x01; setTap s { s.sec.tap with boundary := cells }
/-- IDCODE: the identification register is selected and shifted out -/
def execIdcode (s : State) : Res := onTap s fun s => emit (selectIr s 0x02) (.value 0xF0 idCode)
/-- CLAMP -/
def execClamp (s : State) : Res := onTap s fun s => boundaryIr s 0x03
/-- HIGHZ -/
def execHighz (s : State) : Res := onTap s fun s => boundaryIr s 0x04
/-- DBG_MBX: the debug mailbox register is selected -/
def execDbgMbx (s : State) : Res := onTap s fun s => selectIr s 0x10
/-- BYPASS -/
def execBypass (s : State) : Res := onTap s fun s => selectIr s 0xFF
/-- TRST_N_ASSERT (R419, 16 R479): the level is lowered, and identity 0xF0 is reset (10 Table 10-10) -/
def trst (s : State) : State :=
  let closed := s.sec.level == 0
  let s := setLevel s 0
  setTap (if closed then resetMaster s 0xF0 else s) {}
def execTrstNAssert (ns : BitVec 32) (s : State) : Res := onPulse ns.toNat 100 10 s (if powered s then trst s else s)

/-! ### Debug mailbox commands (R416 to R420) -/

def onMailbox (s : State) (f : State → State) : Res := .next (if mailboxOn s then f s else s)
/-- STATUS -/
def execDbgStatus (s : State) : Res := onMailbox s fun s => answer s 0 (dbgStatusBytes s)
/-- CHALLENGE (R418) -/
def execChallenge (level : Byte) (s : State) : Res := onMailbox s fun s => challengeOp s level
/-- CHALLENGE_EXPIRY (R418): 10 s after the challenge -/
def execChallengeExpiry (s : State) : Res := .next { s with sec := { s.sec with chal := none } }
/-- UNLOCK (R418) -/
def execDbgUnlock (key sig : List Byte) (s : State) : Res := onMailbox s fun s => unlockDbg s (padTo 96 key) (padTo 96 sig)
/-- RELOCK (R419) -/
def execRelock (level : Byte) (s : State) : Res := onMailbox s fun s => relockOp s level
/-- a register's unit sleeps (R422) -/
def regAsleep (s : State) (off : Nat) : Bool :=
  match s.pwr.sleep with
  | .standby => decide (0x10000 ≤ off) && decide (off < 0x20000) || decide (0x40000 ≤ off) && decide (off < 0x110000)
  | .deep => !((decide (0x110000 ≤ off) && decide (off < 0x120000)) || (decide (0x130000 ≤ off) && decide (off < 0x150000)))
  | _ => false
/-- an offset READ32 and WRITE32 take -/
def regOffBad (off : Nat) : Bool := off % 4 != 0 || decide (0x400000 ≤ off)
/-- READ32 (R417) -/
def execRead32 (off : Word) (s : State) : Res :=
  let o := off.toNat
  onMailbox s fun s =>
    if s.sec.level == 0 then answer s 0x02 []
    else if regOffBad o then answer s 0x07 []
    else if decide (0x3E0000 ≤ o) || (s.sec.level == 1 && dbgHidden o) then answer s 0x02 []
    else if regAsleep s o then answer s 0x04 []
    else let r := regRead s 0xF0 o; answer r.2 0 (toLE 4 r.1.toNat)
/-- WRITE32 (R417) -/
def execWrite32 (off v : Word) (s : State) : Res :=
  let o := off.toNat
  onMailbox s fun s =>
    if s.sec.level != 2 then answer s 0x02 []
    else if regOffBad o then answer s 0x07 []
    else if regAsleep s o then answer s 0x04 []
    else afterWake (answer (regWrite s 0xF0 o v) 0 [])
/-- READ_MEM (R417) -/
def execReadMem (addr : Dword) (len : Word) (s : State) : Res := onMailbox s fun s => readMemOp s addr len.toNat
/-- WRITE_MEM (R417) -/
def execWriteMem (addr : Dword) (len : Word) (bytes : List Byte) (s : State) : Res := onMailbox s fun s => writeMemOp s addr len.toNat bytes
/-- TRACE_READ (R416, 14 R444) -/
def execTraceRead (off : Word) (s : State) : Res := onMailbox s fun s => traceReadOp s off.toNat

end Sys2Proof.Machine
end

