-- ==== Sys2Proof/Machine/Dispatch.lean ====
section
/-!
DEFINITION. The dispatch: one arm per command, each one call of its meaning (the form is the host's).
-/

namespace Sys2Proof.Machine

/-- One command's effect on everything but the queue. -/
def exec (i : Instr) (s : State) : Host.Outcome State Fault Refusal :=
  match i with
  | .ccwFetch slot => Sys2Proof.Machine.execCcwFetch slot s
  | .verbWrite slot => Sys2Proof.Machine.execVerbWrite slot s
  | .verbRead slot => Sys2Proof.Machine.execVerbRead slot s
  | .verbSense slot => Sys2Proof.Machine.execVerbSense slot s
  | .verbMove slot => Sys2Proof.Machine.execVerbMove slot s
  | .verbFill slot => Sys2Proof.Machine.execVerbFill slot s
  | .verbCompare slot => Sys2Proof.Machine.execVerbCompare slot s
  | .verbControl slot => Sys2Proof.Machine.execVerbControl slot s
  | .verbJump slot => Sys2Proof.Machine.execVerbJump slot s
  | .verbLoop slot => Sys2Proof.Machine.execVerbLoop slot s
  | .verbNop slot => Sys2Proof.Machine.execVerbNop slot s
  | .verbWait slot => Sys2Proof.Machine.execVerbWait slot s
  | .verbSignal slot => Sys2Proof.Machine.execVerbSignal slot s
  | .verbScript slot => Sys2Proof.Machine.execVerbScript slot s
  | .verbAbandon slot => Sys2Proof.Machine.execVerbAbandon slot s
  | .verbPost slot => Sys2Proof.Machine.execVerbPost slot s
  | .verbHalt slot => Sys2Proof.Machine.execVerbHalt slot s
  | .doomEntriesReturned prn => Sys2Proof.Machine.execDoomEntriesReturned prn s
  | .conflictRerun prn => Sys2Proof.Machine.execConflictRerun prn s
  | .clbRecordWaitEnd => Sys2Proof.Machine.execClbRecordWaitEnd s
  | .ctmCommittedWaitEnd c => Sys2Proof.Machine.execCtmCommittedWaitEnd c s
  | .fullStopAdmit => Sys2Proof.Machine.execFullStopAdmit s
  | .fsReservationWrite => Sys2Proof.Machine.execFsReservationWrite s
  | .releaseIssue => Sys2Proof.Machine.execReleaseIssue s
  | .doorbellWrite fn off bytes env => Sys2Proof.Machine.execDoorbellWrite fn off bytes env s
  | .placement => Sys2Proof.Machine.execPlacement s
  | .recordLoadDone slot => Sys2Proof.Machine.execRecordLoadDone slot s
  | .budgetEnd slot => Sys2Proof.Machine.execBudgetEnd slot s
  | .waitTimeout prn => Sys2Proof.Machine.execWaitTimeout prn s
  | .moverIssueStallEnd c => Sys2Proof.Machine.execMoverIssueStallEnd c s
  | .moverReadTurn m => Sys2Proof.Machine.execMoverReadTurn m s
  | .moverWriteTurn m => Sys2Proof.Machine.execMoverWriteTurn m s
  | .barrierReadbackDone w detail => Sys2Proof.Machine.execBarrierReadbackDone w detail s
  | .moverFetchError m ctx err multi => Sys2Proof.Machine.execMoverFetchError m ctx err multi s
  | .mvReinit m => Sys2Proof.Machine.execMvReinit m s
  | .moverReinitDone m => Sys2Proof.Machine.execMoverReinitDone m s
  | .resumeHeld m => Sys2Proof.Machine.execResumeHeld m s
  | .mvClose m => Sys2Proof.Machine.execMvClose m s
  | .mvHoldClear v => Sys2Proof.Machine.execMvHoldClear v s
  | .arbCutoff a input => Sys2Proof.Machine.execArbCutoff a input s
  | .arbStarve a input => Sys2Proof.Machine.execArbStarve a input s
  | .arbSwap a v => Sys2Proof.Machine.execArbSwap a v s
  | .scAdd c w => Sys2Proof.Machine.execScAdd c w s
  | .scSub c w => Sys2Proof.Machine.execScSub c w s
  | .scAnd c w => Sys2Proof.Machine.execScAnd c w s
  | .scOr c w => Sys2Proof.Machine.execScOr c w s
  | .scXor c w => Sys2Proof.Machine.execScXor c w s
  | .scAndn c w => Sys2Proof.Machine.execScAndn c w s
  | .scShl c w => Sys2Proof.Machine.execScShl c w s
  | .scShr c w => Sys2Proof.Machine.execScShr c w s
  | .scSar c w => Sys2Proof.Machine.execScSar c w s
  | .scRol c w => Sys2Proof.Machine.execScRol c w s
  | .scRor c w => Sys2Proof.Machine.execScRor c w s
  | .scMul c w => Sys2Proof.Machine.execScMul c w s
  | .scMulhs c w => Sys2Proof.Machine.execScMulhs c w s
  | .scMulhu c w => Sys2Proof.Machine.execScMulhu c w s
  | .scDivs c w => Sys2Proof.Machine.execScDivs c w s
  | .scDivu c w => Sys2Proof.Machine.execScDivu c w s
  | .scRems c w => Sys2Proof.Machine.execScRems c w s
  | .scRemu c w => Sys2Proof.Machine.execScRemu c w s
  | .scMin c w => Sys2Proof.Machine.execScMin c w s
  | .scMax c w => Sys2Proof.Machine.execScMax c w s
  | .scMinu c w => Sys2Proof.Machine.execScMinu c w s
  | .scMaxu c w => Sys2Proof.Machine.execScMaxu c w s
  | .scNeg c w => Sys2Proof.Machine.execScNeg c w s
  | .scNot c w => Sys2Proof.Machine.execScNot c w s
  | .scBrev c w => Sys2Proof.Machine.execScBrev c w s
  | .scBrevb c w => Sys2Proof.Machine.execScBrevb c w s
  | .scPar8 c w => Sys2Proof.Machine.execScPar8 c w s
  | .scPar32 c w => Sys2Proof.Machine.execScPar32 c w s
  | .scClz c w => Sys2Proof.Machine.execScClz c w s
  | .scPopc c w => Sys2Proof.Machine.execScPopc c w s
  | .scBswap c w => Sys2Proof.Machine.execScBswap c w s
  | .scCrcb c w => Sys2Proof.Machine.execScCrcb c w s
  | .scCrch c w => Sys2Proof.Machine.execScCrch c w s
  | .scCrcw c w => Sys2Proof.Machine.execScCrcw c w s
  | .scCrcbM c w => Sys2Proof.Machine.execScCrcbM c w s
  | .scCrchM c w => Sys2Proof.Machine.execScCrchM c w s
  | .scCrcwM c w => Sys2Proof.Machine.execScCrcwM c w s
  | .scAddi c w => Sys2Proof.Machine.execScAddi c w s
  | .scAndi c w => Sys2Proof.Machine.execScAndi c w s
  | .scOri c w => Sys2Proof.Machine.execScOri c w s
  | .scXori c w => Sys2Proof.Machine.execScXori c w s
  | .scShli c w => Sys2Proof.Machine.execScShli c w s
  | .scShri c w => Sys2Proof.Machine.execScShri c w s
  | .scSari c w => Sys2Proof.Machine.execScSari c w s
  | .scRori c w => Sys2Proof.Machine.execScRori c w s
  | .scMovl c w => Sys2Proof.Machine.execScMovl c w s
  | .scMovh c w => Sys2Proof.Machine.execScMovh c w s
  | .scLdb c w => Sys2Proof.Machine.execScLdb c w s
  | .scLdbu c w => Sys2Proof.Machine.execScLdbu c w s
  | .scLdh c w => Sys2Proof.Machine.execScLdh c w s
  | .scLdhu c w => Sys2Proof.Machine.execScLdhu c w s
  | .scLdw c w => Sys2Proof.Machine.execScLdw c w s
  | .scStb c w => Sys2Proof.Machine.execScStb c w s
  | .scSth c w => Sys2Proof.Machine.execScSth c w s
  | .scStw c w => Sys2Proof.Machine.execScStw c w s
  | .scLdcbu c w => Sys2Proof.Machine.execScLdcbu c w s
  | .scLdchu c w => Sys2Proof.Machine.execScLdchu c w s
  | .scLdcw c w => Sys2Proof.Machine.execScLdcw c w s
  | .scStcb c w => Sys2Proof.Machine.execScStcb c w s
  | .scStch c w => Sys2Proof.Machine.execScStch c w s
  | .scStcw c w => Sys2Proof.Machine.execScStcw c w s
  | .scCmp c w => Sys2Proof.Machine.execScCmp c w s
  | .scCmpi c w => Sys2Proof.Machine.execScCmpi c w s
  | .scPlog c w => Sys2Proof.Machine.execScPlog c w s
  | .scBr c w => Sys2Proof.Machine.execScBr c w s
  | .scCall c w => Sys2Proof.Machine.execScCall c w s
  | .scCalll c w => Sys2Proof.Machine.execScCalll c w s
  | .scJr c w => Sys2Proof.Machine.execScJr c w s
  | .scRet c w => Sys2Proof.Machine.execScRet c w s
  | .scRetl c w => Sys2Proof.Machine.execScRetl c w s
  | .scRep c w nxt => Sys2Proof.Machine.execScRep c w nxt s
  | .scRepi c w nxt => Sys2Proof.Machine.execScRepi c w nxt s
  | .scEnd c w => Sys2Proof.Machine.execScEnd c w s
  | .scTrap c w => Sys2Proof.Machine.execScTrap c w s
  | .scTret c w => Sys2Proof.Machine.execScTret c w s
  | .scMfs c w => Sys2Proof.Machine.execScMfs c w s
  | .scMts c w => Sys2Proof.Machine.execScMts c w s
  | .scIcinv c w => Sys2Proof.Machine.execScIcinv c w s
  | .scLock c w => Sys2Proof.Machine.execScLock c w s
  | .scUnlock c w => Sys2Proof.Machine.execScUnlock c w s
  | .scMovreq c w => Sys2Proof.Machine.execScMovreq c w s
  | .scMovwt c w => Sys2Proof.Machine.execScMovwt c w s
  | .scWaitInstr c w => Sys2Proof.Machine.execScWaitInstr c w s
  | .scSignalInstr c w => Sys2Proof.Machine.execScSignalInstr c w s
  | .cpRbld w => Sys2Proof.Machine.execCpRbld w s
  | .cpRbst w => Sys2Proof.Machine.execCpRbst w s
  | .cpMfc w => Sys2Proof.Machine.execCpMfc w s
  | .cpMtc w => Sys2Proof.Machine.execCpMtc w s
  | .cpIret w => Sys2Proof.Machine.execCpIret w s
  | .cpWfi w => Sys2Proof.Machine.execCpWfi w s
  | .cpFence w => Sys2Proof.Machine.execCpFence w s
  | .interruptEntry => Sys2Proof.Machine.execInterruptEntry s
  | .icClaimN who => Sys2Proof.Machine.execIcClaimN who s
  | .icClaimF who => Sys2Proof.Machine.execIcClaimF who s
  | .icCompleteN who v => Sys2Proof.Machine.execIcCompleteN who v s
  | .icCompleteF who v => Sys2Proof.Machine.execIcCompleteF who v s
  | .ceIcinv n => Sys2Proof.Machine.execCeIcinv n s
  | .portLinkUp q p link => Sys2Proof.Machine.execPortLinkUp q p link s
  | .portLinkDown q p cause => Sys2Proof.Machine.execPortLinkDown q p cause s
  | .inboundMemoryRequest q p req => Sys2Proof.Machine.execInboundMemoryRequest q p req s
  | .inboundMsixWrite q p fn vector => Sys2Proof.Machine.execInboundMsixWrite q p fn vector s
  | .pcieErrorMessage q p sev => Sys2Proof.Machine.execPcieErrorMessage q p sev s
  | .cqScanTimer q p pair => Sys2Proof.Machine.execCqScanTimer q p pair s
  | .nvmeResubmit op => Sys2Proof.Machine.execNvmeResubmit op s
  | .ringScanTimer q p ring => Sys2Proof.Machine.execRingScanTimer q p ring s
  | .deviceOperationEnd op data ok => Sys2Proof.Machine.execDeviceOperationEnd op data ok s
  | .ethFrameRx q p bytes good => Sys2Proof.Machine.execEthFrameRx q p bytes good s
  | .pauseFrameRx q p bytes => Sys2Proof.Machine.execPauseFrameRx q p bytes s
  | .ethFrameTxDone q p => Sys2Proof.Machine.execEthFrameTxDone q p s
  | .kdlSignalDetect q p => Sys2Proof.Machine.execKdlSignalDetect q p s
  | .kdlTs1Rx q p inverted => Sys2Proof.Machine.execKdlTs1Rx q p inverted s
  | .kdlTs2Rx q p => Sys2Proof.Machine.execKdlTs2Rx q p s
  | .kdlSkpRx q p => Sys2Proof.Machine.execKdlSkpRx q p s
  | .kdlEiosRx q p => Sys2Proof.Machine.execKdlEiosRx q p s
  | .kdlTrainTimeout q p => Sys2Proof.Machine.execKdlTrainTimeout q p s
  | .kdlConfigTimeout q p => Sys2Proof.Machine.execKdlConfigTimeout q p s
  | .kdlRetryDelay q p => Sys2Proof.Machine.execKdlRetryDelay q p s
  | .kdlBlockLockLoss q p => Sys2Proof.Machine.execKdlBlockLockLoss q p s
  | .kdlInit q p f => Sys2Proof.Machine.execKdlInit q p f s
  | .kdlIdle q p f => Sys2Proof.Machine.execKdlIdle q p f s
  | .kdlData q p f => Sys2Proof.Machine.execKdlData q p f s
  | .kdlStatus q p f => Sys2Proof.Machine.execKdlStatus q p f s
  | .kdlAttn q p f => Sys2Proof.Machine.execKdlAttn q p f s
  | .kdlAck q p f => Sys2Proof.Machine.execKdlAck q p f s
  | .kdlNak q p f => Sys2Proof.Machine.execKdlNak q p f s
  | .kdlCredit q p f => Sys2Proof.Machine.execKdlCredit q p f s
  | .kdlUndefinedFrame q p f => Sys2Proof.Machine.execKdlUndefinedFrame q p f s
  | .kdlReplayTimeout q p => Sys2Proof.Machine.execKdlReplayTimeout q p s
  | .opTimeoutExpiry op => Sys2Proof.Machine.execOpTimeoutExpiry op s
  | .kdlBusyResend op => Sys2Proof.Machine.execKdlBusyResend op s
  | .quadConfigWrite who q v => Sys2Proof.Machine.execQuadConfigWrite who q v s
  | .bar0Access fn acc env => Sys2Proof.Machine.execBar0Access fn acc env s
  | .bar2Access fn acc env => Sys2Proof.Machine.execBar2Access fn acc env s
  | .registerWrite who off v => Sys2Proof.Machine.execRegisterWrite who off v s
  | .timeTickLoRead who off => Sys2Proof.Machine.execTimeTickLoRead who off s
  | .counterReadClear who off => Sys2Proof.Machine.execCounterReadClear who off s
  | .hfAdmCfgWrite fn v => Sys2Proof.Machine.execHfAdmCfgWrite fn v s
  | .hfAdmSqTailWrite fn v env => Sys2Proof.Machine.execHfAdmSqTailWrite fn v env s
  | .hfAdmRqHeadWrite fn v => Sys2Proof.Machine.execHfAdmRqHeadWrite fn v s
  | .hfSqHeadWrite fn n v => Sys2Proof.Machine.execHfSqHeadWrite fn n v s
  | .hfModWrite fn n v => Sys2Proof.Machine.execHfModWrite fn n v s
  | .moderationTimerExpiry fn n => Sys2Proof.Machine.execModerationTimerExpiry fn n s
  | .vectorUnmask fn n => Sys2Proof.Machine.execVectorUnmask fn n s
  | .aspmL1Entry link => Sys2Proof.Machine.execAspmL1Entry link s
  | .d3hotEntry pf => Sys2Proof.Machine.execD3hotEntry pf s
  | .d0Entry pf => Sys2Proof.Machine.execD0Entry pf s
  | .admIdentify fn pkt => Sys2Proof.Machine.execAdmIdentify fn pkt s
  | .admConfigure fn pkt => Sys2Proof.Machine.execAdmConfigure fn pkt s
  | .admResetDevice fn pkt => Sys2Proof.Machine.execAdmResetDevice fn pkt s
  | .admSleep fn pkt => Sys2Proof.Machine.execAdmSleep fn pkt s
  | .admVfConfig fn pkt => Sys2Proof.Machine.execAdmVfConfig fn pkt s
  | .admQuadConfig fn pkt => Sys2Proof.Machine.execAdmQuadConfig fn pkt s
  | .admPortRegion fn pkt => Sys2Proof.Machine.execAdmPortRegion fn pkt s
  | .admNvmeQueues fn pkt => Sys2Proof.Machine.execAdmNvmeQueues fn pkt s
  | .admNsAdd fn pkt => Sys2Proof.Machine.execAdmNsAdd fn pkt s
  | .admNsRemove fn pkt => Sys2Proof.Machine.execAdmNsRemove fn pkt s
  | .admRingSet fn pkt => Sys2Proof.Machine.execAdmRingSet fn pkt s
  | .admRingClear fn pkt => Sys2Proof.Machine.execAdmRingClear fn pkt s
  | .admEthUnicast fn pkt => Sys2Proof.Machine.execAdmEthUnicast fn pkt s
  | .admEthMulticast fn pkt => Sys2Proof.Machine.execAdmEthMulticast fn pkt s
  | .admFlowAdd fn pkt => Sys2Proof.Machine.execAdmFlowAdd fn pkt s
  | .admFlowDelete fn pkt => Sys2Proof.Machine.execAdmFlowDelete fn pkt s
  | .admBucketSet fn pkt => Sys2Proof.Machine.execAdmBucketSet fn pkt s
  | .admBind fn pkt => Sys2Proof.Machine.execAdmBind fn pkt s
  | .admUnbind fn pkt => Sys2Proof.Machine.execAdmUnbind fn pkt s
  | .admModify fn pkt => Sys2Proof.Machine.execAdmModify fn pkt s
  | .admStart fn pkt => Sys2Proof.Machine.execAdmStart fn pkt s
  | .admHalt fn pkt => Sys2Proof.Machine.execAdmHalt fn pkt s
  | .admResume fn pkt => Sys2Proof.Machine.execAdmResume fn pkt s
  | .admClear fn pkt => Sys2Proof.Machine.execAdmClear fn pkt s
  | .admPronounReset fn pkt => Sys2Proof.Machine.execAdmPronounReset fn pkt s
  | .admQuery fn pkt => Sys2Proof.Machine.execAdmQuery fn pkt s
  | .admReplay fn pkt => Sys2Proof.Machine.execAdmReplay fn pkt s
  | .admExportSaved fn pkt => Sys2Proof.Machine.execAdmExportSaved fn pkt s
  | .admDiscardSaved fn pkt => Sys2Proof.Machine.execAdmDiscardSaved fn pkt s
  | .admClauseTune fn pkt => Sys2Proof.Machine.execAdmClauseTune fn pkt s
  | .admSqCreate fn pkt => Sys2Proof.Machine.execAdmSqCreate fn pkt s
  | .admSqDelete fn pkt => Sys2Proof.Machine.execAdmSqDelete fn pkt s
  | .admSqQuery fn pkt => Sys2Proof.Machine.execAdmSqQuery fn pkt s
  | .admEventRoute fn pkt => Sys2Proof.Machine.execAdmEventRoute fn pkt s
  | .admMbxBind fn pkt => Sys2Proof.Machine.execAdmMbxBind fn pkt s
  | .admKeyImport fn pkt => Sys2Proof.Machine.execAdmKeyImport fn pkt s
  | .admKeyErase fn pkt => Sys2Proof.Machine.execAdmKeyErase fn pkt s
  | .admKeyInfo fn pkt => Sys2Proof.Machine.execAdmKeyInfo fn pkt s
  | .admLifecycleRequest fn pkt => Sys2Proof.Machine.execAdmLifecycleRequest fn pkt s
  | .admTwinPair fn pkt => Sys2Proof.Machine.execAdmTwinPair fn pkt s
  | .admTwinUnpair fn pkt => Sys2Proof.Machine.execAdmTwinUnpair fn pkt s
  | .admTwinFence fn pkt => Sys2Proof.Machine.execAdmTwinFence fn pkt s
  | .admTwinTakeover fn pkt => Sys2Proof.Machine.execAdmTwinTakeover fn pkt s
  | .admTwinStatus fn pkt => Sys2Proof.Machine.execAdmTwinStatus fn pkt s
  | .admSelfTest fn pkt fails => Sys2Proof.Machine.execAdmSelfTest fn pkt fails s
  | .admLinkTest fn pkt => Sys2Proof.Machine.execAdmLinkTest fn pkt s
  | .linkTestEnd failed => Sys2Proof.Machine.execLinkTestEnd failed s
  | .admLogRead fn pkt => Sys2Proof.Machine.execAdmLogRead fn pkt s
  | .cjInputEdge n => Sys2Proof.Machine.execCjInputEdge n s
  | .conjunctionAct n k => Sys2Proof.Machine.execConjunctionAct n k s
  | .inhibitDisarm n => Sys2Proof.Machine.execInhibitDisarm n s
  | .gpioInputEdge pin high ns => Sys2Proof.Machine.execGpioInputEdge pin high ns s
  | .mbxPost who m => Sys2Proof.Machine.execMbxPost who m s
  | .mbxAck who m => Sys2Proof.Machine.execMbxAck who m s
  | .twHello body => Sys2Proof.Machine.execTwHello body s
  | .twAuth body => Sys2Proof.Machine.execTwAuth body s
  | .twHeartbeat param body => Sys2Proof.Machine.execTwHeartbeat param body s
  | .twHeartbeatSend => Sys2Proof.Machine.execTwHeartbeatSend s
  | .twAlignmentTimeout => Sys2Proof.Machine.execTwAlignmentTimeout s
  | .twMirrorAck param => Sys2Proof.Machine.execTwMirrorAck param s
  | .twFenceMsg param => Sys2Proof.Machine.execTwFenceMsg param s
  | .twFenceAck param => Sys2Proof.Machine.execTwFenceAck param s
  | .twLaunch param body => Sys2Proof.Machine.execTwLaunch param body s
  | .twLaunchAck param body => Sys2Proof.Machine.execTwLaunchAck param body s
  | .twLaunchTick action => Sys2Proof.Machine.execTwLaunchTick action s
  | .twLaunchRetry action => Sys2Proof.Machine.execTwLaunchRetry action s
  | .twMailbox param body => Sys2Proof.Machine.execTwMailbox param body s
  | .twRegReq param body => Sys2Proof.Machine.execTwRegReq param body s
  | .twRegResp param body => Sys2Proof.Machine.execTwRegResp param body s
  | .twCtmCopy param body => Sys2Proof.Machine.execTwCtmCopy param body s
  | .twCtmWrite param body => Sys2Proof.Machine.execTwCtmWrite param body s
  | .twMirror param body => Sys2Proof.Machine.execTwMirror param body s
  | .twReleased param => Sys2Proof.Machine.execTwReleased param s
  | .twMalidUndefMessage type bulk => Sys2Proof.Machine.execTwMalidUndefMessage type bulk s
  | .twMalidFlitRx f => Sys2Proof.Machine.execTwMalidFlitRx f s
  | .twMalidReplayTimeout => Sys2Proof.Machine.execTwMalidReplayTimeout s
  | .twMalidTrainTimeout => Sys2Proof.Machine.execTwMalidTrainTimeout s
  | .twJoinLinkTimeout => Sys2Proof.Machine.execTwJoinLinkTimeout s
  | .twJoinAlignTimeout => Sys2Proof.Machine.execTwJoinAlignTimeout s
  | .twTwinLoss => Sys2Proof.Machine.execTwTwinLoss s
  | .twFenceInAssert ns held => Sys2Proof.Machine.execTwFenceInAssert ns held s
  | .twPinFenceComplete => Sys2Proof.Machine.execTwPinFenceComplete s
  | .twLinkFenceTimeout => Sys2Proof.Machine.execTwLinkFenceTimeout s
  | .twHandback who v => Sys2Proof.Machine.execTwHandback who v s
  | .wakeInFall ns => Sys2Proof.Machine.execWakeInFall ns s
  | .wakeTimerExpiry => Sys2Proof.Machine.execWakeTimerExpiry s
  | .deepSleepPrereqMet => Sys2Proof.Machine.execDeepSleepPrereqMet s
  | .d3WaitTimeout => Sys2Proof.Machine.execD3WaitTimeout s
  | .huStatusFrame good hv vcap => Sys2Proof.Machine.execHuStatusFrame good hv vcap s
  | .isolatedLinkLoss => Sys2Proof.Machine.execIsolatedLinkLoss s
  | .powerFailDeclared => Sys2Proof.Machine.execPowerFailDeclared s
  | .hvOvervoltage => Sys2Proof.Machine.execHvOvervoltage s
  | .failLineEdge => Sys2Proof.Machine.execFailLineEdge s
  | .drainEnd => Sys2Proof.Machine.execDrainEnd s
  | .capacitanceCheckTimer => Sys2Proof.Machine.execCapacitanceCheckTimer s
  | .capacitanceCheckRequest => Sys2Proof.Machine.execCapacitanceCheckRequest s
  | .chargeStop => Sys2Proof.Machine.execChargeStop s
  | .chargeResume => Sys2Proof.Machine.execChargeResume s
  | .capacitanceCheckDone fall us => Sys2Proof.Machine.execCapacitanceCheckDone fall us s
  | .chargerTimeout => Sys2Proof.Machine.execChargerTimeout s
  | .holdupDieStart => Sys2Proof.Machine.execHoldupDieStart s
  | .hvOkSettled => Sys2Proof.Machine.execHvOkSettled s
  | .busReturnToHvIn => Sys2Proof.Machine.execBusReturnToHvIn s
  | .keyReservationWrite => Sys2Proof.Machine.execKeyReservationWrite s
  | .newNonce => Sys2Proof.Machine.execNewNonce s
  | .extest => Sys2Proof.Machine.execExtest s
  | .samplePreload cells => Sys2Proof.Machine.execSamplePreload cells s
  | .idcode => Sys2Proof.Machine.execIdcode s
  | .clamp => Sys2Proof.Machine.execClamp s
  | .highz => Sys2Proof.Machine.execHighz s
  | .dbgMbx => Sys2Proof.Machine.execDbgMbx s
  | .bypass => Sys2Proof.Machine.execBypass s
  | .dbgStatus => Sys2Proof.Machine.execDbgStatus s
  | .challenge level => Sys2Proof.Machine.execChallenge level s
  | .dbgUnlock key sig => Sys2Proof.Machine.execDbgUnlock key sig s
  | .relock level => Sys2Proof.Machine.execRelock level s
  | .read32 off => Sys2Proof.Machine.execRead32 off s
  | .write32 off v => Sys2Proof.Machine.execWrite32 off v s
  | .readMem addr len => Sys2Proof.Machine.execReadMem addr len s
  | .writeMem addr len bytes => Sys2Proof.Machine.execWriteMem addr len bytes s
  | .traceRead off => Sys2Proof.Machine.execTraceRead off s
  | .challengeExpiry => Sys2Proof.Machine.execChallengeExpiry s
  | .trstNAssert ns => Sys2Proof.Machine.execTrstNAssert ns s
  | .uncorrectableError site multi => Sys2Proof.Machine.execUncorrectableError site multi s
  | .correctedError code unit loc => Sys2Proof.Machine.execCorrectedError code unit loc s
  | .controlProcessorFault => Sys2Proof.Machine.execControlProcessorFault s
  | .persistentCopyCrcFailure rec copyB => Sys2Proof.Machine.execPersistentCopyCrcFailure rec copyB s
  | .fenceSlot n => Sys2Proof.Machine.execFenceSlot n s
  | .fenceEngine n => Sys2Proof.Machine.execFenceEngine n s
  | .fenceMover n => Sys2Proof.Machine.execFenceMover n s
  | .fenceQuad n => Sys2Proof.Machine.execFenceQuad n s
  | .fenceCacheBank n => Sys2Proof.Machine.execFenceCacheBank n s
  | .fltRetire v => Sys2Proof.Machine.execFltRetire v s
  | .logFlush => Sys2Proof.Machine.execLogFlush s
  | .tempSensorRead logic dram holdup => Sys2Proof.Machine.execTempSensorRead logic dram holdup s
  | .thermtrip logic dram holdup => Sys2Proof.Machine.execThermtrip logic dram holdup s
  | .powerOnReset straps => Sys2Proof.Machine.execPowerOnReset straps s
  | .firmwareReady a b => Sys2Proof.Machine.execFirmwareReady a b s
  | .resetN ns => Sys2Proof.Machine.execResetN ns s
  | .devicePerst ns => Sys2Proof.Machine.execDevicePerst ns s
  | .linkPerst link ns => Sys2Proof.Machine.execLinkPerst link ns s
  | .functionLevelReset fn => Sys2Proof.Machine.execFunctionLevelReset fn s
  | .engineReset who v => Sys2Proof.Machine.execEngineReset who v s
  | .watchdogExpiry => Sys2Proof.Machine.execWatchdogExpiry s
  | .watchdogKick who v => Sys2Proof.Machine.execWatchdogKick who v s
  | .railLoss => Sys2Proof.Machine.execRailLoss s
  | .perstDeassert link => Sys2Proof.Machine.execPerstDeassert link s
  | .resetNRelease => Sys2Proof.Machine.execResetNRelease s
  | .hostLinkUp link rate width flit => Sys2Proof.Machine.execHostLinkUp link rate width flit s
  | .hostLinkDown link => Sys2Proof.Machine.execHostLinkDown link s
  | .configSpaceWrite fn w => Sys2Proof.Machine.execConfigSpaceWrite fn w s
  | .holdupDieStop => Sys2Proof.Machine.execHoldupDieStop s
  | .malidLinkActive => Sys2Proof.Machine.execMalidLinkActive s
  | .malidRetryDelay => Sys2Proof.Machine.execMalidRetryDelay s
  | .pauseTimerExpiry q p queues => Sys2Proof.Machine.execPauseTimerExpiry q p queues s
  | .portRecoveryEntry q p => Sys2Proof.Machine.execPortRecoveryEntry q p s
  | .portLowPowerEntry q p => Sys2Proof.Machine.execPortLowPowerEntry q p s
  | .fenceTick => Sys2Proof.Machine.execFenceTick s
  | .regionCopySent => Sys2Proof.Machine.execRegionCopySent s
  | .keyBankWritten => Sys2Proof.Machine.execKeyBankWritten s
  | .linkTestLaunch => Sys2Proof.Machine.execLinkTestLaunch s
  | .kdlInitSend q p => Sys2Proof.Machine.execKdlInitSend q p s

end Sys2Proof.Machine
end

