-- ==== Sys2Proof/Machine/Idle.lean ====
section
/-!
DEFINITION. What a tick of TICK does when no command waits (01 R11, R12, 10 R309, R320, 11 R348, 14 R444). The table has
no row for a tick; the step takes it on an empty queue (DESIGN CHOICE, log entry 1).
-/

namespace Sys2Proof.Machine

/-- the root PLL runs: after step 1 of the boot, outside DEEP SLEEP and OFF (R11, R454) -/
def ticksRun (s : State) : Bool := s.rst.booted && !s.rst.held && s.pwr.sleep != .deep
/-- identity 1 may correct its count: at most once per 64 ticks (R348) -/
def correctsTick (s : State) : Bool := s.tw.id && s.tw.theta != 0 && decide (64 ≤ s.tw.slew + 1)
/-- the increments of this tick (R12, R348) -/
def tickStep (s : State) : Nat :=
  if correctsTick s then (if 0 < s.tw.theta then 2 else 0) else 1
/-- TICK_COUNT advances (R12) -/
def countTick (s : State) : State :=
  { s with dev := { s.dev with tick := s.dev.tick + BitVec.ofNat 64 (tickStep s) }
           tw := { s.tw with slew := if correctsTick s then 0 else min 64 (s.tw.slew + 1) } }
/-- the log writer writes what it gathered every 1 ms (R444) -/
def logTick (s : State) : State :=
  if s.dev.tick.toNat % 100000 = 0 then logFlush s else s
/-- the commit cycle of a STANDBY entry, with no wake source before it (12 R370, R372; log entry 70) -/
def standbyTick (s : State) : State :=
  let s := if s.pwr.woke then { s with pwr := { s.pwr with woke := false } } else s
  if s.pwr.sleep == .entering && s.pwr.light && logicRuns s then commitStandby s else s
/-- One tick: pulses on pins end (R309) and an entry to STANDBY commits; with the root PLL running the masking windows close
(R320), TICK_COUNT advances and the log is written. -/
def idleTick (s : State) : State :=
  let s := standbyTick (pulsesTick s)
  if ticksRun s then logTick (countTick (icCloseWindows s)) else s

end Sys2Proof.Machine
end

