-- ==== Sys2Proof/Safety.lean ====
section
/-!
DEFINITION. What a sound state is: memories in canonical form, and codes the specification defines.
-/

namespace Sys2Proof.Machine

/-- A sparse table in its canonical form: keys rise strictly, and no entry equals what an unlisted key reads as. -/
abbrev tabCanon {α : Type} (d : α) (t : Tab α) : Prop :=
  t.Pairwise (fun a b => a.1 < b.1) ∧ ∀ e ∈ t, e.2 ≠ d

/-- The four memories are canonical. -/
abbrev Memory.wf (m : Mem) : Prop :=
  tabCanon emptyByte m.dram ∧ tabCanon emptyByte m.loc ∧ tabCanon emptyByte m.tcm ∧ tabCanon emptyByte m.host

/-- Memories are canonical, `TWIN_STATE` holds a state of 11 Table 11-2, Malid Link and the hold-up die's bus
stand in one of their three states (11 R335, 16 R470), and so does the debug level (13 R417). -/
structure State.sound (s : State) : Prop where
  mem : Memory.wf s.mem
  twin : s.tw.state.toNat ≤ 7
  /-- the state a failed join returns to -/
  before : s.tw.before.toNat ≤ 7
  link : s.tw.link.toNat ≤ 2
  bus : s.hu.gate.toNat ≤ 2
  level : s.sec.level.toNat ≤ 2
  /-- the level an outstanding challenge asks for -/
  asked : ∀ x, s.sec.chal = some x → x.2.toNat ≤ 2

/-! ### An instruction that issues (07 R184 to R197, R213, R231) -/

/-- A core is ready and the word at its program counter is `w`, fetched without error, legal, with its predicate true:
the next thing the core does is to execute it. -/
def Issues (s : State) (w : Word) : Core → Prop
  | .engine k => ∃ n sc, scriptReady s k.toNat = some (n, sc) ∧ doomedRerun s n = none ∧
      (sc.left ≠ 0 ∨ inRep sc.regs = true) ∧ codeGood s n sc.base sc.regs.pc = true ∧
      (lineCached s (engineOf k.toNat) (codeAddr sc.base sc.regs.pc) = true ∨ codeBad s (codeAddr sc.base sc.regs.pc) = false) ∧
      codeWord s (engineOf k.toNat) (codeAddr sc.base sc.regs.pc) = w ∧
      encLegal false sc.regs.crc.toNat sc.regs.inHandler false w = true ∧ executes sc.regs w = true
  | .control => cpIssues s = true ∧ s.cp.regs.pc.toNat + 4 ≤ 0x80000 ∧ tcmWord s s.cp.regs.pc = w ∧
      encLegal true s.cp.regs.crc.toNat s.cp.regs.inHandler (s.cp.inNormal || s.cp.inFast) w = true ∧
      executes s.cp.regs w = true
/-- the registers of the script on a slot, or of the control processor -/
def regsOf (s : State) : Core → Regs
  | .engine k => ((scriptReady s k.toNat).map (·.2.regs)).getD {}
  | .control => s.cp.regs
/-- the pronoun whose script is on a slot; 0 on the control processor -/
def prnOf (s : State) : Core → Nat
  | .engine k => ((scriptReady s k.toNat).map (·.1)).getD 0
  | .control => 0
/-- a script's code line has entered its engine's cache; WFI no longer stops the control processor -/
def fetched (s : State) : Core → State
  | .engine k => match scriptReady s k.toNat with
    | some (_, sc) => cacheLine { s with ce := { s.ce with last := tset 15 (engineOf k.toNat) (k.toNat % 16) s.ce.last } }
        (engineOf k.toNat) (codeAddr sc.base sc.regs.pc)
    | none => s
  | .control => setCp s { s.cp with wfi := false }
/-- What the instruction leaves: `g` is its effect on the rest of the part, `f` on the registers; one unit of the budget
is used, and nothing else changes. -/
def retires (s : State) (c : Core) (g : State → State) (f : Regs → Regs) : State :=
  match c with
  | .engine k => match scriptReady s k.toNat with
    | some (n, sc) => putScript (g (fetched s c)) n
        { sc with left := sc.left - (if sc.left = 0 then 0 else 1), stall := none, regs := f sc.regs }
    | none => s
  | .control => let s := g (fetched s c); setCp s { s.cp with regs := f s.cp.regs, stall := none }
/-- a trap with this cause and value is taken into the script's handler (07 R225) -/
def traps (s : State) (c : Core) (cause : Byte) (v : Word) : State :=
  retires s c id fun r => { r with tc := cause, tval := v, tpc := r.pc, inHandler := true, pc := align4 r.th, rep := none }
/-- a handler is set up and not running: a trap enters it -/
def canTrap (r : Regs) : Prop := r.th ≠ 0 ∧ r.inHandler = false
/-- a write of the destination register, the program counter then moves on -/
def writesRd (w v : Word) (r : Regs) : Regs := nextPc (setG r (rdOf w) v)
/-- the same where the instruction also sets V on signed overflow -/
def writesRdV (w v : Word) (o : Bool) (r : Regs) : Regs := nextPc { setG r (rdOf w) v with v := r.v || o }

/-! ### A CCW that is next on its slot (02 R19, 03 R79) -/

/-- Pronoun `n` is on slot `k`, ACTIVE, with CCW `c`, or the data chain `c` begins, fetched, checked and next to execute:
nothing is due before it, and no word of the pronoun waits. -/
def VerbNext (s : State) (k : BitVec 9) (n : Nat) (c : Ccw) : Prop :=
  slotPron s k.toNat = some n ∧ slotStopped s k.toNat = false ∧ (getP s n).state = .active ∧ (getP s n).fin = none ∧
    wordsHeld s n = false ∧ (getP s n).resetting = false ∧ (getP s n).fenceDue = none ∧ doomedRerun s n = none ∧
    (getP s n).cur.map (·.phase) = some .ready ∧ (getP s n).cur.bind (·.items.head?) = some c
/-- the same for a CCW by itself -/
def VerbReady (s : State) (k : BitVec 9) (n : Nat) (c : Ccw) : Prop :=
  VerbNext s k n c ∧ (getP s n).cur.map (·.items) = some [c]
/-- a CLB may open its clause: a record is free, and the clause stage is in service (04 R107, 14 R437) -/
def MayOpen (s : State) (n : Nat) (c : Ccw) : Prop :=
  fClb c = true → clauseOf s n = none → s.flt.staging = false ∧ s.cls.clauses.length < 512
/-- the state a CCW executes in: with its clause, if it opens one (04 R90) -/
def opened (s : State) (n : Nat) (c : Ccw) : State :=
  if fClb c && (clauseOf s n).isNone then (openClb s n c).getD s
  else modP s n fun p => { p with rerun := p.rerun.filter fun x => !x.counted }

/-! ### What several statements share -/

/-- A rejected register write: the block's WRITE_REJECT bit is set and source 1,023 is pending (R6); besides that only
what its route to a host vector does. -/
def Rejected (blk : Nat) (s t : State) : Prop :=
  t.dev = { s.dev with wrj := setBit s.dev.wrj blk true } ∧ t.evt.icPend.getLsbD 1023 = true ∧
    { t with dev := s.dev, evt := s.evt, hp := s.hp, out := s.out } = s
/-- the same at a function's own block, whose bit stands in `HF_STATUS` (R283) -/
def RejectedHf (m : Master) (s t : State) : Prop :=
  (getFunc t m).wrReject = true ∧ t.evt.icPend.getLsbD 1023 = true ∧ { t with evt := s.evt, hp := s.hp, out := s.out } = s
/-- The host reaches the function's memory over a link in L0, and the part is awake, not in the cycle it woke in, with
firmware ready. -/
def HostUp (s : State) (m : Master) : Prop :=
  hostReaches s m = true ∧ (fnLink s m).l1 = false ∧ memoryOn s m = true ∧ s.pwr.sleep = .awake ∧ s.pwr.woke = false ∧
    s.pwr.held = [] ∧ s.rst.fwReady = true
/-- A message for a vector of the function is sent when it falls due (R295, R297, 11 R356). -/
def Deliverable (s : State) (m : Master) (n : Nat) : Prop :=
  mayMessage s m n = true ∧ (getVec s m n).masked = false ∧ (getFunc s m).fmask = false ∧ (getFunc s m).msixEn = true
/-- a 32-bit counter of a port has counted once, among those of the quad's profile (08 R274) -/
def Counted (s t : State) (q p i : Nat) : Prop :=
  let at_ := ctrAt (getQ s q).profile.toNat i
  tget 0 (getPort t q p).ctr at_ = min (tget 0 (getPort s q p).ctr at_ + 1) (2 ^ 32 - 1)
/-- One port is as given; besides that only event sources and their messages have changed. -/
def PortIs (s t : State) (q p : Nat) (y : Port) : Prop :=
  t.lk = (setPort s q p y).lk ∧ { t with lk := s.lk, evt := s.evt, hp := s.hp, out := s.out } = s

/-! ### Admin commands (09 R286 to R291, Tables 9-9 to 9-11) -/

/-- the bits a command names besides its opcode, ORDERED and TAG, as byte and value pairs -/
def admNamed (op : Nat) (p : Packet) : List (Nat × Nat) :=
  match op with
  | 0x0002 => [wholeBytes 8 3]
  | 0x0003 => [wholeBytes 8 1]
  | 0x0004 => [wholeBytes 8 1, (16, 0x7FF)]
  | 0x0005 => [wholeBytes 8 1, wholeBytes 12 12]
  | 0x0101 => [wholeBytes 8 1, wholeBytes 12 4]
  | 0x0102 => [portBits, wholeBytes 12 4]
  | 0x0103 => [portBits, wholeBytes 10 1, wholeBytes 12 2]
  | 0x0104 => [portBits, wholeBytes 16 4, (20, 3), wholeBytes 24 16]
  | 0x0105 => [portBits, wholeBytes 12 4]
  | 0x0106 => [portBits, wholeBytes 10 1, (16, 7), wholeBytes 17 41]
  | 0x0107 => [portBits, wholeBytes 10 1]
  | 0x0108 => [portBits, wholeBytes 10 1, (11, 1), wholeBytes 16 6]
  | 0x0109 => [portBits, wholeBytes 10 2, (12, 1)]
  | 0x010A => [(16, 0x1F), (17, 0x0F), (18, 0x0FFF), (20, 0x0FFF), wholeBytes 22 1, wholeBytes 24 36, (60, 0xFF7FFFFF)]
  | 0x010B => [wholeBytes 8 4]
  | 0x010C => [portBits, wholeBytes 12 4, (16, 0xFF7FFFFF)]
  | 0x0201 => [prnBits, wholeBytes 16 8]
  | 0x0202 => [prnBits]
  | 0x0203 => modifyBits p
  | 0x0204 => startBits p
  | 0x0205 => [prnBits]
  | 0x0206 => [prnBits]
  | 0x0207 => [prnBits, (12, 1)]
  | 0x0208 => [prnBits]
  | 0x0209 => [prnBits, wholeBytes 16 8]
  | 0x0301 => [(12, 1)]
  | 0x0302 => [wholeBytes 16 12]
  | 0x0304 => [wholeBytes 8 4]
  | 0x0401 => [wholeBytes 8 3, wholeBytes 12 2, wholeBytes 16 8]
  | 0x0402 => [wholeBytes 8 2]
  | 0x0403 => [wholeBytes 8 2]
  | 0x0501 => [wholeBytes 8 2, wholeBytes 16 10]
  | 0x0502 => [wholeBytes 8 2]
  | 0x0503 => [wholeBytes 8 2]
  | 0x0504 => [wholeBytes 8 1, wholeBytes 16 10]
  | 0x0601 => [(12, 1)]
  | 0x0603 => [wholeBytes 8 1]
  | 0x0701 => [wholeBytes 8 4, (12, 1)]
  | 0x0702 => [wholeBytes 8 3]
  | 0x0801 => [wholeBytes 8 4]
  | 0x0802 => [wholeBytes 8 4, wholeBytes 16 8]
  | 0x0803 => [wholeBytes 8 4, wholeBytes 16 12]
  | _ => []
/-- each admin command and its opcode -/
def AdmRow (op : Nat) (c : Master → Packet → Instr) : Prop :=
  (op, c) ∈ [(0x0001, Instr.admIdentify), (0x0002, Instr.admConfigure), (0x0003, Instr.admResetDevice), (0x0004, Instr.admSleep),
      (0x0005, Instr.admVfConfig), (0x0101, Instr.admQuadConfig), (0x0102, Instr.admPortRegion), (0x0103, Instr.admNvmeQueues),
      (0x0104, Instr.admNsAdd), (0x0105, Instr.admNsRemove), (0x0106, Instr.admRingSet), (0x0107, Instr.admRingClear),
      (0x0108, Instr.admEthUnicast), (0x0109, Instr.admEthMulticast), (0x010A, Instr.admFlowAdd), (0x010B, Instr.admFlowDelete),
      (0x010C, Instr.admBucketSet)] ∨
  (op, c) ∈ [(0x0201, Instr.admBind), (0x0202, Instr.admUnbind), (0x0203, Instr.admModify), (0x0204, Instr.admStart),
      (0x0205, Instr.admHalt), (0x0206, Instr.admResume), (0x0207, Instr.admClear), (0x0208, Instr.admPronounReset),
      (0x0209, Instr.admQuery), (0x0301, Instr.admReplay), (0x0302, Instr.admExportSaved), (0x0303, Instr.admDiscardSaved),
      (0x0304, Instr.admClauseTune), (0x0401, Instr.admSqCreate), (0x0402, Instr.admSqDelete), (0x0403, Instr.admSqQuery)] ∨
  (op, c) ∈ [(0x0501, Instr.admKeyImport), (0x0502, Instr.admKeyErase), (0x0503, Instr.admKeyInfo), (0x0504, Instr.admLifecycleRequest),
      (0x0601, Instr.admTwinPair), (0x0602, Instr.admTwinUnpair), (0x0603, Instr.admTwinFence), (0x0604, Instr.admTwinTakeover),
      (0x0605, Instr.admTwinStatus), (0x0701, Instr.admEventRoute), (0x0702, Instr.admMbxBind), (0x0802, Instr.admLinkTest),
      (0x0803, Instr.admLogRead)] ∨
  op = 0x0801 ∧ ∃ fails, c = fun fn p => .admSelfTest fn p fails
/-- The packet is its function's next, carries this opcode, and passes the checks every command has: it starts. -/
def Starts (s : State) (fn : Master) (p : Packet) (op : Nat) : Prop :=
  mayStart s fn p = true ∧ pkF p 0 2 = op ∧ (s.rst.rom = false ∨ op = 1) ∧ (isFenced s = false ∨ op ∈ fencedOps) ∧
    strayByte p (admNamed op p) = none ∧ (isVf fn = true → op ∈ vfOps)
/-- the command's reply is written to `t`, and nothing follows it -/
def Answers (r : Host.Outcome State Fault Refusal) (t : State) (fn : Master) (p : Packet) (st : Half) (field : Byte) (res : BitVec 192) : Prop :=
  r = .next (reply t fn (admTag p) st field res)
/-- each command on a port, with the profile it needs -/
def PortRow (op profile : Nat) (c : Master → Packet → Instr) : Prop :=
  (op, profile, c) ∈ [(0x0102, 1, Instr.admPortRegion), (0x0103, 1, Instr.admNvmeQueues), (0x0104, 1, Instr.admNsAdd),
    (0x0105, 1, Instr.admNsRemove), (0x0106, 1, Instr.admRingSet), (0x0107, 1, Instr.admRingClear), (0x0108, 2, Instr.admEthUnicast),
    (0x0109, 2, Instr.admEthMulticast), (0x010C, 2, Instr.admBucketSet)]
/-- the lowest of the command's own fields that is out of range (Table 9-9) -/
def portBad (op : Nat) (s : State) (p : Packet) : Option Byte :=
  let x := getPort s (pkF p 8 1) (pkF p 9 1)
  match op with
  | 0x0102 => if 480 < pkF p 12 2 + pkF p 14 2 then some 12 else none
  | 0x0103 => if pkF p 10 1 = 0 ∨ 64 < pkF p 10 1 then some 10 else if pkF p 12 2 < 2 ∨ 1024 < pkF p 12 2 then some 12 else none
  | 0x0104 => if pkBit p 20 1 = true ∧ pkF p 32 8 = 0 then some 32 else none
  | 0x0106 => if 15 < pkF p 10 1 then some 10 else (ringBad x.pp (p.extractLsb' 128 384)).head?
  | 0x0107 => if 15 < pkF p 10 1 then some 10 else none
  | 0x0108 => if 15 < pkF p 10 1 then some 10 else none
  | 0x0109 => if 511 < pkF p 10 2 then some 10 else none
  | 0x010C => if 2 ^ x.ep.bucketShift.toNat ≤ pkF p 12 4 then some 12 else none
  | _ => none
/-- the port exists under its profile and its quad is in service -/
def PortThere (s : State) (p : Packet) (profile : Nat) : Prop :=
  (getQ s (pkF p 8 1)).profile.toNat = profile ∧ pkF p 9 1 < portsOf profile (getQ s (pkF p 8 1)).arrange.toNat
/-- the command on a port is accepted as far as its port and fields go -/
def PortCmd (s : State) (fn : Master) (p : Packet) (op profile : Nat) : Prop :=
  Starts s fn p op ∧ pkF p 8 1 ≤ 31 ∧ pkF p 9 1 ≤ 3 ∧ portBad op s p = none ∧ PortThere s p profile ∧ quadFenced s (pkF p 8 1) = false
/-- the command on a pronoun is accepted as far as permission and the part's configuration go -/
def PronCmd (s : State) (fn : Master) (p : Packet) (op : Nat) : Prop :=
  Starts s fn p op ∧ prnAllowed s fn (pkPrn p) = true ∧ pkPrn p ≠ 0 ∧ s.sched.configured = true

/-- A drain has started (12 R382): what it saves is the window and the open clauses as they stood, behind what a save not
replayed yet still holds (05 R139), everything stops, and source 256 is pending. -/
def Drains (s t : State) (cause : Byte) (kind : Option ResetKind) : Prop :=
  let lost := (s.cls.clauses.filter fun c => c.doom.isNone).map fun c => (c.prn, c.clb)
  let old := unreplayed s
  (∃ d, t.pwr.drain = some d ∧ d.cause = cause ∧ d.reset = kind ∧
    (s.fs.window = [] → lost = [] → d.save = none) ∧
    (s.fs.window ≠ [] ∨ lost ≠ [] → ∃ v, d.save = some v ∧ v.cause = cause ∧ v.clauses = ((old.map (·.clauses)).getD []) ++ s.fs.window ∧
      v.lost = ((old.map (·.lost)).getD []) ++ lost)) ∧
  t.fs.stopped = true ∧ t.rst.fwReady = false ∧ t.cp.running = false ∧ t.tw.link = 0 ∧ t.lk.ops = [] ∧ t.evt.icPend.getLsbD 256 = true ∧
  t.nv.areaA = s.nv.areaA ∧ t.nv.areaB = s.nv.areaB

end Sys2Proof.Machine
end

