-- ==== Sys2Proof/Certificates/Slice0/Obligations.lean ====
section
/-!
DEFINITION. The statements for the provers. Those made only of one command's rules read: under hypotheses on the state and the
operands alone, exec answers this next state. Names such as retires, writesRd, traps, Answers and Rejected are of
Sys2Proof/Safety.lean.
-/

open Sys2Proof Sys2Proof.Machine

/-- A step takes the command at the front of the queue and runs it with the queue's rest. -/
def Obligations.StepRunsFront : Prop :=
  ∀ (s : State) (c : Instr) (rest : List Instr), step { s with pending := c :: rest } = exec c { s with pending := rest }

/-- On an empty queue the block takes one tick and waits (the model's choice, log entry 1): TICK_COUNT advances by one while the
root PLL runs and no correction is due (01 R12), an entry to STANDBY commits (12 R370; the tick is the model's choice, log entry
70), and nothing else but counters, masking windows, pulses and the log changes. -/
def Obligations.IdleStepTicks : Prop :=
  ∀ s : State, s.pending = [] → ∃ t, step s = .next t ∧ t.pending = [] ∧
    (ticksRun s = true → correctsTick s = false → t.dev.tick = s.dev.tick + 1) ∧ (ticksRun s = false → t.dev.tick = s.dev.tick) ∧
    (ticksRun s = true → correctsTick s = true → t.dev.tick = s.dev.tick + (if 0 < s.tw.theta then 2 else 0)) ∧
    t.mem = s.mem ∧ t.sched = s.sched ∧ t.cls = s.cls ∧ t.fs = s.fs ∧ t.mv = s.mv ∧ t.cp = s.cp ∧ t.lk = s.lk ∧ t.sec = s.sec ∧ t.hu = s.hu ∧
    t.rst = s.rst ∧ t.pins = s.pins ∧ { t.dev with tick := s.dev.tick } = s.dev ∧ { t.tw with slew := s.tw.slew } = s.tw ∧ t.pwr.woke = false ∧
    (let commits := s.pwr.sleep == .entering && s.pwr.light && logicRuns s
     (commits = true → t.pwr.sleep = .standby ∧ t.ce = { s.ce with icache := [] }) ∧ (commits = false → t.pwr.sleep = s.pwr.sleep ∧ t.ce = s.ce))

/-- 12 R373, 15 R447, R492 and the Reset columns: the part right after reset has its boot before it, no firmware, no binding,
nothing waiting, and every register at its reset value; it is sound. -/
def Obligations.ResetState : Prop :=
  let s := State.reset
  s.sound ∧ s.pending = [] ∧ s.out = [] ∧ s.rst.fwReady = false ∧ s.rst.booted = false ∧ s.rst.kind = .powerOn ∧ s.dev.tick = 0 ∧
  s.sched.configured = false ∧ (∀ n, getP s n = {}) ∧ (∀ n, (getP s n).state = .unbound) ∧ s.cls.clauses = [] ∧ s.fs.window = [] ∧
  s.tw.state = 0 ∧ s.tw.link = 0 ∧ s.pwr.sleep = .awake ∧ s.pwr.drain = none ∧ s.hu.cfg0 = 0x21E001C5 ∧ s.hu.cfg1 = 0x43C00A00 ∧ s.hu.cfg2 = 0xE10 ∧
  s.sec.level = 0 ∧ s.flt.threshold = 8 ∧ s.flt.slots = [] ∧ (∀ q p, (getPort s q p).state = 0 ∧ (getQ s q).portEn = 0) ∧
  (∀ a, tget emptyByte s.mem.dram a = 0 ∧ tget emptyByte s.mem.loc a = 0 ∧ tget emptyByte s.mem.tcm a = 0 ∧ tget emptyByte s.mem.host a = 0)

/-- Every step keeps a sound state: its memories canonical, and `TWIN_STATE`, Malid Link, the hold-up bus and the debug level
among the values the specification defines for them (11 Table 11-2, R335, 13 R417, 16 R470). -/
def Obligations.StepKeepsSound : Prop :=
  ∀ s t : State, s.sound → step s = .next t → t.sound

/-- A command changes neither the queue behind it nor what the part has already sent: it only appends. -/
def Obligations.ExecKeepsQueueAndOutput : Prop :=
  ∀ (c : Instr) (s t : State), s.sound → exec c s = .next t → t.pending = s.pending ∧ s.out <+: t.out

/-- 16 R479: no command is refused, and a step stops only at a pulse of a length the board must not produce. -/
def Obligations.StopsOnlyAtForbiddenPulses : Prop :=
  ∀ (c : Instr) (s : State),
    (∀ x, exec c s ≠ .refused x) ∧
    (∀ f, exec c s = .fault f ↔ f = .forbiddenPulse ∧
      ((∃ ns : BitVec 32, c = .resetN ns ∧ 800 ≤ ns.toNat ∧ ns.toNat < 1000) ∨
       (∃ ns : BitVec 32, (c = .devicePerst ns ∨ ∃ b, c = .linkPerst b ns) ∧ 5 ≤ ns.toNat ∧ ns.toNat < 20) ∨
       (∃ ns : BitVec 32, c = .wakeInFall ns ∧ 500 ≤ ns.toNat ∧ ns.toNat < 2000) ∨
       (∃ (pin : BitVec 4) (ns : BitVec 32), c = .gpioInputEdge pin true ns ∧ 3 ≤ ns.toNat ∧ ns.toNat < 10) ∨
       (∃ ns : BitVec 32, (∃ h, c = .twFenceInAssert ns h) ∧ 5 ≤ ns.toNat ∧ ns.toNat < 100) ∨
       ∃ ns : BitVec 32, c = .trstNAssert ns ∧ 10 ≤ ns.toNat ∧ ns.toNat < 100))

/-- Bytes written are read back, every other byte is unchanged, and the form stays canonical. -/
def Obligations.MemoryReadsWhatWasWritten : Prop :=
  ∀ (m : Tab Byte) (a : Nat) (l : List Byte), tabCanon emptyByte m →
    tabCanon emptyByte (putBytes m a l) ∧ getBytes (putBytes m a l) a l.length = l ∧
    (∀ b, b < a ∨ a + l.length ≤ b → tget emptyByte (putBytes m a l) b = tget emptyByte m b) ∧
    ∀ m', tabCanon emptyByte m' → (∀ b, tget emptyByte m' b = tget emptyByte m b) → m' = m

/-- 07 R199, Table 7-5: a two-operand ALU operation writes its result to rd; V, DZ and the rest of the part stay. The shifts and
products are stated as arithmetic on unbounded integers. 07 R199, R200, R202: ADD, SUB, NEG and ADDI write the sum, difference
or negation modulo 2^32 and set V exactly when the exact result lies outside −2^31 to 2^31 − 1; V is never cleared. 07 R199: the
one-operand operations, bit by bit. -/
def Obligations.AluOperationsWriteRd : Prop :=
  (∀ (s : State) (c : Core) (w : Word), Issues s w c → opcOf w = 0x01#6 →
    let a := getG (regsOf s c) (rs1Of w)
    let b := getG (regsOf s c) (rs2Of w)
    (fnOf w = 0x02#7 → exec (.scAnd c w) s = .next (retires s c id (writesRd w (a &&& b)))) ∧
    (fnOf w = 0x03#7 → exec (.scOr c w) s = .next (retires s c id (writesRd w (a ||| b)))) ∧
    (fnOf w = 0x04#7 → exec (.scXor c w) s = .next (retires s c id (writesRd w (a ^^^ b)))) ∧
    (fnOf w = 0x05#7 → exec (.scAndn c w) s = .next (retires s c id (writesRd w (a &&& ~~~b)))) ∧
    (fnOf w = 0x08#7 → exec (.scShl c w) s = .next (retires s c id (writesRd w (BitVec.ofNat 32 (a.toNat * 2 ^ b.toNat))))) ∧
    (fnOf w = 0x09#7 → exec (.scShr c w) s = .next (retires s c id (writesRd w (BitVec.ofNat 32 (a.toNat / 2 ^ b.toNat))))) ∧
    (fnOf w = 0x0A#7 → exec (.scSar c w) s = .next (retires s c id (writesRd w (BitVec.ofInt 32 (a.toInt / 2 ^ b.toNat))))) ∧
    (fnOf w = 0x0B#7 → ∃ v : Word, exec (.scRol c w) s = .next (retires s c id (writesRd w v)) ∧
      ∀ i < 32, v.getLsbD ((i + b.toNat) % 32) = a.getLsbD i) ∧
    (fnOf w = 0x0C#7 → ∃ v : Word, exec (.scRor c w) s = .next (retires s c id (writesRd w v)) ∧
      ∀ i < 32, v.getLsbD i = a.getLsbD ((i + b.toNat) % 32)) ∧
    (fnOf w = 0x10#7 → exec (.scMul c w) s = .next (retires s c id (writesRd w (BitVec.ofInt 32 (a.toInt * b.toInt))))) ∧
    (fnOf w = 0x11#7 → exec (.scMulhs c w) s = .next (retires s c id (writesRd w (BitVec.ofInt 32 (a.toInt * b.toInt / 2 ^ 32))))) ∧
    (fnOf w = 0x12#7 → exec (.scMulhu c w) s = .next (retires s c id (writesRd w (BitVec.ofNat 32 (a.toNat * b.toNat / 2 ^ 32))))) ∧
    (fnOf w = 0x18#7 → exec (.scMin c w) s = .next (retires s c id (writesRd w (BitVec.ofInt 32 (min a.toInt b.toInt))))) ∧
    (fnOf w = 0x19#7 → exec (.scMax c w) s = .next (retires s c id (writesRd w (BitVec.ofInt 32 (max a.toInt b.toInt))))) ∧
    (fnOf w = 0x1A#7 → exec (.scMinu c w) s = .next (retires s c id (writesRd w (BitVec.ofNat 32 (min a.toNat b.toNat))))) ∧
    (fnOf w = 0x1B#7 → exec (.scMaxu c w) s = .next (retires s c id (writesRd w (BitVec.ofNat 32 (max a.toNat b.toNat)))))) ∧
  (∀ (s : State) (c : Core) (w : Word), Issues s w c →
    let a := getG (regsOf s c) (rs1Of w)
    let b := getG (regsOf s c) (rs2Of w)
    let out (x : Int) : Bool := decide (x < -(2 ^ 31)) || decide (2 ^ 31 - 1 < x)
    (opcOf w = 0x01#6 → fnOf w = 0x00#7 → exec (.scAdd c w) s =
      .next (retires s c id (writesRdV w (BitVec.ofInt 32 (a.toInt + b.toInt)) (out (a.toInt + b.toInt))))) ∧
    (opcOf w = 0x01#6 → fnOf w = 0x01#7 → exec (.scSub c w) s =
      .next (retires s c id (writesRdV w (BitVec.ofInt 32 (a.toInt - b.toInt)) (out (a.toInt - b.toInt))))) ∧
    (opcOf w = 0x01#6 → fnOf w = 0x20#7 → exec (.scNeg c w) s =
      .next (retires s c id (writesRdV w (BitVec.ofInt 32 (-a.toInt)) (out (-a.toInt))))) ∧
    (opcOf w = 0x02#6 → exec (.scAddi c w) s =
      .next (retires s c id (writesRdV w (BitVec.ofInt 32 (a.toInt + (imm12Of w).toInt)) (out (a.toInt + (imm12Of w).toInt)))))) ∧
  (∀ (s : State) (c : Core) (w : Word), Issues s w c → opcOf w = 0x01#6 →
    let a := getG (regsOf s c) (rs1Of w)
    (fnOf w = 0x21#7 → exec (.scNot c w) s = .next (retires s c id (writesRd w (~~~a)))) ∧
    (fnOf w = 0x22#7 → ∃ v : Word, exec (.scBrev c w) s = .next (retires s c id (writesRd w v)) ∧
      ∀ i < 32, v.getLsbD i = a.getLsbD (31 - i)) ∧
    (fnOf w = 0x23#7 → ∃ v : Word, exec (.scBrevb c w) s = .next (retires s c id (writesRd w v)) ∧
      ∀ k < 4, ∀ i < 8, v.getLsbD (8 * k + i) = a.getLsbD (8 * k + 7 - i)) ∧
    (fnOf w = 0x24#7 → ∃ v : Word, exec (.scPar8 c w) s = .next (retires s c id (writesRd w v)) ∧
      (∀ k < 4, v.getLsbD k = (List.range 8).foldl (fun x i => xor x (a.getLsbD (8 * k + i))) false) ∧ v.toNat < 16) ∧
    (fnOf w = 0x25#7 → ∃ v : Word, exec (.scPar32 c w) s = .next (retires s c id (writesRd w v)) ∧
      v.getLsbD 0 = (List.range 32).foldl (fun x i => xor x (a.getLsbD i)) false ∧ v.toNat < 2) ∧
    (fnOf w = 0x26#7 → ∃ n ≤ 32, exec (.scClz c w) s = .next (retires s c id (writesRd w (BitVec.ofNat 32 n))) ∧
      a.toNat < 2 ^ (32 - n) ∧ (n < 32 → a.getLsbD (31 - n) = true)) ∧
    (fnOf w = 0x27#7 → exec (.scPopc c w) s = .next (retires s c id (writesRd w
      (BitVec.ofNat 32 ((List.range 32).filter fun i => a.getLsbD i).length)))) ∧
    (fnOf w = 0x28#7 → ∃ v : Word, exec (.scBswap c w) s = .next (retires s c id (writesRd w v)) ∧
      ∀ k < 4, ∀ i < 8, v.getLsbD (8 * k + i) = a.getLsbD (8 * (3 - k) + i)))

/-- 07 R199, R200: division. A quotient rounds toward zero and the remainder has the dividend's sign; by zero the quotient is
0xFFFF_FFFF, the remainder the dividend, and DZ is set; the one overflow sets V. With DZT set, a division by zero takes the
DIVIDE trap, and rd and stat stay. -/
def Obligations.DivisionsAndTheirEdges : Prop :=
  ∀ (s : State) (c : Core) (w : Word), Issues s w c → opcOf w = 0x01#6 →
    let a := getG (regsOf s c) (rs1Of w)
    let b := getG (regsOf s c) (rs2Of w)
    let dzt := match c with | .engine k => (getSlot s k.toNat).dzt | .control => false
    let byZero (v : Word) (r : Regs) : Regs := nextPc { setG r (rdOf w) v with dz := true }
    (fnOf w = 0x14#7 →
      (b ≠ 0 → ¬(a = 0x80000000#32 ∧ b = 0xFFFFFFFF#32) → ∃ q : Word, exec (.scDivs c w) s = .next (retires s c id (writesRd w q)) ∧
        q.toInt = a.toInt.tdiv b.toInt) ∧
      (a = 0x80000000#32 → b = 0xFFFFFFFF#32 → exec (.scDivs c w) s = .next (retires s c id (writesRdV w 0x80000000#32 true))) ∧
      (b = 0 → dzt = false → exec (.scDivs c w) s = .next (retires s c id (byZero 0xFFFFFFFF#32))) ∧
      (b = 0 → dzt = true → canTrap (regsOf s c) → exec (.scDivs c w) s = .next (traps s c 0x0B a))) ∧
    (fnOf w = 0x16#7 →
      (b ≠ 0 → ¬(a = 0x80000000#32 ∧ b = 0xFFFFFFFF#32) → ∃ m : Word, exec (.scRems c w) s = .next (retires s c id (writesRd w m)) ∧
        m.toInt = a.toInt - a.toInt.tdiv b.toInt * b.toInt) ∧
      (a = 0x80000000#32 → b = 0xFFFFFFFF#32 → exec (.scRems c w) s = .next (retires s c id (writesRdV w 0 true))) ∧
      (b = 0 → dzt = false → exec (.scRems c w) s = .next (retires s c id (byZero a))) ∧
      (b = 0 → dzt = true → canTrap (regsOf s c) → exec (.scRems c w) s = .next (traps s c 0x0B a))) ∧
    (fnOf w = 0x15#7 →
      (b ≠ 0 → ∃ q : Word, exec (.scDivu c w) s = .next (retires s c id (writesRd w q)) ∧ q.toNat = a.toNat / b.toNat) ∧
      (b = 0 → dzt = false → exec (.scDivu c w) s = .next (retires s c id (byZero 0xFFFFFFFF#32))) ∧
      (b = 0 → dzt = true → canTrap (regsOf s c) → exec (.scDivu c w) s = .next (traps s c 0x0B a))) ∧
    (fnOf w = 0x17#7 →
      (b ≠ 0 → ∃ m : Word, exec (.scRemu c w) s = .next (retires s c id (writesRd w m)) ∧ m.toNat = a.toNat % b.toNat) ∧
      (b = 0 → dzt = false → exec (.scRemu c w) s = .next (retires s c id (byZero a))) ∧
      (b = 0 → dzt = true → canTrap (regsOf s c) → exec (.scRemu c w) s = .next (traps s c 0x0B a)))

/-- 07 R197, R199, R202: the immediate forms. The logical ones and the shifts take imm12 zero-extended; MOVL clears the upper
half of rd, MOVH keeps the lower half. 07 R201: compares and predicate logic write one predicate and nothing else. -/
def Obligations.ImmediatesAndCompares : Prop :=
  (∀ (s : State) (c : Core) (w : Word), Issues s w c →
    let a := getG (regsOf s c) (rs1Of w)
    let n := (imm12Of w).toNat
    let i : Word := BitVec.ofNat 32 n
    (opcOf w = 0x03#6 → exec (.scAndi c w) s = .next (retires s c id (writesRd w (a &&& i)))) ∧
    (opcOf w = 0x04#6 → exec (.scOri c w) s = .next (retires s c id (writesRd w (a ||| i)))) ∧
    (opcOf w = 0x05#6 → exec (.scXori c w) s = .next (retires s c id (writesRd w (a ^^^ i)))) ∧
    (opcOf w = 0x06#6 → exec (.scShli c w) s = .next (retires s c id (writesRd w (BitVec.ofNat 32 (a.toNat * 2 ^ n))))) ∧
    (opcOf w = 0x07#6 → exec (.scShri c w) s = .next (retires s c id (writesRd w (BitVec.ofNat 32 (a.toNat / 2 ^ n))))) ∧
    (opcOf w = 0x08#6 → exec (.scSari c w) s = .next (retires s c id (writesRd w (BitVec.ofInt 32 (a.toInt / 2 ^ n))))) ∧
    (opcOf w = 0x09#6 → ∃ v : Word, exec (.scRori c w) s = .next (retires s c id (writesRd w v)) ∧
      ∀ j < 32, v.getLsbD j = a.getLsbD ((j + n) % 32)) ∧
    (opcOf w = 0x0A#6 → w.getLsbD 16 = false →
      exec (.scMovl c w) s = .next (retires s c id (writesRd w (BitVec.ofNat 32 (imm16Of w).toNat)))) ∧
    (opcOf w = 0x0A#6 → w.getLsbD 16 = true → exec (.scMovh c w) s = .next (retires s c id (writesRd w
      (BitVec.ofNat 32 ((imm16Of w).toNat * 2 ^ 16 + (getG (regsOf s c) (rdOf w)).toNat % 2 ^ 16)))))) ∧
  (∀ (s : State) (c : Core) (w : Word), Issues s w c →
    let r := regsOf s c
    let holds (a b : Word) : Prop := match (condOf w).toNat with
      | 0 => a = b | 1 => a ≠ b | 2 => a.toInt < b.toInt | 3 => ¬ a.toInt < b.toInt
      | 4 => a.toNat < b.toNat | 5 => ¬ a.toNat < b.toNat | 6 => a &&& b ≠ 0 | _ => a &&& b = 0
    let x := predVal r (condOf w).toNat
    let y := predVal r (ps2Of w)
    (opcOf w = 0x20#6 → ∃ p : Bool, exec (.scCmp c w) s = .next (retires s c id fun r => nextPc { r with p := setBit r.p (pdOf w) p }) ∧
      (p = true ↔ holds (getG r (crs1Of w)) (getG r (crs2Of w)))) ∧
    (opcOf w = 0x21#6 → ∃ p : Bool, exec (.scCmpi c w) s = .next (retires s c id fun r => nextPc { r with p := setBit r.p (pdOf w) p }) ∧
      (p = true ↔ holds (getG r (crs1Of w)) (BitVec.ofInt 32 (imm11Of w).toInt))) ∧
    (opcOf w = 0x22#6 → ∃ p : Bool, exec (.scPlog c w) s = .next (retires s c id fun r => nextPc { r with p := setBit r.p (pdOf w) p }) ∧
      p = (match (pfnOf w).toNat with
        | 0 => x && y | 1 => x || y | 2 => x != y | 3 => x && !y | 4 => true | 5 => false | 6 => x | _ => !x)))

/-- 07 R203, R231: a load from local memory, or from the TCM, at a naturally aligned address in range writes rd and changes
nothing else; misaligned or out of range, its trap is taken with the address as its value. 07 R203, R231: a store writes its
bytes, low byte first, at its address, and no other byte of any memory. -/
def Obligations.LocalLoadsAndStores : Prop :=
  (∀ (s : State) (c : Core) (w : Word), Issues s w c →
    let a := getG (regsOf s c) (rs1Of w) + (imm12Of w).signExtend 32
    let ctl := c == .control
    let size := if ctl then 0x80000 else 0x400000
    let bytes (n : Nat) : Nat := ofLE (getBytes (if ctl then s.mem.tcm else s.mem.loc) a.toNat n)
    let sext (n : Nat) : Int := if bytes n < 2 ^ (8 * n - 1) then bytes n else (bytes n : Int) - 2 ^ (8 * n)
    let good (n : Nat) : Prop := a.toNat % n = 0 ∧ a.toNat < size ∧ (ctl = true ∨ localGone s a.toNat n = false)
    let far (n : Nat) (i : Instr) : Prop := a.toNat % n = 0 → size ≤ a.toNat → exec i s = .next (traps s c 0x04 a)
    let bad (n : Nat) (i : Instr) : Prop := (a.toNat % n ≠ 0 → exec i s = .next (traps s c 0x03 a)) ∧ far n i
    (opcOf w = 0x10#6 → good 1 → exec (.scLdb c w) s = .next (retires s c id (writesRd w (BitVec.ofInt 32 (sext 1))))) ∧
    (opcOf w = 0x11#6 → good 1 → exec (.scLdbu c w) s = .next (retires s c id (writesRd w (BitVec.ofNat 32 (bytes 1))))) ∧
    (opcOf w = 0x12#6 → good 2 → exec (.scLdh c w) s = .next (retires s c id (writesRd w (BitVec.ofInt 32 (sext 2))))) ∧
    (opcOf w = 0x13#6 → good 2 → exec (.scLdhu c w) s = .next (retires s c id (writesRd w (BitVec.ofNat 32 (bytes 2))))) ∧
    (opcOf w = 0x14#6 → good 4 → exec (.scLdw c w) s = .next (retires s c id (writesRd w (BitVec.ofNat 32 (bytes 4))))) ∧
    (canTrap (regsOf s c) →
      (opcOf w = 0x10#6 → far 1 (.scLdb c w)) ∧ (opcOf w = 0x11#6 → far 1 (.scLdbu c w)) ∧
      (opcOf w = 0x12#6 → bad 2 (.scLdh c w)) ∧ (opcOf w = 0x13#6 → bad 2 (.scLdhu c w)) ∧
      (opcOf w = 0x14#6 → bad 4 (.scLdw c w)))) ∧
  (∀ (s : State) (c : Core) (w : Word), Issues s w c →
    let r := regsOf s c
    let a := getG r (rs1Of w) + (imm12Of w).signExtend 32
    let v := getG r (rdOf w)
    let ctl := c == .control
    let size := if ctl then 0x80000 else 0x400000
    let good (n : Nat) : Prop := a.toNat % n = 0 ∧ a.toNat < size ∧ (ctl = true ∨ localGone s a.toNat n = false)
    let put (n : Nat) (s : State) : State :=
      if ctl then { s with mem := { s.mem with tcm := putBytes s.mem.tcm a.toNat (toLE n v.toNat) } }
      else { s with mem := { s.mem with loc := putBytes s.mem.loc a.toNat (toLE n v.toNat) } }
    (opcOf w = 0x15#6 → good 1 → exec (.scStb c w) s = .next (retires s c (put 1) nextPc)) ∧
    (opcOf w = 0x16#6 → good 2 → exec (.scSth c w) s = .next (retires s c (put 2) nextPc)) ∧
    (opcOf w = 0x17#6 → good 4 → exec (.scStw c w) s = .next (retires s c (put 4) nextPc)) ∧
    (canTrap r →
      (opcOf w = 0x16#6 → a.toNat % 2 ≠ 0 → exec (.scSth c w) s = .next (traps s c 0x03 a)) ∧
      (opcOf w = 0x17#6 → a.toNat % 4 ≠ 0 → exec (.scStw c w) s = .next (traps s c 0x03 a)) ∧
      (opcOf w = 0x15#6 → size ≤ a.toNat → exec (.scStb c w) s = .next (traps s c 0x04 a))))

/-- 07 R204, 04 R101: outside a clause, a CTM load reads the released value and a CTM store is a write outside any clause; at or
beyond the CTM size both take the RANGE trap. -/
def Obligations.CtmAccessOutsideClause : Prop :=
  ∀ (s : State) (c : Core) (w : Word), Issues s w c → (c ≠ .control → openClause s (prnOf s c) = none) →
    let r := regsOf s c
    let a := getG r (rs1Of w) + (imm12Of w).signExtend 32
    let size := if c = .control then ctmBytes s else ctmSizeFor s (prnOf s c)
    let o := if c = .control then a.toNat else ctmOff s (prnOf s c) a.toNat
    let inside (n : Nat) : Prop := a.toNat % n = 0 ∧ a.toNat < size
    let read (n : Nat) : Word := BitVec.ofNat 32 (ofLE (getBytes s.mem.dram (ctmPhys s o) n))
    let put (n : Nat) (s : State) : State := ctmStore s o (toLE n (getG r (rdOf w)).toNat)
    let free (n : Nat) : Prop := (linesOf o n).any (isCommitted s) = false
    (opcOf w = 0x18#6 → inside 1 → dramPoisoned s (ctmPhys s o) 1 = false →
      exec (.scLdcbu c w) s = .next (retires s c id (writesRd w (read 1)))) ∧
    (opcOf w = 0x19#6 → inside 2 → dramPoisoned s (ctmPhys s o) 2 = false →
      exec (.scLdchu c w) s = .next (retires s c id (writesRd w (read 2)))) ∧
    (opcOf w = 0x1A#6 → inside 4 → dramPoisoned s (ctmPhys s o) 4 = false →
      exec (.scLdcw c w) s = .next (retires s c id (writesRd w (read 4)))) ∧
    (opcOf w = 0x1B#6 → inside 1 → free 1 → exec (.scStcb c w) s = .next (retires s c (put 1) nextPc)) ∧
    (opcOf w = 0x1C#6 → inside 2 → free 2 → exec (.scStch c w) s = .next (retires s c (put 2) nextPc)) ∧
    (opcOf w = 0x1D#6 → inside 4 → free 4 → exec (.scStcw c w) s = .next (retires s c (put 4) nextPc)) ∧
    (canTrap r →
      (opcOf w = 0x1A#6 → a.toNat % 4 = 0 → size ≤ a.toNat → exec (.scLdcw c w) s = .next (traps s c 0x04 a)) ∧
      (opcOf w = 0x1D#6 → a.toNat % 4 = 0 → size ≤ a.toNat → exec (.scStcw c w) s = .next (traps s c 0x04 a)))

/-- 07 R205, R206: a CRC step of the 32-bit polynomials and CRC-16 takes the operand's bytes lowest first; the memory forms take
them from memory and advance rs1. With crc = 3 the state is the pair rd, rd + 1. -/
def Obligations.CrcSteps : Prop :=
  ∀ (s : State) (c : Core) (w : Word), Issues s w c → opcOf w = 0x01#6 →
    let r := regsOf s c
    let b := getG r (rs2Of w)
    let a := getG r (rs1Of w)
    let ctl := c == .control
    let k := r.crc.toNat
    let state (n : Nat) : Nat := if k = 3 then (getG r n).toNat + 2 ^ 32 * (getG r (n + 1)).toNat else (getG r n).toNat
    let put (v : Nat) (r : Regs) : Regs :=
      if k = 3 then setG (setG r (rdOf w) (BitVec.ofNat 32 v)) (rdOf w + 1) (BitVec.ofNat 32 (v / 2 ^ 32))
      else setG r (rdOf w) (BitVec.ofNat 32 v)
    let step (v : Nat) (i : Nat) : Nat := crcStep k v (BitVec.ofNat 8 (b.toNat / 2 ^ (8 * i)))
    let mem (i : Nat) : Byte := tget emptyByte (if ctl then s.mem.tcm else s.mem.loc) (a.toNat + i)
    let good (n : Nat) : Prop := a.toNat % n = 0 ∧ a.toNat < (if ctl then 0x80000 else 0x400000) ∧ (ctl = true ∨ localGone s a.toNat n = false)
    let steps (n : Nat) : Nat := (List.range n).foldl (fun v i => crcStep k v (mem i)) (state (rdOf w))
    (fnOf w = 0x30#7 → exec (.scCrcb c w) s = .next (retires s c id fun r => nextPc (put (step (state (rs1Of w)) 0) r))) ∧
    (fnOf w = 0x31#7 → exec (.scCrch c w) s = .next (retires s c id fun r => nextPc (put (step (step (state (rs1Of w)) 0) 1) r))) ∧
    (fnOf w = 0x32#7 → exec (.scCrcw c w) s =
      .next (retires s c id fun r => nextPc (put (step (step (step (step (state (rs1Of w)) 0) 1) 2) 3) r))) ∧
    (fnOf w = 0x34#7 → good 1 → exec (.scCrcbM c w) s =
      .next (retires s c id fun r => nextPc (setG (put (steps 1) r) (rs1Of w) (a + 1)))) ∧
    (fnOf w = 0x35#7 → good 2 → exec (.scCrchM c w) s =
      .next (retires s c id fun r => nextPc (setG (put (steps 2) r) (rs1Of w) (a + 2)))) ∧
    (fnOf w = 0x36#7 → good 4 → exec (.scCrcwM c w) s =
      .next (retires s c id fun r => nextPc (setG (put (steps 4) r) (rs1Of w) (a + 4))))

/-- 07 R207 to R209: branches, calls and returns set the program counter; CALL and RET move the return stack, CALLL and RETL use
lk, and a full or empty stack and a misaligned target trap. -/
def Obligations.BranchesAndCalls : Prop :=
  ∀ (s : State) (c : Core) (w : Word), Issues s w c →
    let r := regsOf s c
    let goal : Word := r.pc + BitVec.ofInt 32 (4 * (off22Of w).toInt)
    let a := getG r (rs1Of w)
    (opcOf w = 0x28#6 → exec (.scBr c w) s = .next (retires s c id fun r => { r with pc := goal })) ∧
    (opcOf w = 0x29#6 → r.rs.length < 8 →
      exec (.scCall c w) s = .next (retires s c id fun r => { r with pc := goal, rs := (r.pc + 4) :: r.rs })) ∧
    (∀ k, c = .engine k → opcOf w = 0x29#6 → r.rs.length = 8 → (getSlot s k.toNat).rsov = false →
      exec (.scCall c w) s = .next (retires s c id fun r => { r with pc := goal, rs := (r.pc + 4) :: r.rs.take 7 })) ∧
    (∀ k, c = .engine k → opcOf w = 0x29#6 → r.rs.length = 8 → (getSlot s k.toNat).rsov = true → canTrap r → exec (.scCall c w) s = .next (traps s c 0x09 r.pc)) ∧
    (opcOf w = 0x2A#6 → exec (.scCalll c w) s = .next (retires s c id fun r => { r with pc := goal, lk := r.pc + 4 })) ∧
    (opcOf w = 0x2B#6 → a.toNat % 4 = 0 → exec (.scJr c w) s = .next (retires s c id fun r => { r with pc := a })) ∧
    (opcOf w = 0x2B#6 → a.toNat % 4 ≠ 0 → canTrap r → exec (.scJr c w) s = .next (traps s c 0x03 a)) ∧
    (opcOf w = 0x2C#6 → ∀ x l, r.rs = x :: l → x.toNat % 4 = 0 →
      exec (.scRet c w) s = .next (retires s c id fun r => { r with pc := x, rs := l })) ∧
    (opcOf w = 0x2C#6 → r.rs = [] → canTrap r → exec (.scRet c w) s = .next (traps s c 0x0A r.pc)) ∧
    (opcOf w = 0x2D#6 → r.lk.toNat % 4 = 0 → exec (.scRetl c w) s = .next (retires s c id fun r => { r with pc := r.lk }))

/-- 07 R210 to R212: a repeat prefix whose next instruction may be repeated sets the iterations left and moves on; one whose
next instruction may not be repeated traps as ILLEGAL at the prefix. A repeated instruction stays at the program counter until
its last iteration. 07 R190, R191, R195: g0 reads zero and a write to it is discarded; an instruction whose predicate is false
only advances, and uses budget; an undefined or illegal word traps. -/
def Obligations.RepeatsAndUnexecuted : Prop :=
  (∀ (s : State) (c : Core) (w nxt : Word), Issues s w c → opcOf w = 0x2E#6 → nextIs s c nxt = true →
    let n := w.toNat % 256 + 1
    (w.getLsbD 21 = false → repeatForbidden (c == .control) nxt = false → exec (.scRep c w nxt) s =
      .next (retires s c id fun r => { r with pc := r.pc + 4, rep := some { left := n, interruptible := false } })) ∧
    (w.getLsbD 21 = true → repeatForbidden (c == .control) nxt = false → exec (.scRepi c w nxt) s =
      .next (retires s c id fun r => { r with pc := r.pc + 4, rep := some { left := n, interruptible := true } })) ∧
    (∀ r : Regs, (r.rep = none → nextPc r = { r with pc := r.pc + 4 }) ∧
      ∀ x, r.rep = some x → (x.left ≤ 1 → nextPc r = { r with rep := none, pc := r.pc + 4 }) ∧
        (1 < x.left → nextPc r = { r with rep := some { x with left := x.left - 1 } })) ∧
    (repeatForbidden (c == .control) nxt = true → canTrap (regsOf s c) →
      (w.getLsbD 21 = false → exec (.scRep c w nxt) s = .next (traps s c 0x02 w)) ∧
      (w.getLsbD 21 = true → exec (.scRepi c w nxt) s = .next (traps s c 0x02 w)))) ∧
  ((∀ (r : Regs) (v : Word), getG r 0 = 0 ∧ setG r 0 v = r) ∧
  (∀ (r : Regs) (n m : Nat) (v : Word), tabCanon 0 r.g → n ≠ 0 → getG (setG r n v) m = if m = n then v else getG r m) ∧
  (∀ (s : State) (k : BitVec 9) (w : Word) (n : Nat) (sc : Script), scriptReady s k.toNat = some (n, sc) → doomedRerun s n = none →
    sc.left ≠ 0 → codeGood s n sc.base sc.regs.pc = true → codeBad s (codeAddr sc.base sc.regs.pc) = false →
    codeWord s (engineOf k.toNat) (codeAddr sc.base sc.regs.pc) = w → opcOf w = 0x02#6 →
    (executes sc.regs w = false → exec (.scAddi (.engine k) w) s = .next (retires s (.engine k) id nextPc))) ∧
  (∀ (s : State) (k : BitVec 9) (w : Word) (n : Nat) (sc : Script), scriptReady s k.toNat = some (n, sc) → doomedRerun s n = none →
    sc.left ≠ 0 → codeGood s n sc.base sc.regs.pc = true → codeBad s (codeAddr sc.base sc.regs.pc) = false →
    codeWord s (engineOf k.toNat) (codeAddr sc.base sc.regs.pc) = w → opcOf w = 0x00#6 → canTrap sc.regs →
    exec (.scAddi (.engine k) w) s = .next (traps s (.engine k) 0x02 w)))

/-- 07 R192, R215, R223, R225, Table 7-2, 11 R359: TRAP enters the handler with cause 0x40 + code, TRET leaves it, MFS reads a
special register and MTS writes one. -/
def Obligations.TrapsAndSpecialRegisters : Prop :=
  ∀ (s : State) (c : Core) (w : Word), Issues s w c →
    let r := regsOf s c
    let v := getG r (rs1Of w)
    let aligned (x : Word) : Word := x &&& 0xFFFFFFFC#32
    (opcOf w = 0x30#6 → canTrap r → exec (.scTrap c w) s = .next (traps s c (BitVec.ofNat 8 (0x40 + w.toNat % 64)) v)) ∧
    (opcOf w = 0x31#6 → exec (.scTret c w) s = .next (retires s c id fun r =>
      { r with pc := aligned r.tpc + (if w.getLsbD 0 then 4 else 0), inHandler := false })) ∧
    (opcOf w = 0x32#6 → ∃ x : Word, exec (.scMfs c w) s = .next (retires s c id (writesRd w x)) ∧
      (rs2Of w = 0 → x.getLsbD 0 = r.v ∧ x.getLsbD 1 = r.dz ∧ x.toNat < 4) ∧
      (rs2Of w = 1 → x = aligned r.lk) ∧ (rs2Of w = 2 → x = aligned r.th) ∧ (rs2Of w = 3 → x.toNat = r.tc.toNat) ∧
      (rs2Of w = 4 → x = aligned r.tpc) ∧ (rs2Of w = 5 → x = r.tval) ∧ (rs2Of w = 6 → x.toNat = r.crc.toNat) ∧
      (rs2Of w = 7 → ∀ i < 8, x.getLsbD i = (i == 0 || r.p.getLsbD i)) ∧
      (rs2Of w = 8 → x.toNat = s.dev.tick.toNat % 2 ^ 32) ∧
      (rs2Of w = 9 → x = BitVec.ofNat 32 (prnOf s c)) ∧
      (rs2Of w = 10 → x = match c with | .engine k => BitVec.ofNat 32 k.toNat | .control => 0) ∧
      (rs2Of w = 11 → x = match c with | .engine k => ((scriptReady s k.toNat).map (·.2.left)).getD 0 | .control => 0) ∧
      (rs2Of w = 12 → c ≠ .control → x.getLsbD 0 = (openClause s (prnOf s c)).isSome ∧
        x.extractLsb' 8 4 = (getP s (prnOf s c)).retryCount) ∧
      (rs2Of w = 13 → x = BitVec.ofNat 32 r.rs.length) ∧
      (rs2Of w = 14 → x.toNat = if c ≠ .control ∧ takenOver s (prnOf s c) = true then s.tw.peerCtm.toNat else s.sched.ctmSize.toNat % 32)) ∧
    (opcOf w = 0x33#6 →
      (rs2Of w = 0 → exec (.scMts c w) s = .next (retires s c id fun r => nextPc { r with v := v.getLsbD 0, dz := v.getLsbD 1 })) ∧
      (rs2Of w = 1 → exec (.scMts c w) s = .next (retires s c id fun r => nextPc { r with lk := aligned v })) ∧
      (rs2Of w = 2 → exec (.scMts c w) s = .next (retires s c id fun r => nextPc { r with th := aligned v })) ∧
      (rs2Of w = 4 → exec (.scMts c w) s = .next (retires s c id fun r => nextPc { r with tpc := aligned v })) ∧
      (rs2Of w = 6 → exec (.scMts c w) s = .next (retires s c id fun r => nextPc { r with crc := v.extractLsb' 0 2 })) ∧
      (rs2Of w = 7 → exec (.scMts c w) s = .next (retires s c id fun r => nextPc { r with p := v.extractLsb' 0 8 &&& 0xFE })))

/-- 07 R189, R214, Table 7-14: ICINV and CEn_CTL.ICINV empty the engine's instruction cache and change nothing else; END of a
script that has nothing outstanding and no clause ends the SCRIPT CCW, which carries NEXT: RESIDUAL is the unused budget, and S
= 1 skips one CCW. -/
def Obligations.EndsAndCacheInvalidation : Prop :=
  (∀ (s : State) (k : BitVec 9) (w : Word), Issues s w (.engine k) → opcOf w = 0x34#6 →
    exec (.scIcinv (.engine k) w) s = .next (retires s (.engine k)
      (fun s => { s with ce := { s.ce with icache := tset [] (k.toNat / 16) [] s.ce.icache } }) nextPc)) ∧
  (∀ (s : State) (n : BitVec 5), exec (.ceIcinv n) s =
    .next { s with ce := { s.ce with icache := tset [] n.toNat [] s.ce.icache } }) ∧
  (∀ (s : State) (k : BitVec 9) (w : Word) (n : Nat) (sc : Script), Issues s w (.engine k) → opcOf w = 0x2F#6 →
    scriptReady s k.toNat = some (n, sc) → (getP s n).state = .active → (getP s n).fenceDue = none →
    outstanding s n = [] → clauseOf s n = none → (getP s n).rerun = none →
    let c := lastCcw (getP s n)
    c.verb = 0x46 → fNext c = true → fFst c = false →
    ∃ t, exec (.scEnd (.engine k) w) s = .next t ∧ { t with sched := s.sched, ce := s.ce } = s ∧
      (getP t n).residual = sc.left - (if sc.left = 0 then 0 else 1) ∧ (getP t n).script = none ∧ (getP t n).tickets = [] ∧
      (getP t n).cur = none ∧ (getP t n).state = .active ∧
      (getP t n).ccwAddr = c.addr + (if w.getLsbD 0 then 32 else 16) ∧ ∀ m, m ≠ n → getP t m = getP s m)

/-- 04 R119, 07 R216: LOCK takes a free word, and one whose lock is broken, for the pronoun; takes its own again without
counting; is refused with both predicates 0 for another pronoun's, or with the registry full; and writes the lock word (Table
4-9) where it acquires. UNLOCK by the owner clears the word and the entry, and is refused to any other. With a clause open both
take the CLAUSE_LOCK trap. -/
def Obligations.LocksAndUnlocks : Prop :=
  ∀ (s : State) (k : BitVec 9) (w : Word), Issues s w (.engine k) →
    let c := Core.engine k
    let n := prnOf s c
    let a := getG (regsOf s c) (crs1Of w)
    let o := ctmOff s n a.toNat
    let inside : Prop := a.toNat % 4 = 0 ∧ a.toNat < ctmSizeFor s n
    let word (broken : Bool) : Word := BitVec.ofNat 32 (n % 2 ^ 20 + (if broken then 2 ^ 30 else 0) + 2 ^ 31)
    let takes (broken : Bool) (s : State) : State :=
      ctmStore { s with cls := { s.cls with locks := (s.cls.locks.filter fun e => e.1 != o) ++ [(o, n, broken)] } } o (toLE 4 (word broken).toNat)
    let ans (acquired broken : Bool) (r : Regs) : Regs := nextPc { r with p := setBit (setBit r.p (pdOf w) acquired) (condOf w).toNat broken }
    let locks (g : State → State) (acquired broken : Bool) : Prop := exec (.scLock c w) s = .next (retires s c g (ans acquired broken))
    let free : Prop := getLock s o = none ∧ dramPoisoned s (ctmPhys s o) 4 = false
    (opcOf w = 0x35#6 → inside → clauseOf s n = none → isCommitted s (o / 64) = false →
      (free → s.cls.locks.length + retiredOf s 7 0 < 8192 →
        let held := (tget emptyByte s.mem.dram (ctmPhys s o + 3)).getLsbD 7
        locks (takes held) true held) ∧
      (free → 8192 ≤ s.cls.locks.length + retiredOf s 7 0 →
        locks (fun s => pulse { s with cls := { s.cls with lockFull := true } } 94) false false) ∧
      (∀ m, getLock s o = some (m, true) → locks (takes true) true true) ∧
      (getLock s o = some (n, false) → locks (takes false) true false) ∧
      (∀ m, getLock s o = some (m, false) → m ≠ n → locks id false false)) ∧
    (opcOf w = 0x36#6 → inside → clauseOf s n = none →
      (∀ b, getLock s o = some (n, b) → isCommitted s (o / 64) = false → exec (.scUnlock c w) s = .next (retires s c
        (fun s => ctmStore { s with cls := { s.cls with locks := s.cls.locks.filter fun e => e.1 != o } } o [0, 0, 0, 0])
        fun r => nextPc { r with p := setBit r.p (pdOf w) true })) ∧
      ((∀ b, getLock s o ≠ some (n, b)) → exec (.scUnlock c w) s =
        .next (retires s c id fun r => nextPc { r with p := setBit r.p (pdOf w) false }))) ∧
    (inside → (clauseOf s n).isSome = true → canTrap (regsOf s c) →
      (opcOf w = 0x35#6 → exec (.scLock c w) s = .next (traps s c 0x06 a)) ∧
      (opcOf w = 0x36#6 → exec (.scUnlock c w) s = .next (traps s c 0x06 a)))

/-- 07 R217 to R219: a MOVREQ of a plain copy or fill that passes every check of Table 7-8 is queued on the mover its engine
selects, the lowest free ticket goes to rd and the pronoun stays on its slot while it is within MOVER_LIMIT; a block that is not
a multiple of 16 takes the MOVREQ trap with reason 0x05. 07 R220, Table 7-9: MOVWT of a ticket that has ended writes its result
and detail and frees it; one that holds no request gives 0x0F, as does a number above 15; of one that runs, P = 1 gives 0xFF and
P = 0 waits. -/
def Obligations.MoverRequestsAndTickets : Prop :=
  (∀ (s : State) (k : BitVec 9) (w : Word), Issues s w (.engine k) → opcOf w = 0x37#6 →
    let c := Core.engine k
    let n := prnOf s c
    let a := getG (regsOf s c) (rs1Of w)
    let q := parseReq (getBytes s.mem.loc a.toNat 32)
    let x : Cx := { ctl := false, k := k.toNat, n := n, r := regsOf s c, left := 0, rsov := true, dzt := false }
    (a.toNat + 32 ≤ 0x400000 → localGone s a.toNat 32 = false → a.toNat % 16 = 0 → qIdx q = false → qXfm q = false →
      lowest (qChecks s x q) = none → ∀ tk m, firstFree (getP s n).tickets = some tk →
      pickMover s (k.toNat / 16) = some m → (getMv s m).queue.length < 1024 →
      (outstanding s n).length + 1 ≤ s.sched.moverLimit.toNat →
      ∃ t, exec (.scMovreq c w) s = .next t ∧ { t with sched := s.sched, ce := s.ce, mv := s.mv } = s ∧
        tget .free (getP t n).tickets tk = .busy s.mv.nextId ∧
        (getP t n).script.map (·.regs) = some (writesRd w (BitVec.ofNat 32 tk) (regsOf s c)) ∧
        (getP t n).state = (getP s n).state ∧ t.mv.nextId = s.mv.nextId + 1 ∧
        (∃ y ∈ transfersOf (getMv t m), y.id = s.mv.nextId ∧ y.origin = .ticket n tk a.toNat ∧ tTotal y = q.count.toNat)) ∧
    (a.toNat + 32 ≤ 0x400000 → localGone s a.toNat 32 = false → a.toNat % 16 ≠ 0 → canTrap (regsOf s c) →
      exec (.scMovreq c w) s = .next (traps s c 0x07 (BitVec.ofNat 32 (a.toNat + 5 * 2 ^ 24))))) ∧
  (∀ (s : State) (c : Core) (w : Word), Issues s w c → opcOf w = 0x38#6 →
    let v := getG (regsOf s c) (rs1Of w)
    let n := prnOf s c
    let tickets := match c with | .engine _ => (getP s n).tickets | .control => s.cp.tickets
    let frees (s : State) : State := match c with
      | .engine _ => modP s n fun p => { p with tickets := tset .free v.toNat .free p.tickets }
      | .control => { s with cp := { s.cp with tickets := tset .free v.toNat .free s.cp.tickets } }
    (16 ≤ v.toNat → exec (.scMovwt c w) s = .next (retires s c id (writesRd w 0x0F))) ∧
    (v.toNat < 16 → tget .free tickets v.toNat = .free → exec (.scMovwt c w) s = .next (retires s c id (writesRd w 0x0F))) ∧
    (v.toNat < 16 → ∀ r d, tget .free tickets v.toNat = .done r d →
      exec (.scMovwt c w) s = .next (retires s c frees (writesRd w (BitVec.ofNat 32 (r.toNat + 256 * d.toNat))))) ∧
    (v.toNat < 16 → ∀ id', tget .free tickets v.toNat = .busy id' → w.getLsbD 0 = true →
      exec (.scMovwt c w) s = .next (retires s c id (writesRd w 0xFF))) ∧
    (v.toNat < 16 → ∀ id', tget .free tickets v.toNat = .busy id' → w.getLsbD 0 = false →
      ∃ t, exec (.scMovwt c w) s = .next t ∧
        match c with
        | .engine _ => (getP t n).script.bind (·.stall) = some (.ticket w) ∧ (getP t n).tickets = tickets
        | .control => t.cp.stall = some (.ticket w) ∧ t.cp.regs = s.cp.regs ∧ t.cp.tickets = tickets))

/-- 07 R221, 02 R36: a script's WAIT takes the highest selected wait input with a pending event at once and writes its number;
with nothing pending the pronoun goes WAITING, to time out after the ticks of rs1, or never where rs1 is 0, and g0 to g31 go to
its script frame, whose layout is the model's choice (07 R194, log entry 109). 07 R222, 02 R35: SIGNAL outside a clause takes
effect at once: with M = 1 a wait-input event at the pronoun named, with M = 0 the event source, 512 to 1022; a target R35
rejects takes the SIGNAL trap. -/
def Obligations.ScriptWaitsAndSignals : Prop :=
  (∀ (s : State) (k : BitVec 9) (w : Word), Issues s w (.engine k) → opcOf w = 0x39#6 →
    let c := Core.engine k
    let n := prnOf s c
    let p := getP s n
    let mask : Byte := w.extractLsb' 4 8
    let count (i : Nat) : Nat := p.waitPending.toNat / 16 ^ i % 16
    let v := getG (regsOf s c) (rs1Of w)
    (∀ i < 8, mask.getLsbD i = true → 0 < count i → (∀ j, i < j → j < 8 → mask.getLsbD j = true → count j = 0) →
      ∃ x : Word, exec (.scWaitInstr c w) s = .next (retires s c
        (fun s => setP s n { p with waitPending := x, wakeInput := BitVec.ofNat 3 i, wakeCause := 1 }) (writesRd w (BitVec.ofNat 32 i))) ∧
      ∀ j < 8, x.toNat / 16 ^ j % 16 = if j = i then count i - 1 else count j) ∧
    ((∀ i < 8, mask.getLsbD i = true → count i = 0) → frameQueued s n = false → p.attn = [] → p.state = .active →
      ∃ t, exec (.scWaitInstr c w) s = .next t ∧ { t with sched := s.sched, ce := s.ce, mem := s.mem } = s ∧ (getP t n).state = .waiting ∧
        t.mem = (writeDram s (frameAt s n) (frameBytes (regsOf s c))).mem ∧
        (getP t n).wait = some { mask := mask, script := some (rdOf w)
                                 expiry := if v = 0 then none else some (s.dev.tick.toNat + v.toNat) } ∧
        (∀ m, m ≠ n → getP t m = getP s m))) ∧
  (∀ (s : State) (c : Core) (w : Word), Issues s w c → opcOf w = 0x3A#6 → (c ≠ .control → openClause s (prnOf s c) = none) →
    let v := getG (regsOf s c) (rs1Of w)
    (w.getLsbD 21 = true → v.toNat < 2 ^ 23 → v.toNat % 2 ^ 20 ≠ 0 → exec (.scSignalInstr c w) s = .next (retires s c
      (fun s => (waitEvent s (v.toNat % 2 ^ 20) (v.toNat / 2 ^ 20)).1) nextPc)) ∧
    (w.getLsbD 21 = false → 512 ≤ v.toNat → v.toNat ≤ 1022 → exec (.scSignalInstr c w) s = .next (retires s c (fun s => pulse s v.toNat) nextPc)) ∧
    (canTrap (regsOf s c) →
      (w.getLsbD 21 = true → 2 ^ 23 ≤ v.toNat ∨ v.toNat % 2 ^ 20 = 0 → exec (.scSignalInstr c w) s = .next (traps s c 0x08 v)) ∧
      (w.getLsbD 21 = false → 1023 ≤ v.toNat ∨ (224 ≤ v.toNat ∧ v.toNat < 512) → exec (.scSignalInstr c w) s = .next (traps s c 0x08 v))))

/-- 04 R91, R99, R100, R107, R113, 06 R152, R153, 07 R213: the ends of a script's and a chain's waits. A store that waited for a
committed line is done; a CCW whose issue had stalled is with a mover; a pronoun without budget goes to the tail of its run
level, its registers to its script frame (log entry 109); a doomed clause's lines are given back; a re-run and a CLB that waited
go on. -/
def Obligations.WaitsEnd : Prop :=
  (∀ (s : State) (k : BitVec 9) (w : Word) (n : Nat) (sc : Script), slotPron s k.toNat = some n → (getP s n).script = some sc →
    sc.stall = some (.committed w) → opcOf w = 0x1D#6 → doomedRerun s n = none → (getP s n).resetting = false →
    running (getP s n) = true → openClause s n = none →
    let a := getG sc.regs (rs1Of w) + (imm12Of w).signExtend 32
    let o := ctmOff s n a.toNat
    a.toNat % 4 = 0 → a.toNat < ctmSizeFor s n → isCommitted s (o / 64) = false →
    exec (.ctmCommittedWaitEnd (.engine k)) s = .next (putScript (ctmStore s o (toLE 4 (getG sc.regs (rdOf w)).toNat)) n
      { sc with stall := none, regs := nextPc sc.regs })) ∧
  (∀ (s : State) (k : BitVec 9) (n : Nat) (u : Cur) (c : Ccw) (m : Nat), slotPron s k.toNat = some n → (getP s n).state = .active →
    (getP s n).cur = some u → u.phase = .issue → u.items = [c] → c.verb = 0x25 → doomedRerun s n = none →
    pickMover s (k.toNat / 16) = some m → (getMv s m).queue.length < 1024 →
    ∃ t, exec (.moverIssueStallEnd (.engine k)) s = .next t ∧ { t with sched := s.sched, mv := s.mv } = s ∧
      ((getP t n).cur.map fun x => (x.phase, x.mover)) = some (.moving, some m) ∧
      (∃ y ∈ transfersOf (getMv t m), y.origin = .ccw n ∧ tTotal y = c.count.toNat)) ∧
  (∀ (s : State) (k : BitVec 9) (n : Nat) (sc : Script), scriptReady s k.toNat = some (n, sc) → doomedRerun s n = none → sc.left = 0 →
    inRep sc.regs = false → (getP s n).state = .active →
    ∃ t l, exec (.budgetEnd k) s = .next t ∧ { t with sched := s.sched, ce := s.ce, mem := s.mem } = s ∧ (getP t n).state = .queued ∧
      t.mem = (writeDram s (frameAt s n) (frameBytes sc.regs)).mem ∧
      runq t (getP s n).runLevel.toNat = l ++ [n] ∧ (getP t n).script = some sc) ∧
  (∀ (s : State) (q : PrnNum) (c : Clause), clauseOf s q.toNat = some c → c.doom.isSome = true → c.returned = false →
    (s.sched.recs.all fun e => ((e.2.script.bind (·.stall)).bind pickEntries).isNone) = true → s.cp.stall.bind pickEntries = none →
    exec (.doomEntriesReturned q) s = .next { s with cls := { s.cls with clauses := s.cls.clauses.map fun x =>
      if x.begin_ == c.begin_ then { x with returned := true, effects := [], reads := [], writes := [] } else x } }) ∧
  (∀ (s : State) (q : PrnNum) (x : Rerun), isBound (getP s q.toNat) = true → (getP s q.toNat).rerun = some x → x.counted = true →
    (s.cls.clauses.all fun c => !(x.doomers.contains c.begin_)) = true →
    ∃ t, exec (.conflictRerun q) s = .next t ∧ { t with sched := s.sched } = s ∧
      (getP t q.toNat).rerun = some { x with doomers := [] } ∧ rerunWaits t (getP t q.toNat) = false) ∧
  (∀ (s : State) (n : Nat) (u : Cur), clbWaiter s 512 = some n → s.flt.staging = false → s.cls.clauses.length < 512 →
    isBound (getP s n) = true → (getP s n).cur = some u → (getP s n).rerun = none →
    ∃ t, exec .clbRecordWaitEnd s = .next t ∧ { t with sched := s.sched, cls := s.cls } = s ∧
      (getP t n).cur = some { u with phase := .ready } ∧ t.cls.beginNext = s.cls.beginNext + 1 ∧ n ∉ t.cls.clbWait ∧
      t.cls.clauses = s.cls.clauses ++ [{ begin_ := s.cls.beginNext, prn := n, clb := (firstCcw (getP s n)).addr
                                          count := (firstCcw (getP s n)).count, loops := (getP s n).loops
                                          limit := (getP s n).retryLimit }])

/-- 07 R232, 10 R321, R322, Table 10-8: the control processor's own instructions. MFC reads a control register, MTC writes one,
WFI stops issue, FENCE only advances, IRET restores what the entry saved. 07 R232, Table 7-15: RBLD and RBST at a word offset
below 4 MiB read and write the register bus as master 0x00; misaligned, or beyond, they trap with the offset as the value. -/
def Obligations.ControlProcessorInstructions : Prop :=
  (∀ (s : State) (w : Word), Issues s w .control →
    let c := s.cp
    let r := c.regs
    let v := getG r (rs1Of w)
    let aligned (x : Word) : Word := x &&& 0xFFFFFFFC#32
    let sets (d : Cp) : Host.Outcome State Fault Refusal := .next (setCp s { d with wfi := false, regs := nextPc r, stall := none })
    (opcOf w = 0x3E#6 → fnOf w = 0 → ∃ x : Word, exec (.cpMfc w) s = .next (retires s .control id (writesRd w x)) ∧
      (rs2Of w = 0 → x.getLsbD 0 = c.nie ∧ x.getLsbD 1 = c.fie ∧ x.toNat < 4) ∧ (rs2Of w = 1 → x = aligned c.nvec) ∧
      (rs2Of w = 2 → x = aligned c.fvec) ∧ (rs2Of w = 3 → x = c.nepc) ∧ (rs2Of w = 4 → x = c.fepc) ∧
      (rs2Of w = 7 → x.getLsbD 0 = c.inNormal ∧ x.getLsbD 1 = c.inFast ∧ x.toNat < 4)) ∧
    (opcOf w = 0x3E#6 → fnOf w = 1 →
      (rs2Of w = 0 → exec (.cpMtc w) s = sets { c with nie := v.getLsbD 0, fie := v.getLsbD 1 }) ∧
      (rs2Of w = 1 → exec (.cpMtc w) s = sets { c with nvec := aligned v }) ∧
      (rs2Of w = 2 → exec (.cpMtc w) s = sets { c with fvec := aligned v }) ∧
      (rs2Of w = 3 → exec (.cpMtc w) s = sets { c with nepc := v }) ∧ (rs2Of w = 4 → exec (.cpMtc w) s = sets { c with fepc := v }) ∧
      (rs2Of w = 5 → exec (.cpMtc w) s = sets { c with nsave := v &&& 0x1FFE }) ∧
      (rs2Of w = 6 → exec (.cpMtc w) s = sets { c with fsave := v &&& 0x1FFE })) ∧
    (opcOf w = 0x3F#6 → fnOf w = 1 → exec (.cpWfi w) s = .next (setCp s { c with wfi := true, regs := nextPc r, stall := none })) ∧
    (opcOf w = 0x3F#6 → fnOf w = 2 → exec (.cpFence w) s = sets c) ∧
    (opcOf w = 0x3F#6 → fnOf w = 0 → c.inFast = false → ∃ t, exec (.cpIret w) s = .next t ∧ { t with cp := s.cp } = s ∧
      t.cp.inNormal = false ∧ t.cp.nie = c.nsave.getLsbD 11 ∧ t.cp.fie = c.nsave.getLsbD 12 ∧ t.cp.regs.pc = aligned c.nepc ∧
      t.cp.regs.v = c.nsave.getLsbD 8 ∧ t.cp.regs.dz = c.nsave.getLsbD 9 ∧ t.cp.regs.inHandler = c.nsave.getLsbD 10 ∧
      (∀ i, 0 < i → i < 8 → t.cp.regs.p.getLsbD i = c.nsave.getLsbD i) ∧ t.cp.regs.g = r.g ∧ t.cp.shadow = c.shadow) ∧
    (opcOf w = 0x3F#6 → fnOf w = 0 → c.inFast = true → ∃ t, exec (.cpIret w) s = .next t ∧ { t with cp := s.cp } = s ∧
      t.cp.inFast = false ∧ t.cp.nie = c.fsave.getLsbD 11 ∧ t.cp.fie = c.fsave.getLsbD 12 ∧ t.cp.regs.pc = aligned c.fepc ∧
      (∀ i, 0 < i → i < 16 → getG t.cp.regs i = tget 0 c.shadow i ∧ tget 0 t.cp.shadow i = tget 0 r.g i))) ∧
  (∀ (s : State) (w : Word), Issues s w .control →
    let r := s.cp.regs
    let a := getG r (rs1Of w) + (imm12Of w).signExtend 32
    let s0 := fetched s .control
    (opcOf w = 0x3C#6 → a.toNat % 4 = 0 → a.toNat < 0x400000 →
      let x := regRead s0 0 a.toNat
      exec (.cpRbld w) s = .next (setCp x.2 { x.2.cp with regs := writesRd w x.1 r, stall := none })) ∧
    (opcOf w = 0x3D#6 → a.toNat % 4 = 0 → a.toNat < 0x400000 →
      let t := regWrite s0 0 a.toNat (getG r (rdOf w))
      exec (.cpRbst w) s = .next (setCp t { t.cp with regs := nextPc r, stall := none })) ∧
    (canTrap r →
      (opcOf w = 0x3C#6 → a.toNat % 4 ≠ 0 → exec (.cpRbld w) s = .next (traps s .control 0x03 a)) ∧
      (opcOf w = 0x3D#6 → a.toNat % 4 ≠ 0 → exec (.cpRbst w) s = .next (traps s .control 0x03 a)) ∧
      (opcOf w = 0x3C#6 → a.toNat % 4 = 0 → 0x400000 ≤ a.toNat → exec (.cpRbld w) s = .next (traps s .control 0x04 a)) ∧
      (opcOf w = 0x3D#6 → a.toNat % 4 = 0 → 0x400000 ≤ a.toNat → exec (.cpRbst w) s = .next (traps s .control 0x04 a))))

/-- 10 R321, R322, 07 R212: between instructions, or between iterations of a REPI, a fast request is taken with FIE, a normal
one with NIE outside every handler. The entry saves the next PC and the state of c5 or c6 and clears the enables; the fast one
also exchanges g1 to g15. Inside a REP nothing is taken. -/
def Obligations.InterruptEntries : Prop :=
  ∀ s : State,
    let c := s.cp
    let r := c.regs
    let saved : Nat := r.p.toNat / 2 * 2 % 256 + 256 * (if r.v then 1 else 0) + 512 * (if r.dz then 1 else 0) +
      1024 * (if r.inHandler then 1 else 0) + 2048 * (if c.nie then 1 else 0) + 4096 * (if c.fie then 1 else 0)
    let aligned (x : Word) : Word := x &&& 0xFFFFFFFC#32
    let open' : Prop := controlRuns s = true ∧ c.running = true ∧ c.faulted = false ∧ c.stall = none
    (open' → inRep r = false → s.evt.normal.presented.isSome = true → c.nie = true → c.inNormal = false → c.inFast = false →
      (s.evt.fast.presented = none ∨ c.fie = false) →
      exec .interruptEntry s = .next { s with cp := { c with nepc := r.pc, nsave := BitVec.ofNat 32 saved, nrep := r.rep, nie := false,
                                                             inNormal := true, wfi := false,
                                                             regs := { r with inHandler := false, pc := aligned c.nvec, rep := none } } }) ∧
    (open' → inRep r = false → s.evt.fast.presented.isSome = true → c.fie = true → c.inFast = false →
      ∃ t, exec .interruptEntry s = .next t ∧ { t with cp := s.cp } = s ∧ t.cp.fepc = r.pc ∧ t.cp.fsave = BitVec.ofNat 32 saved ∧
        t.cp.nie = false ∧ t.cp.fie = false ∧ t.cp.inFast = true ∧ t.cp.inNormal = c.inNormal ∧ t.cp.regs.inHandler = false ∧
        t.cp.regs.pc = aligned c.fvec ∧ t.cp.nepc = c.nepc ∧
        (∀ i, 0 < i → i < 16 → getG t.cp.regs i = tget 0 c.shadow i ∧ tget 0 t.cp.shadow i = tget 0 r.g i)) ∧
    (inRep r = true → exec .interruptEntry s = .next s)

/-- 10 R317, R319: the control processor's claim returns the presented source with VALID, clears its pending bit and puts it in
service; with nothing presented, or from another master, the value is zero and nothing changes. A source that pulses while in
service is pending again and not presented. Completion of the number in service ends it, and the highest eligible source is
presented; of any other number it is rejected. 10 R318, R320, Table 10-7: the presented source of a class that has none in
service, and none presented before, is the highest-numbered source of the class that is pending and enabled. With no other to
present, a source masked inside its window stays presented, also once the window has passed; one masked after it is withdrawn
and stays pending. -/
def Obligations.ClaimsAndCompletions : Prop :=
  (∀ s : State,
    (∀ n < 1024, s.evt.normal.presented = some n → ∃ t, exec (.icClaimN 0) s = .next t ∧
      t.out = s.out ++ [.value 0 (BitVec.ofNat 32 (2 ^ 31 + n))] ∧ t.evt.normal = { presented := none, window := false, service := some n } ∧
      t.evt.icPend = setBit s.evt.icPend n false ∧ { t with evt := s.evt, out := s.out } = s) ∧
    (∀ n < 1024, s.evt.fast.presented = some n → ∃ t, exec (.icClaimF 0) s = .next t ∧
      t.out = s.out ++ [.value 0 (BitVec.ofNat 32 (2 ^ 31 + n))] ∧ t.evt.fast = { presented := none, window := false, service := some n } ∧
      t.evt.icPend = setBit s.evt.icPend n false ∧ { t with evt := s.evt, out := s.out } = s) ∧
    (icEval s = s →
      (s.evt.normal.presented = none → exec (.icClaimN 0) s = .next { s with out := s.out ++ [.value 0 0] }) ∧
      (s.evt.fast.presented = none → exec (.icClaimF 0) s = .next { s with out := s.out ++ [.value 0 0] })) ∧
    (∀ n < 1024, s.evt.normal.service = some n ∨ s.evt.fast.service = some n → (pulse s n).evt.icPend.getLsbD n = true ∧
      (s.evt.normal.service = some n → (pulse s n).evt.normal.presented = none) ∧ (s.evt.fast.service = some n → (pulse s n).evt.fast.presented = none)) ∧
    (∀ who, who ≠ 0 → exec (.icClaimN who) s = .next { s with out := s.out ++ [.value who 0] } ∧
      exec (.icClaimF who) s = .next { s with out := s.out ++ [.value who 0] }) ∧
    (∀ v : Word, s.evt.normal.service = some v.toNat → s.evt.normal.presented = none → ∃ t, exec (.icCompleteN 0 v) s = .next t ∧ t.evt.normal.service = none ∧
      t.evt.icPend = s.evt.icPend ∧ { t with evt := s.evt } = s ∧
      t.evt.normal.presented = topBit (s.evt.icPend &&& s.evt.icEn &&& ~~~s.evt.icCls) 1024) ∧
    (∀ v : Word, s.evt.fast.service = some v.toNat → s.evt.fast.presented = none → ∃ t, exec (.icCompleteF 0 v) s = .next t ∧ t.evt.fast.service = none ∧
      t.evt.icPend = s.evt.icPend ∧ { t with evt := s.evt } = s ∧
      t.evt.fast.presented = topBit (s.evt.icPend &&& s.evt.icEn &&& s.evt.icCls) 1024) ∧
    (∀ (who : Master) (v : Word), (who ≠ 0 ∨ s.evt.normal.service ≠ some v.toNat) → ∃ t, exec (.icCompleteN who v) s = .next t ∧
      t.evt.normal.service = s.evt.normal.service ∧ t.dev.wrj = setBit s.dev.wrj 11 true) ∧
    (∀ (who : Master) (v : Word), (who ≠ 0 ∨ s.evt.fast.service ≠ some v.toNat) → ∃ t, exec (.icCompleteF who v) s = .next t ∧
      t.evt.fast.service = s.evt.fast.service ∧ t.dev.wrj = setBit s.dev.wrj 11 true)) ∧
  (∀ s : State,
    let eligible (n : Nat) : Prop := s.evt.icPend.getLsbD n = true ∧ s.evt.icEn.getLsbD n = true ∧ s.evt.icCls.getLsbD n = false
    (∀ n, s.evt.normal = {} → ((icEval s).evt.normal.presented = some n ↔ (n < 1024 ∧ eligible n ∧ ∀ m, n < m → m < 1024 → ¬ eligible m))) ∧
    (∀ p, s.evt.normal.presented = some p → s.evt.normal.service = none → (∀ m < 1024, ¬ eligible m) → s.evt.icPend.getLsbD p = true →
      (s.evt.normal.window = true → (icEval s).evt.normal.presented = some p ∧ (icCloseWindows (icEval s)).evt.normal.presented = some p) ∧
      (s.evt.normal.window = false → s.evt.normal.stuck = false →
        (icEval s).evt.normal.presented = none ∧ (icEval s).evt.icPend = s.evt.icPend)))

/-- 10 R301, R306, R310 to R312: a pulse is a rising edge at each conjunction that selects its source and is not held high by a
pin. An edge of an enabled, unarmed conjunction in an enabled group delivers one act to each target with a nonzero KIND that
R311 does not refuse, in target order, and arms the inhibit; one that meets a clear EN or a disabled group sets BLOCKED; an
armed one counts a loop; with no edge nothing happens. The inhibit disarms while the input is low. That an edge waits for the
command CJ_INPUT_EDGE is the model's choice (log entry 67). 10 R309, Table 10-3: the first delivered act of a target is taken
and applied: a capture copies TICK_COUNT, a group act sets or clears its bit, a pin act drives an output, and a wait-input act
counts one event. -/
def Obligations.ConjunctionEdgesAndActs : Prop :=
  (∀ (s : State) (n : Byte),
    let c := getCj s n.toNat
    let pin : Prop := cjHigh (gpioLevels s) c = true
    let off := !c.en || !(s.evt.grpEn.getLsbD c.group.toNat)
    let put (c : Cj) : State := { s with evt := { s.evt with cj := tset {} n.toNat c s.evt.cj } }
    let took (c : Cj) : State := { put c with evt := { (put c).evt with edges := s.evt.edges.filter (· != n.toNat) } }
    (∀ src, tabCanon {} s.evt.cj → (n.toNat ∈ (pulse s src).evt.edges ↔
      n.toNat ∈ s.evt.edges ∨ (connected src = true ∧ src ∈ cjSources c ∧ ¬ pin))) ∧
    (¬ pin → n.toNat ∉ s.evt.edges → exec (.inhibitDisarm n) s = .next (put { c with armed := false })) ∧
    (pin ∨ n.toNat ∈ s.evt.edges → exec (.inhibitDisarm n) s = .next s) ∧
    (n.toNat ∉ s.evt.edges ∨ s.rst.held = true → exec (.cjInputEdge n) s = .next s) ∧
    (s.rst.held = false → n.toNat ∈ s.evt.edges →
      (off = true → c.armed = false → exec (.cjInputEdge n) s = .next (took { c with blocked := true })) ∧
      (c.armed = true → s.evt.loops.toNat < 2 ^ 32 - 2 →
        let t := took { c with loop := true, blocked := c.blocked || off }
        exec (.cjInputEdge n) s = .next { t with evt := { t.evt with loops := s.evt.loops + 1 } }) ∧
      (off = false → c.armed = false →
        let may (k : Nat) : Bool := (tget 0 c.tgt k).extractLsb' 0 4 != 0
        ∃ t l, exec (.cjInputEdge n) s = .next t ∧ { t with evt := s.evt } = s ∧
          getCj t n.toNat = { c with fired := true, armed := true, deliveries := c.deliveries + 1
                                     denied := c.denied || (List.range 8).any fun k => may k && actRefused s c.owner (tget 0 c.tgt k) } ∧
          t.evt.acts = s.evt.acts ++ l ∧
          (l.map fun a => a.2.1) = (List.range 8).filter (fun k => may k && !(actRefused s c.owner (tget 0 c.tgt k))) ∧
          ∀ a ∈ l, a.1 = n.toNat ∧ a.2.2 = tget 0 c.tgt a.2.1))) ∧
  (∀ (s : State) (n : Byte) (k : BitVec 3) (w : Word) (l : List (Nat × Nat × Word)), s.evt.acts = (n.toNat, k.toNat, w) :: l → s.pwr.held = [] →
    let kind := w.extractLsb' 0 4
    let taken : State := { s with evt := { s.evt with acts := l } }
    (kind = 0 → exec (.conjunctionAct n k) s = .next taken) ∧
    (kind = 3 → ∃ t, exec (.conjunctionAct n k) s = .next t ∧ { t with evt := s.evt } = s ∧ t.evt.acts = l ∧
      let i := w.toNat / 16 % 16
      let c := tget {} s.evt.caps i
      (c.count.toNat < 15 → tget {} t.evt.caps i = { tick := s.dev.tick, count := c.count + 1, overflow := c.overflow }) ∧
      (c.count = 15 → tget {} t.evt.caps i = { tick := s.dev.tick, count := 15, overflow := true })) ∧
    (kind = 7 → exec (.conjunctionAct n k) s = .next { s with evt := { s.evt with acts := l, grpEn := setBit s.evt.grpEn (w.toNat / 16 % 16) true } }) ∧
    (kind = 8 → exec (.conjunctionAct n k) s = .next { s with evt := { s.evt with acts := l, grpEn := setBit s.evt.grpEn (w.toNat / 16 % 16) false } }) ∧
    (kind = 5 → s.pwr.gpioDir.getLsbD (w.toNat / 16 % 16) = false → exec (.conjunctionAct n k) s = .next taken) ∧
    (kind = 5 → s.pwr.gpioDir.getLsbD (w.toNat / 16 % 16) = true → ∃ t, exec (.conjunctionAct n k) s = .next t ∧ t.evt.acts = l ∧
      let i := w.toNat / 16 % 16
      (w.toNat / 256 % 4 = 0 → t.pwr.gpioOut = setBit s.pwr.gpioOut i true) ∧ (w.toNat / 256 % 4 = 1 → t.pwr.gpioOut = setBit s.pwr.gpioOut i false) ∧
      (w.toNat / 256 % 4 = 2 → t.pwr.gpioOut = setBit s.pwr.gpioOut i (!(s.pwr.gpioOut.getLsbD i))) ∧
      (w.toNat / 256 % 4 = 3 → t.pwr.gpioOut = setBit s.pwr.gpioOut i true)) ∧
    (kind = 1 → s.pwr.sleep = .awake →
      waitCount (getP s (w.toNat / 16 % 2 ^ 20)) (w.toNat / 2 ^ 24 % 8) < 15 →
      exec (.conjunctionAct n k) s = .next (waitEvent taken (w.toNat / 16 % 2 ^ 20) (w.toNat / 2 ^ 24 % 8)).1))

/-- 16 R479, 10 R302: a rise of at least 10 ns at a GPIO input is an edge of its source, one below 3 ns is ignored, and the
board must produce none between; a fall only changes the level. A rise is an edge at the conjunctions that select the pin (log
entry 67). -/
def Obligations.GpioEdges : Prop :=
  ∀ (s : State) (pin : BitVec 4) (ns : BitVec 32),
    let at_ (b : Bool) : BitVec 16 := setBit s.pins.gpio pin.toNat b
    (exec (.gpioInputEdge pin false ns) s = .next { s with pins := { s.pins with gpio := at_ false } }) ∧
    (10 ≤ ns.toNat → ∃ t, exec (.gpioInputEdge pin true ns) s = .next t ∧ t.pins = { s.pins with gpio := at_ true } ∧
      (s.pwr.gpioDir.getLsbD pin.toNat = false → s.pins.gpio.getLsbD pin.toNat = false → t.evt.icPend.getLsbD (240 + pin.toNat) = true) ∧
      (s.pwr.gpioDir.getLsbD pin.toNat = false → s.pins.gpio.getLsbD pin.toNat = false → tabCanon {} s.evt.cj → ∀ n, n ∈ t.evt.edges ↔
        n ∈ s.evt.edges ∨ (240 + pin.toNat ∈ cjSources (getCj s n) ∧ cjHigh (gpioLevels s) (getCj s n) = false)) ∧
      (s.pwr.gpioDir.getLsbD pin.toNat = true ∨ s.pins.gpio.getLsbD pin.toNat = true → t.evt = s.evt)) ∧
    (ns.toNat < 3 → exec (.gpioInputEdge pin true ns) s = .next s) ∧
    (3 ≤ ns.toNat → ns.toNat < 10 → exec (.gpioInputEdge pin true ns) s = .fault .forbiddenPulse)

/-- 10 R303, R325 to R327: a POST by the sender fills an empty mailbox, keeps its data (an engine's buffer is copied there
first), records the sender's epoch and pulses source 96 + m; to a full one it only sets REFUSED. An ACK by the receiver empties
it and pulses source 160 + m. Any other master is rejected; an engine's is turned away with no effect. -/
def Obligations.MailboxPostsAndAcks : Prop :=
  ∀ (s : State) (who : Master) (m : BitVec 6), (isFn who = false ∧ s.rst.held = false ∧ s.pwr.held = []) ∨ HostUp s who →
    let x := getMbx s m.toNat
    let out (i : Instr) : Prop := (isCe who = true → exec i s = .next s) ∧
      (isVf who = true → ∃ t, exec i s = .next t ∧ RejectedHf who s t) ∧
      (isCe who = false → isVf who = false → ∃ t, exec i s = .next t ∧ Rejected 11 s t)
    (x.valid = true → x.sender = who → x.full = false → x.receiver = 0xF0 →
      ∃ t, exec (.mbxPost who m) s = .next t ∧ (getMbx t m.toNat).full = true ∧
        (getMbx t m.toNat).data = (if isCe who = true then BitVec.ofNat 256 (ofLE (getBytes s.mem.loc (ceBuffer (who.toNat - 16) m.toNat) 32)) else x.data) ∧
        (getMbx t m.toNat).postEpoch = tget 0 s.evt.epochs who.toNat ∧ (getMbx t m.toNat).orphan = false ∧ (getMbx t m.toNat).refused = false ∧
        t.evt.icPend.getLsbD (96 + m.toNat) = true ∧
        { t with evt := s.evt, hp := s.hp, out := s.out } = s) ∧
    (x.valid = true → x.sender = who → x.full = true →
      exec (.mbxPost who m) s = .next { s with evt := { s.evt with mbx := tset {} m.toNat { x with refused := true } s.evt.mbx } }) ∧
    (x.valid = true → x.receiver = who → x.full = true →
      ∃ t, exec (.mbxAck who m) s = .next t ∧ getMbx t m.toNat = { x with full := false } ∧ t.evt.icPend.getLsbD (160 + m.toNat) = true ∧
        (x.sender ≠ 0x90 → { t with evt := s.evt, hp := s.hp, out := s.out } = s)) ∧
    (x.valid = true → x.receiver = who → x.full = false → exec (.mbxAck who m) s = .next s) ∧
    (x.valid = false ∨ x.sender ≠ who → out (.mbxPost who m)) ∧
    (x.valid = false ∨ x.receiver ≠ who → out (.mbxAck who m))

/-- 02 R36, 12 R371 to R376, Table 12-3: a WAIT's time-out queues its pronoun to go on past the next CCW, RESIDUAL 0; a wake
source sets its cause bit and wakes a sleeping part whose mask selects it; DEEP SLEEP is entered once every function and link is
ready, and abandoned when the wait for them times out. -/
def Obligations.TimeoutsAndWakes : Prop :=
  (∀ (s : State) (q : PrnNum) (x : Waiting) (e : Nat), (getP s q.toNat).state = .waiting → (getP s q.toNat).wait = some x → x.expiry = some e →
    x.script = none → s.pwr.drain = none → s.rst.held = false → isFenced s = false → s.pwr.sleep = .awake → e < 2 ^ 64 →
    ∃ t, exec (.waitTimeout q) s = .next t ∧ (getP t q.toNat).state = .queued ∧ (getP t q.toNat).wait = none ∧ (getP t q.toNat).residual = 0 ∧
      (getP t q.toNat).wakeCause = 4 ∧ (getP t q.toNat).ccwAddr = (getP s q.toNat).ccwAddr + 32 ∧ t.dev.tick.toNat = max s.dev.tick.toNat e) ∧
  (∀ (s : State) (ns : BitVec 32), 2000 ≤ ns.toNat → s.rst.held = false → s.pwr.sleep = .awake →
    exec (.wakeInFall ns) s = .next (afterWake { s with pwr := { s.pwr with cause := setBit s.pwr.cause 8 true } })) ∧
  (∀ (s : State) (ns : BitVec 32), 2000 ≤ ns.toNat → s.rst.held = false → s.pwr.sleep = .standby ∨ s.pwr.sleep = .deep → s.pwr.mask.getLsbD 8 = true →
    s.pwr.held = [] → s.evt.deferred = [] → s.tw.fenceIn = false →
    ∃ t, exec (.wakeInFall ns) s = .next t ∧ t.pwr.sleep = .awake ∧ t.pwr.cause.getLsbD 8 = true ∧ (t.pwr.lastDeep = true ↔ s.pwr.sleep = .deep)) ∧
  (∀ (s : State), s.pwr.wakeTimer ≠ 0 → s.rst.held = false → s.pwr.sleep = .standby → s.pwr.mask.getLsbD 10 = false →
    exec .wakeTimerExpiry s = .next { s with pwr := { s.pwr with cause := setBit s.pwr.cause 10 true } }) ∧
  (∀ (s : State), s.pwr.sleep = .entering → s.pwr.light = false → logicRuns s = true → (getFunc s 0x40).d3hot = true → (getFunc s 0x41).d3hot = true → s.hp.linkA.l1 = true →
    (s.hp.split = false ∨ s.hp.linkB.l1 = true) →
    exec .deepSleepPrereqMet s = .next { s with pwr := { s.pwr with sleep := .deep }, ce := { s.ce with icache := [] }, sched := { s.sched with cache := [] } }) ∧
  (∀ (s : State), s.pwr.sleep = .entering → s.pwr.light = false → logicRuns s = true → s.pwr.held = [] → s.evt.deferred = [] → s.tw.fenceIn = false →
    ∃ t, exec .d3WaitTimeout s = .next t ∧ t.pwr.sleep = .awake ∧ t.pwr.aborted = true)

/-- 02 R25, R34, R35, R36, R39: the verbs that direct a chain, outside a clause and without FST or CLB. NOP, JUMP, SIGNAL and a
WAIT whose input is pending go on to the next CCW, LOOP pushes and pops its entry, SCRIPT starts its script with PC 0 and a
budget of COUNT, and a WAIT with nothing pending goes WAITING. 02 R19, R25, R34 to R36, R39, R48, 04 R90, R115: every verb
executes, in every form: outside a clause, inside one, and opening one (its clause is then open from this CCW on), as one CCW or
as a data chain. JUMP, LOOP, NOP, SIGNAL, POST and HALT end at once with the operands given here; WAIT ends at once or waits;
SCRIPT starts its script; a data verb starts its data phase. 02 R26, R48, 04 R115: POST writes a POST word and the chain goes
on; HALT, or a last CCW without NEXT, ends the chain with a CHAIN_END word and the pronoun is IDLE; ABANDON ends the open clause
with a CLAUSE_ABORT word of reason 0x05. -/
def Obligations.DirectingVerbsAndChainEnds : Prop :=
  (∀ (s : State) (k : BitVec 9) (n : Nat) (c : Ccw), VerbReady s k n c → fClb c = false → clauseOf s n = none → fNext c = true → fFst c = false →
    let p := getP s n
    let goes (t : State) (a : Dword) (r : Word) : Prop := (getP t n).ccwAddr = a ∧ (getP t n).residual = r ∧ (getP t n).cur = none ∧
      (getP t n).state = .active ∧ ∀ m, m ≠ n → getP t m = getP s m
    let onlySched (t : State) : Prop := { t with sched := s.sched } = s
    (c.verb = 0x43 → ∃ t, exec (.verbNop k) s = .next t ∧ onlySched t ∧ goes t (c.addr + 16) 0) ∧
    (c.verb = 0x41 → ∃ t, exec (.verbJump k) s = .next t ∧ onlySched t ∧ goes t c.opnd 0) ∧
    (c.verb = 0x45 → c.mod = 0 → 512 ≤ c.opnd.toNat → c.opnd.toNat < 1023 →
      ∃ t, exec (.verbSignal k) s = .next t ∧ goes t (c.addr + 16) 0 ∧
        { t with sched := s.sched } = { pulse s c.opnd.toNat with sched := s.sched }) ∧
    (c.verb = 0x42 → 1 < c.count.toNat → p.loops.length < 4 → (p.loops.all fun e => e.addr != c.addr) = true →
      ∃ t, exec (.verbLoop k) s = .next t ∧ onlySched t ∧ goes t c.opnd (c.count - 1) ∧
        (getP t n).loops = { addr := c.addr, remaining := c.count - 1 } :: p.loops) ∧
    (c.verb = 0x42 → ∀ l, p.loops = { addr := c.addr, remaining := 1 } :: l →
      ∃ t, exec (.verbLoop k) s = .next t ∧ onlySched t ∧ goes t (c.addr + 16) 0 ∧ (getP t n).loops = l) ∧
    (c.verb = 0x46 → ∃ t sc, exec (.verbScript k) s = .next t ∧ onlySched t ∧ (getP t n).script = some sc ∧ sc.base = c.opnd ∧
      sc.count = c.count ∧ sc.left = c.count ∧ sc.stall = none ∧ sc.regs.pc = 0 ∧ sc.regs.p = 0 ∧ sc.regs.crc = 0 ∧ sc.regs.rs = [] ∧
      getG sc.regs 1 = BitVec.ofNat 32 n ∧ getG sc.regs 2 = p.residual ∧ (∀ i, i ≠ 1 → i ≠ 2 → getG sc.regs i = 0) ∧ (getP t n).tickets = []) ∧
    (c.verb = 0x44 → (∀ i < 8, c.opnd.getLsbD i = true → waitCount p i = 0) → frameQueued s n = false → p.attn = [] →
      ∃ t, exec (.verbWait k) s = .next t ∧ { t with sched := s.sched, ce := s.ce } = s ∧ (getP t n).state = .waiting ∧
        (getP t n).wait = some { mask := c.opnd.extractLsb' 0 8, script := none
                                 expiry := if c.count = 0 then none else some (s.dev.tick.toNat + c.count.toNat) })) ∧
  (∀ (s : State) (k : BitVec 9) (n : Nat) (c : Ccw), VerbNext s k n c → MayOpen s n c →
    let s1 := opened s n c
    let p := getP s n
    let data (v : Byte) (i : Instr) : Prop := c.verb = v → exec i s = .next (startData s1 k.toNat n)
    (fClb c = true → clauseOf s n = none → ∃ x, clauseOf s1 n = some x ∧ x.clb = c.addr ∧ x.count = c.count ∧ x.loops = p.loops ∧
      x.limit = p.retryLimit ∧ x.doom = none ∧ x.effects = []) ∧
    (fClb c = false ∨ (clauseOf s n).isSome = true → clauseOf s1 n = clauseOf s n) ∧
    (getP s1 n).cur = p.cur ∧ (getP s1 n).loops = p.loops ∧ (getP s1 n).residual = p.residual ∧
    (c.verb = 0x43 → exec (.verbNop k) s = .next (endCcw s1 n {})) ∧
    (c.verb = 0x41 → exec (.verbJump k) s = .next (endCcw s1 n { next := some c.opnd })) ∧
    (c.verb = 0x42 →
      let ends (l : List LoopEnt) (r : Word) : Prop := exec (.verbLoop k) s = .next (endCcw
        (modP s1 n fun p => { p with loops := if r = 0 then l else { addr := c.addr, remaining := r } :: l }) n
        { resid := r, next := if r = 0 then none else some c.opnd })
      (∀ l e l', p.loops = l ++ e :: l' → (∀ x ∈ l, x.addr ≠ c.addr) → e.addr = c.addr → ends l' (e.remaining - 1)) ∧
      ((∀ x ∈ p.loops, x.addr ≠ c.addr) → p.loops.length < 4 → ends p.loops (c.count - 1)) ∧
      ((∀ x ∈ p.loops, x.addr ≠ c.addr) → 4 ≤ p.loops.length →
        exec (.verbLoop k) s = .next (programCheck s1 n 0x0A 0 c.count c.addr))) ∧
    (c.verb = 0x45 → openClause s1 n = none → exec (.verbSignal k) s = .next (endCcw (applySignal s1 c.mod c.opnd (k.toNat / 16)) n {})) ∧
    (c.verb = 0x45 → ∀ x u, openClause s1 n = some x → stage s1 x.begin_
        [{ body := .signal c.mod c.opnd (BitVec.ofNat 5 (k.toNat / 16)), ccw := c.addr }] 1 0 0 = .ok u →
      exec (.verbSignal k) s = .next (endCcw u n {})) ∧
    (c.verb = 0x46 → exec (.verbScript k) s = .next (modP s1 n fun p =>
      { p with script := some (scriptStart n p c), tickets := [], cur := p.cur.map fun x => { x with phase := .script } })) ∧
    (c.verb = 0x44 →
      let mask : Byte := c.opnd.extractLsb' 0 8
      (∀ i, waitTop p mask 8 = some i →
        exec (.verbWait k) s = .next (endCcw (modP s1 n fun p => { waitTake p i with wakeCause := 1 }) n { resid := c.count })) ∧
      (waitTop p mask 8 = none → frameQueued s n = false → p.attn = [] →
        ∃ t, exec (.verbWait k) s = .next t ∧ (getP t n).state = .waiting ∧ (getP t n).cur.map (·.phase) = some .wait ∧
          (getP t n).wait = some { mask := mask, script := none
                                   expiry := if c.count = 0 then none else some (s.dev.tick.toNat + c.count.toNat) })) ∧
    (c.verb = 0x52 → exec (.verbPost k) s = .next (endCcw s1 n { resid := c.count })) ∧
    (c.verb = 0x5F → exec (.verbHalt k) s = .next (endCcw s1 n { resid := c.count, stop := true })) ∧
    (c.verb = 0x51 → exec (.verbAbandon k) s = .next (abandonOp s1 n c)) ∧
    data 0x21 (.verbWrite k) ∧ data 0x22 (.verbRead k) ∧ data 0x23 (.verbSense k) ∧ data 0x24 (.verbMove k) ∧ data 0x25 (.verbFill k) ∧
    data 0x26 (.verbCompare k) ∧ data 0x31 (.verbControl k)) ∧
  (∀ (s : State) (k : BitVec 9) (n : Nat) (c : Ccw), VerbReady s k n c → fClb c = false → fFst c = false →
    let p := getP s n
    sqRoom s p.statusQueue.toNat = true → p.startPending = false →
    let word (w : SWord) : BitVec 256 := setField (encodeWord n w 0) 208 16 p.seq.toNat
    (c.verb = 0x52 → clauseOf s n = none → fNext c = true →
      ∃ t u, exec (.verbPost k) s = .next t ∧ u.hp = s.hp ∧ u.mem = s.mem ∧ u.dev = s.dev ∧
        t.mem = (sqWrite u p.statusQueue.toNat (word { kind := 0x03, ccw := c.addr, resid := c.count })).mem ∧
        (getP t n).ccwAddr = c.addr + 16 ∧ (getP t n).seq = wrapInc p.seq ∧ (getP t n).residual = c.count ∧ (getP t n).state = .active) ∧
    (c.verb = 0x5F → clauseOf s n = none →
      ∃ t u, exec (.verbHalt k) s = .next t ∧ u.hp = s.hp ∧ u.mem = s.mem ∧ u.dev = s.dev ∧
        t.mem = (sqWrite u p.statusQueue.toNat (word { kind := 0x01, ccw := c.addr, resid := c.count })).mem ∧
        (getP t n).state = .idle ∧ (getP t n).seq = wrapInc p.seq ∧ (getP t n).loops = [] ∧ (getP t n).cur = none) ∧
    (c.verb = 0x51 → fNext c = true → ∀ x, (s.cls.clauses.filter fun y => y.prn == n) = [x] → x.doom = none → tget 0 s.cls.aborts 5 + 1 ≠ BitVec.allOnes 32 →
      ∃ t u, exec (.verbAbandon k) s = .next t ∧ u.hp = s.hp ∧ u.mem = s.mem ∧ u.dev = s.dev ∧
        t.mem = (sqWrite u p.statusQueue.toNat (word { kind := 0x07, ccw := x.clb, chan := 0x10, det := 0x05 })).mem ∧
        t.cls.clauses = s.cls.clauses.filter (fun y => y.begin_ != x.begin_) ∧ (getP t n).lastAbort = 0x05 ∧
        (getP t n).ccwAddr = c.addr + 16 ∧ (getP t n).residual = 0))

/-- 02 R27, 04 R90, R93, 06 R150: a data verb, single or a data chain, hands the transfer of all its CCWs to the mover of its
engine, in the clause that is open; one with CLB opens its clause first. -/
def Obligations.DataVerbsQueueTransfers : Prop :=
  ∀ (s : State) (k : BitVec 9) (n : Nat) (c : Ccw) (m : Nat), VerbNext s k n c → MayOpen s n c →
    pickMover s (k.toNat / 16) = some m → (getMv s m).queue.length < 1024 →
    let items := ((getP s n).cur.map (·.items)).getD []
    let s1 := opened s n c
    let queued (i : Instr) : Prop := ∃ t, exec i s = .next t ∧
      ((getP t n).cur.map fun x => (x.phase, x.mover)) = some (.moving, some m) ∧
      (∃ y ∈ transfersOf (getMv t m), y.id = s.mv.nextId ∧ y.origin = .ccw n ∧ tTotal y = (items.map fun c => c.count.toNat).sum ∧
        y.master.toNat = 16 + k.toNat / 16 ∧ y.fn = (getP s n).hostFn ∧ y.bar = items.any fBar ∧
        y.clause = (openClause s1 n).map (·.begin_)) ∧
      { t with sched := s.sched, cls := s.cls, mv := s.mv } = s ∧ t.cls = s1.cls
    (c.verb = 0x24 → queued (.verbMove k)) ∧ (c.verb = 0x25 → queued (.verbFill k)) ∧ (c.verb = 0x26 → queued (.verbCompare k)) ∧
    (c.verb = 0x21 → queued (.verbWrite k)) ∧ (c.verb = 0x31 → c.count ≠ 0 → queued (.verbControl k)) ∧
    (fClb c = true → clauseOf s n = none → (getP s n).rerun = none →
      s1.cls.beginNext = s.cls.beginNext + 1 ∧ (getP s1 n).retryCount = 0 ∧
      s1.cls.clauses = s.cls.clauses ++ [{ begin_ := s.cls.beginNext, prn := n, clb := c.addr, count := c.count, loops := (getP s n).loops
                                           limit := (getP s n).retryLimit }])

/-- 02 R28, R269, 06 R150: READ and SENSE, on every kind of binding and in every form, queue a transfer whose source is the
device operation they issue; that operation is the next in number, and names the binding's quad and port. A READ of an NVMe
namespace has its LBA read first. -/
def Obligations.ReadsIssueDeviceOperations : Prop :=
  ∀ (s : State) (k : BitVec 9) (n : Nat) (c : Ccw) (m : Nat), VerbNext s k n c → MayOpen s n c →
    pickMover s (k.toNat / 16) = some m → (getMv s m).queue.length < 1024 →
    let b := bindOf (getP s n) (ccwBind c)
    let items := ((getP s n).cur.map (·.items)).getD []
    let s1 := opened s n c
    let issued (i : Instr) (v : Byte) (lk : Links) (l : List Byte) : Prop := ∃ t u, exec i s = .next t ∧
      (∃ y ∈ transfersOf (getMv u m), y.id = s.mv.nextId ∧ y.origin = .ccw n ∧ srcFirst y = some (.device s.lk.nextOp) ∧
        y.clause = (openClause s1 n).map (·.begin_)) ∧
      u.lk = lk ∧ ((getP u n).cur.map fun x => (x.phase, x.mover)) = some (.moving, some m) ∧
      t = issueRead u n b v (ccwSub c) (chainTotal items) (curFlow s n) l
    (c.verb = 0x22 → bKind b ≠ 1 → issued (.verbRead k) 0x22 s.lk []) ∧ (c.verb = 0x23 → issued (.verbSense k) 0x23 s.lk []) ∧
    (c.verb = 0x22 → bKind b = 1 → ∀ u l, lbaRead (transferOf s1 k.toNat n items ((getP s n).cur.bind (·.prof))) s1 items 8 [] = .ok u l →
      issued (.verbRead k) 0x22 u.lk l)

/-- 02 R19, R21, 03 R79: a fetch with nothing due takes the CCW the check accepts and changes the pronoun's record alone; a code
of 02 Table 2-7 the check finds becomes a program check. -/
def Obligations.FetchTakesCheckedCcw : Prop :=
  ∀ (s : State) (k : BitVec 9) (n : Nat), slotPron s k.toNat = some n → slotFenced s k.toNat = false → enginesRun s = true →
    (getP s n).state = .active → (getP s n).fin = none → wordsHeld s n = false → (getP s n).resetting = false →
    (getP s n).fenceDue = none → (getP s n).cur = none → doomedRerun s n = none → rerunWaits s (getP s n) = false →
    let x : Ctx := { first := none, before := 0, inClause := (clauseOf s n).isSome, engine := k.toNat / 16 }
    let a := (getP s n).ccwAddr
    (∀ c, fetchCheck s n x a = .good c → fXfm c = false → fPar c = false → fNote c = false → fJoin c = false →
      ∃ t u, exec (.ccwFetch k) s = .next t ∧ { t with sched := s.sched } = s ∧ (getP t n).cur = some u ∧ u.items = [c] ∧ u.phase = .ready ∧
        (getP t n).state = .active ∧ (getP t n).ccwAddr = a ∧ ∀ j, j ≠ n → getP t j = getP s j) ∧
    (∀ code det r, fetchCheck s n x a = .check code det r → exec (.ccwFetch k) s = .next (programCheck s n code det r a)) ∧
    (fetchCheck s n x a = .wait → exec (.ccwFetch k) s = .next s)

/-- 04 R101: a CTM write outside any clause stores its bytes and no others, and dooms exactly the open clauses that hold one of
its lines, with reason 0x04. -/
def Obligations.OutsideStoresDoomHolders : Prop :=
  ∀ (s : State) (a : Nat) (l : List Byte), tabCanon emptyByte s.mem.dram → (s.cls.clauses.map (·.begin_)).Nodup → l ≠ [] →
    let t := ctmStore s a l
    (∀ i, tget emptyByte t.mem.dram i = if ctmPhys s a ≤ i ∧ i < ctmPhys s a + l.length then l.getD (i - ctmPhys s a) 0 else tget emptyByte s.mem.dram i) ∧
    (∀ c ∈ s.cls.clauses, c.doom = none → ((∃ x, a / 64 ≤ x ∧ x ≤ (a + l.length - 1) / 64 ∧ (x ∈ c.reads ∨ x ∈ c.writes)) ↔
      ¬ ∃ c' ∈ t.cls.clauses, c'.begin_ = c.begin_ ∧ c'.doom = none))

/-- 05 R124, R127, R131: the oldest waiting full stop whose clause fits the window takes the next number and leaves the queue;
unpaired, its clause is committed at once. 05 R125: numbers are reserved 2^32 at a time: the record is written once the counter
has reached LIMIT − 2^31, and nothing happens before. -/
def Obligations.FullStopNumbers : Prop :=
  (∀ (s : State) (w : FsWait) (ws : List FsWait) (c : Clause), s.fs.waiting = w :: ws → openClause s w.prn = some c →
    clauseOf s w.prn = some c → canNumber s = true → fits s c = true → c.effects = [] → s.tw.state = 0 → s.fs.watermark = 0 →
    (getP s w.prn).state = .active → (getP s w.prn).fenceDue = none → (getP s w.prn).rerun = none →
    (s.cls.clauses.filter fun x => x.prn == w.prn) = [c] → ∀ a, w.fin = .goOn a → (s.fs.window.all fun x => x.number != s.fs.next) = true →
    ∃ t x, exec .fullStopAdmit s = .next t ∧ t.fs.next = s.fs.next + 1 ∧ t.fs.waiting = ws ∧ t.fs.window = s.fs.window ++ [x] ∧
      x.number = s.fs.next ∧ x.prn = w.prn ∧ x.clb = c.clb ∧ x.committed = true ∧ clauseOf t w.prn = none ∧
      (getP t w.prn).lastTag = BitVec.ofNat 48 (s.fs.next % 2 ^ 48) ∧ (getP t w.prn).ccwAddr = a ∧ t.mem = s.mem ∧ t.hp = s.hp) ∧
  (∀ s : State, (s.fs.limit ≤ s.fs.next + 2 ^ 31 → exec .fsReservationWrite s =
      .next { s with fs := { s.fs with limit := s.fs.limit + 2 ^ 32 }
                     nv := { s.nv with resv := bankPut s.nv.resv (s.fs.limit + 2 ^ 32) } }) ∧
    (s.fs.next + 2 ^ 31 < s.fs.limit → exec .fsReservationWrite s = .next s))

/-- 05 R132: the release pipeline issues the first unissued effect of the oldest clause, in order. A host run is written to host
memory and is done; a CTM line is written to its place in buffer DRAM. -/
def Obligations.ReleaseIssuesInOrder : Prop :=
  ∀ (s : State) (c : NClause) (cs : List NClause) (e : Effect) (es : List Effect), s.fs.window = c :: cs → c.effects = e :: es →
    e.state = .pending → e.bad = false → e.bar = false → c.committed = true → s.fs.stopped = false → s.fs.barHold = none →
    isFenced s = false → s.fs.replay = none → s.tw.taking = false → es ≠ [] → (es.all fun x => x.state == .pending) = true →
    (s.fs.window.map (·.number)).Nodup →
    let done : List NClause := { c with effects := { e with state := .done } :: es } :: cs
    (∀ a, e.body = .host a → canIssue s c.hostFn = true → hostFault s (offOf a) e.data.length = none →
      exec .releaseIssue s = .next { s with mem := { s.mem with host := putBytes s.mem.host (offOf a) e.data }, fs := { s.fs with window := done } }) ∧
    (∀ a, e.body = .ctm a → s.tw.state = 0 →
      ∃ t, exec .releaseIssue s = .next t ∧ t.mem.dram = putBytes s.mem.dram (ctmPhys s (64 * (offOf a / 64))) e.data ∧ t.fs.window = done) ∧
    (∀ m v ce, e.body = .signal m v ce → m = 0 → 512 ≤ v.toNat % 1024 →
      ∃ t, exec .releaseIssue s = .next t ∧ t.fs.window = done ∧ t.evt.icPend = setBit s.evt.icPend (v.toNat % 1024) true)

/-- 03 R78, R79, R85: placement puts the oldest eligible pronoun of the highest level on the highest free slot, and a done load
makes it ACTIVE there. -/
def Obligations.PlacementAndLoad : Prop :=
  (∀ (s : State) (k n : Nat), pickSlot s 512 = some (k, n) → enginesRun s = true →
    ∃ t, exec .placement s = .next t ∧ getSlot t k = { getSlot s k with prn := some n, loading := true } ∧
      (∀ j, j ≠ k → getSlot t j = getSlot s j) ∧ (∀ l < 8, (runq s l).filter (· != n) ≠ [] → runq t l = (runq s l).filter (· != n)) ∧
      { t with sched := s.sched, ce := s.ce } = s ∧ t.sched.recs = s.sched.recs) ∧
  (∀ (s : State) (k n : Nat), pickSlot s 512 = some (k, n) → (∀ j, k < j → j < 512 → (getSlot s j).prn.isNone = true → slotStopped s j = false →
    pickFor s (j / 16) 8 = none) ∧ (getSlot s k).prn = none) ∧
  (∀ (s : State) (k : BitVec 9) (n : Nat), (getSlot s k.toNat).prn = some n → (getSlot s k.toNat).loading = true → copyBad s n = false →
    (getP s n).state = .queued → (getP s n).fenceDue = none → doomedRerun s n = none → (getP s n).script = none →
    ∃ t, exec (.recordLoadDone k) s = .next t ∧ (getP t n).state = .active ∧ slotPron t k.toNat = some n ∧
      { t with sched := s.sched, ce := s.ce } = s ∧
      t.sched.hits = s.sched.hits + (if cached s n then 1 else 0) ∧ t.sched.misses = s.sched.misses + (if cached s n then 0 else 1))

/-- 06 R155, R156, R158: one read turn fetches up to 4 KiB that do not cross a 4 KiB boundary of the source, within WINDOW; one
write turn writes what is buffered; the transfer ends with its last byte, and a MOVREQ's ticket then holds result 0. 06 R161,
R162, 07 R220: a barred request ends when its read-back reports arrival, with result 0x02 and the coded DETAIL when the
read-back fails; a report for nothing that waits changes nothing. -/
def Obligations.MoverTurnsAndReadbacks : Prop :=
  (∀ (s : State) (m : BitVec 3), let x := getMv s m.toNat
    (moverRuns s m.toNat = false → exec (.moverReadTurn m) s = .next s ∧ exec (.moverWriteTurn m) s = .next s) ∧
    (x.ctx = [] → exec (.moverReadTurn m) s = .next s ∧ exec (.moverWriteTurn m) s = .next s) ∧
    ∀ (k : Nat) (p : Transfer) (a b : Dword) (n : Nat), moverRuns s m.toNat = true → x.ctx = [(k, p)] → k < 64 →
      p.segs = [{ src := .mem a, dst := .mem b, len := n }] → p.compare = false → p.xf = none → p.clause = none →
      p.arrival = false → p.fault = false → p.rseg = 0 → segDesc { src := .mem a, dst := .mem b, len := n } = false →
      let from_ := a + BitVec.ofNat 64 p.roff
      let room := s.mv.window.toNat * 4096 - buffered p
      let size := min (min (n - p.roff) (4096 - offOf from_ % 4096)) room
      (∀ l, p.roff < n → spaceOf from_ = 8 ∨ spaceOf from_ = 0xA → readMem s (tPrn p) from_ size = .ok l → 0 < room →
        exec (.moverReadTurn m) s = .next (setMv s m.toNat { x with
          rlast := k
          ctx := [(k, { p with buf := p.buf ++ [{ seg := 0, off := p.roff, bytes := l }]
                               rseg := if p.roff + size < n then 0 else 1
                               roff := if p.roff + size < n then p.roff + size else 0 })] })) ∧
      (room = 0 → exec (.moverReadTurn m) s = .next s) ∧
      (∀ off l, p.buf = [{ seg := 0, off := off, bytes := l }] → l ≠ [] → spaceOf (b + BitVec.ofNat 64 off) = 8 →
        let put := (writeDram s (offOf (b + BitVec.ofNat 64 off)) l).mem
        (p.moved + l.length < n → exec (.moverWriteTurn m) s = .next { setMv s m.toNat { x with
          wlast := k, ctx := [(k, { p with buf := [], moved := p.moved + l.length })] } with mem := put }) ∧
        (∀ tk blk, p.moved + l.length = n → spaceOf b = 8 → p.origin = .firmware tk blk → tget .free s.cp.tickets tk = .busy p.id → s.cp.stall = none →
          ∃ t, exec (.moverWriteTurn m) s = .next t ∧ tget .free t.cp.tickets tk = .done 0 0 ∧
            t.mem = { put with tcm := putBytes s.mem.tcm (blk + 24) (toLE 4 n) } ∧ { t with mem := s.mem, mv := s.mv, cp := s.cp } = s))) ∧
  (∀ (s : State) (id : Word) (d : Byte) (m k : Nat) (p : Transfer), findTransfer s id.toNat = some (m, k, p) →
    (p.arrival = false → exec (.barrierReadbackDone (.transfer id) d) s = .next s) ∧
    (∀ tk blk, p.arrival = true → p.compare = false → p.origin = .firmware tk blk → tget .free s.cp.tickets tk = .busy p.id → s.cp.stall = none →
      ∃ t, exec (.barrierReadbackDone (.transfer id) d) s = .next t ∧
        tget .free t.cp.tickets tk = (if d = 0 then .done 0 0 else .done 2 d) ∧ { t with mem := s.mem, mv := s.mv, cp := s.cp } = s) ∧
    (s.fs.barHold = none → exec (.barrierReadbackDone .release d) s = .next s))

/-- 06 R173 to R176, Table 6-10: a fetch error puts the mover in a check: its transfers are cancelled, its capture registers
loaded, its source pulses, and the pronoun whose transfer it was is held in PARENTHESIS. A pronoun that an earlier check of the
mover left held is no longer this check's. 06 R175, R176, Table 6-10: restarting a mover. REINIT needs CHECK and ends with an
empty, ready mover; RESUME_HELD and CLOSE need READY and clear CHECK; RESUME_HELD also resumes every pronoun the check holds,
MV_HOLD_CLEAR only the one named; what the rules reject sets WRITE_REJECT. -/
def Obligations.MoverChecksAndRestart : Prop :=
  (∀ (s : State) (m : BitVec 3) (k : BitVec 6) (e : FetchError) (multi : Bool) (p : Transfer),
    let x := getMv s m.toNat
    let at_ := fetchAddr s m.toNat p
    let src := sourceCode at_
    let left (t : State) (j : Nat) : Prop := getP t j =
      { getP s j with checkedBy := if (getP s j).checkedBy = some m.toNat then some 8 else (getP s j).checkedBy }
    let checked (y : Mover) : Prop := y = { x with
      queue := [], ctx := [], check := true, addr := at_.getD 0, source := src, multi := multi, error := errorCode e
      fn := if src = 0 then p.fn else 0, checks := satInc x.checks }
    (moverRuns s m.toNat = true → tabCanon {} s.sched.recs → ctxAt x k.toNat = some p → (∀ q ∈ transfersOf x, ∃ a b, q.origin = .firmware a b) →
      ∃ t, exec (.moverFetchError m k e multi) s = .next t ∧ checked (getMv t m.toNat) ∧ t.evt.icPend.getLsbD (64 + m.toNat) = true ∧
        (∀ q ∈ transfersOf x, ∀ a b, q.origin = .firmware a b → tget .free s.cp.tickets a = .busy q.id → s.cp.stall = none →
          tget .free t.cp.tickets a = .done 4 0) ∧ (∀ j, left t j) ∧
        { t with mv := s.mv, cp := s.cp, evt := s.evt, hp := s.hp, out := s.out, sched := s.sched } = s) ∧
    (∀ n, moverRuns s m.toNat = true → tabCanon {} s.sched.recs → x.ctx = [(k.toNat, p)] → x.queue = [] → p.origin = .ccw n → (getP s n).resetting = false →
      (getP s n).state = .active → clauseOf s n = none →
      ∃ t, exec (.moverFetchError m k e multi) s = .next t ∧ checked (getMv t m.toNat) ∧ (getP t n).state = .parenthesis ∧
        (getP t n).moverHold = true ∧ (getP t n).checkedBy = some m.toNat ∧ (∀ j ≠ n, left t j)) ∧
    (moverRuns s m.toNat = false ∨ ctxAt x k.toNat = none → exec (.moverFetchError m k e multi) s = .next s)) ∧
  (∀ (s : State) (m : BitVec 3) (v : Word), let x := getMv s m.toNat
    let n := v.toNat % 2 ^ 20
    let heldAt (j : Nat) : Prop := (getP s j).checkedBy.isSome = true ∧ (getP s j).state = .parenthesis
    let resumed (t : State) (j : Nat) : Prop := getP t j =
      { getP s j with moverHold := false, checkedBy := none, state := .queued, starts := (getP s j).starts + 1, wakeCause := 5 }
    (x.check = true → x.fenced = false → exec (.mvReinit m) s = .next (setMv s m.toNat { x with ready := false, reinit := true })) ∧
    (x.check = false → ∃ t, exec (.mvReinit m) s = .next t ∧ Rejected 5 s t) ∧
    (x.reinit = true → exec (.moverReinitDone m) s = .next (setMv s m.toNat { x with ready := true, reinit := false, queue := [], ctx := [] })) ∧
    (x.reinit = false → exec (.moverReinitDone m) s = .next s) ∧
    (x.ready = true → exec (.mvClose m) s = .next (setMv s m.toNat { x with check := false })) ∧
    (x.ready = false → (∃ t, exec (.mvClose m) s = .next t ∧ Rejected 5 s t) ∧ ∃ t, exec (.resumeHeld m) s = .next t ∧ Rejected 5 s t) ∧
    (x.ready = true → ∃ t, exec (.resumeHeld m) s = .next t ∧ t.mv = (setMv s m.toNat { x with check := false }).mv ∧ { t with mv := s.mv, sched := s.sched } = s ∧
      ∀ j, (getP s j).checkedBy = some m.toNat → (getP s j).state = .parenthesis → resumed t j) ∧
    (n = 0 → ∃ t, exec (.mvHoldClear v) s = .next t ∧ Rejected 5 s t) ∧
    (n ≠ 0 → ¬ heldAt n → exec (.mvHoldClear v) s = .next s) ∧
    (n ≠ 0 → heldAt n → ∃ t, exec (.mvHoldClear v) s = .next t ∧ resumed t n ∧ (∀ j ≠ n, getP t j = getP s j) ∧ { t with sched := s.sched } = s))

/-- 06 R179, R182, R183: at the hold limit a data-class grant is cut off and counted; a request that has waited past STARVE
marks its input and pulses the arbiter's source; a swap exchanges the requesters of two inputs and nothing else, and is rejected
for an input the arbiter lacks. -/
def Obligations.ArbitersCutStarveAndSwap : Prop :=
  ∀ (s : State) (a i j : BitVec 5) (v : Word), let x := getArb s a.toNat
    let n := arbInputs a.toNat
    let vi := v.toNat % 32
    let vj := v.toNat / 256 % 32
    (∀ r, (arbMap a.toNat x)[i.toNat]? = some r →
      (arbData a.toNat r = true → x.cutoffs.toNat < 2 ^ 32 - 2 →
        exec (.arbCutoff a i) s = .next (setArb s a.toNat { x with cutoff := true, cutoffs := x.cutoffs + 1 })) ∧
      (arbData a.toNat r = false → exec (.arbCutoff a i) s = .next s)) ∧
    (x.starve ≠ 0 → i.toNat < n → ∃ t, exec (.arbStarve a i) s = .next t ∧
      t.mv = (setArb s a.toNat { x with starved := setBit x.starved i.toNat true }).mv ∧
      t.evt.icPend.getLsbD (if a = 19 then 328 else 72 + a.toNat) = true ∧ { t with mv := s.mv, evt := s.evt, hp := s.hp, out := s.out } = s) ∧
    (x.starve = 0 → exec (.arbStarve a i) s = .next s) ∧
    (vi < n → vj < n → ∃ y, exec (.arbSwap a v) s = .next (setArb s a.toNat y) ∧ { y with map := x.map } = x ∧
      arbMap a.toNat y = swapAt (arbMap a.toNat x) vi vj) ∧
    (0 < n → n ≤ vi ∨ n ≤ vj → ∃ t, exec (.arbSwap a v) s = .next t ∧ Rejected 7 s t)

/-- 09 R285, R286, R288, Table 9-4: HF_ADM_CFG puts the admin queue in service from zero (what it forgets then: log entry 117)
or takes it out, READY clearing once no command that completes has its reply still to write; a tail write fetches the packets up
to it; a head write frees replies; values out of range are rejected. 09 R292, R294 to R297: a head write moves a status queue's
consumer index within what was produced; a moderation write sets COUNT and TIME and sends at once what is due; an unmasked
vector sends its pending message, and so does the end of TIME. -/
def Obligations.RingsHeadsAndModeration : Prop :=
  (∀ (s : State) (fn : Master) (v : Word) (env : List HostStore), HostUp s fn →
    let f := getFunc s fn
    let size := v.toNat % 16
    let vec := v.toNat / 2 ^ 16 % 2 ^ 11
    let at_ := v.toNat % 2 ^ 12
    let s1 := hostStores s env
    (4 ≤ size → size ≤ 12 → vec < vecCount fn → v.getLsbD 31 = true → f.enable = false →
      exec (.hfAdmCfgWrite fn v) s = .next (dropReplies (setFunc s fn { f with
        size := v.extractLsb' 0 4, vector := v.extractLsb' 16 11, enable := true, ready := true, stopped := false
        tail := 0, head := 0, sqHead := 0, prod := 0, phase := true, fetched := [] }) fn)) ∧
    (size = f.size.toNat → vec = f.vector.toNat → 4 ≤ size → size ≤ 12 → vec < vecCount fn → v.getLsbD 31 = false → f.enable = true →
      let kept := s.hp.held.filter fun h => h.fn != fn || !(f.stopped || heldReply h.why)
      let t := setFunc s fn { f with enable := false, ready := f.ready && kept.any fun h => h.fn == fn, stopped := false, fetched := [] }
      ∃ u, exec (.hfAdmCfgWrite fn v) s = .next u ∧ u.hp.held = kept ∧ getFunc u fn = getFunc t fn ∧ { u with hp := s.hp } = s ∧
        ∀ m, m ≠ fn → getFunc u m = getFunc s m) ∧
    (size < 4 ∨ 12 < size ∨ vecCount fn ≤ vec → ∃ t, exec (.hfAdmCfgWrite fn v) s = .next t ∧ RejectedHf fn s t) ∧
    (f.enable = false → exec (.hfAdmSqTailWrite fn v env) s = .next s1) ∧
    (f.enable = true → 2 ^ f.size.toNat ≤ at_ → ∃ t, exec (.hfAdmSqTailWrite fn v env) s = .next t ∧ RejectedHf fn s1 t) ∧
    (f.enable = true → at_ < 2 ^ f.size.toNat → f.ready = true → f.stopped = false → canIssue s fn = true →
      (f.sqHead.toNat + 1) % 2 ^ f.size.toNat = at_ → hostFault s1 (offOf f.sqBase + 64 * f.sqHead.toNat) 64 = none →
      ∃ t, exec (.hfAdmSqTailWrite fn v env) s = .next t ∧ t.evt.icPend.getLsbD 327 = true ∧
        { t with evt := s.evt, hp := s.hp, out := s.out } = s1 ∧ (getFunc t fn).sqHead.toNat = at_ ∧ (getFunc t fn).tail.toNat = at_ ∧
        (getFunc t fn).fetched = f.fetched ++ [BitVec.ofNat 512 (ofLE (getBytes s1.mem.host (offOf f.sqBase + 64 * f.sqHead.toNat) 64))]) ∧
    (at_ < 2 ^ f.size.toNat → s.hp.held = [] → f.enable = true ∨ f.ready = false → exec (.hfAdmRqHeadWrite fn v) s = .next (setFunc s fn { f with head := v.extractLsb' 0 12 })) ∧
    (2 ^ f.size.toNat ≤ at_ → ∃ t, exec (.hfAdmRqHeadWrite fn v) s = .next t ∧ RejectedHf fn s t)) ∧
  (∀ (s : State) (fn : Master), HostUp s fn →
    (∀ (n : BitVec 12) (v : Word) (q : SQueue), getSq s n.toNat = some q →
      let h := v.toNat % 2 ^ 16
      let size := 2 ^ q.log2
      (q.owner = fn → h < size → (h + size - q.cons) % size ≤ (q.prod + size - q.cons) % size → (∀ w ∈ s.sched.words, w.1 ≠ n.toNat) →
        exec (.hfSqHeadWrite fn n v) s = .next (setSq s n.toNat { q with cons := h, full := sqFull { q with cons := h } })) ∧
      (q.owner ≠ fn ∨ size ≤ h ∨ (q.prod + size - q.cons) % size < (h + size - q.cons) % size →
        ∃ t, exec (.hfSqHeadWrite fn n v) s = .next t ∧ RejectedHf fn s t)) ∧
    (∀ (n : BitVec 11) (v : Word), n.toNat < vecCount fn →
      let x := getVec s fn n.toNat
      let c := v.toNat % 256
      let time := v.toNat / 256 % 2 ^ 16
      let msg : List Out := s.out ++ [.msix fn n.toNat x.addr x.data]
      let y : Vec := { x with count := v.extractLsb' 0 8, time := v.extractLsb' 8 16, timing := false }
      (c ≠ 0 → ¬ (time = 0 ∧ 1 < c) → x.pending = 0 → getVec (setVec s fn n.toNat y) fn n.toNat = y →
        exec (.hfModWrite fn n v) s = .next (setVec s fn n.toNat y)) ∧
      (c ≠ 0 → ¬ (time = 0 ∧ 1 < c) → x.pending ≠ 0 → c ≤ x.pending.toNat → Deliverable s fn n.toNat →
        ∃ t, exec (.hfModWrite fn n v) s = .next t ∧ t.out = msg ∧ { t with hp := s.hp, out := s.out } = s) ∧
      (time = 0 → 1 < c → ∃ t, exec (.hfModWrite fn n v) s = .next t ∧ RejectedHf fn s t) ∧
      (x.pba = true → mayMessage s fn n.toNat = true → (getFunc s fn).fmask = false → (getFunc s fn).msixEn = true →
        ∃ t, exec (.vectorUnmask fn n) s = .next t ∧ t.out = msg ∧ { t with hp := s.hp, out := s.out } = s) ∧
      (x.timing = true → x.time ≠ 0 → x.pending ≠ 0 → Deliverable s fn n.toNat →
        ∃ t, exec (.moderationTimerExpiry fn n) s = .next t ∧ t.out = msg ∧ { t with hp := s.hp, out := s.out } = s) ∧
      (x.timing = false ∨ x.time = 0 ∨ x.pending = 0 → exec (.moderationTimerExpiry fn n) s = .next s)))

/-- 09 R276, R277, R297 to R299, R301, Tables 9-1 and 9-5: a PF enters and leaves D3hot with its source pulsed; configuration
writes set their bits and complete; a trained link is up at its rate and width, and one that falls pulses its source. -/
def Obligations.HostPowerAndLinks : Prop :=
  ∀ s : State,
    (∀ pf : Bool, let fn : Master := if pf then 0x41 else 0x40
      hostReaches s fn = true → (fnLink s fn).l1 = false → s.pwr.sleep = .awake → s.pwr.held = [] →
      ((getFunc s fn).d3hot = false → ∃ t, exec (.d3hotEntry pf) s = .next t ∧ (getFunc t fn).d3hot = true ∧
        t.evt.icPend.getLsbD (if pf then 321 else 320) = true) ∧
      ((getFunc s fn).d3hot = true → exec (.d3hotEntry pf) s = .next (emit s (.completion fn true [] false))) ∧
      ((getFunc s fn).d3hot = true → (getFunc s fn).bme = true → ∃ t, exec (.d0Entry pf) s = .next t ∧ (getFunc t fn).d3hot = false ∧
        t.evt.icPend.getLsbD (if pf then 321 else 320) = true) ∧
      ((getFunc s fn).d3hot = false → exec (.d0Entry pf) s = .next (emit s (.completion fn true [] false)))) ∧
    (∀ fn : Master, hostReaches s fn = true → (fnLink s fn).l1 = false → s.pwr.sleep = .awake → s.pwr.held = [] → let f := getFunc s fn
      let sets (w : CfgWrite) (t : State) : Prop := exec (.configSpaceWrite fn w) s = .next (emit t (.completion fn true [] false))
      sets (.busMaster false) (setFunc s fn { f with bme := false }) ∧
      (f.bme = true → sets (.busMaster true) (setFunc s fn f)) ∧
      (∀ mask, f.vecs = [] → sets (.msix true mask) (setFunc s fn { f with msixEn := true, fmask := mask })) ∧
      (∀ on, isPf fn = true → sets (.pmeEnable on) (setFunc s fn { f with pmeEn := on })) ∧
      (∀ on, isPf fn = true → sets (.memorySpace on) (setFunc s fn { f with mse := on })) ∧
      (∀ on, isPf fn = true → sets (.vfMemorySpace on) (setFunc s fn { f with vfMse := on })) ∧
      (∀ pay read : BitVec 3, pay.toNat ≤ 2 → read.toNat ≤ 5 → sets (.sizes pay read) (setFunc s fn { f with mps := pay, mrrs := read })) ∧
      (isPf fn = true → sets (.vfEnable true) (setFunc s fn { f with vfEnable := true })) ∧
      (∀ on, s.hp.split = false → sets (.aspm on)
        { s with hp := { s.hp with linkA := { s.hp.linkA with aspm := on } } })) ∧
    exec (.aspmL1Entry false) s = .next { s with hp := { s.hp with linkA := { s.hp.linkA with l1 := s.hp.linkA.l1 || (s.hp.linkA.aspm && s.hp.linkA.rate != 0) } } } ∧
    exec (.aspmL1Entry true) s = .next { s with hp := { s.hp with linkB := { s.hp.linkB with l1 := s.hp.linkB.l1 || (s.hp.linkB.aspm && s.hp.linkB.rate != 0) } } } ∧
    (∀ rate width flit, s.rst.held = false → s.rst.booted = true →
      (s.pins.perst0 = false → hostLinkLegal s false rate width flit = true → ∃ t, exec (.hostLinkUp false rate width flit) s = .next t ∧
        t.hp.linkA = { s.hp.linkA with rate := rate, width := width, flit := flit, l1 := false }) ∧
      (s.hp.split = true → s.pins.perst1 = false → hostLinkLegal s true rate width flit = true → ∃ t, exec (.hostLinkUp true rate width flit) s = .next t ∧
        t.hp.linkB = { s.hp.linkB with rate := rate, width := width, flit := flit, l1 := false }) ∧
      (∀ b, hostLinkLegal s b rate width flit = false → exec (.hostLinkUp b rate width flit) s = .next s)) ∧
    (s.hp.linkA.rate ≠ 0 → ∃ t, exec (.hostLinkDown false) s = .next t ∧ t.hp.linkA.rate = 0 ∧ t.evt.icPend.getLsbD 325 = true ∧
      { t with evt := s.evt, hp := s.hp, out := s.out } = s) ∧
    (s.hp.linkB.rate ≠ 0 → ∃ t, exec (.hostLinkDown true) s = .next t ∧ t.hp.linkB.rate = 0 ∧ t.evt.icPend.getLsbD 326 = true ∧
      { t with evt := s.evt, hp := s.hp, out := s.out } = s)

/-- 03 R69 to R72, 09 R281, R282, R284, 01 R15: a doorbell word acts on the pronoun it names if it is the writer's own; a badly
sized write is discarded and counted. A BAR0 access of another size or alignment completes as Unsupported Request. BAR2 reads
and writes usable buffer DRAM outside the pronoun tables, and CTM is read only there. -/
def Obligations.HostMemoryWindows : Prop :=
  ∀ (s : State) (fn : Master) (env : List HostStore), HostUp s fn → let s1 := hostStores s env
    (∀ (off : BitVec 20) (l : List Byte), (isVf fn = true → off.toNat < 4096) →
      (dbAligned off.toNat l.length = false → s.sched.dbRejected.toNat < 2 ^ 32 - 2 → exec (.doorbellWrite fn off l env) s =
        .next { s1 with sched := { s1.sched with dbRejected := s.sched.dbRejected + 1, dbReject := true } }) ∧
      (l = [0, 0, 0, 0] → off.toNat % 4 = 0 → exec (.doorbellWrite fn off l env) s = .next s1) ∧
      (∀ n, 0 < n → n < 2 ^ 20 → l = toLE 4 (n + 2 ^ 22) → off.toNat % 4 = 0 → isFenced s = false → (getP s n).state = .idle →
        (getP s n).hostFn = fn → exec (.doorbellWrite fn off l env) s = .next (startAt s1 n (getP s n).startAddr 5)) ∧
      (∀ n, 0 < n → n < 2 ^ 20 → l = toLE 4 (n + 2 ^ 22) → off.toNat % 4 = 0 → isFenced s = false →
        (getP s n).state = .unbound ∨ (getP s n).hostFn ≠ fn → s.sched.dbIgnored.toNat < 2 ^ 32 - 2 →
        exec (.doorbellWrite fn off l env) s = .next { s1 with sched := { s1.sched with dbIgnored := s.sched.dbIgnored + 1 } })) ∧
    (∀ a : BarAccess, accessGood fn a.off.toNat a.len.toNat = false → exec (.bar0Access fn a env) s = .next (emit s1 (.completion fn false [] false))) ∧
    (∀ a : BarAccess, isPf fn = true → a.write = false → a.len = 4 → a.off.toNat % 4 = 0 → a.off.toNat < 0x3E0000 →
      let r := regRead s1 fn a.off.toNat
      exec (.bar0Access fn a env) s = .next (emit r.2 (.completion fn true (toLE 4 r.1.toNat) false))) ∧
    (∀ a : BarAccess, let o := a.off.toNat
      let n := a.len.toNat
      (isPf fn = true → o + n ≤ dramSize → s.sched.configured = false ∨ overlaps o n (prnStart s) prnTablesLen = false →
        (a.write = false → exec (.bar2Access fn a env) s =
          .next (emit s1 (.completion fn true (getBytes s.mem.dram o n) (dramPoisoned s o n)))) ∧
        (a.write = true → overlaps o n (ctmStart s) (ctmBytes s) = false → exec (.bar2Access fn a env) s = .next (writeDram s1 o (padTo n a.data))) ∧
        (a.write = true → overlaps o n (ctmStart s) (ctmBytes s) = true → exec (.bar2Access fn a env) s = .next (unsupported s1 fn))) ∧
      (dramSize < o + n → exec (.bar2Access fn a env) s = .next (unsupported s1 fn)))

/-- 01 R4, R6, R12, 08 R234, R235, 11 R339, R362, 13 R417: what single registers do on an access. -/
def Obligations.RegisterAccesses : Prop :=
  ∀ (s : State) (v : Word),
    (v.toNat % 16 ≠ 0 → exec (.registerWrite 0 0x10820 v) s = .next { s with mv := { s.mv with window := v.extractLsb' 0 4 } }) ∧
    (v.toNat % 16 = 0 → ∃ t, exec (.registerWrite 0 0x10820 v) s = .next t ∧ Rejected 5 s t) ∧
    exec (.registerWrite 0 0x100 v) s = .next { s with dev := { s.dev with wrj := s.dev.wrj &&& ~~~(v.setWidth _) } } ∧
    (∀ off : BitVec 22, 0x170000 ≤ off.toNat → off.toNat < 0x3E0000 → exec (.registerWrite 0 off v) s = .next s) ∧
    (∀ (off : BitVec 22) b, s.tw.link = 2 → inMailboxes off.toNat = false → blockOf off.toNat = some b →
      ∃ t, exec (.registerWrite 0x90 off v) s = .next t ∧ Rejected b s t) ∧
    (∀ off : BitVec 22, s.sec.level ≠ 2 → exec (.registerWrite 0xF0 off v) s = .next s) ∧
    (∀ q : BitVec 5, let x := getQ s q.toNat
      (quadFenced s q.toNat = true → ∃ t, exec (.quadConfigWrite 0 q v) s = .next t ∧ Rejected 9 s t) ∧
      (quadFenced s q.toNat = false → x.portEn = 0 → quadBound s q.toNat = false → v.toNat % 4 ≠ 0 → v.toNat / 256 % 16 = 0 →
        arrangeLegal (v.toNat % 4) (v.toNat / 4 % 4) (v.toNat / 16 % 4) = true → exec (.quadConfigWrite 0 q v) s = .next (setQ s q.toNat
          { x with profile := v.extractLsb' 0 2, arrange := v.extractLsb' 2 2, fec := v.extractLsb' 4 2, rxInv := v.extractLsb' 12 4
                   txInv := v.extractLsb' 16 4 }))) ∧
    (∀ m : BitVec 3, let x := getMv s m.toNat
      let off : BitVec 22 := BitVec.ofNat 22 (0x10014 + 0x100 * m.toNat)
      exec (.counterReadClear 0 off) s = .next { setMv s m.toNat { x with checks := 0 } with out := s.out ++ [.value 0 x.checks] } ∧
      (s.sec.level ≠ 0 → exec (.counterReadClear 0xF0 off) s = .next { s with out := s.out ++ [.value 0xF0 x.checks] })) ∧
    exec (.timeTickLoRead 0 0) s = .next { s with dev := { s.dev with hiCap := tset 0 4 (s.dev.tick.extractLsb' 32 32) s.dev.hiCap }, out := s.out ++ [.value 0 (s.dev.tick.extractLsb' 0 32)] } ∧
    exec (.timeTickLoRead 0 4) s = .next { s with out := s.out ++ [.value 0 (tget 0 s.dev.hiCap 4)] } ∧
    (∀ (param : Dword) (body : List Byte), let off := param.toNat % 2 ^ 22
      let answer (t : State) : State := twinSend t { type := 0x0B, param := param, body := [0, 0, 0, 0] }
      s.tw.link = 2 → inTwin off = false → inMailboxes off = false →
      (param.getLsbD 32 = false → exec (.twRegReq param body) s = .next (answer s)) ∧
      (∀ b, param.getLsbD 32 = true → blockOf off = some b → ∃ t, Rejected b s t ∧ exec (.twRegReq param body) s = .next (answer t))) ∧
    (s.tw.link ≠ 2 → ∀ param body, exec (.twRegReq param body) s = .next s) ∧
    (v.getLsbD 0 = false → exec (.twHandback 0 v) s = .next s) ∧
    (v.getLsbD 0 = true → s.tw.state ≠ 3 ∨ s.tw.tookOver = false → ∃ t, exec (.twHandback 0 v) s = .next t ∧ Rejected 12 s t) ∧
    (v.getLsbD 0 = true → s.tw.state = 3 → s.tw.tookOver = true → s.tw.handing = false → boundIn s s.tw.id = false →
      (s.fs.window.any fun c => inTaken s c.prn) = false → ∃ t, exec (.twHandback 0 v) s = .next t ∧ t.tw.handing = true ∧ { t with tw := s.tw, out := s.out, evt := s.evt, hp := s.hp } = s)

/-- 09 R286 to R291, 11 R356, 13 R406: a command starts when its queue may; then its opcode, the ROM's service, a FENCED part,
the zero bytes and a VF's commands are checked in this order, and the first failure is the reply. -/
def Obligations.AdminChecks : Prop :=
  ∀ op c, AdmRow op c → ∀ (s : State) (fn : Master) (p : Packet),
    let r := exec (c fn p) s
    let no (st : Half) (field : Byte) : Prop := Answers r (takePacket s fn) fn p st field 0
    let served : Prop := s.rst.rom = false ∨ op = 1
    let unfenced : Prop := isFenced s = false ∨ op ∈ fencedOps
    (mayStart s fn p = false → r = .next s) ∧
    (pkF p 0 2 ≠ op → pkF p 0 2 ∈ adminOps → r = .next s) ∧
    (mayStart s fn p = true → pkF p 0 2 ∉ adminOps → no 1 0) ∧
    (mayStart s fn p = true → pkF p 0 2 = op →
      (s.rst.rom = true → op ≠ 1 → no 5 0) ∧
      (served → isFenced s = true → op ∉ fencedOps → no 9 0) ∧
      (∀ i, served → unfenced → strayByte p (admNamed op p) = some i → no 2 (BitVec.ofNat 8 i)) ∧
      (served → unfenced → strayByte p (admNamed op p) = none → isVf fn = true → op ∉ vfOps → no 3 0))

/-- 09 R289 to R291, 12 R369, 15 R446 to R448: IDENTIFY tells the part and the function's ranges; CONFIGURE places the tables
and CTM once and clears every record; RESET_DEVICE replies, then resets; SLEEP is entered; VF_CONFIG gives a VF its ranges. -/
def Obligations.AdminDeviceCommands : Prop :=
  ∀ (s : State) (fn : Master) (p : Packet),
    let s0 := takePacket s fn
    let f := getFunc s fn
    let ans (c : Instr) (t : State) (res : BitVec 192) : Prop := Answers (exec c s) t fn p 0 0 res
    let no (c : Instr) (st : Half) (field : Byte) : Prop := Answers (exec c s) s0 fn p st field 0
    (Starts s fn p 0x0001 → ans (.admIdentify fn p) s0 (num192 (ofLE (toLE 2 0x7128 ++
      [Sys2Proof.Config.stepping.setWidth 8, BitVec.ofNat 8 (lcState s)] ++ toLE 4 (if s.rst.rom = true then 0 else Sys2Proof.Config.firmwareVersion.toNat) ++
      [s.sched.ctmSize, BitVec.ofNat 8 (pwrState s), s.tw.state.setWidth 8, 0] ++
      (if isPf fn = true then toLE 4 1 ++ toLE 4 0xFFFFF ++ toLE 2 0 ++ toLE 2 4096
       else toLE 4 f.prnFirst ++ toLE 4 f.prnCount ++ toLE 2 f.sqFirst ++ toLE 2 f.sqCount))))) ∧
    (Starts s fn p 0x0002 →
      let b := pkF p 8 1
      let n := pkF p 9 1
      let t := pkF p 10 1
      let good : Prop := 1 ≤ n ∧ n ≤ 16 ∧ b + n ≤ 120 ∧ t ≤ 118
      let c := Instr.admConfigure fn p
      (n = 0 ∨ 16 < n → no c 2 9) ∧ (1 ≤ n → n ≤ 16 → 120 < b + n → no c 2 8) ∧ (1 ≤ n → n ≤ 16 → b + n ≤ 120 → 118 < t → no c 2 10) ∧
      (good → s.sched.configured = true → no c 5 0) ∧
      (good → s.sched.configured = false → overlaps (b * unit256) (n * unit256) (t * unit256) prnTablesLen = true → no c 6 0) ∧
      (good → s.sched.configured = false → overlaps (b * unit256) (n * unit256) (t * unit256) prnTablesLen = false →
        ∃ u, ans c u 0 ∧ u.sched.configured = true ∧ u.sched.prnBase.toNat = t ∧ u.sched.prnLocked = true ∧ u.sched.ctmBase.toNat = b ∧
          u.sched.ctmSize.toNat = n ∧ (∀ j, getP u j = {}) ∧
          (∀ a, t * unit256 ≤ a → a < t * unit256 + unit256 → tget emptyByte u.mem.dram a = 0) ∧
          (∀ a, a < t * unit256 ∨ t * unit256 + unit256 ≤ a → tget emptyByte u.mem.dram a = tget emptyByte s.mem.dram a) ∧
          { u.mem with dram := s.mem.dram, poison := s.mem.poison } = s.mem ∧ { u with sched := s.sched, mem := s.mem } = s0)) ∧
    (Starts s fn p 0x0003 → let c := Instr.admResetDevice fn p
      (pkF p 8 1 = 1 → exec c s = .next (takeReset (reply s0 fn (admTag p) 0 0 0) .firmware 4)) ∧ (pkF p 8 1 ≠ 1 → no c 2 8)) ∧
    (Starts s fn p 0x0004 → let c := Instr.admSleep fn p
      let st := pkF p 8 1
      (st ≠ 2 → st ≠ 3 → no c 2 8) ∧
      (st = 2 ∨ st = 3 → s.pwr.sleep ≠ .awake ∨ sleepReady s (st == 3) = false → no c 5 0) ∧
      (st = 2 ∨ st = 3 → s.pwr.sleep = .awake → sleepReady s (st == 3) = true →
        ∃ u, exec c s = .next u ∧ u.pwr.sleep = .entering ∧ u.pwr.light = (st == 2) ∧ u.pwr.mask = p.extractLsb' 128 12 ∧
          u.tw.link = 0 ∧ ({ fn := fn, tag := admTag p, why := .sleep } : Held) ∈ u.hp.held)) ∧
    (Starts s fn p 0x0005 → let c := Instr.admVfConfig fn p
      let i := pkF p 8 1
      let a := pkF p 12 4
      let n := pkF p 16 4
      let b := pkF p 20 2
      let m := pkF p 22 2
      let vf := vfOf fn i
      let good : Prop := i ≤ 31 ∧ a < 2 ^ 20 ∧ a + n ≤ 2 ^ 20 ∧ b < 4096 ∧ b + m ≤ 4096
      let inUse : Prop := (∃ e ∈ s.sched.recs, isBound e.2 = true ∧ e.2.hostFn = vf) ∨ ∃ e ∈ s.hp.sqs, e.2.owner = vf
      let meets : Prop := ∃ v ∈ allVfs, v ≠ vf ∧ (rangesMeet a n (getFunc s v).prnFirst (getFunc s v).prnCount = true ∨
        rangesMeet b m (getFunc s v).sqFirst (getFunc s v).sqCount = true)
      (31 < i → no c 2 8) ∧ (i ≤ 31 → 2 ^ 20 ≤ a → no c 2 12) ∧ (i ≤ 31 → a < 2 ^ 20 → 2 ^ 20 < a + n → no c 2 16) ∧
      (i ≤ 31 → a + n ≤ 2 ^ 20 → a < 2 ^ 20 → 4096 ≤ b → no c 2 20) ∧ (i ≤ 31 → a + n ≤ 2 ^ 20 → a < 2 ^ 20 → b < 4096 → 4096 < b + m → no c 2 22) ∧
      (good → inUse → no c 5 0) ∧ (good → ¬ inUse → meets → no c 6 0) ∧
      (good → ¬ inUse → ¬ meets → ans c (setFunc s0 vf { getFunc s vf with prnFirst := a, prnCount := n, sqFirst := b, sqCount := m }) 0))

/-- 08 R234, R235, R240, R243, R245, R250, R256 to R259, 09 Table 9-9, R491: a command on a port needs the port under its
profile and its quad in service; each writes what its fields say, or replies what stands in its way. Which admin commands of
NVMe the firmware then sends is the model's choice (log entry 114). -/
def Obligations.AdminPortCommands : Prop :=
  ∀ (s : State) (fn : Master) (p : Packet),
    let s0 := takePacket s fn
    let q := pkF p 8 1
    let n := pkF p 9 1
    let x := (getPort s q n).pp
    let ans (c : Instr) (t : State) (res : BitVec 192) : Prop := Answers (exec c s) t fn p 0 0 res
    let no (c : Instr) (st : Half) (field : Byte) : Prop := Answers (exec c s) s0 fn p st field 0
    let ready (d : DeviceInfo) : Prop := s.sched.configured = true ∧ x.device = some d ∧ portUp (getPort s q n) = true ∧ x.size ≠ 0
    let bound (k i : Nat) : Bool := (boundTo s fun b => bKind b == k && bQuad b == q && bPort b == n && (if k = 2 then bQueue b else bTarget b) == i).isSome
    (∀ op prof c, PortRow op prof c → Starts s fn p op →
      (31 < q → no (c fn p) 2 8) ∧ (q ≤ 31 → 3 < n → no (c fn p) 2 9) ∧
      (q ≤ 31 → n ≤ 3 → ∀ b, portBad op s p = some b → no (c fn p) 2 b) ∧
      (q ≤ 31 → n ≤ 3 → portBad op s p = none → (¬ PortThere s p prof → no (c fn p) 4 0) ∧
        (PortThere s p prof → quadFenced s q = true → no (c fn p) 9 0))) ∧
    (∀ op c, (op, c) ∈ [(0x0103, Instr.admNvmeQueues), (0x0106, Instr.admRingSet)] → PortCmd s fn p op 1 →
      (∀ d, ¬ ready d) → no (c fn p) 5 0) ∧
    (PortCmd s fn p 0x0102 1 → s.sched.configured = false → no (.admPortRegion fn p) 5 0) ∧
    (Starts s fn p 0x0101 → q ≤ 31 →
      let v : Word := p.extractLsb' 96 32
      let y := cfgFields (getQ s q) v
      let legal : Prop := v &&& 0xFFF000C0 = 0 ∧ comboLegal y = true ∧ v.extractLsb' 8 4 &&& portMask y = v.extractLsb' 8 4
      let same : Prop := sameCfg (getQ s q) y = true
      let c := Instr.admQuadConfig fn p
      (¬ legal → no c 2 12) ∧ (legal → quadFenced s q = true → no c 9 0) ∧
      (legal → quadFenced s q = false → ¬ same → (getQ s q).portEn ≠ 0 → no c 5 0) ∧
      (legal → quadFenced s q = false → ¬ same → (getQ s q).portEn = 0 → quadBound s q = true → no c 6 0) ∧
      (legal → quadFenced s q = false → same ∨ ((getQ s q).portEn = 0 ∧ quadBound s q = false) → ans c (quadCfgWrite s0 q v) 0)) ∧
    (PortCmd s fn p 0x0102 1 → s.sched.configured = true → let c := Instr.admPortRegion fn p
      let a := pkF p 12 2 * mib64
      let z := pkF p 14 2
      let taken : Bool := rangesMeet a (z * mib64) (ctmStart s) (ctmBytes s) || rangesMeet a (z * mib64) (prnStart s) prnTablesLen ||
        (z != 0 && regionTaken s q n a (z * mib64))
      (taken = true → no c 6 0) ∧ (taken = false → ans c (let t := modPP s0 q n fun x => { x with base := pkF p 12 2, size := z }
        if portUp (getPort t q n) then adminStart t q n else t) 0)) ∧
    (∀ d k, PortCmd s fn p 0x0103 1 → k = min (pkF p 10 1) d.pairs.toNat → ready d → let c := Instr.admNvmeQueues fn p
      let l := makePairs x k (pkF p 12 2)
      (d.nvme.isNone = true ∨ (boundTo s fun b => bKind b == 1 && bQuad b == q && bPort b == n).isSome = true → no c 5 0) ∧
      (d.nvme.isSome = true → (boundTo s fun b => bKind b == 1 && bQuad b == q && bPort b == n).isSome = false →
        ans c (pairCommands (modPP (l.foldl (fun s e => clearPair s e.2) s0) q n fun x => { x with pairs := (x.pairs.filter (·.1 == 0)) ++ l }) q n x.pairs l)
          (num192 k))) ∧
    (PortCmd s fn p 0x0104 1 → x.device.isNone = true → no (.admNsAdd fn p) 5 0) ∧
    (∀ d, PortCmd s fn p 0x0104 1 → x.device = some d → let c := Instr.admNsAdd fn p
      let id := pkF p 16 4
      let e (y : NsInfo) : NsEntry := { nsid := id, tagCarry := pkBit p 20 0, append := pkBit p 20 1, shift := y.shift.toNat, base := pkF p 24 8, blocks := pkF p 32 8 }
      (d.nvme.isNone = true → no c 5 0) ∧
      (d.nvme.isSome = true → (∀ y ∈ d.spaces, y.nsid.toNat ≠ id) → no c 4 0) ∧
      (∀ y, d.nvme.isSome = true → d.spaces.find? (fun y => y.nsid.toNat == id) = some y → pkBit p 20 1 = true →
        y.blocks.toNat < pkF p 24 8 + pkF p 32 8 → no c 2 24) ∧
      (∀ y, d.nvme.isSome = true → d.spaces.find? (fun y => y.nsid.toNat == id) = some y → pkBit p 20 1 = false →
        ¬ ready d ∨ (∃ z ∈ x.spaces, z.nsid = id) ∨ (y.shift.toNat ≠ 9 ∧ y.shift.toNat ≠ 12) ∨ y.hasMeta = true → no c 5 0) ∧
      (∀ y, d.nvme.isSome = true → d.spaces.find? (fun y => y.nsid.toNat == id) = some y → y.shift.toNat = 9 ∨ y.shift.toNat = 12 → y.hasMeta = false →
        ready d → (∀ z ∈ x.spaces, z.nsid ≠ id) → x.spaces.length < 32 → pkBit p 20 1 = false ∨ pkF p 24 8 + pkF p 32 8 ≤ y.blocks.toNat →
        ans c (fwAdmin (modPP s0 q n fun x => { x with spaces := x.spaces ++ [e y] }) q n 0x06 id 0 [0]) (num192 (y.shift.toNat + 2 ^ 64 * y.blocks.toNat)))) ∧
    (PortCmd s fn p 0x0105 1 → let c := Instr.admNsRemove fn p
      let id := pkF p 12 4
      let there : Prop := ∃ e ∈ x.spaces, e.nsid = id
      (¬ there → no c 4 0) ∧ (there → bound 1 id = true → no c 6 0) ∧
      (there → bound 1 id = false → ans c (modPP s0 q n fun x => { x with spaces := x.spaces.filter fun e => e.nsid != id }) 0)) ∧
    (∀ d, PortCmd s fn p 0x0106 1 → ready d → let c := Instr.admRingSet fn p
      let r := pkF p 10 1
      let e : BitVec 384 := p.extractLsb' 128 384
      let has : Prop := ∃ f ∈ d.funcs, f.num.toNat = rgFunction e
      (¬ has ∨ ringBound s q n r = true → no c 5 0) ∧
      (has → ringBound s q n r = false → ans c (modPP (clearRing s0 { entry := e }) q n fun x => { x with rings := aset r { entry := e } x.rings }) 0)) ∧
    (PortCmd s fn p 0x0107 1 → let c := Instr.admRingClear fn p
      let r := pkF p 10 1
      (aget x.rings r = none → no c 4 0) ∧ ((aget x.rings r).isSome = true → ringBound s q n r = true → no c 5 0) ∧
      ((aget x.rings r).isSome = true → ringBound s q n r = false → ans c (modPP s0 q n fun x => { x with rings := adel r x.rings }) 0)) ∧
    (PortCmd s fn p 0x0108 2 → ans (.admEthUnicast fn p) (modEP s0 q n fun x =>
      { x with uni := tset none (pkF p 10 1) (if pkBit p 11 0 then some (p.extractLsb' 128 48) else none) x.uni }) 0) ∧
    (PortCmd s fn p 0x0109 2 → ans (.admEthMulticast fn p) (modEP s0 q n fun x => { x with multi := setBit x.multi (pkF p 10 2) (pkBit p 12 0) }) 0) ∧
    (Starts s fn p 0x010A → let c := Instr.admFlowAdd fn p
      let e := (toLE 64 p.toNat).drop 16
      let key := e.take 44
      let places := groupEntries (hash1 s key) ++ groupEntries (hash2 s key)
      let l3 := pkF p 17 1 / 4 % 4
      let sound : Prop := quadFenced s (pkF p 16 1 % 32) = false
      (l3 = 3 → no c 2 17) ∧ (l3 ≠ 3 → ¬ sound → no c 9 0) ∧
      (l3 ≠ 3 → sound → s.sched.configured = false ∨ s.lk.flowEn = false ∨ (flowFind s key).isSome = true → no c 5 0) ∧
      (l3 ≠ 3 → sound → s.sched.configured = true → s.lk.flowEn = true → flowFind s key = none →
        ((∀ i ∈ places, resValid (entryRes s i) = true) → no c 7 0) ∧
        (∀ i, places.find? (fun i => !(resValid (entryRes s i))) = some i →
          ans c (writeDram s0 (flowEntryAt s i) (e.take 48 ++ List.replicate 16 0)) (num192 i)))) ∧
    (Starts s fn p 0x010B → let c := Instr.admFlowDelete fn p
      let i := pkF p 8 4
      (flowEntries s ≤ i → no c 2 8) ∧
      (i < flowEntries s → s.lk.flowEn = false ∨ resValid (entryRes s i) = false → no c 4 0) ∧
      (i < flowEntries s → s.lk.flowEn = true → resValid (entryRes s i) = true →
        let used := (boundTo s fun b => bKind b == 3 && bTarget b == i).isSome
        (used = true → no c 6 0) ∧
        (used = false → ans c (writeDram s0 (flowEntryAt s i + 44) (toLE 4 (setBit (entryRes s i) 20 false).toNat)) 0))) ∧
    (PortCmd s fn p 0x010C 2 → let c := Instr.admBucketSet fn p
      let k := pkF p 12 4
      let y := (getPort s q n).ep
      let v : Word := p.extractLsb' 128 32
      let old : Word := BitVec.ofNat 32 (ofLE (getBytes s.mem.dram (bucketAt y k) 4))
      (s.sched.configured = false ∨ y.bucketEn = false → no c 5 0) ∧
      (s.sched.configured = true → y.bucketEn = true → bound 4 k = true → resPron old ≠ resPron v ∨ resValid v = false → no c 6 0) ∧
      (s.sched.configured = true → y.bucketEn = true → bound 4 k = false ∨ (resPron old = resPron v ∧ resValid v = true) →
        ans c (writeDram s0 (bucketAt y k) (toLE 4 v.toNat)) 0))

/-- 03 R58, R60 to R63, R67, R72, R73, R76, R77, R82, R83, R87, Table 3-8: BIND makes a pronoun IDLE with its record's settings;
the other commands need the pronoun permitted, named and configured, act on it as its state allows, and reply or wait. -/
def Obligations.AdminPronounCommands : Prop :=
  ∀ (s : State) (fn : Master) (p : Packet),
    let s0 := takePacket s fn
    let n := pkPrn p
    let r := getP s n
    let ans (c : Instr) (t : State) (res : BitVec 192) : Prop := Answers (exec c s) t fn p 0 0 res
    let no (c : Instr) (st : Half) (field : Byte) : Prop := Answers (exec c s) s0 fn p st field 0
    let holds (t : State) (why : HeldWhy) : Prop := ({ fn := fn, tag := admTag p, why := why } : Held) ∈ t.hp.held
    let others (t : State) : Prop := ∀ j ≠ n, getP t j = getP s j
    (∀ op c, (op, c) ∈ [(0x0202, Instr.admUnbind), (0x0203, Instr.admModify), (0x0204, Instr.admStart), (0x0205, Instr.admHalt),
        (0x0206, Instr.admResume), (0x0207, Instr.admClear), (0x0208, Instr.admPronounReset), (0x0209, Instr.admQuery), (0x0201, Instr.admBind)] →
      Starts s fn p op → (prnAllowed s fn n = false → no (c fn p) 3 0) ∧ (prnAllowed s fn n = true → n = 0 → no (c fn p) 2 8)) ∧
    (Starts s fn p 0x0201 → prnAllowed s fn n = true → n ≠ 0 → let c := Instr.admBind fn p
      let a := pkIova p
      let im : RecImage := { bits := BitVec.ofNat 1024 (ofLE (getBytes s.mem.host a 128)) }
      (iovaBad a 64 = true → no c 2 16) ∧
      (∀ d, iovaBad a 64 = false → hostFault s a 128 = some d → Answers (exec c s) s0 fn p 8 0 (d.setWidth 192)) ∧
      (iovaBad a 64 = false → hostFault s a 128 = none →
        (∀ i, imStray im = some i → no c 2 (BitVec.ofNat 8 (0x80 + i))) ∧
        (imStray im = none → imAllowed s fn n im = false → no c 3 0) ∧
        (∀ i, imStray im = none → imAllowed s fn n im = true → imRange im = some i → no c 2 (BitVec.ofNat 8 (0x80 + i))) ∧
        (imStray im = none → imAllowed s fn n im = true → imRange im = none →
          (getSq s (imSq im).toNat = none → no c 4 0) ∧
          (∀ k, getSq s (imSq im).toNat = some k → s.sched.configured = false → no c 5 0) ∧
          (∀ k, getSq s (imSq im).toNat = some k → s.sched.configured = true → bindConflict s n im k = true → no c 6 0) ∧
          (∀ k, getSq s (imSq im).toNat = some k → s.sched.configured = true → bindConflict s n im k = false →
            ∃ t, ans c t 0 ∧ getP t n = boundRecord im ∧ others t ∧ t.mem = s.mem)))) ∧
    (PronCmd s fn p 0x0202 → let c := Instr.admUnbind fn p
      (r.state ≠ .idle → r.state ≠ .checked → no c 5 0) ∧
      (r.state = .idle ∨ r.state = .checked → r.affinity ≠ 0 →
        ∃ t, exec c s = .next t ∧ (getP t n).state = .unbound ∧
          ((∃ z ∈ s.fs.window, z.prn = n) → (getP t n).unbinding = true ∧ holds t (.unbind n)) ∧
          ((∀ z ∈ s.fs.window, z.prn ≠ n) → s.hp.held = [] → (getP t n).unbinding = false ∧
            ∃ u, t = evalStranded (reply u fn (admTag p) 0 0 0)))) ∧
    (PronCmd s fn p 0x0203 → let c := Instr.admModify fn p
      (∀ b, modifyRange p = some b → no c 2 b) ∧
      (modifyRange p = none → isBound r = false → no c 5 0) ∧
      (modifyRange p = none → isBound r = true → modBit p 3 = true → allFenced s (p.extractLsb' 128 32) = true → no c 6 0) ∧
      (modifyRange p = none → isBound r = true → modBit p 3 = false ∨ allFenced s (p.extractLsb' 128 32) = false →
        ∃ t, ans c t 0 ∧ getP t n = modified p r ∧ others t ∧
          ((modified p r).runLevel ≠ r.runLevel → inQueue s n = true → (runq t (modified p r).runLevel.toNat).getLast? = some n))) ∧
    (PronCmd s fn p 0x0204 → let c := Instr.admStart fn p
      let a : Dword := if pkBit p 12 0 then p.extractLsb' 128 64 else r.startAddr
      (r.state = .unbound ∨ r.state = .checked → no c 5 0) ∧ (r.state = .idle → ans c (startAt s0 n a 5) 0) ∧
      (isBound r = true → r.state ≠ .checked → r.state ≠ .idle → ans c (setP s0 n { r with startPending := true, pendStart := a }) 0)) ∧
    (PronCmd s fn p 0x0205 → let c := Instr.admHalt fn p
      (r.state ∈ [.unbound, .idle, .checked, .halting] → no c 5 0) ∧
      (r.state = .active ∨ (r.state = .queued ∧ insideCcw r = true) → ∃ t, exec c s = .next t ∧ holds t (.halt n) ∧ others t ∧
        getP t n = { r with state := .halting, startPending := false, pendStart := 0 }) ∧
      (r.state ∈ [.waiting, .parenthesis] → ∃ t, ans c t 0 ∧
        (clauseOf s n = none → r.rerun = none → wordsHeld s n = false → sqRoom s r.statusQueue.toNat = true →
          (getP t n).state = .idle ∧ (getP t n).seq = r.seq + 1 ∧ (getP t n).loops = []))) ∧
    (PronCmd s fn p 0x0206 → let c := Instr.admResume fn p
      (r.state = .parenthesis → r.moverHold = false → ans c (toQueued (setP s0 n { r with again := true }) n 5) 0) ∧
      (r.state ≠ .parenthesis ∨ r.moverHold = true → no c 5 0)) ∧
    (PronCmd s fn p 0x0207 → let c := Instr.admClear fn p
      let y : Pron := { r with checkKind := 0, retryCount := 0, waitOverflow := 0, loops := [] }
      (r.state ≠ .checked → no c 5 0) ∧
      (r.state = .checked → pkBit p 12 0 = false → ans c (setP s0 n { y with state := .idle }) 0) ∧
      (r.state = .checked → pkBit p 12 0 = true → let t := startAt (setP s0 n y) n r.startAddr 5
        ans c t 0 ∧ (getP t n).state = .queued ∧ (getP t n).starts = r.starts)) ∧
    (PronCmd s fn p 0x0208 → let c := Instr.admPronounReset fn p
      (isBound r = false → no c 5 0) ∧
      (isBound r = true → outstanding s n ≠ [] → ∃ t, exec c s = .next t ∧ (getP t n).resetting = true ∧ holds t (.reset n)) ∧
      (isBound r = true → outstanding s n = [] → r.unbinding = false → ∃ t, exec c s = .next t ∧ (getP t n).state = .idle ∧
        (getP t n).retryCount = 0 ∧ (getP t n).checkKind = 0 ∧ (getP t n).loops = [] ∧ (getP t n).waitPending = 0 ∧ (getP t n).cur = none)) ∧
    (PronCmd s fn p 0x0209 → let c := Instr.admQuery fn p
      let a := pkIova p
      (iovaBad a 64 = true → no c 2 16) ∧
      (iovaBad a 64 = false → (slotOf s n).isSome = true ∨ cached s n = true ∨ copyBad s n = false →
        (hostFault s a 128 = none → ans c (writeHostRaw s0 a (recBytes s n)) (num192 (stateCode r.state))) ∧
        (∀ d, hostFault s a 128 = some d → Answers (exec c s) s0 fn p 8 0 (d.setWidth 192))))

/-- 05 R144 to R147, R292, 09 Table 9-10, 10 R304, R324: saves are replayed, exported or discarded; status queues created,
deleted and told; sources routed; mailboxes bound. -/
def Obligations.AdminQueueCommands : Prop :=
  ∀ (s : State) (fn : Master) (p : Packet),
    let s0 := takePacket s fn
    let ans (c : Instr) (t : State) (res : BitVec 192) : Prop := Answers (exec c s) t fn p 0 0 res
    let no (c : Instr) (st : Half) (field : Byte) : Prop := Answers (exec c s) s0 fn p st field 0
    (Starts s fn p 0x0301 → let c := Instr.admReplay fn p
      (s.sched.configured = false ∨ s.fs.pendingSave = none ∨ s.fs.replay.isSome = true → no c 5 0) ∧
      (∀ area v, s.sched.configured = true → s.fs.pendingSave = some (area, v) → s.fs.replay = none →
        let keep := v.clauses.filter fun c => !(dropsClause s c)
        let bad := keep.find? fun c => !(clauseBound s false c)
        let again (c : NClause) : NClause := { c with committed := true, replayed := true, peer := false, effects := c.effects.map reissued }
        (saveReads s area v = false → Answers (exec c s) { s0 with fs := { s.fs with saveInvalid := true } } fn p 8 0 0) ∧
        (saveReads s area v = true → v.paired = true → pkBit p 12 0 = false → s.tw.joined = false → no c 5 0) ∧
        (saveReads s area v = true → v.paired = false ∨ pkBit p 12 0 = true ∨ s.tw.joined = true →
          (∀ x, bad = some x → Answers (exec c s) s0 fn p 6 0 (num192 (x.number % 2 ^ 64))) ∧
          (bad = none → allIssued (keep.map again) = false → ∃ t, exec c s = .next t ∧ ({ fn := fn, tag := admTag p, why := .replay } : Held) ∈ t.hp.held ∧
            (∃ w, t.fs.replay = some (fn, admTag p, keep.length, v.clauses.length - keep.length, w)) ∧
            (∀ x ∈ keep, again x ∈ t.fs.window)) ∧
          (bad = none → allIssued (keep.map again) = true → s.fs.window = [] → v.lost = [] → ∃ t, exec c s = .next t ∧
            t.fs.pendingSave = none ∧ t.fs.replay = none)))) ∧
    (Starts s fn p 0x0302 → let c := Instr.admExportSaved fn p
      let a := pkIova p
      (iovaBad a 64 = true → no c 2 16) ∧ (iovaBad a 64 = false → s.fs.pendingSave = none → no c 5 0) ∧
      (∀ area v, iovaBad a 64 = false → s.fs.pendingSave = some (area, v) → saveReads s area v = true →
        let l := exportBytes v
        (pkF p 24 4 < l.length → Answers (exec c s) s0 fn p 7 0 (num192 l.length)) ∧
        (l.length ≤ pkF p 24 4 → hostFault s a l.length = none → ans c (writeHostRaw s0 a l) (num192 l.length)) ∧
        (∀ d, l.length ≤ pkF p 24 4 → hostFault s a l.length = some d → Answers (exec c s) s0 fn p 8 0 (d.setWidth 192)))) ∧
    (Starts s fn p 0x0303 → let c := Instr.admDiscardSaved fn p
      (s.fs.pendingSave = none ∨ s.fs.replay.isSome = true → no c 5 0) ∧
      (s.fs.pendingSave.isSome = true → s.fs.replay = none → ans c (consumeSave s0) 0)) ∧
    (Starts s fn p 0x0304 → let c := Instr.admClauseTune fn p
      let w := pkF p 8 4
      (w % 65536 ≠ 0 ∨ 8388608 < w → no c 2 8) ∧
      (w % 65536 = 0 → w ≤ 8388608 → (s.sched.configured = false → no c 5 0) ∧
        (s.sched.configured = true → ans c { s0 with fs := { s.fs with watermark := BitVec.ofNat 32 w } } 0))) ∧
    (let n := pkF p 8 2
      let lg := pkF p 10 1
      let vec := pkF p 12 2
      let a := pkIova p
      (Starts s fn p 0x0401 → let c := Instr.admSqCreate fn p
        let ok := sqAllowed s fn n && !(isVf fn && decide (vecCount fn ≤ vec))
        let size : Prop := 4 ≤ lg ∧ lg ≤ 16
        (ok = false → no c 3 0) ∧ (ok = true → 4096 ≤ n → no c 2 8) ∧ (ok = true → n < 4096 → ¬ size → no c 2 10) ∧
        (ok = true → n < 4096 → size → vecCount fn ≤ vec → no c 2 12) ∧
        (ok = true → n < 4096 → size → vec < vecCount fn → iovaBad a (min (32 * 2 ^ lg) 4096) = true → no c 2 16) ∧
        (ok = true → n < 4096 → size → vec < vecCount fn → iovaBad a (min (32 * 2 ^ lg) 4096) = false →
          ((getSq s n).isSome = true → no c 5 0) ∧
          (getSq s n = none → ans c (setSq s0 n { owner := fn, base := BitVec.ofNat 64 a, log2 := lg, vec := vec, prod := 0, cons := 0, phase := true, full := false }) 0))) ∧
      (∀ op c, (op, c) ∈ [(0x0402, Instr.admSqDelete), (0x0403, Instr.admSqQuery)] → Starts s fn p op →
        (sqAllowed s fn n = false → no (c fn p) 3 0) ∧ (sqAllowed s fn n = true → 4096 ≤ n → no (c fn p) 2 8) ∧
        (sqAllowed s fn n = true → n < 4096 → getSq s n = none → no (c fn p) 4 0)) ∧
      (∀ y, sqAllowed s fn n = true → n < 4096 → getSq s n = some y →
        (Starts s fn p 0x0402 → ((∃ e ∈ s.sched.recs, isBound e.2 = true ∧ e.2.statusQueue.toNat = n) → no (.admSqDelete fn p) 5 0) ∧
          ((∀ e ∈ s.sched.recs, isBound e.2 = true → e.2.statusQueue.toNat ≠ n) → ans (.admSqDelete fn p) { s0 with hp := { s0.hp with sqs := adel n s.hp.sqs } } 0)) ∧
        (Starts s fn p 0x0403 → ans (.admSqQuery fn p) s0 (num192 (y.prod + 2 ^ 16 * y.cons + 2 ^ 32 * b2n y.phase + 2 ^ 33 * b2n y.full))))) ∧
    (Starts s fn p 0x0701 → let c := Instr.admEventRoute fn p
      let n := pkF p 8 2
      let v := pkF p 10 2
      let ok : Prop := isVf fn = false ∨ (ownMailSource s fn n = true ∧ v < vecCount fn)
      let l := s.hp.routes.filter fun r => r.1 != n
      (¬ ok → no c 3 0) ∧ (ok → 1024 ≤ n → no c 2 8) ∧ (ok → n < 1024 → vecCount fn ≤ v → no c 2 10) ∧
      (ok → n < 1024 → v < vecCount fn → (∃ r ∈ s.hp.routes, r.1 = n ∧ r.2.1 ≠ fn) → no c 6 0) ∧
      (ok → n < 1024 → v < vecCount fn → (∀ r ∈ s.hp.routes, r.1 = n → r.2.1 = fn) →
        ans c { s0 with hp := { s0.hp with routes := if pkBit p 12 0 then l ++ [(n, fn, v)] else l } } 0)) ∧
    (Starts s fn p 0x0702 → let c := Instr.admMbxBind fn p
      let m := pkF p 8 1
      let a : Master := p.extractLsb' 72 8
      let b : Master := p.extractLsb' 80 8
      (63 < m → no c 2 8) ∧ (m ≤ 63 → masterLegal a = false → no c 2 9) ∧ (m ≤ 63 → masterLegal a = true → bindLegal a b = false → no c 2 10) ∧
      (m ≤ 63 → bindLegal a b = true → (getMbx s m).locked = true → no c 5 0) ∧
      (m ≤ 63 → bindLegal a b = true → (getMbx s m).locked = false →
        ans c (setMbx s0 m { getMbx s m with sender := a, receiver := b, valid := true, locked := true }) 0))

/-- 11 R341, R355, R357, R361, 13 R398, R399, R410, R411, 14 R444, 15 R458, R459: keys are imported, erased and told; a
lifecycle transition replies first; the twin is paired, fenced, taken over and told; tests run and logs are read. -/
def Obligations.AdminSecurityTwinTests : Prop :=
  ∀ (s : State) (fn : Master) (p : Packet),
    let s0 := takePacket s fn
    let a := pkIova p
    let ans (c : Instr) (t : State) (res : BitVec 192) : Prop := Answers (exec c s) t fn p 0 0 res
    let no (c : Instr) (st : Half) (field : Byte) : Prop := Answers (exec c s) s0 fn p st field 0
    let waits (c : Instr) (t : State) (why : HeldWhy) : Prop := exec c s = .next t ∧ ({ fn := fn, tag := admTag p, why := why } : Held) ∈ t.hp.held
    (Starts s fn p 0x0501 → let c := Instr.admKeyImport fn p
      let i := pkF p 8 2
      let len := pkF p 24 2
      let l := getBytes s.mem.host a len
      let form := byteAt l 0
      (iovaBad a 1 = true → no c 2 16) ∧ (iovaBad a 1 = false → 4096 ≤ i → no c 2 8) ∧
      (iovaBad a 1 = false → i < 4096 → len ≠ 68 → len ≠ 356 → no c 2 24) ∧
      (iovaBad a 1 = false → i < 4096 → hostFault s a len = none → (form = 1 ∧ len = 68) ∨ (form = 2 ∧ len = 356) → blobBad l form (lcState s == 1) = none →
        form = 2 ∨ (kekOf s (ofLE (subBytes l 4 2))).isSome = true →
        ((getKey s i).isSome = true ∨ lcState s = 4 → no c 5 0) ∧
        (getKey s i = none → lcState s ≠ 4 → s.sec.lockout = true → no c 3 0) ∧
        (getKey s i = none → lcState s ≠ 4 → s.sec.lockout = false →
          (blobKey s l form = none → Answers (exec c s) (authFail s0) fn p 3 0 0) ∧
          (∀ k, blobKey s l form = some k → ∃ t, waits c t .keyBank ∧ aget t.sec.vault i = some { use := BitVec.ofNat 16 (ofLE (subBytes l 2 2)), key := k, count := 0, reserved := 0 } ∧
            t.sec.bankDue.isSome = true ∧ t.evt.icPend.getLsbD 358 = true)))) ∧
    (Starts s fn p 0x0502 → let c := Instr.admKeyErase fn p
      let i := pkF p 8 2
      (4096 ≤ i → no c 2 8) ∧ (i < 4096 → keyNamed s i = true → no c 5 0) ∧
      (i < 4096 → keyNamed s i = false → ∃ t, waits c t .keyBank ∧ getKey t i = none ∧ t.sec.bankDue = some (adel i (bankList s)) ∧
        (∀ j ≠ i, getKey t j = getKey s j) ∧ t.evt.icPend.getLsbD 358 = true)) ∧
    (Starts s fn p 0x0503 → let c := Instr.admKeyInfo fn p
      let i := pkF p 8 2
      (4096 ≤ i → no c 2 8) ∧ (i < 4096 → getKey s i = none → ans c s0 0) ∧
      (∀ k, i < 4096 → getKey s i = some k → ans c s0 (BitVec.ofNat 192 (1 + 2 ^ 64 * k.count)))) ∧
    (Starts s fn p 0x0504 → let c := Instr.admLifecycleRequest fn p
      let target := pkF p 8 1
      let len := pkF p 24 2
      (iovaBad a 1 = true → no c 2 16) ∧
      (iovaBad a 1 = false → len ≠ 336 → len ≠ 0 ∨ lcState s ≠ 1 ∨ target ≠ 4 → no c 2 24) ∧
      (∀ r, iovaBad a 1 = false → (lcCheck s target len a).2 = some r → exec c s = .next (transition (reply s0 fn (admTag p) 0 0 0) r)) ∧
      (len = 0 → lcState s = 1 → target = 4 → iovaBad a 1 = false → s.sec.lockout = false →
        exec c s = .next (transition (reply s0 fn (admTag p) 0 0 0) (lcNext (lcRec s) 4 [])))) ∧
    (Starts s fn p 0x0601 → let c := Instr.admTwinPair fn p
      (s.sched.configured = false ∨ mayPair s = false → no c 5 0) ∧
      (s.sched.configured = true → mayPair s = true → shadowFits s 1 = false → no c 6 0) ∧
      (s.sched.configured = true → mayPair s = true → shadowFits s 1 = true → ∃ t, ans c t 1 ∧ t.tw.state = 1 ∧ t.tw.before = s.tw.state ∧
        t.tw.joinOpt = pkBit p 12 0 ∧ t.tw.link = (if s.tw.link = 2 then 2 else 1) ∧ (s.tw.link ≠ 2 → t.tw.txSeq = 0 ∧ t.tw.rxSeq = 0 ∧ t.tw.replay = []))) ∧
    (Starts s fn p 0x0602 → let c := Instr.admTwinUnpair fn p
      let spent : Prop := s.tw.shadow = [] ∧ s.tw.shadowWait = []
      (s.tw.state = 3 → ∃ t, waits c t .unpair ∧ t.tw.state = 7 ∧
        (s.tw.aligned = true → ({ action := 2, tick := s.dev.tick + BitVec.ofNat 64 (2 * s.tw.delta + 100), mine := true } : Launch) ∈ t.tw.launches)) ∧
      (s.tw.state = 5 → spent → ∃ t, ans c t 0 ∧ t.tw.state = 0 ∧ tget 0 t.evt.epochs 0x90 = tget 0 s.evt.epochs 0x90 + 1) ∧
      (s.tw.state ≠ 3 → s.tw.state ≠ 5 ∨ ¬ spent → no c 5 0)) ∧
    (Starts s fn p 0x0603 → let c := Instr.admTwinFence fn p
      let m := pkF p 8 1
      (m ≠ 1 → m ≠ 2 → no c 2 8) ∧ (m = 1 ∨ m = 2 → s.tw.state ≠ 3 → s.tw.state ≠ 4 → no c 5 0) ∧
      (s.tw.state = 3 ∨ s.tw.state = 4 → (m = 2 → ans c { s0 with tw := { s.tw with fenceOut := true, fencing := 3 } } 0) ∧
        (m = 1 → ∃ t, ans c t 0 ∧ t.tw.fencing = 1 ∧
          (s.tw.link ≠ 2 → t.tw.txq = s.tw.txq ++ [{ type := 0x05, param := s.dev.tick + BitVec.ofNat 64 (2 * s.tw.delta + 100), body := [] }])))) ∧
    (Starts s fn p 0x0604 → let c := Instr.admTwinTakeover fn p
      let l := s.tw.shadow
      let top := (l.map fun x => x.number % 2 ^ 64).foldl max 0
      let bad := l.find? fun x => !(clauseBound s true x)
      let may : Prop := s.sched.configured = true ∧ s.tw.state = 5 ∧ l ≠ [] ∧ s.tw.taking = false
      (¬ may → no c 5 0) ∧ (∀ x, may → bad = some x → Answers (exec c s) s0 fn p 6 0 (num192 (x.number % 2 ^ 64))) ∧
      (may → bad = none → ∃ t, ans c t (num192 top) ∧ t.tw.ownLow = true ∧ t.tw.ownHigh = true ∧ t.tw.tookOver = true ∧ t.tw.mark = top ∧
        top < t.fs.next ∧ s.tw.peerLimit ≤ t.fs.next ∧
        ((∃ x ∈ l, x.effects ≠ []) → t.tw.taking = true ∧ t.fs.takeHold = true ∧ ∀ x ∈ l, takenClause s x ∈ t.fs.window))) ∧
    (Starts s fn p 0x0605 → ans (.admTwinStatus fn p) s0 (num192 (s.tw.state.toNat + 2 ^ 64 * (BitVec.ofInt 64 s.tw.theta).toNat))) ∧
    (∀ fails, Starts s fn p 0x0801 → let c := Instr.admSelfTest fn p fails
      let mask := pkF p 8 4
      (512 ≤ mask → no c 2 8) ∧ (mask < 512 → testReady s mask = false → no c 5 0) ∧
      (mask < 512 → testReady s mask = true →
        ((∀ f ∈ fails, f.1.toNat = 0 → mask.testBit 0 = false) → ans c (runTests mask fails s0) (num192 (failedMask mask fails))) ∧
        (∀ f ∈ fails, f.1.toNat = 0 → mask.testBit 0 = true → ∃ t, exec c s = .next t ∧ t.cp.faulted = true))) ∧
    (Starts s fn p 0x0802 → let c := Instr.admLinkTest fn p
      let qs : Word := p.extractLsb' 64 32
      let at_ : Dword := p.extractLsb' 128 64
      let quiet : Prop := (∀ q < 32, qs.getLsbD q = true → (getQ s q).portEn = 0) ∧ s.lk.test = none ∧ (s.tw.state = 3 → s.tw.aligned = true)
      let sound : Prop := ∀ q < 32, qs.getLsbD q = true → quadFenced s q = false
      (at_.toNat < s.dev.tick.toNat + 100000 → no c 2 16) ∧ (s.dev.tick.toNat + 100000 ≤ at_.toNat → ¬ sound → no c 9 0) ∧
      (s.dev.tick.toNat + 100000 ≤ at_.toNat → sound → (¬ quiet → no c 5 0) ∧
        (quiet → ∃ t, waits c t .linkTest ∧ t.lk.test = some (at_, qs, false) ∧
          (s.tw.state = 3 → ({ action := 3, tick := at_, mine := true } : Launch) ∈ t.tw.launches)))) ∧
    (∀ at_ qs, s.lk.test = some (at_, qs, false) → s.tw.state ≠ 3 → s.pwr.sleep ≠ .deep →
      exec .linkTestLaunch s = .next (let t := reachTick s at_.toNat; { t with lk := { t.lk with test := some (at_, qs, true) } })) ∧
    (∀ at_ qs failed, s.lk.test = some (at_, qs, true) → s.pwr.sleep ≠ .deep → ∃ t, exec (.linkTestEnd failed) s = .next t ∧ t.lk.test = none ∧ s.dev.tick.toNat ≤ t.dev.tick.toNat ∧
      (∀ h ∈ t.hp.held, h.why ≠ .linkTest)) ∧
    (s.lk.test = none ∨ s.pwr.sleep = .deep → exec .linkTestLaunch s = .next s ∧ ∀ failed, exec (.linkTestEnd failed) s = .next s) ∧
    (Starts s fn p 0x0803 → let c := Instr.admLogRead fn p
      let o := pkF p 8 4
      let n := min (pkF p 24 4) (logRegion - o)
      (o % 64 ≠ 0 ∨ logRegion ≤ o → no c 2 8) ∧ (o % 64 = 0 → o < logRegion → iovaBad a 1 = true → no c 2 16) ∧
      (o % 64 = 0 → o < logRegion → iovaBad a 1 = false →
        (hostFault s a n = none → ans c (writeHostRaw s0 a (logRead s o n)) (num192 n)) ∧
        (∀ d, hostFault s a n = some d → Answers (exec c s) s0 fn p 8 0 (d.setWidth 192))))

/-- 08 R236, R238 to R240, R242, R273, Tables 8-3 and 8-4: an enabled port moves one state at a time towards up, enumerates its
device, recovers, sleeps and falls, each change pulsing its quad's source; errors and misses are counted; device requests reach
only the port's region of buffer DRAM. The queues' place in the region is the model's choice (log entry 22). -/
def Obligations.PortStates : Prop :=
  ∀ (s : State) (q : BitVec 5) (p : BitVec 2) (l : LinkUp),
    let x := getPort s q.toNat p.toNat
    let prof := (getQ s q.toNat).profile
    let goes (r : Host.Outcome State Fault Refusal) (y : Port) : Prop :=
      ∃ t, r = .next t ∧ PortIs s t q.toNat p.toNat y ∧ t.evt.icPend.getLsbD q.toNat = true
    let falls (r : Host.Outcome State Fault Refusal) (st : BitVec 3) (cause : BitVec 4) : Prop :=
      ∃ t, r = .next t ∧ (getPort t q.toNat p.toNat).state = st ∧ (getPort t q.toNat p.toNat).cause = cause ∧
        (getPort t q.toNat p.toNat).rate = 0 ∧ t.evt.icPend.getLsbD q.toNat = true
    let counts (r : Host.Outcome State Fault Refusal) (i : Nat) : Prop := ∃ t, r = .next t ∧ Counted s t q.toNat p.toNat i
    (portOn s q.toNat p.toNat = true →
      (prof = 1 ∨ prof = 2 → x.state = 1 → l.state = 2 → goes (exec (.portLinkUp q p l) s) { x with state := 2 }) ∧
      (prof = 1 → x.state = 2 → l.state = 3 → goes (exec (.portLinkUp q p l) s) { x with state := 3 }) ∧
      (prof = 1 → x.state = 3 → l.state = 4 → linkLegal (getQ s q.toNat) l = true →
        (∀ bars, l.device.bridge = false → placeBars 0 (barsOf l.device) = some bars →
          let y : Port := { x with state := 4, rate := l.rate, width := l.width
                                   pp := { x.pp with device := some l.device, bars := bars, payload := maxPayload l.device } }
          (x.pp.pairs = [] → x.pp.rings = [] → l.device.nvme = none ∨ x.pp.size = 0 → ∃ t, exec (.portLinkUp q p l) s = .next t ∧
            PortIs s t q.toNat p.toNat y ∧ t.evt.icPend.getLsbD q.toNat = true ∧ ∀ w ∈ (setUp s q.toNat p.toNat l.device bars).out, w ∈ t.out) ∧
          ∃ t, exec (.portLinkUp q p l) s = .next t ∧ t.evt.icPend.getLsbD q.toNat = true ∧
            let z := getPort t q.toNat p.toNat
            z.state = 4 ∧ z.rate = l.rate ∧ z.width = l.width ∧ z.pp.device = some l.device ∧ z.pp.bars = bars ∧ z.pp.payload = maxPayload l.device ∧
            (l.device.nvme.isSome = true → x.pp.size ≠ 0 → (aget z.pp.pairs 0).map (·.entries) = some 32)) ∧
        (l.device.bridge = true ∨ placeBars 0 (barsOf l.device) = none → falls (exec (.portLinkUp q p l) s) 0 8)) ∧
      (prof = 1 → x.state = 5 ∨ x.state = 6 → l.state = 4 → linkLegal (getQ s q.toNat) l = true →
        goes (exec (.portLinkUp q p l) s) { x with state := 4, rate := l.rate, width := l.width }) ∧
      (prof = 2 → x.state = 2 → l.state = 4 → x.ep.txq = [] → goes (exec (.portLinkUp q p l) s)
        { x with state := 4, rate := 6 + (getQ s q.toNat).arrange.setWidth 4, width := BitVec.ofNat 3 (lanesOf (getQ s q.toNat)) })) ∧
    (portOn s q.toNat p.toNat = false → exec (.portLinkUp q p l) s = .next s) ∧
    (∀ cause : BitVec 4, (lossCause prof.toNat cause.toNat = true → 2 ≤ x.state.toNat → portOps s q.toNat p.toNat = [] →
        falls (exec (.portLinkDown q p cause) s) 1 cause) ∧
      (lossCause prof.toNat cause.toNat = false ∨ x.state.toNat < 2 → exec (.portLinkDown q p cause) s = .next s)) ∧
    (prof = 1 → x.state = 4 ∨ x.state = 6 → ∃ t, exec (.portRecoveryEntry q p) s = .next t ∧ Counted s t q.toNat p.toNat 7 ∧
      (getPort t q.toNat p.toNat).state = 5 ∧ t.evt.icPend.getLsbD q.toNat = true) ∧
    (prof = 1 → x.state = 4 → goes (exec (.portLowPowerEntry q p) s) { x with state := 6 }) ∧
    (prof = 1 → portUp x = true →
      counts (exec (.pcieErrorMessage q p .correctable) s) 4 ∧ counts (exec (.pcieErrorMessage q p .nonFatal) s) 5 ∧
      (portOps s q.toNat p.toNat = [] → falls (exec (.pcieErrorMessage q p .fatal) s) 1 6 ∧ counts (exec (.pcieErrorMessage q p .fatal) s) 5) ∧
      (∀ a n, (inRegion x.pp a.toNat n.toNat = true → exec (.inboundMemoryRequest q p (.read a n)) s =
          .next (emit s (.inbound q.toNat p.toNat true (getBytes s.mem.dram a.toNat n.toNat) (dramPoisoned s a.toNat n.toNat)))) ∧
        (inRegion x.pp a.toNat n.toNat = false → counts (exec (.inboundMemoryRequest q p (.read a n)) s) 6)) ∧
      (∀ a d, (inRegion x.pp a.toNat d.length = true → exec (.inboundMemoryRequest q p (.write a d)) s = .next (writeDram s a.toNat d)) ∧
        (inRegion x.pp a.toNat d.length = false → counts (exec (.inboundMemoryRequest q p (.write a d)) s) 6)) ∧
      (∀ fn vector, x.pp.device = none → x.pp.rings = [] → counts (exec (.inboundMsixWrite q p fn vector) s) 6)) ∧
    (portUp x = false → (∀ r, exec (.inboundMemoryRequest q p r) s = .next s) ∧ (∀ fn v, exec (.inboundMsixWrite q p fn v) s = .next s) ∧
      ∀ e, exec (.pcieErrorMessage q p e) s = .next s)

/-- 08 R243, R249, R251, R268, R270, R272: a completion or a done descriptor is taken when its phase or flag says so; an
operation ends, runs out of time, or is sent again after a busy wait. -/
def Obligations.DeviceQueuesAndOperations : Prop :=
  ∀ (s : State) (q : BitVec 5) (p : BitVec 2), let x := getPort s q.toNat p.toNat
    (∀ (pair : BitVec 7) (k : NvPair), portUp x = true → aget x.pp.pairs pair.toNat = some k →
      let dword (k : NvPair) (o : Nat) : Nat := ofLE (getBytes s.mem.dram (k.cqBase + 16 * k.cqHead + o) 4)
      let isNew (k : NvPair) : Prop := (dword k 12 / 2 ^ 16 % 2 = 1) ↔ k.phase = true
      let k' : NvPair := { k with cqHead := (k.cqHead + 1) % k.entries, phase := if (k.cqHead + 1) % k.entries = 0 then !k.phase else k.phase
                                  sqHead := dword k 8 % 65536 % k.entries }
      (¬ isNew k → exec (.cqScanTimer q p pair) s = .next s) ∧
      (isNew k → ¬ isNew k' → 2 ≤ k.entries → portOps s q.toNat p.toNat = [] → (getQ s q.toNat).profile = 1 → isFenced s = false →
        ∃ t, exec (.cqScanTimer q p pair) s = .next t ∧ aget (getPort t q.toNat p.toNat).pp.pairs pair.toNat = some k' ∧
          t.out = s.out ++ [.barWrite q.toNat p.toNat (((x.pp.device.bind (·.nvme)).map (·.toNat)).getD 0) 0
            (0x1004 + 8 * pair.toNat) (BitVec.ofNat 32 ((k.cqHead + 1) % k.entries))] ∧ { t with lk := s.lk, out := s.out } = s)) ∧
    (∀ (n : BitVec 4) (r : Ring), portUp x = true → aget x.pp.rings n.toNat = some r → rgMode r.entry = 0 → portOps s q.toNat p.toNat = [] →
      let entry (r : Ring) : List Byte := getBytes s.mem.dram (rgCompBase r.entry + 2 ^ rgCompShift r.entry * r.comp) (2 ^ rgCompShift r.entry)
      let r' : Ring := { r with done := (r.done + 1) % rgEntries r.entry, busy := r.busy - 1, comp := (r.comp + 1) % rgEntries r.entry
                                phase := if (r.comp + 1) % rgEntries r.entry = 0 then !r.phase else r.phase, unread := r.unread ++ [(r.done, entry r)] }
      (r.busy = 0 ∨ bitOf (entry r) (rgFlagBit r.entry) ≠ r.phase → exec (.ringScanTimer q p n) s = .next s) ∧
      (0 < rgEntries r.entry → r.busy = 1 → bitOf (entry r) (rgFlagBit r.entry) = r.phase → (getQ s q.toNat).profile = 1 →
        ∃ t, exec (.ringScanTimer q p n) s = .next t ∧ aget (getPort t q.toNat p.toNat).pp.rings n.toNat = some r' ∧ { t with lk := s.lk } = s)) ∧
    (∀ (op : BitVec 32) (o : DevOp), getOp s op.toNat = some o →
      (o.kind = .ring → o.verb ≠ 0x21 → o.stage = .issued → o.owner = .loose → o.pages = [] →
        (∀ y ∈ portOps s o.q o.p, y.id ≠ o.id → y.stage ≠ .queued) → ∀ data,
        exec (.deviceOperationEnd op data true) s = .next (delOp s op.toNat) ∧
        ((getQ s o.q).profile = 1 → ∃ t, exec (.deviceOperationEnd op data false) s = .next t ∧ Counted s t o.q o.p 1 ∧ getOp t op.toNat = none)) ∧
      (∀ n, o.kind = .ring → o.verb ≠ 0x21 → o.stage = .issued → o.owner = .ccw n → o.pages = [] → outstanding s n = [] →
        (getP s n).cur.map (·.phase) ≠ some (.device o.id) → ∀ data, ∃ t, exec (.deviceOperationEnd op data true) s = .next t ∧
        getOp t op.toNat = some { o with rx := data.take o.count, long := decide (o.count < data.length), stage := .ended devDone 0 0 } ∧
        { t with lk := s.lk } = s) ∧
      (o.kind = .nvme ∨ o.kind = .ring → isEnded o = false → o.owner = .loose → o.pages = [] → (getQ s o.q).profile = 1 →
        (∀ y ∈ portOps s o.q o.p, y.id ≠ o.id → y.stage ≠ .queued) →
        ∃ t, exec (.opTimeoutExpiry op) s = .next t ∧ Counted s t o.q o.p 3 ∧ getOp t op.toNat = none) ∧
      (isEnded o = true → exec (.opTimeoutExpiry op) s = .next s) ∧
      (o.stage ≠ .busyWait → exec (.nvmeResubmit op) s = .next s ∧ exec (.kdlBusyResend op) s = .next s) ∧
      (o.kind = .nvme → o.stage = .busyWait → isFenced s = false →
        exec (.nvmeResubmit op) s = .next ((nvSubmit (setOp s { o with stage := .queued }) { o with stage := .queued }).getD (setOp s { o with stage := .queued }))) ∧
      (o.kind = .kdl → o.stage = .busyWait → isFenced s = false →
        (((portOps s o.q o.p).filter fun x => x.kind == .kdl && x.stage == .issued).length < 1024) → (getQ s o.q).profile = 3 →
        (getPort s o.q o.p).state = 5 →
        ∃ t y, exec (.kdlBusyResend op) s = .next t ∧ getOp t op.toNat = some { o with stage := .issued, rx := [], cid := y } ∧
          (∀ z ∈ portOps s o.q o.p, z.id ≠ o.id → z.kind = .kdl → z.stage = .issued → z.cid ≠ y) ∧
          (getPort t o.q o.p).kp.waiting = (getPort s o.q o.p).kp.waiting ++
            kdlFrames { o with stage := .issued, rx := [], cid := y } (max 1 (getPort s o.q o.p).kp.maxPay)))

/-- 08 R253, R255, R260: a received frame is dropped and counted at the first check it fails, or delivered to the pronoun its
flow or bucket names; pause frames pause the transmit queues; a sent frame leaves the MAC and is counted. -/
def Obligations.EthernetFrames : Prop :=
  ∀ (s : State) (q : BitVec 5) (p : BitVec 2) (l : List Byte) (good : Bool),
    let x := getPort s q.toNat p.toNat
    let counts (r : Host.Outcome State Fault Refusal) (i : Nat) : Prop := ∃ t, r = .next t ∧ Counted s t q.toNat p.toNat i ∧
      { t with lk := s.lk, evt := s.evt, hp := s.hp, out := s.out } = s
    let rx := exec (.ethFrameRx q p l good) s
    let f := parseFrame l
    let sound : Prop := 60 ≤ l.length ∧ l.length ≤ 9596 ∧ good = true
    (eTakes s q.toNat p.toNat = false → rx = .next s ∧ exec (.pauseFrameRx q p l) s = .next s) ∧
    (eTakes s q.toNat p.toNat = true →
      (l.length < 60 → counts rx 5) ∧ (9596 < l.length → counts rx 6) ∧ (60 ≤ l.length → l.length ≤ 9596 → good = false → counts rx 4) ∧
      (sound → isPauseFrame x.ep l = true → (getQ s q.toNat).pause = 0 → counts rx 15 ∧ counts (exec (.pauseFrameRx q p l) s) 15) ∧
      (sound → isPauseFrame x.ep l = true → (getQ s q.toNat).pause ≠ 0 → be16 l 14 = 1 → x.ep.sending.isSome = true →
        ∃ t, rx = .next t ∧ Counted s t q.toNat p.toNat 15 ∧ (getPort t q.toNat p.toNat).ep.paused = (if be16 l 16 = 0 then 0 else 0xFF)) ∧
      (sound → isPauseFrame x.ep l = false → addressed x.ep l = false → counts rx 7) ∧
      (sound → isPauseFrame x.ep l = false → addressed x.ep l = true → ipSumGood l f = false ∨ l4SumGood l f = false → counts rx 8) ∧
      (sound → isPauseFrame x.ep l = false → addressed x.ep l = true → ipSumGood l f = true → l4SumGood l f = true → s.lk.flowEn = false → x.ep.bucketEn = false → counts rx 9) ∧
      (∀ u n, sound → isPauseFrame x.ep l = false → addressed x.ep l = true → ipSumGood l f = true → l4SumGood l f = true →
        classify s q.toNat p.toNat l = (u, some n) → isBound (getP s (resPron n)) = true → (framesFor s (resPron n)).length < (getQ s q.toNat).rxQuota.toNat →
        cellsUsed s q.toNat + (l.length + 255) / 256 ≤ 3071 → (getP s (resPron n)).state = .active →
        ∃ t, rx = .next t ∧ t.lk.rx = s.lk.rx ++ [{ q := q.toNat, p := p.toNat, prn := resPron n, bytes := l }] ∧
          (getP t (resPron n)).framesIn = (getP s (resPron n)).framesIn + 1 ∧ (∀ j ≠ resPron n, getP t j = getP s j))) ∧
    (eUp s q.toNat p.toNat = true →
      (∀ queues, x.ep.sending.isSome = true → exec (.pauseTimerExpiry q p queues) s = .next (setPort s q.toNat p.toNat { x with ep := { x.ep with paused := x.ep.paused &&& ~~~queues } })) ∧
      (x.ep.sending = none → exec (.ethFrameTxDone q p) s = .next s) ∧
      (∀ id fr, x.ep.sending = some (id, fr) → getOp s id = none → x.ep.txq = [] →
        tget 0 x.ctr (ctrAt 2 0) + 1 < 2 ^ 48 → tget 0 x.ctr (ctrAt 2 2) + fr.length + 4 < 2 ^ 48 → ∃ t, exec (.ethFrameTxDone q p) s = .next t ∧
        (getPort t q.toNat p.toNat).ep.sending = none ∧ tget 0 (getPort t q.toNat p.toNat).ctr (ctrAt 2 0) = tget 0 x.ctr (ctrAt 2 0) + 1 ∧
        tget 0 (getPort t q.toNat p.toNat).ctr (ctrAt 2 2) = tget 0 x.ctr (ctrAt 2 2) + fr.length + 4 ∧
        t.out = s.out ++ [.frame q.toNat p.toNat (withFcs fr)])) ∧
    (eUp s q.toNat p.toNat = false → (∀ queues, exec (.pauseTimerExpiry q p queues) s = .next s) ∧ exec (.ethFrameTxDone q p) s = .next s)

/-- 08 R261, R262, Table 8-16: a KDL port trains on eight sets received and sixteen TS2 sent, exchanges INIT in CONFIG and is
then ACTIVE; a time-out takes it down with its cause, and lost block lock retrains it. 08 R263 to R268, Table 8-17: in ACTIVE a
sequenced frame in order is taken, acknowledged and credited once; one already taken is acknowledged again, one ahead answered
by a single NAK, and a FENCED part drops them; acknowledgements free the replay buffer, a NAK or the replay timer sends it
again; INIT outside CONFIG and undefined types are counted and refused. -/
def Obligations.KdlTrainingAndFrames : Prop :=
  (∀ (s : State) (q : BitVec 5) (p : BitVec 2), (getQ s q.toNat).profile = 3 →
    let x := getPort s q.toNat p.toNat
    let k := x.kp
    let pulsed (t : State) : Prop := t.evt.icPend.getLsbD q.toNat = true
    let falls (r : Host.Outcome State Fault Refusal) (cause : BitVec 4) : Prop := ∃ t, r = .next t ∧ (getPort t q.toNat p.toNat).state = 1 ∧
      (getPort t q.toNat p.toNat).cause = cause ∧ pulsed t
    let tx := if 8 ≤ k.tsRx then k.ts2Tx + 1 else k.ts2Tx
    let sent := sendSet s q.toNat p.toNat (if 8 ≤ k.tsRx then 0x2D else 0x1E)
    exec (.kdlSkpRx q p) s = .next s ∧ exec (.kdlEiosRx q p) s = .next s ∧
    (x.state = 1 →
      (k.failed = false → (∃ t, exec (.kdlSignalDetect q p) s = .next t ∧ PortIs s t q.toNat p.toNat { x with state := 2 } ∧ pulsed t) ∧ exec (.kdlRetryDelay q p) s = .next s) ∧
      (k.failed = true → (∃ t, exec (.kdlRetryDelay q p) s = .next t ∧ PortIs s t q.toNat p.toNat { x with state := 2, kp := { k with failed := false } } ∧ pulsed t) ∧ exec (.kdlSignalDetect q p) s = .next s)) ∧
    (x.state = 2 →
      (∀ inv, k.ts2Rx < 8 → exec (.kdlTs1Rx q p inv) s = .next (setPort sent q.toNat p.toNat
        { x with kp := { k with inverted := k.inverted != inv, tsRx := k.tsRx + 1, ts2Tx := tx } })) ∧
      (k.ts2Rx + 1 < 8 ∨ tx < 16 → exec (.kdlTs2Rx q p) s = .next (setPort sent q.toNat p.toNat
        { x with kp := { k with tsRx := k.tsRx + 1, ts2Rx := k.ts2Rx + 1, ts2Tx := tx } })) ∧
      (8 ≤ k.ts2Rx + 1 → 16 ≤ tx → ∃ t, exec (.kdlTs2Rx q p) s = .next t ∧ pulsed t ∧
        let y := getPort t q.toNat p.toNat
        y.state = 3 ∧ y.kp.txSeq = 0 ∧ y.kp.rxSeq = 0 ∧ y.kp.nextOp = 0 ∧ y.kp.replay = [] ∧ y.kp.used = [] ∧ (∀ v < 4, tget 0 y.kp.given v = 1024)) ∧
      falls (exec (.kdlTrainTimeout q p) s) 3) ∧
    (x.state = 3 →
      falls (exec (.kdlConfigTimeout q p) s) 3 ∧
      (∀ f, f.type = 0x13 → kdlGood f = true → f.payload.length = 20 → byteAt f.payload 16 ≤ 4 → exec (.kdlInit q p f) s = .next (setPort s q.toNat p.toNat
        { x with kp := { k with initRx := true, limit := limitOf4 f.payload, maxPay := 256 * 2 ^ byteAt f.payload 16 } })) ∧
      (∀ f, f.type = 0x13 → kdlGood f = false → ∃ t, exec (.kdlInit q p f) s = .next t ∧ Counted s t q.toNat p.toNat 2 ∧
        (getPort t q.toNat p.toNat).kp.nakSent = true) ∧
      (k.initRx = false → exec (.kdlInitSend q p) s = .next (emit (setPort s q.toNat p.toNat { x with kp := { k with initTx := true } }) (.kdl q.toNat p.toNat (kdlImage (initFrame k))))) ∧
      (k.initRx = true → k.waiting = [] → ∃ t, exec (.kdlInitSend q p) s = .next t ∧ pulsed t ∧
        PortIs s t q.toNat p.toNat { x with state := 4, rate := 9, width := 1, kp := { k with initTx := true } } ∧ (.kdl q.toNat p.toNat (kdlImage (initFrame k))) ∈ t.out)) ∧
    (x.state ≠ 3 → exec (.kdlInitSend q p) s = .next s ∧ exec (.kdlConfigTimeout q p) s = .next s) ∧
    (x.state = 5 → portOps s q.toNat p.toNat = [] → falls (exec (.kdlTrainTimeout q p) s) 4) ∧
    (x.state = 5 → 8 ≤ k.ts2Rx + 1 → 16 ≤ tx → k.waiting = [] → ∃ t, exec (.kdlTs2Rx q p) s = .next t ∧ pulsed t ∧
      (getPort t q.toNat p.toNat).state = 4 ∧ Counted s t q.toNat p.toNat 5 ∧ ∀ g ∈ k.replay, .kdl q.toNat p.toNat (kdlImage g) ∈ t.out) ∧
    (x.state = 4 → k.retrains.length < 7 → ∃ t, exec (.kdlBlockLockLoss q p) s = .next t ∧ (getPort t q.toNat p.toNat).state = 5 ∧
      Counted s t q.toNat p.toNat 6 ∧ pulsed t)) ∧
  (∀ (s : State) (q : BitVec 5) (p : BitVec 2) (f : KdlFrame), (getQ s q.toNat).profile = 3 → (getPort s q.toNat p.toNat).state = 4 → kdlGood f = true →
    let x := getPort s q.toNat p.toNat
    let k := x.kp
    let with_ (y : KPort) : State := setPort s q.toNat p.toNat { x with kp := y }
    let ack : Out := .kdl q.toNat p.toNat (kdlImage (kdlSimple 0x10 (k.rxSeq - 1) []))
    let first := match k.replay with | [] => k.txSeq | g :: _ => frameSeq g
    let n := (frameSeq f - first + 1).toNat
    (f.type = 0x00 → exec (.kdlIdle q p f) s = .next s) ∧
    (isFenced s = true → exec (.kdlData q p f) s = .next s ∧ exec (.kdlStatus q p f) s = .next s ∧ exec (.kdlAttn q p f) s = .next s) ∧
    (f.type = 0x02 → isFenced s = false → frameSeq f = k.rxSeq → ∃ t, exec (.kdlData q p f) s = .next t ∧ (getPort t q.toNat p.toNat).kp.rxSeq = k.rxSeq + 1 ∧
      (∃ limits, t.out = s.out ++ [.kdl q.toNat p.toNat (kdlImage (kdlSimple 0x10 k.rxSeq [])), .kdl q.toNat p.toNat (kdlImage (kdlSimple 0x12 0 limits))]) ∧
      (∀ v < 4, let c : Word := if v = frameVc f then BitVec.ofNat 32 (frameCost f) else 0
        tget 0 k.given v + c ≠ 0 → tget 0 (getPort t q.toNat p.toNat).kp.given v = tget 0 k.given v + c) ∧
      (∀ o, kdlOp s q.toNat p.toNat f.opId = some o → o.verb = 0x22 → o.rx.length ≤ f.value.toNat → f.value.toNat + f.payload.length ≤ o.count →
        ∃ o', getOp t o.id = some o' ∧ o'.rx = padTo f.value.toNat o.rx ++ f.payload ∧ o'.long = o.long) ∧ { t with lk := s.lk, out := s.out } = s) ∧
    (f.type = 0x02 → isFenced s = false → k.rxSeq ≠ frameSeq f → (k.rxSeq - frameSeq f).toNat ≤ 2048 → exec (.kdlData q p f) s = .next (emit s ack)) ∧
    (f.type = 0x02 → isFenced s = false → 2048 < (k.rxSeq - frameSeq f).toNat → k.nakSent = true → exec (.kdlData q p f) s = .next s) ∧
    (f.type = 0x02 → isFenced s = false → 2048 < (k.rxSeq - frameSeq f).toNat → k.nakSent = false → ∃ t, exec (.kdlData q p f) s = .next t ∧
      (getPort t q.toNat p.toNat).kp.nakSent = true ∧ Counted s t q.toNat p.toNat 3 ∧ .kdl q.toNat p.toNat (kdlImage (kdlSimple 0x11 (k.rxSeq - 1) [])) ∈ t.out) ∧
    (f.type = 0x03 → isFenced s = false → frameSeq f = k.rxSeq →
      (kdlOp s q.toNat p.toNat f.opId = none → ∃ t, exec (.kdlStatus q p f) s = .next t ∧ (getPort t q.toNat p.toNat).kp.rxSeq = k.rxSeq + 1 ∧
        Counted s t q.toNat p.toNat 9) ∧
      (∀ o, kdlOp s q.toNat p.toNat f.opId = some o → f.mod.getLsbD 2 = true → o.tries < (getQ s q.toNat).busyRetries.toNat →
        ∃ t, exec (.kdlStatus q p f) s = .next t ∧ (getPort t q.toNat p.toNat).kp.rxSeq = k.rxSeq + 1 ∧ Counted s t q.toNat p.toNat 8 ∧
          getOp t o.id = some { o with stage := .busyWait, tries := o.tries + 1 }) ∧
      (∀ o, kdlOp s q.toNat p.toNat f.opId = some o → f.mod.getLsbD 2 = false → f.mod.getLsbD 1 = false → o.owner = .loose → o.pages = [] →
        (∀ y ∈ portOps s q.toNat p.toNat, y.stage ≠ .queued) →
        ∃ t, exec (.kdlStatus q p f) s = .next t ∧ (getPort t q.toNat p.toNat).kp.rxSeq = k.rxSeq + 1 ∧ getOp t o.id = none)) ∧
    (f.type = 0x04 → isFenced s = false → frameSeq f = k.rxSeq → s.sched.recs = [] → ∃ t, exec (.kdlAttn q p f) s = .next t ∧
      (getPort t q.toNat p.toNat).kp.rxSeq = k.rxSeq + 1 ∧ Counted s t q.toNat p.toNat 10) ∧
    (f.type = 0x10 → k.waiting = [] → (0 < n → n ≤ k.replay.length → exec (.kdlAck q p f) s = .next (with_ { k with replay := k.replay.drop n, stalls := 0 })) ∧
      (n = 0 ∨ k.replay.length < n → isFenced s = false → exec (.kdlAck q p f) s = .next (with_ k))) ∧
    (f.type = 0x12 → k.waiting = [] → exec (.kdlCredit q p f) s = .next (with_ { k with limit := limitOf4 f.payload })) ∧
    (f.type = 0x11 → n = 0 → k.stalls < 3 → k.waiting = [] → ∃ t, exec (.kdlNak q p f) s = .next t ∧ (getPort t q.toNat p.toNat).kp.stalls = k.stalls + 1 ∧
      Counted s t q.toNat p.toNat 4 ∧ Counted s t q.toNat p.toNat 5 ∧ ∀ g ∈ k.replay, .kdl q.toNat p.toNat (kdlImage g) ∈ t.out) ∧
    (k.replay ≠ [] → k.stalls < 3 → ∃ t, exec (.kdlReplayTimeout q p) s = .next t ∧ (getPort t q.toNat p.toNat).kp.stalls = k.stalls + 1 ∧
      Counted s t q.toNat p.toNat 5 ∧ ∀ g ∈ k.replay, .kdl q.toNat p.toNat (kdlImage g) ∈ t.out) ∧
    (k.replay = [] → exec (.kdlReplayTimeout q p) s = .next s) ∧
    (kdlFromController f.type = false ∨ f.type = 0x13 → ∃ t, exec (.kdlUndefinedFrame q p f) s = .next t ∧ Counted s t q.toNat p.toNat 7 ∧
      (getPort t q.toNat p.toNat).kp.nakSent = true))

/-- 11 R335, R342 to R344, R348 to R350, R361, R362, Tables 11-2 and 11-3: HELLO and AUTH check the peer and settle the ranges;
heartbeats measure the offset and step the part behind forward; an accepted launch acts at its tick; a join that fails or times
out returns with its cause. -/
def Obligations.TwinJoinsAndLaunches : Prop :=
  ∀ s : State,
    let fails (r : Host.Outcome State Fault Refusal) (cause : BitVec 4) : Prop := ∃ t, r = .next t ∧ t.tw.failCause = cause ∧
      t.tw.state = s.tw.before ∧ t.tw.hello = [] ∧ t.tw.launches = [] ∧ t.evt.icPend.getLsbD 234 = true
    let launched (t : State) (a : Byte) : Prop :=
      ({ action := a, tick := s.dev.tick + BitVec.ofNat 64 (2 * s.tw.delta + 100), mine := true } : Launch) ∈ t.tw.launches
    (s.tw.link ≠ 2 → ∀ (a : Dword) (b : List Byte), exec (.twHello b) s = .next s ∧ exec (.twAuth b) s = .next s ∧ exec (.twHeartbeat a b) s = .next s ∧
      exec .twHeartbeatSend s = .next s ∧ exec (.twLaunch a b) s = .next s ∧ exec (.twLaunchAck a b) s = .next s) ∧
    (s.tw.link = 2 →
      (∀ b, (s.tw.state ≠ 1 ∨ b.length ≠ 64 → exec (.twHello b) s = .next s) ∧
        (s.tw.state = 1 → b.length = 64 → pairKey s = none → fails (exec (.twHello b) s) 1) ∧
        (∀ k, s.tw.state = 1 → b.length = 64 → pairKey s = some k → s.tw.hello ≠ [] → exec (.twHello b) s =
          .next (twinSend { s with tw := { s.tw with peerHello := b } } { type := 0x02, param := 0, body := hmacSha256 k (s.tw.hello ++ b) })) ∧
        (∀ k, s.tw.state = 1 → b.length = 64 → pairKey s = some k → s.tw.hello = [] → ∃ t, exec (.twHello b) s = .next t ∧
          t.tw.hello = helloBytes s (Sys2Proof.Config.drbg s.free) ∧ t.tw.peerHello = b)) ∧
      (∀ a, let b := s.tw.peerHello
        let r := exec (.twAuth a) s
        (s.tw.state ≠ 1 ∨ b = [] → r = .next s) ∧
        (s.tw.state = 1 → b ≠ [] → pairKey s = none → fails r 1) ∧
        (∀ k, s.tw.state = 1 → b ≠ [] → pairKey s = some k →
          (a ≠ hmacSha256 k (b ++ s.tw.hello) → fails r 1) ∧
          (a = hmacSha256 k (b ++ s.tw.hello) → helloCause s b ≠ 0 → fails r (helloCause s b)) ∧
          (∀ l h, a = hmacSha256 k (b ++ s.tw.hello) → helloCause s b = 0 → settleBoth s.tw.hello b = some (l, h) → ∃ t, r = .next t ∧ t.tw.state = 2 ∧
            t.tw.ownLow = l ∧ t.tw.ownHigh = h ∧ t.tw.peerCtm.toNat = byteAt b 11 % 256 ∧ t.tw.peerSerial = BitVec.ofNat 64 (ofLE (subBytes b 0 8)) ∧
            s.fs.next ≤ t.fs.next ∧ ofLE (subBytes b 16 8) ≤ t.fs.next))) ∧
      (∀ (param : Dword) (b : List Byte),
        let a1 := ofLE (subBytes b 0 8)
        let b1 := ofLE (subBytes b 8 8)
        let a2 := s.dev.tick.toNat
        let theta : Int := (((b1 : Int) - a1) + ((param.toNat : Int) - a2)).tdiv 2
        let delta := (((a2 : Int) - a1) - ((param.toNat : Int) - b1)).toNat
        let near : Prop := -2 ≤ theta ∧ theta ≤ 2
        let good := min 8 (s.tw.good + 1)
        let bad := min 8 (s.tw.bad + 1)
        let joining : Prop := s.tw.state = 2 ∧ s.tw.stepped = false
        let r := exec (.twHeartbeat param b) s
        (a1 = 0 → r = .next { s with tw := { s.tw with hbParam := param, hbAt := s.dev.tick, peerLimit := ofLE (subBytes b 16 8) } }) ∧
        (a1 ≠ 0 → ∃ t, r = .next t ∧ t.tw.hbParam = param ∧ t.tw.hbAt = s.dev.tick ∧ t.tw.theta = theta ∧ t.tw.delta = delta ∧
          (joining → t.tw.stepped = true ∧ t.dev.tick = (if 0 < theta then s.dev.tick + BitVec.ofNat 64 theta.toNat else s.dev.tick)) ∧
          (¬ joining → t.dev = s.dev) ∧
          (¬ joining → near → t.tw.good = good ∧ t.tw.bad = 0 ∧ (good = 8 → t.tw.aligned = true) ∧ (good < 8 → t.tw.aligned = s.tw.aligned)) ∧
          (¬ joining → ¬ near → t.tw.good = 0 ∧ t.tw.bad = bad ∧ (bad = 8 → t.tw.aligned = false) ∧ (bad < 8 → t.tw.aligned = s.tw.aligned)) ∧
          (t.tw.state = 2 → t.tw.stepped = true → t.tw.aligned = true → t.tw.copied = true))) ∧
      exec .twHeartbeatSend s = .next (twinSend s { type := 0x03, param := s.dev.tick, body := toLE 8 s.tw.hbParam.toNat ++ toLE 8 s.tw.hbAt.toNat ++ toLE 8 s.fs.limit ++ List.replicate 8 0 }) ∧
      (∀ (a : Byte) (at_ : Dword) (z : List Byte), let r := exec (.twLaunch at_ (a :: z)) s
        let answer (u : State) (ok : Byte) : Prop := r = .next (twinSend u { type := 0x08, param := at_, body := ok :: List.replicate 7 0 })
        (launchFits s a at_ = false → answer s 0) ∧
        (launchFits s a at_ = true → ∃ u, answer u 1 ∧ ({ action := a, tick := at_, mine := false } : Launch) ∈ u.tw.launches ∧
          u.tw.state = (if a = 2 ∧ s.tw.state = 3 then 7 else s.tw.state))) ∧
      (∀ (at_ : Dword) (k : Byte) (z : List Byte),
        let mine := s.tw.launches.find? fun l => l.mine && !l.acked && l.tick == at_
        let r := exec (.twLaunchAck at_ (k :: z)) s
        (mine = none → r = .next s) ∧
        (∀ l, mine = some l → k.getLsbD 0 = false → ∃ t, r = .next t ∧ (∀ x ∈ t.tw.launches, x.action ≠ l.action) ∧ t.evt.icPend.getLsbD 236 = true ∧
          (l.action ≠ 3 → l.action ∈ t.tw.wants) ∧ (l.action = 3 → t.lk.test = none)) ∧
        (∀ l, mine = some l → k.getLsbD 0 = true → s.dev.tick.toNat < at_.toNat → ∃ t, r = .next t ∧ { l with acked := true } ∈ t.tw.launches ∧
          { t with tw := s.tw, hp := s.hp, mem := s.mem, out := s.out } = s ∧ (l.action ≠ 2 → t.hp = s.hp) ∧
          (l.action = 2 → ∀ h ∈ t.hp.held, h.why ≠ .unpair)) ∧
        (∀ l, mine = some l → k.getLsbD 0 = true → at_.toNat ≤ s.dev.tick.toNat →
          r = .next (launchAct (twinCount (launchAgreed (dropLaunch s l.action) l.action) 5) l.action)))) ∧
    (∃ t, exec .twAlignmentTimeout s = .next t ∧ t.tw.aligned = false ∧ t.tw.good = 0 ∧
      (s.tw.aligned = true → t.evt.icPend.getLsbD 229 = true ∧ tget 0 t.tw.ctr 4 = satInc (tget 0 s.tw.ctr 4))) ∧
    (∀ a : Byte, let r := exec (.twLaunchTick a) s
      (getLaunch s a = none → r = .next s) ∧
      (∀ l, getLaunch s a = some l → l.mine = true → l.acked = false → r = .next (reachTick s l.tick.toNat)) ∧
      (∀ l, getLaunch s a = some l → l.mine = false ∨ l.acked = true → ∃ t, r = .next t ∧ l.tick.toNat ≤ t.dev.tick.toNat ∧
        (∀ x ∈ t.tw.launches, x.action ≠ a) ∧
        (a = 1 → s.tw.state = 2 → t.tw.state = 3 ∧ t.tw.joined = true ∧ t.tw.fenceOut = false ∧ t.evt.icPend.getLsbD 233 = true) ∧
        (a = 2 → s.tw.state = 7 → (∀ c ∈ s.fs.window, c.committed = true) → s.tw.shadowWait = [] → t.tw.state = 0 ∧ t.tw.shadow = []) ∧
        (a = 2 → s.tw.state = 7 → (∃ c ∈ s.fs.window, c.committed = false) → t.tw.state = 7 ∧ t.tw.unpairing = true) ∧
        (∀ at_ qs go, a = 3 → s.lk.test = some (at_, qs, go) → t.lk.test = some (at_, qs, true)) ∧
        (a = 4 → s.tw.state = 3 → t.evt.icPend.getLsbD 237 = true ∧ t.tw.tookOver = false ∧ (if s.tw.id = true then t.tw.ownHigh else t.tw.ownLow) = true ∧
          (s.tw.tookOver = true → (if s.tw.id = true then t.tw.ownLow else t.tw.ownHigh) = false)))) ∧
    (∀ a : Byte, (a ∈ s.tw.wants → s.tw.aligned = true → ∃ t, exec (.twLaunchRetry a) s = .next t ∧ launched t a ∧ a ∉ t.tw.wants) ∧
      (a ∉ s.tw.wants ∨ s.tw.aligned = false → exec (.twLaunchRetry a) s = .next s)) ∧
    (s.tw.state = 1 → s.tw.link ≠ 2 → fails (exec .twJoinLinkTimeout s) 8) ∧
    (s.tw.state ≠ 1 ∨ s.tw.link = 2 → exec .twJoinLinkTimeout s = .next s) ∧
    (s.tw.state = 2 → s.tw.stepped = true → s.tw.aligned = false → fails (exec .twJoinAlignTimeout s) 9) ∧
    (s.tw.state ≠ 2 ∨ s.tw.stepped = false ∨ s.tw.aligned = true → exec .twJoinAlignTimeout s = .next s) ∧
    (let r := exec .regionCopySent s
      let sent : Prop := (∀ m ∈ s.tw.txq, m.type ≠ 0x20) ∧ s.tw.restBulk = []
      let done : Prop := s.tw.state = 2 ∧ s.tw.copied = true ∧ s.tw.mirrorsSent = false
      (¬ sent → r = .next s) ∧
      (sent → done → ∃ t, r = .next t ∧ t.tw.mirrorsSent = true ∧ (s.tw.id = false → s.tw.aligned = true → launched t 1) ∧
        (s.tw.id = true → t.tw.launches = s.tw.launches)) ∧
      (sent → s.tw.state = 3 → s.tw.handing = true → s.tw.aligned = true → ∃ t, r = .next t ∧ t.tw.handing = false ∧ launched t 4) ∧
      (sent → ¬ done → s.tw.state ≠ 3 ∨ s.tw.handing = false → r = .next s))

/-- 11 R335 to R339, R345 to R347, R351 to R356, 16 R479, Table 11-1: mirrors enter the shadow and are acknowledged, lines enter
the copies, posts and acknowledgements reach mailboxes; flits are taken in order, acknowledged, refused and replayed; a lost
twin and each fence change the state as Table 11-3 says, and an asserted FENCE_IN fences the part. The model's choices: a MIRROR
is acknowledged in DETACHED (log entry 84), a MAILBOX of operation 2 or 3 is rejected at block 11 (log entry 73). -/
def Obligations.TwinMessagesAndFences : Prop :=
  ∀ s : State,
    let counted (t : State) (i : Nat) : Prop := tget 0 t.tw.ctr i = satInc (tget 0 s.tw.ctr i)
    let rejects (r : Host.Outcome State Fault Refusal) : Prop := ∃ t, r = .next t ∧ Rejected 11 s t
    let completes (r : Host.Outcome State Fault Refusal) : Prop := ∃ t, r = .next t ∧ t.tw.state = 5 ∧ t.tw.fencing = 0 ∧ t.tw.launches = [] ∧
      t.evt.icPend.getLsbD 226 = true ∧ ∀ c ∈ t.fs.window, c.committed = true
    let fenced (t : State) : Prop := t.tw.state = 6 ∧ (s.tw.state ≠ 6 → t.fs.stopped = true ∧ t.tw.launches = [] ∧ t.tw.fencing = 0 ∧
      t.evt.icPend.getLsbD 228 = true ∧ t.tw.wasPaired = (decide (s.tw.state = 3) || decide (s.tw.state = 4) || decide (s.tw.state = 7)))
    let image (x : Twin) (f : Flit) : List Byte := let b := flitBody { f with ackSeq := x.rxSeq - 1, ackValid := true }; b ++ toLE 4 (crc32c b).toNat
    let idle : Prop := s.tw.txq = [] ∧ s.tw.restCtl = [] ∧ s.tw.restBulk = []
    let resent (t : State) : Prop := counted t 1 ∧ ∀ f ∈ s.tw.replay, .flit (image s.tw f) ∈ t.out
    let again (r : Host.Outcome State Fault Refusal) : Prop := ∃ t, r = .next t ∧ resent t ∧
      (s.tw.stalls < 3 → t.tw.stalls = s.tw.stalls + 1 ∧ t.tw.link = 2) ∧ (3 ≤ s.tw.stalls → t.tw.link = 1 ∧ t.tw.stalls = 0 ∧ t.evt.icPend.getLsbD 231 = true ∧ counted t 2)
    let null (x : Twin) (nak : Bool) : Out := .flit (image x (nullFlit nak))
    (s.tw.link ≠ 2 → ∀ (a : Dword) (b : List Byte) (f : Flit) (y : Byte) (k : Bool), exec (.twMirror a b) s = .next s ∧ exec (.twMirrorAck a) s = .next s ∧
      exec (.twReleased a) s = .next s ∧ exec (.twCtmCopy a b) s = .next s ∧ exec (.twCtmWrite a b) s = .next s ∧ exec (.twRegResp a b) s = .next s ∧
      exec (.twMailbox a b) s = .next s ∧ exec (.twFenceMsg a) s = .next s ∧ exec (.twFenceAck a) s = .next s ∧ exec (.twMalidFlitRx f) s = .next s ∧
      exec (.twMalidUndefMessage y k) s = .next s ∧ exec .twMalidReplayTimeout s = .next s) ∧
    (s.tw.link = 2 →
      (∀ (param : Dword) (b : List Byte), let c := parseMirror (!(ownRange s (mirrorPrn b))) b
        let takes : Prop := s.tw.state = 2 ∨ s.tw.state = 3 ∨ s.tw.state = 7
        let num := mirrorNumber b
        let ack (u : State) : State := twinSend { u with tw := { u.tw with rxMark := num } } { type := 0x04, param := BitVec.ofNat 64 num, body := [] }
        (BitVec.ofNat 64 num ≠ param ∨ (¬ takes ∧ s.tw.state ≠ 0) → exec (.twMirror param b) s = .next s) ∧
        (BitVec.ofNat 64 num = param → s.tw.state = 0 → exec (.twMirror param b) s = .next (ack s)) ∧
        (BitVec.ofNat 64 num = param → takes → s.tw.shadowWait = [] →
          (shadowRoom s c = true → exec (.twMirror param b) s =
            .next (ack (let u := storeRecord s c; { u with tw := { u.tw with shadow := s.tw.shadow ++ [c] } }))) ∧
          (shadowRoom s c = false → exec (.twMirror param b) s = .next { s with tw := { s.tw with shadowWait := [c] } })) ∧
        (let a := param.toNat / 64 * 64
          ∀ i, (i = Instr.twCtmCopy param b ∨ i = Instr.twCtmWrite param b) →
            (¬ takes ∨ b.length ≠ 64 → exec i s = .next s) ∧
            (takes → b.length = 64 → param.getLsbD 0 = true → a + 64 ≤ ctmBytes s → exec i s = .next (writeDram s (ctmPhys s a) b)) ∧
            (takes → b.length = 64 → param.getLsbD 0 = false → a + 64 ≤ s.tw.peerCtm.toNat * unit256 → exec i s = .next (writeDram s (s.tw.ctmBase.toNat * unit256 + a) b)) ∧
            (takes → b.length = 64 → (if param.getLsbD 0 = true then ctmBytes s else s.tw.peerCtm.toNat * unit256) < a + 64 → exec i s = .next s)) ∧
        exec (.twRegResp param b) s = .next { s with tw := { s.tw with regResp := s.tw.regResp ++ [(param, BitVec.ofNat 32 (ofLE (b.take 4)))] } } ∧
        (let m := param.toNat % 64
          let op := param.toNat / 64 % 4
          let x := getMbx s m
          let r := exec (.twMailbox param b) s
          (op = 2 ∨ op = 3 → rejects r) ∧
          (op = 0 → x.valid = false ∨ x.sender ≠ 0x90 → rejects r) ∧
          (op = 0 → x.valid = true → x.sender = 0x90 → (x.full = true → r = .next (setMbx s m { x with refused := true })) ∧
            (x.full = false → r = .next (mbxPostOp (setMbx s m { x with data := BitVec.ofNat 256 (ofLE (padTo 32 b)) }) m true))) ∧
          (op = 1 → x.valid = false ∨ x.receiver ≠ 0x90 → rejects r) ∧
          (op = 1 → x.valid = true → x.receiver = 0x90 → (x.full = false → r = .next s) ∧
            (x.full = true → ∃ t, r = .next t ∧ t.evt.icPend.getLsbD (160 + m) = true ∧ { t with evt := s.evt, hp := s.hp, out := s.out } = s)))) ∧
      (∀ n : Dword, let r := exec (.twMirrorAck n) s
        (s.tw.state ≠ 2 → s.tw.state ≠ 3 → s.tw.state ≠ 4 → s.tw.state ≠ 7 → r = .next s) ∧
        (s.tw.state = 2 ∨ s.tw.state = 3 ∨ s.tw.state = 4 ∨ s.tw.state = 7 → ∃ t, r = .next t ∧ t.fs.window.map (·.number) = s.fs.window.map (·.number) ∧
          ∀ c ∈ t.fs.window, c.number ≤ n.toNat → c.committed = true ∧ c.mirrored = true)) ∧
      (∀ n : Dword, s.tw.state ≠ 7 → s.tw.shadowWait = [] → exec (.twReleased n) s =
        .next (let t := (s.tw.shadow.filter fun c => decide (c.number ≤ n.toNat)).foldl applyShadow s
          { t with tw := { t.tw with shadow := s.tw.shadow.filter fun c => decide (n.toNat < c.number)
                                     places := s.tw.places.filter fun e => decide (n.toNat < e.1) } })) ∧
      (∀ f : Flit, let r := exec (.twMalidFlitRx f) s
        let ahead := (s.tw.rxSeq - f.seq).toNat
        let first := match s.tw.replay with | [] => s.tw.txSeq | g :: _ => g.seq
        let n := (f.ackSeq - first + 1).toNat
        (flitGood f = false → s.tw.nakSent = true → ∃ t, r = .next t ∧ counted t 0 ∧ t.tw.nakSent = true) ∧
        (flitGood f = false → s.tw.nakSent = false → ∃ t, r = .next t ∧ counted t 0 ∧ t.tw.nakSent = true ∧ null s.tw true ∈ t.out) ∧
        (flitGood f = true → idle → f.nak = false →
          (f.null = true → f.ackValid = false → r = .next s) ∧
          (f.null = true → f.ackValid = true → (n = 0 ∨ s.tw.replay.length < n → r = .next s) ∧
            (n ≠ 0 → n ≤ s.tw.replay.length → r = .next { s with tw := { s.tw with replay := s.tw.replay.drop n, stalls := 0 } })) ∧
          (f.null = false → f.ackValid = false → (f.seq = s.tw.rxSeq →
              let x : Twin := { s.tw with rxSeq := s.tw.rxSeq + 1, nakSent := false }
              r = .next { s with tw := x, out := s.out ++ [null x false] }) ∧
            (f.seq ≠ s.tw.rxSeq → ahead ≤ 2048 → r = .next { s with out := s.out ++ [null s.tw false] }) ∧
            (2048 < ahead → s.tw.nakSent = true → r = .next s) ∧
            (2048 < ahead → s.tw.nakSent = false → r = .next { s with tw := { s.tw with nakSent := true }, out := s.out ++ [null s.tw true] }))) ∧
        (flitGood f = true → f.null = true → f.nak = true → f.ackValid = false ∨ n = 0 → idle → again r)) ∧
      (s.tw.replay = [] → exec .twMalidReplayTimeout s = .next s) ∧ (s.tw.replay ≠ [] → again (exec .twMalidReplayTimeout s)) ∧
      (∀ y k, (isTwinMessage y k = true → exec (.twMalidUndefMessage y k) s = .next s) ∧
        (isTwinMessage y k = false → ∃ t, exec (.twMalidUndefMessage y k) s = .next t ∧ counted t 3)) ∧
      (∀ a : Dword, (s.dev.tick.toNat < a.toNat → exec (.twFenceMsg a) s = .next { s with tw := { s.tw with stopAt := some a } }) ∧
        (a.toNat ≤ s.dev.tick.toNat → ∃ u, exec (.twFenceMsg a) s = .next (twinSend u { type := 0x06, param := u.dev.tick, body := [] }) ∧ u.dev.tick = s.dev.tick ∧ fenced u) ∧
        (s.tw.fencing = 1 ∨ s.tw.fencing = 2 → completes (exec (.twFenceAck a) s)) ∧
        (s.tw.fencing ≠ 1 → s.tw.fencing ≠ 2 → exec (.twFenceAck a) s = .next s))) ∧
    (s.tw.link = 1 → exec .twMalidTrainTimeout s = .next { s with tw := { s.tw with link := 0 } }) ∧ (s.tw.link ≠ 1 → exec .twMalidTrainTimeout s = .next s) ∧
    (s.tw.link = 0 → quadsPowered s = true → exec .malidRetryDelay s = .next { s with tw := { s.tw with link := 1 } }) ∧
    (s.tw.link ≠ 0 ∨ quadsPowered s = false → exec .malidRetryDelay s = .next s) ∧
    (s.tw.link = 1 → quadsPowered s = true → ∃ t, exec .malidLinkActive s = .next t ∧ t.tw.link = 2 ∧ t.tw.stalls = 0 ∧ t.evt.icPend.getLsbD 232 = true ∧
      (∀ f ∈ s.tw.replay, .flit (image s.tw f) ∈ t.out) ∧ (s.tw.state = 1 → s.tw.hello = [] → t.tw.hello = helloBytes s (Sys2Proof.Config.drbg s.free))) ∧
    (s.tw.link ≠ 1 ∨ quadsPowered s = false → exec .malidLinkActive s = .next s) ∧
    (let r := exec .twTwinLoss s;
      (s.tw.state ≠ 2 → s.tw.state ≠ 3 → s.tw.state ≠ 7 → r = .next s) ∧
      (s.tw.state = 2 → ∃ t, r = .next t ∧ t.tw.failCause = 10 ∧ t.tw.state = s.tw.before ∧ t.evt.icPend.getLsbD 225 = true ∧ counted t 6) ∧
      (s.tw.state = 3 ∨ s.tw.state = 7 → ∃ t, r = .next t ∧ t.tw.state = 4 ∧ t.tw.launches = [] ∧ t.evt.icPend.getLsbD 225 = true ∧ counted t 6 ∧
        (s.tw.autoFence = false → t.tw.fencing = s.tw.fencing ∧ t.tw.fenceOut = s.tw.fenceOut) ∧
        (s.tw.autoFence = true → t.tw.fencing = (if s.tw.fenceMode = 0 then 3 else if s.tw.fenceMode = 1 then 1 else if s.tw.link = 2 then 2 else 3)))) ∧
    (s.tw.stopAt = none ∨ s.pwr.sleep = .deep → exec .fenceTick s = .next s) ∧
    (∀ a, s.tw.stopAt = some a → s.pwr.sleep ≠ .deep → ∃ u, exec .fenceTick s = .next (twinSend u { type := 0x06, param := u.dev.tick, body := [] }) ∧ a.toNat ≤ u.dev.tick.toNat ∧ fenced u) ∧
    (s.tw.fencing = 3 → completes (exec .twPinFenceComplete s)) ∧ (s.tw.fencing ≠ 3 → exec .twPinFenceComplete s = .next s) ∧
    (s.tw.fencing = 1 → ∃ t, exec .twLinkFenceTimeout s = .next t ∧ t.tw.fencing = 0 ∧ t.evt.icPend.getLsbD 227 = true ∧ t.tw.state = s.tw.state) ∧
    (s.tw.fencing = 2 → exec .twLinkFenceTimeout s = .next { s with tw := { s.tw with fenceOut := true, fencing := 3 } }) ∧
    (s.tw.fencing ≠ 1 → s.tw.fencing ≠ 2 → exec .twLinkFenceTimeout s = .next s) ∧
    (∀ (ns : BitVec 32) (held : Bool), let r := exec (.twFenceInAssert ns held) s
      (ns.toNat < 5 → r = .next s) ∧ (5 ≤ ns.toNat → ns.toNat < 100 → r = .fault .forbiddenPulse) ∧
      (100 ≤ ns.toNat →
        (s.pwr.sleep ≠ .awake → r = .next { s with tw := { s.tw with fenceIn := true } }) ∧
        (s.pwr.sleep = .awake → s.rst.booted = false ∨ logicRuns s = false ∨ (s.tw.id = true ∧ s.tw.fenceOut = true) → r = .next { s with tw := { s.tw with fenceIn := held } }) ∧
        (s.pwr.sleep = .awake → s.rst.booted = true → logicRuns s = true → s.tw.id = false ∨ s.tw.fenceOut = false → ∃ t, r = .next t ∧ fenced t ∧ t.tw.fenceIn = held)))

/-- 12 R377 to R384, 16 R469, R470: a good frame is taken, the charger follows its rule and HOLDUP_OK the energy; a check moves
the bus and ends with CAP; requests act while the die takes them; a declared failure drains an awake part and stops any other.
-/
def Obligations.HoldupDie : Prop :=
  ∀ s : State,
    let h := s.hu
    let hu (y : Hu) : State := { s with hu := y }
    let full (y : Hu) : Prop := vTarget y ≤ y.vcap.toNat
    let takes : Prop := h.on = true ∧ h.linkOk = true ∧ h.failLine = false
    let check : Prop := takes ∧ h.checking = false ∧ h.gate = 1
    let bank : Hu := { h with failLine := true, gate := 2, charging := false, checking := false, again := false }
    let logic (t : State) : Prop :=
      (s.pwr.drain = none → s.rst.held = false → s.rst.fwReady = true → s.pwr.sleep = .awake → Drains s t 1 none ∧ t.pwr.failed = true) ∧
      (∀ d, s.pwr.drain = some d → t.pwr.failed = true ∧ ∃ d', t.pwr.drain = some d' ∧ d'.cause = d.cause ∧ d'.save = d.save) ∧
      (s.pwr.drain = none → s.rst.held = false → s.rst.fwReady = false ∨ s.pwr.sleep ≠ .awake → t.rst.held = true ∧ t.pwr.drain = none ∧ t.nv = s.nv)
    (∀ (good : Bool) (hv vcap : BitVec 12), let r := exec (.huStatusFrame good hv vcap) s
      (h.on = false → r = .next s) ∧
      (h.on = true → good = false → ∃ t, r = .next t ∧ t.evt.icPend.getLsbD 263 = true ∧ { t with evt := s.evt, hp := s.hp, out := s.out } = s) ∧
      (h.on = true → good = true → ∃ t, r = .next t ∧ { t with hu := s.hu, evt := s.evt, hp := s.hp, out := s.out } = s ∧
        let y := t.hu
        { h with hv := hv, vcap := vcap, linkOk := true, holdupOk := y.holdupOk, charging := y.charging, chargerFault := y.chargerFault } = y ∧
        (y.holdupOk = true ↔ h.need.toNat ≤ usable y) ∧
        (hv.toNat < hvFail h ∨ full y ∨ h.chargeOff = true → y.charging = false) ∧
        (hvFail h ≤ hv.toNat → hvOk h ≤ hv.toNat → ¬ full y → h.chargeOff = false → (y.charging = true ↔ h.gate ≠ 0)) ∧
        (hvFail h ≤ hv.toNat → hv.toNat < hvOk h → ¬ full y → h.chargeOff = false → y.charging = h.charging) ∧
        (full y → y.chargerFault = false) ∧ (¬ full y → y.chargerFault = h.chargerFault) ∧
        (h.hv.toNat < hvOk h → hvOk h ≤ hv.toNat → t.evt.icPend.getLsbD 257 = true) ∧
        (h.holdupOk = true → y.holdupOk = false → t.evt.icPend.getLsbD 258 = true) ∧ (h.holdupOk = false → y.holdupOk = true → t.evt.icPend.getLsbD 259 = true))) ∧
    (h.charging = true → ∃ t, exec .chargerTimeout s = .next t ∧ t.hu = { h with chargerFault := true } ∧ t.evt.icPend.getLsbD 262 = true) ∧
    (h.charging = false → exec .chargerTimeout s = .next s) ∧
    (check → exec .capacitanceCheckRequest s = .next (hu { h with checking := true, again := false, gate := 2 })) ∧
    (¬ check → exec .capacitanceCheckRequest s = .next s) ∧
    (exec .capacitanceCheckTimer s = if h.cfg2.toNat % 2 ^ 16 = 0 then .next s else exec .capacitanceCheckRequest s) ∧
    (takes → ∃ t, exec .chargeStop s = .next t ∧ t = hu t.hu ∧ t.hu.chargeOff = true ∧ t.hu.charging = false ∧ { t.hu with chargeOff := h.chargeOff, charging := h.charging, chargerFault := h.chargerFault } = h) ∧
    (takes → ∃ t, exec .chargeResume s = .next t ∧ t = hu t.hu ∧ t.hu.chargeOff = false ∧ { t.hu with chargeOff := h.chargeOff, charging := h.charging, chargerFault := h.chargerFault } = h ∧
      (hvFail h ≤ h.hv.toNat → hvOk h ≤ h.hv.toNat → ¬ full h → (t.hu.charging = true ↔ h.gate ≠ 0))) ∧
    (¬ takes → exec .chargeStop s = .next s ∧ exec .chargeResume s = .next s) ∧
    (∀ (fall : BitVec 12) (us : BitVec 32), let r := exec (.capacitanceCheckDone fall us) s
      let cap := min (chargeI h * us.toNat * 8 / (3 * fall.toNat)) 65535
      let ends (t : State) : Prop := t.hu.checking = false ∧ t.hu.again = false ∧ t.hu.gate = 1 ∧ t.evt.icPend.getLsbD 260 = true ∧
        (t.hu.cap.toNat < capMin h → t.evt.icPend.getLsbD 261 = true)
      (h.checking = false → r = .next s) ∧ (h.checking = true → fall.toNat < 27 → h.again = false → r = .next (hu { h with again := true })) ∧
      (h.checking = true → fall.toNat < 27 → h.again = true → ∃ t, r = .next t ∧ ends t ∧ t.hu.cap = h.cap ∧ t.hu.capValid = h.capValid) ∧
      (h.checking = true → 27 ≤ fall.toNat → ∃ t, r = .next t ∧ ends t ∧ t.hu.cap.toNat = cap ∧ t.hu.capValid = true)) ∧
    (h.on = false → exec .holdupDieStart s = .next (hu { on := true })) ∧ (h.on = true → exec .holdupDieStart s = .next s) ∧
    exec .holdupDieStop s = .next (hu { h with on := false, gate := 0, charging := false, checking := false, again := false }) ∧
    (h.on = true → h.gate = 0 → h.failLine = false → exec .hvOkSettled s =
      .next (hu { h with gate := 1, charging := !h.chargeOff && decide (h.vcap.toNat < vTarget h) })) ∧
    (h.on = false ∨ h.gate ≠ 0 ∨ h.failLine = true → exec .hvOkSettled s = .next s) ∧
    (h.on = true → h.failLine = false → exec .powerFailDeclared s = .next (hu bank) ∧
      ∃ t, exec .hvOvervoltage s = .next t ∧ t.hu = bank ∧ t.evt.icPend.getLsbD 267 = true) ∧
    (h.on = false ∨ h.failLine = true → exec .powerFailDeclared s = .next s ∧ exec .hvOvervoltage s = .next s) ∧
    (h.failLine = true → ∃ t, exec .failLineEdge s = .next t ∧ logic t) ∧ (h.failLine = false → exec .failLineEdge s = .next s) ∧
    (h.linkOk = true → ∃ t, exec .isolatedLinkLoss s = .next t ∧ logic t ∧ t.hu.linkOk = false ∧ t.hu.holdupOk = false) ∧
    (h.linkOk = false → exec .isolatedLinkLoss s = .next s)

/-- 12 R382, R384, 13 R403 to R406, 14 R434, 15 R446 to R455, R460, 16 R466, R467, R470, R474, R475, R479: each reset is taken
after a drain once firmware runs, at once before; what a reset leaves; pulses by their length; the boot, firmware and the
watchdog. -/
def Obligations.ResetsAndBoot : Prop :=
  ∀ s : State,
    let runs : Prop := s.rst.held = false ∧ s.pwr.drain = none ∧ s.rst.fwReady = true
    let early : Prop := s.rst.held = false ∧ s.pwr.drain = none ∧ s.rst.fwReady = false
    let took (t : State) (k : ResetKind) : Prop := t.rst.kind = k ∧ t.rst.fwReady = false ∧ t.pwr.drain = none ∧ t.cp.running = false ∧
      (isCold k = true → t.dev.tick = 0 ∧ t.sched.configured = false ∧ t.sched.recs = [] ∧ t.hp.split = s.pins.hostSplit ∧ t.tw.id = s.pins.twinId) ∧
      (isCold k = false → t.dev.tick = s.dev.tick ∧ t.sched.configured = s.sched.configured ∧ t.rst.warm = satInc s.rst.warm)
    (∀ (ns : BitVec 32), let r := exec (.resetN ns) s
      (ns.toNat < 800 → r = .next s) ∧ (800 ≤ ns.toNat → ns.toNat < 1000 → r = .fault .forbiddenPulse) ∧
      (1000 ≤ ns.toNat → (runs → ∃ t, r = .next t ∧ Drains s t 3 (some .resetN) ∧ t.pins.resetLow = true) ∧
        (early → ∃ t, r = .next t ∧ took t .resetN ∧ t.pins.resetLow = true ∧ t.rst.booted = false) ∧
        (s.rst.held = true → r = .next { s with pins := { s.pins with resetLow := true } }))) ∧
    (∀ (ns : BitVec 32), let r := exec (.devicePerst ns) s
      (ns.toNat < 5 → r = .next s) ∧ (5 ≤ ns.toNat → ns.toNat < 20 → r = .fault .forbiddenPulse) ∧
      (20 ≤ ns.toNat → (runs → ∃ t, r = .next t ∧ Drains s t 2 (some .perst) ∧ t.pins.perst0 = true ∧ (s.hp.split = true → t.pins.perst1 = true)) ∧
        (early → ∃ t, r = .next t ∧ took t .perst ∧ t.pins.perst0 = true))) ∧
    (∀ (b : Bool) (ns : BitVec 32), let r := exec (.linkPerst b ns) s
      let fn : Master := if b then 0x41 else 0x40
      (ns.toNat < 5 → r = .next s) ∧ (5 ≤ ns.toNat → ns.toNat < 20 → r = .fault .forbiddenPulse) ∧
      (20 ≤ ns.toNat → (s.hp.split = false ∨ s.rst.held = true ∨ s.pins.perst0 = true ∨ s.pins.perst1 = true → r = .next s) ∧
        (s.hp.split = true → s.rst.held = false → s.pins.perst0 = false → s.pins.perst1 = false → ∃ t, r = .next t ∧
          (if b then t.pins.perst1 else t.pins.perst0) = true ∧ (if b then t.hp.linkB.rate else t.hp.linkA.rate) = 0 ∧
          (∀ q ∈ t.hp.sqs, q.2.owner ∉ familyOf fn) ∧ (∀ e ∈ t.hp.routes, e.2.1 ≠ fn)))) ∧
    (∀ fn : Master, let r := exec (.functionLevelReset fn) s
      (isFn fn = false ∨ hostReaches s fn = false → r = .next s) ∧
      (isFn fn = true → hostReaches s fn = true → s.pwr.sleep ≠ .deep → s.pwr.held = [] → ∃ t, r = .next t ∧
        .completion fn true [] false ∈ t.out ∧ t.evt.icPend.getLsbD (if fn = 0x40 then 322 else if fn = 0x41 then 323 else 324) = true ∧
        (∀ q ∈ t.hp.sqs, q.2.owner ∉ familyOf fn) ∧ (∀ e ∈ t.hp.routes, e.2.1 ≠ fn) ∧ ∀ e ∈ t.rst.heldAdm, e.1 ≠ fn.toNat)) ∧
    (∀ v : Word, exec (.engineReset 0 v) s = .next (engineReset s (v.toNat % 32)) ∧ (v = 0xA5C3 → exec (.watchdogKick 0 v) s = .next s) ∧
      (v ≠ 0xA5C3 → ∃ t, exec (.watchdogKick 0 v) s = .next t ∧ Rejected 16 s t) ∧
      (s.sec.level = 2 → ∃ t, exec (.engineReset 0xF0 v) s = .next t ∧ Rejected 16 s t)) ∧
    (s.rst.wdog ≠ 0 → controlRuns s = true → s.rst.fwReady = true → ∃ t, exec .watchdogExpiry s = .next t ∧ Drains s t 5 (some .watchdog)) ∧
    (s.rst.wdog = 0 ∨ controlRuns s = false ∨ s.rst.fwReady = false → exec .watchdogExpiry s = .next s) ∧
    (s.cp.running = true → controlRuns s = true → s.cp.faulted = false → ∃ t, exec .controlProcessorFault s = .next t ∧ t.cp.faulted = true ∧ Drains s t 5 (some .watchdog)) ∧
    (s.cp.running = false ∨ controlRuns s = false ∨ s.cp.faulted = true → exec .controlProcessorFault s = .next s) ∧
    (s.pwr.drain = none → exec .drainEnd s = .next s) ∧
    (∀ d, s.pwr.drain = some d →
      (∀ k, s.pwr.failed = false → d.reset = some k → ∃ t, exec .drainEnd s = .next t ∧ took t k) ∧
      (s.pwr.failed = true → mayReturn s = false → ∃ t, exec .drainEnd s = .next t ∧ t.rst.held = true ∧ t.pwr.drain = none ∧
        (d.save = none → t.nv.areaA = s.nv.areaA ∧ t.nv.areaB = s.nv.areaB) ∧
        (∀ v, d.save = some v → if newerIsB s then t.nv.areaA = .valid v ∧ t.nv.areaB = s.nv.areaB else t.nv.areaB = .valid v ∧ t.nv.areaA = s.nv.areaA))) ∧
    (s.rst.held = true → mayReturn s = true → ∃ t, exec .busReturnToHvIn s = .next t ∧ took t .powerOn ∧ t.rst.held = false ∧ t.hu.gate = 1 ∧ t.hu.failLine = false) ∧
    (s.rst.held = false ∨ mayReturn s = false → exec .busReturnToHvIn s = .next s) ∧
    (s.rst.held = true → exec .railLoss s = .next s) ∧
    (s.rst.held = false → s.rst.booted = true → ∃ t, exec .railLoss s = .next t ∧ t.rst.held = true ∧ t.pwr.drain = none ∧ t.hp.linkA.rate = 0 ∧
      t.nv = (if (s.pwr.drain.bind (·.save)).isSome then (cutSave s).nv else s.nv)) ∧
    (∀ x : Straps, ∃ t, exec (.powerOnReset x) s = .next t ∧ t.rst.kind = .powerOn ∧ t.rst.held = false ∧ t.dev.tick = 0 ∧ t.mem.dram = [] ∧ t.hp.split = x.hostSplit ∧
      t.tw.id = x.twinId ∧ t.sched.recs = [] ∧ t.rst.booted = (!x.resetLow && !x.testmode)) ∧
    (let t : State := { s with pins := { s.pins with resetLow := false } };
      (s.rst.booted = true ∨ s.pins.testHold = true ∨ s.rst.held = true → exec .resetNRelease s = .next t) ∧
      (s.rst.booted = false → s.pins.testHold = false → s.rst.held = false → exec .resetNRelease s = .next (bootSteps t) ∧ (bootSteps t).rst.booted = true)) ∧
    exec (.perstDeassert false) s = .next { s with pins := { s.pins with perst0 := false } } ∧
    exec (.perstDeassert true) s = .next { s with pins := { s.pins with perst1 := false } } ∧
    (∀ a b : Image, let r := exec (.firmwareReady a b) s
      let waits : Prop := s.rst.booted = true ∧ s.rst.fwReady = false ∧ s.rst.rom = false ∧ s.rst.held = false ∧ s.pwr.drain = none
      let ra := imageResult s a
      let rb := imageResult s b
      let i := if picksB ra rb a b then b else a
      (¬ waits → r = .next s) ∧
      (waits → s.sec.lcInvalid = true ∨ lcState s = 4 ∨ (ra ≠ 0 ∧ rb ≠ 0) → ∃ t, r = .next t ∧ t.rst.rom = true ∧ t.rst.fwReady = false ∧ t.cp.running = s.cp.running) ∧
      (waits → s.sec.lcInvalid = false → lcState s ≠ 4 → ra = 0 ∨ rb = 0 → ∃ t, r = .next t ∧ t.rst.fwReady = true ∧ t.rst.wdog = 100 ∧ t.rst.rom = false ∧
        t.sec.resA = ra ∧ t.sec.resB = rb ∧ t.sec.slotB = picksB ra rb a b ∧ t.cp.running = true ∧ t.cp.regs.pc = i.entry ∧
        (ra ≠ 0 ∨ rb ≠ 0 → t.evt.icPend.getLsbD 357 = true))) ∧
    (∀ l d h : Byte, exec (.tempSensorRead l d h) s = .next { s with pwr := { s.pwr with tempLogic := l, tempDram := d, tempHu := h, dramHot := if 85 < d.toInt then true else if d.toInt < 83 then false else s.pwr.dramHot } }) ∧
    (∀ l d h : BitVec 9, let hot : Prop := 132 ≤ l.toInt ∨ 132 ≤ d.toInt ∨ 132 ≤ h.toInt
      let cool : Prop := l.toInt ≤ 120 ∧ d.toInt ≤ 120 ∧ h.toInt ≤ 120
      let trips (b : Bool) : Prop := exec (.thermtrip l d h) s = .next { s with pwr := { s.pwr with trip := b } }
      (hot → trips true) ∧ (cool → trips false) ∧ (¬ hot → ¬ cool → trips s.pwr.trip))

/-- 13 R398, R409, R412, R415, R419, R423, 16 R479: a counter near its reservation has the bank written, and a complete bank
releases the replies that waited; a nonce is drawn; the TAP's instructions act as the lifecycle lets them; TRST_N closes the
debug level. -/
def Obligations.KeysNonceAndTap : Prop :=
  ∀ s : State,
    let tap (x : Tap) : Host.Outcome State Fault Refusal := .next { s with sec := { s.sec with tap := x } }
    let ir (n : Byte) : Tap := { s.sec.tap with ir := n, drives := false, hiz := false }
    let opens : Prop := boundaryOpen s = true
    let due : Prop := controlRuns s = true ∧ s.rst.fwReady = true ∧ s.sec.bankDue = none ∧ ∃ e ∈ s.sec.vault, e.2.reserved ≤ e.2.count + 2 ^ 19
    (due → exec .keyReservationWrite s = .next { s with sec := { s.sec with bankDue := some ((bankList s).map fun e =>
      if e.2.reserved ≤ e.2.count + 2 ^ 19 then (e.1, { e.2 with reserved := e.2.count + 2 ^ 20 }) else e) } }) ∧
    (¬ due → exec .keyReservationWrite s = .next s) ∧
    (s.rst.held = true ∨ s.sec.bankDue = none → exec .keyBankWritten s = .next s) ∧
    (∀ l, s.rst.held = false → s.sec.bankDue = some l → ∃ t, exec .keyBankWritten s = .next t ∧ t.nv.keys = bankPut s.nv.keys l ∧ t.sec.bankDue = none ∧
      (∀ h ∈ t.hp.held, h.why ≠ .keyBank) ∧
      t.sec.vault = s.sec.vault.map fun e => match aget l e.1 with | some k => (e.1, { e.2 with reserved := k.reserved }) | none => e) ∧
    (s.rst.held = true → exec .newNonce s = .next s) ∧
    (s.rst.held = false → exec .newNonce s = .next { s with free := s.free + 1, sec := { s.sec with nonce := some (Sys2Proof.Config.drbg s.free) } }) ∧
    (s.rst.held = true → exec .extest s = .next s ∧ exec .clamp s = .next s ∧ exec .highz s = .next s ∧ exec .idcode s = .next s ∧ exec .dbgMbx s = .next s ∧
      exec .bypass s = .next s ∧ ∀ l, exec (.samplePreload l) s = .next s) ∧
    (s.rst.held = false →
      (opens → exec .extest s = tap { s.sec.tap with ir := 0x00, drives := true, hiz := false } ∧
        exec .clamp s = tap { s.sec.tap with ir := 0x03, drives := true, hiz := false } ∧
        exec .highz s = tap { s.sec.tap with ir := 0x04, drives := false, hiz := true }) ∧
      (¬ opens → exec .extest s = tap (ir 0xFF) ∧ exec .clamp s = tap (ir 0xFF) ∧ exec .highz s = tap (ir 0xFF)) ∧
      (∀ l, exec (.samplePreload l) s = tap { ir 0x01 with boundary := l }) ∧
      exec .idcode s = .next { s with sec := { s.sec with tap := ir 0x02 }, out := s.out ++ [.value 0xF0 (Sys2Proof.Config.stepping ++ (0x7128097 : BitVec 28))] } ∧
      exec .dbgMbx s = tap (ir 0x10) ∧ exec .bypass s = tap (ir 0xFF)) ∧
    (∀ ns : BitVec 32, let r := exec (.trstNAssert ns) s
      (ns.toNat < 10 → r = .next s) ∧ (10 ≤ ns.toNat → ns.toNat < 100 → r = .fault .forbiddenPulse) ∧
      (100 ≤ ns.toNat → (s.rst.held = true → r = .next s) ∧
        (s.rst.held = false → ∃ t, r = .next t ∧ t.sec = { s.sec with level := 0, tap := {} } ∧ (s.sec.level ≠ 0 → t.evt.icPend.getLsbD 352 = true))))

/-- 13 R416 to R422: the debug mailbox answers while it is selected: status, a challenge and its expiry, an unlock by the key
the record names or counted as a failure, a relock, and the accesses each level and power state lets through. -/
def Obligations.DebugMailbox : Prop :=
  ∀ s : State,
    let ans (c : Instr) (st : Byte) (l : List Byte) : Prop := exec c s = .next { s with sec := { s.sec with mbxStatus := st, mbxData := l } }
    let low : Prop := s.pwr.sleep = .standby ∨ s.pwr.sleep = .deep
    exec .challengeExpiry s = .next { s with sec := { s.sec with chal := none } } ∧
    (mailboxOn s = false → ∀ (b : Byte) (l m : List Byte) (v w : Word) (a : Dword), exec .dbgStatus s = .next s ∧ exec (.challenge b) s = .next s ∧
      exec (.dbgUnlock l m) s = .next s ∧ exec (.relock b) s = .next s ∧ exec (.read32 v) s = .next s ∧ exec (.write32 v w) s = .next s ∧
      exec (.readMem a v) s = .next s ∧ exec (.writeMem a v l) s = .next s ∧ exec (.traceRead v) s = .next s) ∧
    (mailboxOn s = true →
      ans .dbgStatus 0 (dbgStatusBytes s) ∧
      (∀ b : Byte, let c := Instr.challenge b
        let n := Sys2Proof.Config.drbg s.free
        (low → ans c 4 []) ∧ (¬ low → b ≠ 1 → b ≠ 2 → ans c 7 []) ∧ (¬ low → b = 1 ∨ b = 2 → levelReach (lcState s) b.toNat = false → ans c 2 []) ∧
        (¬ low → b = 1 ∨ b = 2 → levelReach (lcState s) b.toNat = true → exec c s =
          .next { s with free := s.free + 1, sec := { s.sec with chal := some (n, b), mbxStatus := 0, mbxData := chalBytes s n b } })) ∧
      (∀ l m : List Byte, let c := Instr.dbgUnlock l m
        let auth : Prop := lcState s = 2 ∨ lcState s = 3
        (low → ans c 4 []) ∧ (¬ low → auth → s.sec.lockout = true → ans c 6 []) ∧
        (¬ low → ¬ auth ∨ s.sec.lockout = false → s.sec.chal = none → ans c 8 []) ∧
        (∀ n b, ¬ low → ¬ auth ∨ s.sec.lockout = false → s.sec.chal = some (n, b) → let good := unlockGood s (padTo 96 l) (padTo 96 m) n b
          (auth → good = false → ∃ t, exec c s = .next t ∧ t.sec.mbxStatus = 3 ∧ t.sec.level = s.sec.level ∧ t.sec.chal = none ∧
            (s.sec.fails.toNat < 16 → t.sec.fails = s.sec.fails + 1) ∧ t.evt.icPend.getLsbD 353 = true ∧
            (15 ≤ s.sec.fails.toNat → s.sec.fails.toNat ≤ 16 → t.sec.lockout = true)) ∧
          (¬ auth ∨ good = true → ∃ t, exec c s = .next t ∧ t.sec.mbxStatus = 0 ∧ t.sec.mbxData = [b] ∧ t.sec.level = b.setWidth 2 ∧ t.sec.chal = none ∧
            t.sec.fails = s.sec.fails ∧ (s.sec.level ≠ b.setWidth 2 → t.evt.icPend.getLsbD 352 = true ∧ (b.setWidth 2 = (2 : BitVec 2) → t.sec.vault = [] ∧ t.sec.unsealOff = true))))) ∧
      (∀ b : Byte, let c := Instr.relock b
        (s.sec.level.toNat ≤ b.toNat → ans c 7 []) ∧
        (b.toNat < s.sec.level.toNat → s.sec.level.toNat ≤ 2 → ∃ t, exec c s = .next t ∧ t.sec = { s.sec with level := b.setWidth 2, mbxStatus := 0, mbxData := [b] } ∧ t.evt.icPend.getLsbD 352 = true)) ∧
      (∀ v : Word, let c := Instr.read32 v
        let o := v.toNat
        let bad : Prop := o % 4 ≠ 0 ∨ 0x400000 ≤ o
        let hidden : Prop := 0x3E0000 ≤ o ∨ (s.sec.level = 1 ∧ dbgHidden o = true)
        (s.sec.level = 0 → ans c 2 []) ∧ (s.sec.level ≠ 0 → bad → ans c 7 []) ∧ (s.sec.level ≠ 0 → ¬ bad → hidden → ans c 2 []) ∧
        (s.sec.level ≠ 0 → ¬ bad → ¬ hidden → regAsleep s o = true → ans c 4 []) ∧
        (s.sec.level ≠ 0 → ¬ bad → ¬ hidden → regAsleep s o = false → let r := regRead s 0xF0 o
          exec c s = .next { r.2 with sec := { r.2.sec with mbxStatus := 0, mbxData := toLE 4 r.1.toNat } })) ∧
      (∀ v w : Word, let c := Instr.write32 v w
        let o := v.toNat
        let bad : Prop := o % 4 ≠ 0 ∨ 0x400000 ≤ o
        (s.sec.level ≠ 2 → ans c 2 []) ∧ (s.sec.level = 2 → bad → ans c 7 []) ∧ (s.sec.level = 2 → ¬ bad → regAsleep s o = true → ans c 4 []) ∧
        (s.sec.level = 2 → ¬ bad → regAsleep s o = false → exec c s = .next (let t := regWrite s 0xF0 o w
          afterWake { t with sec := { t.sec with mbxStatus := 0, mbxData := [] } }))) ∧
      (∀ (a : Dword) (n : Word), let c := Instr.readMem a n
        let bad : Prop := dbgAddrBad a n.toNat 256 = true
        let shut : Prop := dbgProtected a n.toNat false = true
        let asleep : Prop := low ∧ spaceOf a ≠ 0xD
        let gets (l : List Byte) : Prop := exec c s = .next { s with free := s.free + 1, sec := { s.sec with mbxStatus := 0, mbxData := l } }
        (s.sec.level ≠ 2 → ans c 2 []) ∧ (s.sec.level = 2 → bad → ans c 7 []) ∧ (s.sec.level = 2 → ¬ bad → shut → ans c 2 []) ∧
        (s.sec.level = 2 → ¬ bad → ¬ shut → asleep → ans c 4 []) ∧
        (s.sec.level = 2 → ¬ bad → ¬ shut → ¬ asleep →
          (spaceOf a = 8 → dramPoisoned s (offOf a) n.toNat = false → gets (getBytes s.mem.dram (offOf a) n.toNat)) ∧
          (spaceOf a = 0xA → gets (getBytes s.mem.loc (offOf a) n.toNat)) ∧ (spaceOf a = 0xC → gets (getBytes s.mem.tcm (offOf a) n.toNat)) ∧
          ∃ t, exec c s = .next t ∧ t.sec.mbxStatus = 0 ∧ t.mem = s.mem)) ∧
      (∀ (a : Dword) (n : Word) (l : List Byte), let c := Instr.writeMem a n l
        let bad : Prop := dbgAddrBad a n.toNat 240 = true
        let shut : Prop := dbgProtected a n.toNat true = true
        let asleep : Prop := low ∧ spaceOf a ≠ 0xD
        let puts (t : State) : Prop := exec c s = .next { t with sec := { s.sec with mbxStatus := 0, mbxData := [] } }
        (s.sec.level ≠ 2 → ans c 2 []) ∧ (s.sec.level = 2 → bad → ans c 7 []) ∧ (s.sec.level = 2 → ¬ bad → shut → ans c 2 []) ∧
        (s.sec.level = 2 → ¬ bad → ¬ shut → asleep → ans c 4 []) ∧
        (s.sec.level = 2 → ¬ bad → ¬ shut → ¬ asleep →
          (spaceOf a = 8 → puts (writeDram s (offOf a) (padTo n.toNat l))) ∧ (spaceOf a = 0xA → puts (writeLoc s (offOf a) (padTo n.toNat l))) ∧
          (spaceOf a = 0xC → puts (writeTcm s (offOf a) (padTo n.toNat l))) ∧ (spaceOf a = 0xD → puts (storeWrite s (offOf a) (padTo n.toNat l))))) ∧
      (∀ v : Word, let c := Instr.traceRead v
        (s.sec.level = 0 → ans c 2 []) ∧ (s.sec.level ≠ 0 → low → ans c 4 []) ∧ (s.sec.level ≠ 0 → ¬ low → 65536 < v.toNat + 256 → ans c 7 []) ∧
        (s.sec.level ≠ 0 → ¬ low → v.toNat + 256 ≤ 65536 → ans c 0 (getBytes s.flt.trace v.toNat 256))))

/-- 14 R427 to R434, R437 to R439, R441, R442, R444: every uncorrectable error is counted, captured, logged and signalled, and
has its structure's effect; a corrected one is counted and tracked; a failed copy gives way to the other; fences and retirements
by number. -/
def Obligations.FaultsFencesRetirements : Prop :=
  ∀ s : State,
    let fence (c : Instr) (n units : Nat) (has : State → Bool) (src : Nat) : Prop :=
      (units ≤ n → ∃ t, exec c s = .next t ∧ Rejected 15 s t) ∧ (n < units → has s = true → exec c s = .next s) ∧
      (n < units → has s = false → ∃ t, exec c s = .next t ∧ has t = true ∧ t.evt.icPend.getLsbD src = true)
    let roomFor (code unit : Nat) : Prop := match budgetOf code with | some b => retiredOf s code unit < b | none => True
    let retires (t : State) (code unit loc : Nat) : Prop := ({ code := code, unit := unit, loc := loc } : Retired) ∈ t.flt.retired ∧ t.evt.icPend.getLsbD 294 = true
    (∀ n : BitVec 9, fence (.fenceSlot n) n.toNat 512 (fun s => slotFenced s n.toNat) 288 ∧ fence (.fenceEngine n) n.toNat 32 (fun s => s.flt.engines.contains n.toNat) 289 ∧
      fence (.fenceMover n) n.toNat 8 (fun s => (getMv s n.toNat).fenced) 290 ∧ fence (.fenceQuad n) n.toNat 32 (fun s => quadFenced s n.toNat) 291 ∧
      fence (.fenceCacheBank n) n.toNat 8 (fun s => s.flt.banks.contains n.toNat) 292) ∧
    (∀ site multi, let r := exec (.uncorrectableError site multi) s
      let noted (code unit : Nat) : Prop := ∃ t, r = .next t ∧ t.flt.ue = satInc s.flt.ue ∧ t.evt.icPend.getLsbD 293 = true ∧
        (multi = false → t.flt.capStr.toNat = code ∧ t.flt.capUnit.toNat = unit ∧ t.flt.capMulti = false ∧ t.flt.capTick = s.dev.tick) ∧
        (∀ x ∈ t.flt.tracker, x ∈ s.flt.tracker) ∧
        (match site with
          | .tcm off => t.cp.faulted = true ∧ (roomFor 0 0 → isRetired s 0 0 (off.toNat / 64) = false → retires t 0 0 (off.toNat / 64))
          | .slot k => slotFenced t k.toNat = true
          | .staged n _ => ∀ c, s.cls.clauses = [c] → c.prn = n.toNat → c.doom = none → openClause t n.toNat = none
          | .committed number i _ => ∀ c ∈ t.fs.window, c.number = number.toNat → ∀ e, c.effects[i.toNat]? = some e → e.bad = true
          | .lock off _ => ∀ e ∈ t.cls.locks, e.1 ≠ off.toNat
          | .key n => getKey t n.toNat = none ∧ (isRetired s 8 0 n.toNat = false → retires t 8 0 n.toNat)
          | .mover m => (getMv t m.toNat).fenced = true
          | .quad q => quadFenced t q.toNat = true
          | .dram l => l.toNat ∈ t.mem.poison ∧ t.evt.icPend.getLsbD 295 = true ∧ ({ code := 11, unit := dramChannel l.toNat, loc := l.toNat } : Retired) ∈ t.flt.retired
          | .logic => t.cp.faulted = true
          | _ => True)
      match site with
      | .tcm _ => noted 0 0 | .sram a _ => noted 1 (a.toNat / 0x20000) | .icache e _ _ => noted 2 e.toNat | .slot k => noted 3 k.toNat
      | .record n => (cached s n.toNat = true → noted 4 (n.toNat % 8)) ∧ (cached s n.toNat = false → r = .next s)
      | .staged _ _ => noted 5 0 | .committed _ _ _ => noted 5 0 | .directory _ => noted 6 0 | .lock _ _ => noted 7 0 | .key _ => noted 8 0
      | .mover m => noted 9 m.toNat | .quad q => noted 10 q.toNat | .dram l => noted 11 (dramChannel l.toNat) | .mram _ => noted 12 0 | .logic => noted 13 0) ∧
    (∀ (code : BitVec 4) (unit : BitVec 9) (loc : BitVec 32), let r := exec (.correctedError code unit loc) s
      let u := if code = 11 then dramChannel loc.toNat else unit.toNat
      let x : Track := { code := code.toNat, unit := u, loc := loc.toNat, count := 1 }
      (code = 14 → ∃ t, r = .next t ∧ t.flt = { s.flt with tmr := satInc s.flt.tmr } ∧ { t with flt := s.flt, evt := s.evt, hp := s.hp, out := s.out } = s) ∧
      (code ≠ 14 → correctable code.toNat = false → r = .next s) ∧
      (code ≠ 14 → correctable code.toNat = true → ∃ t, r = .next t ∧ t.flt.ce = satInc s.flt.ce ∧
        (hasGranule code.toNat = false → t.flt.tracker = s.flt.tracker) ∧
        (hasGranule code.toNat = true → (∀ y ∈ s.flt.tracker, sameLoc code.toNat u loc.toNat y = false) → s.flt.tracker.length < 256 →
          (1 < s.flt.threshold.toNat → t.flt.tracker = s.flt.tracker ++ [x] ∧ t.flt.retired = s.flt.retired) ∧
          (s.flt.threshold.toNat ≤ 1 → roomFor code.toNat u → isRetired s code.toNat u loc.toNat = false →
            t.flt.tracker = s.flt.tracker ∧ retires t code.toNat u loc.toNat)) ∧
        (∀ y, hasGranule code.toNat = true → s.flt.tracker = [y] → sameLoc code.toNat u loc.toNat y = true → y.count + 1 < s.flt.threshold.toNat →
          t.flt.tracker = [{ y with count := y.count + 1 }]))) ∧
    (∀ (b : Bool), let r (x : StoreRec) := exec (.persistentCopyCrcFailure x b) s
      let counts (t : State) (used : Bool) : Prop := t.pwr.psInvalid = (if used then satInc s.pwr.psInvalid else s.pwr.psInvalid) ∧ (used = true → t.evt.icPend.getLsbD 266 = true)
      (∃ t, r .reservation = .next t ∧ t.nv = { s.nv with resv := copyFails s.nv.resv b } ∧ counts t (bankUsesB s.nv.resv == b)) ∧
      (∃ t, r .twin = .next t ∧ t.nv = { s.nv with twin := copyFails s.nv.twin b } ∧ counts t (bankUsesB s.nv.twin == b)) ∧
      (∃ t, r .subsystem = .next t ∧ t.nv = { s.nv with subsys := copyFails s.nv.subsys b } ∧ counts t (bankUsesB s.nv.subsys == b)) ∧
      (∃ t, r .board = .next t ∧ t.nv = { s.nv with board := copyFails s.nv.board b } ∧ counts t (bankUsesB s.nv.board == b)) ∧
      (∃ t, r .retirements = .next t ∧ t.nv = { s.nv with retire := copyFails s.nv.retire b } ∧ counts t (bankUsesB s.nv.retire == b)) ∧
      (∃ t, r .keys = .next t ∧ t.nv = { s.nv with keys := copyFails s.nv.keys b } ∧ counts t (bankUsesB s.nv.keys == b)) ∧
      (r .saveArea = .next { s with nv := if b then { s.nv with areaB := .invalid (areaSeq s.nv.areaB) } else { s.nv with areaA := .invalid (areaSeq s.nv.areaA) } }) ∧
      (∀ third n v, s.nv.lc0 = .valid n v → s.nv.lc1 = .valid n v → s.nv.lc2 = .valid n v →
        ∃ t, r (.lifecycle third) = .next t ∧ t.nv = s.nv ∧ counts t true)) ∧
    (∀ v : Word, let code := v.toNat % 16
      let range := retireRange code
      let unit := if range.1 = 1 then 0 else v.toNat / 16 % 32
      let loc := v.toNat / 2 ^ 9 % 2 ^ 23
      let r := exec (.fltRetire v) s
      (range.1 ≤ unit ∨ range.2 ≤ loc → ∃ t, r = .next t ∧ Rejected 15 s t) ∧
      (unit < range.1 → loc < range.2 → ∃ t, r = .next t ∧ (code = 3 → slotFenced t loc = true) ∧ (code = 8 → getKey t loc = none) ∧
        (code ≠ 3 → isRetired s code unit loc = true → code ≠ 8 → t = s) ∧
        (code ≠ 3 → roomFor code unit → isRetired s code unit loc = false → retires t code unit loc ∧ t.flt.retiredCount = satInc s.flt.retiredCount))) ∧
    (s.rst.held = true → exec .logFlush s = .next s) ∧
    (s.rst.held = false → ∃ t, exec .logFlush s = .next t ∧ t.flt = { s.flt with logBuf := [] } ∧
      (s.flt.logBuf = [] → t = s) ∧ { t with flt := s.flt, nv := s.nv, evt := s.evt, hp := s.hp, out := s.out } = s ∧
      (∀ e, s.flt.logBuf = [e] → e ≠ {} → tget {} t.nv.log s.nv.logHead = e ∧ t.nv.logHead = (s.nv.logHead + 1) % logEntries))
end

