-- ==== Sys2Proof/Laws/Tables.lean ====
section
/-!
SUPPORT. Sparse tables and byte memories: reads after writes, and the canonical form every operation keeps.
-/

namespace Sys2Proof.Machine

variable {α : Type} [DecidableEq α] {d : α}

theorem tget_tset_same (d : α) (k : Nat) (v : α) (t : Tab α) (h : tabCanon d t) : tget d (tset d k v t) k = v := by
  induction t with
  | nil => by_cases hv : v = d <;> simp [tset, tget, hv]
  | cons e t ih =>
    obtain ⟨k', v'⟩ := e
    have ht : tabCanon d t := ⟨(List.pairwise_cons.mp h.1).2, fun e he => h.2 e (List.mem_cons_of_mem _ he)⟩
    have habove : ∀ k, k ≤ k' → tget d t k = d := by
      intro k hk
      have hlow := (List.pairwise_cons.mp h.1).1
      clear ih ht h
      induction t with
      | nil => rfl
      | cons e t ih =>
        have hne : k ≠ e.1 := by have := hlow e (List.mem_cons_self ..); simp at this; omega
        obtain ⟨k2, v2⟩ := e
        simp only [tget, if_neg hne]
        exact ih fun e he => hlow e (List.mem_cons_of_mem _ he)
    unfold tset
    split
    · split
      · subst v
        have : k ≠ k' := by omega
        simp only [tget, if_neg this]
        exact habove k (by omega)
      · simp [tget]
    · split
      · subst k
        split
        · subst v; exact habove _ (Nat.le_refl _)
        · simp [tget]
      · rename_i h1 h2
        simp only [tget, if_neg h2]
        exact ih ht

theorem tget_tset_other (d : α) {k k' : Nat} (hk : k' ≠ k) (v : α) (t : Tab α) : tget d (tset d k v t) k' = tget d t k' := by
  induction t with
  | nil => by_cases hv : v = d <;> simp [tset, tget, hv, hk]
  | cons e t ih =>
    obtain ⟨k2, v2⟩ := e
    unfold tset
    split
    · split <;> simp [tget, hk]
    · split
      · subst k
        split <;> simp [tget, hk]
      · simp only [tget]
        split
        · rfl
        · exact ih

/-- every key of a table that was set is an old one or the one set -/
theorem mem_tset {k : Nat} {v : α} {t : Tab α} {e : Nat × α} (h : e ∈ tset d k v t) : e ∈ t ∨ e = (k, v) ∧ v ≠ d := by
  induction t with
  | nil =>
    unfold tset at h
    split at h
    · simp at h
    · exact .inr ⟨List.mem_singleton.mp h, ‹_›⟩
  | cons e' t ih =>
    obtain ⟨k', v'⟩ := e'
    unfold tset at h
    split at h
    · split at h
      · exact .inl h
      · rcases List.mem_cons.mp h with h | h
        · exact .inr ⟨h, ‹_›⟩
        · exact .inl h
    · split at h
      · split at h
        · exact .inl (List.mem_cons_of_mem _ h)
        · rcases List.mem_cons.mp h with h | h
          · exact .inr ⟨h, ‹_›⟩
          · exact .inl (List.mem_cons_of_mem _ h)
      · rcases List.mem_cons.mp h with h | h
        · exact .inl (h ▸ List.mem_cons_self ..)
        · exact (ih h).imp (List.mem_cons_of_mem _) id

theorem tset_canon (d : α) (k : Nat) (v : α) {t : Tab α} (h : tabCanon d t) : tabCanon d (tset d k v t) := by
  refine ⟨?_, fun e he => ?_⟩
  · induction t with
    | nil => unfold tset; split <;> simp
    | cons e t ih =>
      obtain ⟨k', v'⟩ := e
      have hlow := (List.pairwise_cons.mp h.1).1
      have ht : tabCanon d t := ⟨(List.pairwise_cons.mp h.1).2, fun e he => h.2 e (List.mem_cons_of_mem _ he)⟩
      unfold tset
      split
      · split
        · exact h.1
        · refine List.pairwise_cons.mpr ⟨fun e he => ?_, h.1⟩
          rcases List.mem_cons.mp he with rfl | he
          · assumption
          · exact Nat.lt_trans ‹_› (hlow e he)
      · split
        · split
          · exact ht.1
          · subst k; exact List.pairwise_cons.mpr ⟨hlow, ht.1⟩
        · refine List.pairwise_cons.mpr ⟨fun e he => ?_, ih ht⟩
          rcases mem_tset he with he | ⟨rfl, -⟩
          · exact hlow e he
          · show k' < k
            omega
  · rcases mem_tset he with he | ⟨rfl, hv⟩
    · exact h.2 e he
    · exact hv

omit [DecidableEq α] in
theorem filter_canon (p : Nat × α → Bool) {t : Tab α} (h : tabCanon d t) : tabCanon d (t.filter p) :=
  ⟨h.1.filter _, fun e he => h.2 e (List.mem_filter.mp he).1⟩

omit [DecidableEq α] in
theorem nil_canon : tabCanon d ([] : Tab α) := ⟨.nil, by simp⟩

theorem putBytes_canon (l : List Byte) (a : Nat) {t : Tab Byte} (h : tabCanon emptyByte t) : tabCanon emptyByte (putBytes t a l) := by
  induction l generalizing a t with
  | nil => exact h
  | cons b l ih => exact ih _ (tset_canon _ _ _ h)

/-- a byte outside the bytes written reads as before -/
theorem tget_putBytes_other (l : List Byte) (a k : Nat) (t : Tab Byte) (h : k < a ∨ a + l.length ≤ k) :
    tget emptyByte (putBytes t a l) k = tget emptyByte t k := by
  induction l generalizing a t with
  | nil => rfl
  | cons b l ih =>
    simp only [List.length_cons] at h
    show tget emptyByte (putBytes (tset emptyByte a b t) (a + 1) l) k = _
    rw [ih _ _ (by omega), tget_tset_other _ (by omega)]

/-- a byte written reads as written -/
theorem tget_putBytes_same (l : List Byte) (a i : Nat) {t : Tab Byte} (ht : tabCanon emptyByte t) (h : i < l.length) :
    tget emptyByte (putBytes t a l) (a + i) = l[i] := by
  induction l generalizing a i t with
  | nil => simp at h
  | cons b l ih =>
    show tget emptyByte (putBytes (tset emptyByte a b t) (a + 1) l) (a + i) = _
    match i with
    | 0 => rw [tget_putBytes_other _ _ _ _ (by omega)]; exact tget_tset_same _ _ _ _ ht
    | i + 1 =>
      have := ih (a + 1) i (tset_canon emptyByte a b ht) (by simpa using h)
      rw [show a + (i + 1) = a + 1 + i by omega, this]; rfl

end Sys2Proof.Machine
end

