-- ==== Sys2Proof/Laws/Kept.lean ====
section
/-!
SUPPORT. What every meaning keeps, as a predicate that each function of the model is shown to carry along: a sound state,
the queue as it was, and everything sent so far.
-/

namespace Sys2Proof.Machine

/-- A state some command has led to: sound, with this queue, and with this already sent. -/
structure Kept (qs : List Instr) (os : List Out) (s : State) : Prop where
  dram : tabCanon emptyByte s.mem.dram
  loc : tabCanon emptyByte s.mem.loc
  tcm : tabCanon emptyByte s.mem.tcm
  host : tabCanon emptyByte s.mem.host
  twin : s.tw.state.toNat ≤ 7
  before : s.tw.before.toNat ≤ 7
  link : s.tw.link.toNat ≤ 2
  bus : s.hu.gate.toNat ≤ 2
  level : s.sec.level.toNat ≤ 2
  asked : ∀ x, s.sec.chal = some x → x.2.toNat ≤ 2
  queue : s.pending = qs
  sent : os <+: s.out

variable {qs : List Instr} {os : List Out} {s t : State}

theorem Kept.sound (h : Kept qs os s) : s.sound := ⟨⟨h.dram, h.loc, h.tcm, h.host⟩, h.twin, h.before, h.link, h.bus, h.level, h.asked⟩
theorem kept_self (h : s.sound) : Kept s.pending s.out s :=
  ⟨h.mem.1, h.mem.2.1, h.mem.2.2.1, h.mem.2.2.2, h.twin, h.before, h.link, h.bus, h.level, h.asked, rfl, List.prefix_rfl⟩

/-- an update of anything else; the state is written out field by field, so that unification finds what was updated -/
theorem kept_upd {dev mem hp evt sched cls fs mv ce cp lk tw nv sec flt pwr hu rst pins free out pending} (h : Kept qs os s)
    (h1 : Mem.dram mem = s.mem.dram) (h2 : Mem.loc mem = s.mem.loc) (h3 : Mem.tcm mem = s.mem.tcm) (h4 : Mem.host mem = s.mem.host)
    (h5 : Twin.state tw = s.tw.state) (h5b : Twin.before tw = s.tw.before) (h6 : Twin.link tw = s.tw.link) (h7 : Hu.gate hu = s.hu.gate)
    (h8 : Sec.level sec = s.sec.level) (h8b : Sec.chal sec = s.sec.chal) (h9 : pending = s.pending) (h10 : out = s.out) :
    Kept qs os ⟨dev, mem, hp, evt, sched, cls, fs, mv, ce, cp, lk, tw, nv, sec, flt, pwr, hu, rst, pins, free, out, pending⟩ :=
  ⟨h1 ▸ h.dram, h2 ▸ h.loc, h3 ▸ h.tcm, h4 ▸ h.host, h5 ▸ h.twin, h5b ▸ h.before, h6 ▸ h.link, h7 ▸ h.bus, h8 ▸ h.level, h8b ▸ h.asked, h9 ▸ h.queue, h10 ▸ h.sent⟩

/-- an update that moves Malid Link to another of its states -/
theorem kept_link {dev mem hp evt sched cls fs mv ce cp lk tw nv sec flt pwr hu rst pins free out pending} (h : Kept qs os s)
    (h1 : Mem.dram mem = s.mem.dram) (h2 : Mem.loc mem = s.mem.loc) (h3 : Mem.tcm mem = s.mem.tcm) (h4 : Mem.host mem = s.mem.host)
    (h5 : Twin.state tw = s.tw.state) (h5b : Twin.before tw = s.tw.before) (h7 : Hu.gate hu = s.hu.gate)
    (h8 : Sec.level sec = s.sec.level) (h8b : Sec.chal sec = s.sec.chal) (h9 : pending = s.pending) (h10 : out = s.out) (hl : tw.link.toNat ≤ 2) :
    Kept qs os ⟨dev, mem, hp, evt, sched, cls, fs, mv, ce, cp, lk, tw, nv, sec, flt, pwr, hu, rst, pins, free, out, pending⟩ :=
  ⟨h1 ▸ h.dram, h2 ▸ h.loc, h3 ▸ h.tcm, h4 ▸ h.host, h5 ▸ h.twin, h5b ▸ h.before, hl, h7 ▸ h.bus, h8 ▸ h.level, h8b ▸ h.asked, h9 ▸ h.queue, h10 ▸ h.sent⟩

/-- a change of the debug level or of the challenge -/
theorem kept_sec {x : Sec} (h : Kept qs os s) (h1 : x.level.toNat ≤ 2) (h2 : ∀ y, x.chal = some y → y.2.toNat ≤ 2) :
    Kept qs os { s with sec := x } :=
  ⟨h.dram, h.loc, h.tcm, h.host, h.twin, h.before, h.link, h.bus, h1, h2, h.queue, h.sent⟩

/-- a change of memory that leaves each table canonical -/
theorem kept_mem {m : Mem} (h : Kept qs os s) (h1 : tabCanon emptyByte m.dram) (h2 : tabCanon emptyByte m.loc)
    (h3 : tabCanon emptyByte m.tcm) (h4 : tabCanon emptyByte m.host) : Kept qs os { s with mem := m } :=
  ⟨h1, h2, h3, h4, h.twin, h.before, h.link, h.bus, h.level, h.asked, h.queue, h.sent⟩

/-- a state named on the way is one of these -/
theorem kept_cut (qs : List Instr) (os : List Out) (s : State) {P : Prop} (h : Kept qs os s) (hp : Kept qs os s → P) : P := hp h

theorem kept_ite {c : Prop} [Decidable c] (hs : Kept qs os s) (ht : Kept qs os t) : Kept qs os (if c then s else t) := by
  split <;> assumption

theorem kept_ite_fst {β : Type} {c : Prop} [Decidable c] {a b : State × β} (ha : Kept qs os a.1) (hb : Kept qs os b.1) :
    Kept qs os (if c then a else b).1 := by split <;> assumption

theorem kept_ite_snd {β : Type} {c : Prop} [Decidable c] {a b : β × State} (ha : Kept qs os a.2) (hb : Kept qs os b.2) :
    Kept qs os (if c then a else b).2 := by split <;> assumption
theorem kept_ite_put {c : Prop} [Decidable c] {a b : Put} (ha : Kept qs os a.s) (hb : Kept qs os b.s) :
    Kept qs os (if c then a else b).s := by split <;> assumption

theorem kept_foldl {α : Type} {f : State → α → State} {l : List α} (hf : ∀ s x, Kept qs os s → Kept qs os (f s x))
    (h : Kept qs os s) : Kept qs os (l.foldl f s) := by
  induction l generalizing s with
  | nil => exact h
  | cons x l ih => exact ih (hf s x h)

/-- a fold that carries more than the state -/
theorem kept_foldl_fst {α β : Type} {f : State × β → α → State × β} {l : List α} {s : State × β}
    (hf : ∀ s x, Kept qs os s.1 → Kept qs os (f s x).1) (h : Kept qs os s.1) : Kept qs os (l.foldl f s).1 := by
  induction l generalizing s with
  | nil => exact h
  | cons x l ih => exact ih (hf s x h)

theorem kept_of_pair {β : Type} {r : State × β} {b : β} (e : r = (t, b)) (h : Kept qs os r.1) : Kept qs os t := by
  rw [e] at h; exact h
theorem kept_of_pair2 {β : Type} {r : β × State} {b : β} (e : r = (b, t)) (h : Kept qs os r.2) : Kept qs os t := by
  rw [e] at h; exact h

/-! ### Results that carry states -/

def OptKept (qs : List Instr) (os : List Out) (r : Option State) : Prop := ∀ t, r = some t → Kept qs os t
theorem optKept_some (h : Kept qs os s) : OptKept qs os (some s) := fun _ e => Option.some.inj e ▸ h
theorem optKept_ite {c : Prop} [Decidable c] {a b : Option State} (ha : OptKept qs os a) (hb : OptKept qs os b) :
    OptKept qs os (if c then a else b) := by split <;> assumption
theorem optKept_none : OptKept qs os none := fun _ e => nomatch e
theorem kept_getD {r : Option State} (h : OptKept qs os r) (hs : Kept qs os s) : Kept qs os (r.getD s) := by
  cases r with
  | none => exact hs
  | some t => exact h t rfl
theorem kept_of_some {r : Option State} (e : r = some t) (h : OptKept qs os r) : Kept qs os t := h t e

def FstKept {β : Type} (qs : List Instr) (os : List Out) (r : Option (State × β)) : Prop := ∀ x, r = some x → Kept qs os x.1
theorem fstKept_some {β : Type} {b : β} (h : Kept qs os s) : FstKept qs os (some (s, b)) := fun _ e => Option.some.inj e ▸ h
theorem fstKept_none {β : Type} : FstKept qs os (none : Option (State × β)) := fun _ e => nomatch e
theorem fstKept_ite {β : Type} {c : Prop} [Decidable c] {a b : Option (State × β)} (ha : FstKept qs os a) (hb : FstKept qs os b) :
    FstKept qs os (if c then a else b) := by split <;> assumption
theorem kept_of_fst {β : Type} {r : Option (State × β)} {b : β} (e : r = some (t, b)) (h : FstKept qs os r) : Kept qs os t := h _ e

def ResKept (qs : List Instr) (os : List Out) (r : Host.Outcome State Fault Refusal) : Prop := ∀ t, r = .next t → Kept qs os t
theorem resKept_next (h : Kept qs os s) : ResKept qs os (.next s) := fun _ e => Host.Outcome.next.inj e ▸ h
theorem resKept_fault {r : Fault} : ResKept qs os (.fault r) := fun _ e => nomatch e
theorem resKept_ite {c : Prop} [Decidable c] {a b : Res} (ha : ResKept qs os a) (hb : ResKept qs os b) :
    ResKept qs os (if c then a else b) := by split <;> assumption

def AnsKept (qs : List Instr) (os : List Out) : Ans → Prop
  | .done s _ => Kept qs os s
  | .held s => Kept qs os s
  | .no s _ _ _ => Kept qs os s
theorem ansKept_done {r} (h : Kept qs os s) : AnsKept qs os (.done s r) := h
theorem ansKept_held (h : Kept qs os s) : AnsKept qs os (.held s) := h
theorem ansKept_no {a b c} (h : Kept qs os s) : AnsKept qs os (.no s a b c) := h
theorem ansKept_ite {c : Prop} [Decidable c] {a b : Ans} (ha : AnsKept qs os a) (hb : AnsKept qs os b) :
    AnsKept qs os (if c then a else b) := by split <;> assumption
theorem kept_of_done {r : Ans} {x} (e : r = .done t x) (h : AnsKept qs os r) : Kept qs os t := by rw [e] at h; exact h
theorem kept_of_held {r : Ans} (e : r = .held t) (h : AnsKept qs os r) : Kept qs os t := by rw [e] at h; exact h
theorem kept_of_no {r : Ans} {a b c} (e : r = .no t a b c) (h : AnsKept qs os r) : Kept qs os t := by rw [e] at h; exact h

def StagedKept (qs : List Instr) (os : List Out) : Staged → Prop
  | .ok s => Kept qs os s
  | .lost s => Kept qs os s
  | .limit _ => True
theorem stagedKept_ok (h : Kept qs os s) : StagedKept qs os (.ok s) := h
theorem stagedKept_lost (h : Kept qs os s) : StagedKept qs os (.lost s) := h
theorem stagedKept_limit {k} : StagedKept qs os (.limit k) := trivial
theorem stagedKept_ite {c : Prop} [Decidable c] {a b : Staged} (ha : StagedKept qs os a) (hb : StagedKept qs os b) :
    StagedKept qs os (if c then a else b) := by split <;> assumption
theorem stagedKept_of_ok {r : Staged} (e : r = .ok t) (h : StagedKept qs os r) : Kept qs os t := by rw [e] at h; exact h
theorem stagedKept_of_lost {r : Staged} (e : r = .lost t) (h : StagedKept qs os r) : Kept qs os t := by rw [e] at h; exact h

def CtmOutKept (qs : List Instr) (os : List Out) : CtmOut → Prop
  | .ok s _ => Kept qs os s
  | .waitLine s => Kept qs os s
  | .waitEntries s => Kept qs os s
  | .lost s => Kept qs os s
  | .limit _ => True
  | .ecc => True
theorem ctmOutKept_ok {l} (h : Kept qs os s) : CtmOutKept qs os (.ok s l) := h
theorem ctmOutKept_waitLine (h : Kept qs os s) : CtmOutKept qs os (.waitLine s) := h
theorem ctmOutKept_waitEntries (h : Kept qs os s) : CtmOutKept qs os (.waitEntries s) := h
theorem ctmOutKept_lost (h : Kept qs os s) : CtmOutKept qs os (.lost s) := h
theorem ctmOutKept_limit {k} : CtmOutKept qs os (.limit k) := trivial
theorem ctmOutKept_ecc : CtmOutKept qs os .ecc := trivial
theorem ctmOutKept_ite {c : Prop} [Decidable c] {a b : CtmOut} (ha : CtmOutKept qs os a) (hb : CtmOutKept qs os b) :
    CtmOutKept qs os (if c then a else b) := by split <;> assumption
theorem ctmOutKept_of_ok {r : CtmOut} {l} (e : r = .ok t l) (h : CtmOutKept qs os r) : Kept qs os t := by rw [e] at h; exact h
theorem ctmOutKept_of_waitLine {r : CtmOut} (e : r = .waitLine t) (h : CtmOutKept qs os r) : Kept qs os t := by rw [e] at h; exact h
theorem ctmOutKept_of_waitEntries {r : CtmOut} (e : r = .waitEntries t) (h : CtmOutKept qs os r) : Kept qs os t := by
  rw [e] at h; exact h
theorem ctmOutKept_of_lost {r : CtmOut} (e : r = .lost t) (h : CtmOutKept qs os r) : Kept qs os t := by rw [e] at h; exact h

def CtmGoKept (qs : List Instr) (os : List Out) : CtmGo → Prop
  | .go s => Kept qs os s
  | .waitLine s => Kept qs os s
  | .waitEntries s => Kept qs os s
  | .lost s => Kept qs os s
theorem ctmGoKept_go (h : Kept qs os s) : CtmGoKept qs os (.go s) := h
theorem ctmGoKept_waitLine (h : Kept qs os s) : CtmGoKept qs os (.waitLine s) := h
theorem ctmGoKept_waitEntries (h : Kept qs os s) : CtmGoKept qs os (.waitEntries s) := h
theorem ctmGoKept_lost (h : Kept qs os s) : CtmGoKept qs os (.lost s) := h
theorem ctmGoKept_ite {c : Prop} [Decidable c] {a b : CtmGo} (ha : CtmGoKept qs os a) (hb : CtmGoKept qs os b) :
    CtmGoKept qs os (if c then a else b) := by split <;> assumption
theorem ctmGoKept_of_go {r : CtmGo} (e : r = .go t) (h : CtmGoKept qs os r) : Kept qs os t := by rw [e] at h; exact h
theorem ctmGoKept_of_waitLine {r : CtmGo} (e : r = .waitLine t) (h : CtmGoKept qs os r) : Kept qs os t := by rw [e] at h; exact h
theorem ctmGoKept_of_waitEntries {r : CtmGo} (e : r = .waitEntries t) (h : CtmGoKept qs os r) : Kept qs os t := by
  rw [e] at h; exact h
theorem ctmGoKept_of_lost {r : CtmGo} (e : r = .lost t) (h : CtmGoKept qs os r) : Kept qs os t := by rw [e] at h; exact h

def GotKept (qs : List Instr) (os : List Out) : Got → Prop
  | .ok s _ => Kept qs os s
  | .wait s => Kept qs os s
  | .bad => True
  | .limit _ => True
theorem gotKept_ok {l} (h : Kept qs os s) : GotKept qs os (.ok s l) := h
theorem gotKept_wait (h : Kept qs os s) : GotKept qs os (.wait s) := h
theorem gotKept_bad : GotKept qs os .bad := trivial
theorem gotKept_limit {k} : GotKept qs os (.limit k) := trivial
theorem gotKept_ite {c : Prop} [Decidable c] {a b : Got} (ha : GotKept qs os a) (hb : GotKept qs os b) :
    GotKept qs os (if c then a else b) := by split <;> assumption
theorem gotKept_of_ok {r : Got} {l} (e : r = .ok t l) (h : GotKept qs os r) : Kept qs os t := by rw [e] at h; exact h
theorem gotKept_of_wait {r : Got} (e : r = .wait t) (h : GotKept qs os r) : Kept qs os t := by rw [e] at h; exact h

def FetchKept (qs : List Instr) (os : List Out) : Fetch → Prop
  | .pass s => Kept qs os s
  | .got s _ => Kept qs os s
  | .limit s _ => Kept qs os s
theorem fetchKept_pass (h : Kept qs os s) : FetchKept qs os (.pass s) := h
theorem fetchKept_got {x} (h : Kept qs os s) : FetchKept qs os (.got s x) := h
theorem fetchKept_limit {k} (h : Kept qs os s) : FetchKept qs os (.limit s k) := h
theorem fetchKept_ite {c : Prop} [Decidable c] {a b : Fetch} (ha : FetchKept qs os a) (hb : FetchKept qs os b) :
    FetchKept qs os (if c then a else b) := by split <;> assumption
theorem fetchKept_of_pass {r : Fetch} (e : r = .pass t) (h : FetchKept qs os r) : Kept qs os t := by rw [e] at h; exact h
theorem fetchKept_of_got {r : Fetch} {x} (e : r = .got t x) (h : FetchKept qs os r) : Kept qs os t := by rw [e] at h; exact h
theorem fetchKept_of_limit {r : Fetch} {k} (e : r = .limit t k) (h : FetchKept qs os r) : Kept qs os t := by rw [e] at h; exact h

def ChainKept (qs : List Instr) (os : List Out) : ChainGot → Prop
  | .wait s _ _ => Kept qs os s
  | .ok s _ => Kept qs os s
  | .held s _ _ => Kept qs os s
  | .ended s => Kept qs os s
theorem chainKept_wait {l a} (h : Kept qs os s) : ChainKept qs os (.wait s l a) := h
theorem chainKept_ok {l} (h : Kept qs os s) : ChainKept qs os (.ok s l) := h
theorem chainKept_held {l a} (h : Kept qs os s) : ChainKept qs os (.held s l a) := h
theorem chainKept_ended (h : Kept qs os s) : ChainKept qs os (.ended s) := h
theorem chainKept_ite {c : Prop} [Decidable c] {a b : ChainGot} (ha : ChainKept qs os a) (hb : ChainKept qs os b) :
    ChainKept qs os (if c then a else b) := by split <;> assumption
theorem chainKept_of_wait {r : ChainGot} {l a} (e : r = .wait t l a) (h : ChainKept qs os r) : Kept qs os t := by rw [e] at h; exact h
theorem chainKept_of_ok {r : ChainGot} {l} (e : r = .ok t l) (h : ChainKept qs os r) : Kept qs os t := by rw [e] at h; exact h
theorem chainKept_of_held {r : ChainGot} {l a} (e : r = .held t l a) (h : ChainKept qs os r) : Kept qs os t := by rw [e] at h; exact h
theorem chainKept_of_ended {r : ChainGot} (e : r = .ended t) (h : ChainKept qs os r) : Kept qs os t := by rw [e] at h; exact h

/-- an instruction's effect: what it does once the registers are stored keeps the same -/
def EffKept (qs : List Instr) (os : List Out) : Eff → Prop
  | .go s _ post => Kept qs os s ∧ ∀ t, Kept qs os t → Kept qs os (post t)
  | .jump s _ => Kept qs os s
  | .trap _ _ => True
  | .stall s _ post => Kept qs os s ∧ ∀ t, Kept qs os t → Kept qs os (post t)
  | .stop s => Kept qs os s
  | .limit _ => True
theorem effKept_go {r post} (h : Kept qs os s) (hp : ∀ t, Kept qs os t → Kept qs os (post t)) : EffKept qs os (.go s r post) := ⟨h, hp⟩
theorem effKept_jump {r} (h : Kept qs os s) : EffKept qs os (.jump s r) := h
theorem effKept_trap {c v} : EffKept qs os (.trap c v) := trivial
theorem effKept_stall {x post} (h : Kept qs os s) (hp : ∀ t, Kept qs os t → Kept qs os (post t)) :
    EffKept qs os (.stall s x post) := ⟨h, hp⟩
theorem effKept_stop (h : Kept qs os s) : EffKept qs os (.stop s) := h
theorem effKept_limit {k} : EffKept qs os (.limit k) := trivial
theorem effKept_ite {c : Prop} [Decidable c] {a b : Eff} (ha : EffKept qs os a) (hb : EffKept qs os b) :
    EffKept qs os (if c then a else b) := by split <;> assumption

end Sys2Proof.Machine
end

