-- ==== Sys2Proof/Laws/KeptOps.lean ====
section
/-!
SUPPORT. Every function of Machine/Ops.lean keeps a sound state, the queue and what was sent.
-/

namespace Sys2Proof.Machine

variable {qs : List Instr} {os : List Out}

theorem writeDram_kept (s : State) (o : Nat) (l : List Byte) (hs : Kept qs os s) : Kept qs os (writeDram s o l) :=
  ⟨putBytes_canon _ _ hs.dram, hs.loc, hs.tcm, hs.host, hs.twin, hs.before, hs.link, hs.bus, hs.level, hs.asked, hs.queue, hs.sent⟩

theorem writeLoc_kept (s : State) (o : Nat) (l : List Byte) (hs : Kept qs os s) : Kept qs os (writeLoc s o l) :=
  ⟨hs.dram, putBytes_canon _ _ hs.loc, hs.tcm, hs.host, hs.twin, hs.before, hs.link, hs.bus, hs.level, hs.asked, hs.queue, hs.sent⟩

theorem writeTcm_kept (s : State) (o : Nat) (l : List Byte) (hs : Kept qs os s) : Kept qs os (writeTcm s o l) :=
  ⟨hs.dram, hs.loc, putBytes_canon _ _ hs.tcm, hs.host, hs.twin, hs.before, hs.link, hs.bus, hs.level, hs.asked, hs.queue, hs.sent⟩

theorem writeHostRaw_kept (s : State) (o : Nat) (l : List Byte) (hs : Kept qs os s) : Kept qs os (writeHostRaw s o l) :=
  ⟨hs.dram, hs.loc, hs.tcm, putBytes_canon _ _ hs.host, hs.twin, hs.before, hs.link, hs.bus, hs.level, hs.asked, hs.queue, hs.sent⟩

theorem hostStore_kept (s : State) (y0 : HostStore) (hs : Kept qs os s) :
    Kept qs os (hostStore s y0) := by
  unfold hostStore
  repeat' (first | with_reducible assumption | with_reducible apply writeHostRaw_kept | split | refine kept_upd ?_ rfl rfl rfl rfl rfl rfl rfl rfl rfl rfl rfl rfl)

theorem hostStores_kept (s : State) (l : List HostStore) (hs : Kept qs os s) :
    Kept qs os (hostStores s l) := by
  unfold hostStores
  repeat' (first | with_reducible assumption | with_reducible apply hostStore_kept | (with_reducible apply kept_foldl; intro _ _ _))

theorem emit_kept (s : State) (o : Out) (hs : Kept qs os s) : Kept qs os (emit s o) :=
  ⟨hs.dram, hs.loc, hs.tcm, hs.host, hs.twin, hs.before, hs.link, hs.bus, hs.level, hs.asked, hs.queue, hs.sent.trans (List.prefix_append _ _)⟩

theorem setFunc_kept (s : State) (m : Master) (f : Func) (hs : Kept qs os s) :
    Kept qs os (setFunc s m f) := by
  unfold setFunc
  repeat' (first | with_reducible assumption | refine kept_upd ?_ rfl rfl rfl rfl rfl rfl rfl rfl rfl rfl rfl rfl)

theorem modFunc_kept (s : State) (m : Master) (g : Func → Func) (hs : Kept qs os s) :
    Kept qs os (modFunc s m g) := by
  unfold modFunc
  repeat' (first | with_reducible assumption | with_reducible apply setFunc_kept)

theorem setVec_kept (s : State) (m : Master) (n : Nat) (v : Vec) (hs : Kept qs os s) :
    Kept qs os (setVec s m n v) := by
  unfold setVec
  repeat' (first | with_reducible assumption | with_reducible apply modFunc_kept)

end Sys2Proof.Machine
end

