-- ==== Sys2Proof/Laws/KeptEvents.lean ====
section
/-!
SUPPORT. Every function of Machine/Events.lean keeps a sound state, the queue and what was sent.
-/

namespace Sys2Proof.Machine

variable {qs : List Instr} {os : List Out}

theorem exitL1_kept (s : State) (m : Master) (hs : Kept qs os s) :
    Kept qs os (exitL1 s m) := by
  unfold exitL1
  repeat' (first | with_reducible assumption | with_reducible apply kept_ite | refine kept_upd ?_ rfl rfl rfl rfl rfl rfl rfl rfl rfl rfl rfl rfl)

theorem sendMsg_kept (s : State) (m : Master) (n : Nat) (hs : Kept qs os s) :
    Kept qs os (sendMsg s m n) := by
  unfold sendMsg
  repeat' (first | with_reducible assumption | ((fail_if_success (fail_if_success extract_lets)); extract_lets +onlyGivenNames kx; (fail_if_success (have : True := kx)); (first | (refine kept_cut qs os kx ?_ fun _ => ?_; unfold kx; rotate_left; clear_value kx; rotate_right) | clear_value kx); all_goals have kx := True.intro) | with_reducible apply setVec_kept | with_reducible apply emit_kept | with_reducible apply exitL1_kept)

theorem fallDue_kept (s : State) (m : Master) (n : Nat) (hs : Kept qs os s) :
    Kept qs os (fallDue s m n) := by
  unfold fallDue
  repeat' (first | with_reducible assumption | ((fail_if_success (fail_if_success extract_lets)); extract_lets +onlyGivenNames kx; (fail_if_success (have : True := kx)); (first | (refine kept_cut qs os kx ?_ fun _ => ?_; unfold kx; rotate_left; clear_value kx; rotate_right) | (refine kept_cut qs os kx.1 ?_ fun _ => ?_; unfold kx; rotate_left; clear_value kx; rotate_right) | (first | have := (kx : State → _) | have := (kx : Twin) | have := (kx : Mem) | have := (kx : Hu) | have := (kx : Sec); clear this) | clear_value kx); all_goals have kx := True.intro) | with_reducible apply setFunc_kept | with_reducible apply emit_kept | with_reducible apply setVec_kept | with_reducible apply sendMsg_kept | with_reducible apply kept_ite | split | refine kept_upd ?_ rfl rfl rfl rfl rfl rfl rfl rfl rfl rfl rfl rfl)

theorem evalVec_kept (s : State) (m : Master) (n : Nat) (hs : Kept qs os s) :
    Kept qs os (evalVec s m n) := by
  unfold evalVec
  repeat' (first | with_reducible assumption | ((fail_if_success (fail_if_success extract_lets)); extract_lets +onlyGivenNames kx; (fail_if_success (have : True := kx)); clear_value kx; all_goals have kx := True.intro) | with_reducible apply fallDue_kept | with_reducible apply kept_ite)

theorem countEvent_kept (s : State) (m : Master) (n : Nat) (hs : Kept qs os s) :
    Kept qs os (countEvent s m n) := by
  unfold countEvent
  repeat' (first | with_reducible assumption | ((fail_if_success (fail_if_success extract_lets)); extract_lets +onlyGivenNames kx; (fail_if_success (have : True := kx)); (first | (refine kept_cut qs os kx ?_ fun _ => ?_; unfold kx; rotate_left; clear_value kx; rotate_right) | clear_value kx); all_goals have kx := True.intro) | with_reducible apply setVec_kept | with_reducible apply evalVec_kept)

theorem icEval_kept (s : State) (hs : Kept qs os s) :
    Kept qs os (icEval s) := by
  unfold icEval
  repeat' (first | with_reducible assumption | ((fail_if_success (fail_if_success extract_lets)); extract_lets +onlyGivenNames kx; (fail_if_success (have : True := kx)); clear_value kx; all_goals have kx := True.intro) | refine kept_upd ?_ rfl rfl rfl rfl rfl rfl rfl rfl rfl rfl rfl rfl)

theorem icCloseWindows_kept (s : State) (hs : Kept qs os s) :
    Kept qs os (icCloseWindows s) := by
  unfold icCloseWindows
  repeat' (first | with_reducible assumption | with_reducible apply icEval_kept | refine kept_upd ?_ rfl rfl rfl rfl rfl rfl rfl rfl rfl rfl rfl rfl)

theorem raiseInputs_kept (s : State) (before : BitVec 16) (ns : List Nat) (hs : Kept qs os s) :
    Kept qs os (raiseInputs s before ns) := by
  unfold raiseInputs
  repeat' (first | with_reducible assumption | (first | (intro _ hk; have := hk.queue) | (intro _ _ hk; have := hk.queue) | (intro _ _ _ hk; have := hk.queue); clear this) | intro _ | ((fail_if_success (fail_if_success extract_lets)); extract_lets +onlyGivenNames kx; (fail_if_success (have : True := kx)); (first | (refine kept_cut qs os kx ?_ fun _ => ?_; unfold kx; rotate_left; clear_value kx; rotate_right) | (refine kept_cut qs os kx.1 ?_ fun _ => ?_; unfold kx; rotate_left; clear_value kx; rotate_right) | (first | have := (kx : State → _) | have := (kx : Twin) | have := (kx : Mem) | have := (kx : Hu) | have := (kx : Sec); clear this) | clear_value kx); all_goals have kx := True.intro) | (with_reducible apply kept_foldl; intro _ _ _) | with_reducible apply kept_ite | split | refine kept_upd ?_ rfl rfl rfl rfl rfl rfl rfl rfl rfl rfl rfl rfl)

theorem occur_kept (s : State) (n : Nat) (hs : Kept qs os s) :
    Kept qs os (occur s n) := by
  unfold occur
  repeat' (first | with_reducible assumption | (first | (intro _ hk; have := hk.queue) | (intro _ _ hk; have := hk.queue) | (intro _ _ _ hk; have := hk.queue); clear this) | intro _ | ((fail_if_success (fail_if_success extract_lets)); extract_lets +onlyGivenNames kx; (fail_if_success (have : True := kx)); (first | (refine kept_cut qs os kx ?_ fun _ => ?_; unfold kx; rotate_left; clear_value kx; rotate_right) | (refine kept_cut qs os kx.1 ?_ fun _ => ?_; unfold kx; rotate_left; clear_value kx; rotate_right) | (first | have := (kx : State → _) | have := (kx : Twin) | have := (kx : Mem) | have := (kx : Hu) | have := (kx : Sec); clear this) | clear_value kx); all_goals have kx := True.intro) | with_reducible apply icEval_kept | with_reducible apply countEvent_kept | split | refine kept_upd ?_ rfl rfl rfl rfl rfl rfl rfl rfl rfl rfl rfl rfl)

theorem pulse_kept (s : State) (n : Nat) (hs : Kept qs os s) :
    Kept qs os (pulse s n) := by
  unfold pulse
  repeat' (first | with_reducible assumption | with_reducible apply occur_kept | with_reducible apply raiseInputs_kept)

theorem rcPulse_kept (old : Word) (s : State) (hs : Kept qs os s) :
    Kept qs os (rcPulse old s) := by
  unfold rcPulse
  repeat' (first | with_reducible assumption | with_reducible apply pulse_kept | with_reducible apply kept_ite)

theorem reject_kept (s : State) (blk : Nat) (hs : Kept qs os s) :
    Kept qs os (reject s blk) := by
  unfold reject
  repeat' (first | with_reducible assumption | with_reducible apply pulse_kept | refine kept_upd ?_ rfl rfl rfl rfl rfl rfl rfl rfl rfl rfl rfl rfl)

theorem rejectHf_kept (s : State) (m : Master) (hs : Kept qs os s) :
    Kept qs os (rejectHf s m) := by
  unfold rejectHf
  repeat' (first | with_reducible assumption | with_reducible apply pulse_kept | with_reducible apply modFunc_kept)

theorem hostWrite_kept (s : State) (o : Nat) (l : List Byte) (hs : Kept qs os s) :
    Kept qs os (hostWrite s o l) := by
  unfold hostWrite
  repeat' (first | with_reducible assumption | with_reducible apply writeHostRaw_kept | split)

theorem setSq_kept (s : State) (n : Nat) (q : SQueue) (hs : Kept qs os s) :
    Kept qs os (setSq s n q) := by
  unfold setSq
  repeat' (first | with_reducible assumption | refine kept_upd ?_ rfl rfl rfl rfl rfl rfl rfl rfl rfl rfl rfl rfl)

theorem sqWrite_kept (s : State) (n : Nat) (w : BitVec 256) (hs : Kept qs os s) :
    Kept qs os (sqWrite s n w) := by
  unfold sqWrite
  repeat' (first | with_reducible assumption | ((fail_if_success (fail_if_success extract_lets)); extract_lets +onlyGivenNames kx; (fail_if_success (have : True := kx)); (first | (refine kept_cut qs os kx ?_ fun _ => ?_; unfold kx; rotate_left; clear_value kx; rotate_right) | clear_value kx); all_goals have kx := True.intro) | with_reducible apply hostWrite_kept | with_reducible apply setSq_kept | with_reducible apply countEvent_kept | with_reducible apply fallDue_kept | with_reducible apply pulse_kept | with_reducible apply kept_ite | split)

end Sys2Proof.Machine
end

