-- ==== Sys2Proof/Laws/KeptRecords.lean ====
section
/-!
SUPPORT. Every function of Machine/Records.lean keeps a sound state, the queue and what was sent.
-/

namespace Sys2Proof.Machine

variable {qs : List Instr} {os : List Out}

theorem settleReady_kept (s : State) (m : Master) (hs : Kept qs os s) :
    Kept qs os (settleReady s m) := by
  unfold settleReady
  repeat' (first | with_reducible assumption | (first | (intro _ hk; have := hk.queue) | (intro _ _ hk; have := hk.queue) | (intro _ _ _ hk; have := hk.queue); clear this) | intro _ | ((fail_if_success (fail_if_success extract_lets)); extract_lets +onlyGivenNames kx; (fail_if_success (have : True := kx)); (first | (refine kept_cut qs os kx ?_ fun _ => ?_; unfold kx; rotate_left; clear_value kx; rotate_right) | (refine kept_cut qs os kx.1 ?_ fun _ => ?_; unfold kx; rotate_left; clear_value kx; rotate_right) | (first | have := (kx : State → _) | have := (kx : Twin) | have := (kx : Mem) | have := (kx : Hu) | have := (kx : Sec); clear this) | clear_value kx); all_goals have kx := True.intro) | with_reducible apply setFunc_kept | with_reducible apply kept_ite | split | refine kept_upd ?_ rfl rfl rfl rfl rfl rfl rfl rfl rfl rfl rfl rfl)

theorem putReply_kept (s : State) (m : Master) (r : BitVec 256) (hs : Kept qs os s) :
    Kept qs os (putReply s m r) := by
  unfold putReply
  repeat' (first | with_reducible assumption | ((fail_if_success (fail_if_success extract_lets)); extract_lets +onlyGivenNames kx; (fail_if_success (have : True := kx)); (first | (refine kept_cut qs os kx ?_ fun _ => ?_; unfold kx; rotate_left; clear_value kx; rotate_right) | (refine kept_cut qs os kx.1 ?_ fun _ => ?_; unfold kx; rotate_left; clear_value kx; rotate_right) | (first | have := (kx : State → _) | have := (kx : Twin) | have := (kx : Mem) | have := (kx : Hu) | have := (kx : Sec); clear this) | clear_value kx); all_goals have kx := True.intro) | with_reducible apply setFunc_kept | with_reducible apply writeHostRaw_kept | with_reducible apply countEvent_kept | with_reducible apply kept_ite | split | refine kept_upd ?_ rfl rfl rfl rfl rfl rfl rfl rfl rfl rfl rfl rfl)

theorem reply_kept (s : State) (m : Master) (tag status : Half) (field : Byte) (result : BitVec 192) (hs : Kept qs os s) :
    Kept qs os (reply s m tag status field result) := by
  unfold reply
  repeat' (first | with_reducible assumption | with_reducible apply putReply_kept)

theorem flushReplies_kept (s : State) (m : Master) (hs : Kept qs os s) :
    Kept qs os (flushReplies s m) := by
  unfold flushReplies
  repeat' (first | with_reducible assumption | (first | (intro _ hk; have := hk.queue) | (intro _ _ hk; have := hk.queue) | (intro _ _ _ hk; have := hk.queue); clear this) | intro _ | ((fail_if_success (fail_if_success extract_lets)); extract_lets +onlyGivenNames kx; (fail_if_success (have : True := kx)); (first | (refine kept_cut qs os kx ?_ fun _ => ?_; unfold kx; rotate_left; clear_value kx; rotate_right) | (refine kept_cut qs os kx.1 ?_ fun _ => ?_; unfold kx; rotate_left; clear_value kx; rotate_right) | (first | have := (kx : State → _) | have := (kx : Twin) | have := (kx : Mem) | have := (kx : Hu) | have := (kx : Sec); clear this) | clear_value kx); all_goals have kx := True.intro) | with_reducible apply settleReady_kept | with_reducible apply putReply_kept | (with_reducible apply kept_foldl; intro _ _ _) | split | refine kept_upd ?_ rfl rfl rfl rfl rfl rfl rfl rfl rfl rfl rfl rfl)

theorem finishHeld_kept (s : State) (why : HeldWhy) (status : Half) (result : BitVec 192) (hs : Kept qs os s) :
    Kept qs os (finishHeld s why status result) := by
  unfold finishHeld
  repeat' (first | with_reducible assumption | (first | (intro _ hk; have := hk.queue) | (intro _ _ hk; have := hk.queue) | (intro _ _ _ hk; have := hk.queue); clear this) | intro _ | ((fail_if_success (fail_if_success extract_lets)); extract_lets +onlyGivenNames kx; (fail_if_success (have : True := kx)); (first | (refine kept_cut qs os kx ?_ fun _ => ?_; unfold kx; rotate_left; clear_value kx; rotate_right) | (refine kept_cut qs os kx.1 ?_ fun _ => ?_; unfold kx; rotate_left; clear_value kx; rotate_right) | (first | have := (kx : State → _) | have := (kx : Twin) | have := (kx : Mem) | have := (kx : Hu) | have := (kx : Sec); clear this) | clear_value kx); all_goals have kx := True.intro) | with_reducible apply settleReady_kept | with_reducible apply reply_kept | (with_reducible apply kept_foldl; intro _ _ _) | refine kept_upd ?_ rfl rfl rfl rfl rfl rfl rfl rfl rfl rfl rfl rfl)

theorem hold_kept (s : State) (m : Master) (tag : Half) (why : HeldWhy) (hs : Kept qs os s) :
    Kept qs os (hold s m tag why) := by
  unfold hold
  repeat' (first | with_reducible assumption | refine kept_upd ?_ rfl rfl rfl rfl rfl rfl rfl rfl rfl rfl rfl rfl)

theorem putCacheSet_kept (s : State) (n : Nat) (l : List Way) (hs : Kept qs os s) :
    Kept qs os (putCacheSet s n l) := by
  unfold putCacheSet
  repeat' (first | with_reducible assumption | refine kept_upd ?_ rfl rfl rfl rfl rfl rfl rfl rfl rfl rfl rfl rfl)

theorem noteRecord_kept (s : State) (n : Nat) (p : Pron) (hs : Kept qs os s) :
    Kept qs os (noteRecord s n p) := by
  unfold noteRecord
  repeat' (first | with_reducible assumption | with_reducible apply putCacheSet_kept | with_reducible apply kept_ite | refine kept_upd ?_ rfl rfl rfl rfl rfl rfl rfl rfl rfl rfl rfl rfl)

theorem setP_kept (s : State) (n : Nat) (p : Pron) (hs : Kept qs os s) :
    Kept qs os (setP s n p) := by
  unfold setP
  repeat' (first | with_reducible assumption | with_reducible apply noteRecord_kept | refine kept_upd ?_ rfl rfl rfl rfl rfl rfl rfl rfl rfl rfl rfl rfl)

theorem modP_kept (s : State) (n : Nat) (f : Pron → Pron) (hs : Kept qs os s) :
    Kept qs os (modP s n f) := by
  unfold modP
  repeat' (first | with_reducible assumption | with_reducible apply setP_kept)

theorem cacheTake_kept (s : State) (n : Nat) (hs : Kept qs os s) :
    Kept qs os (cacheTake s n) := by
  unfold cacheTake
  repeat' (first | with_reducible assumption | with_reducible apply putCacheSet_kept)

theorem cachePut_kept (s : State) (n : Nat) (dirty : Bool) (hs : Kept qs os s) :
    Kept qs os (cachePut s n dirty) := by
  unfold cachePut
  repeat' (first | with_reducible assumption | ((fail_if_success (fail_if_success extract_lets)); extract_lets +onlyGivenNames kx; (fail_if_success (have : True := kx)); (first | (refine kept_cut qs os kx ?_ fun _ => ?_; unfold kx; rotate_left; clear_value kx; rotate_right) | clear_value kx); all_goals have kx := True.intro) | with_reducible apply putCacheSet_kept | with_reducible apply kept_ite | split | refine kept_upd ?_ rfl rfl rfl rfl rfl rfl rfl rfl rfl rfl rfl rfl)

theorem setSlot_kept (s : State) (k : Nat) (x : Slot) (hs : Kept qs os s) :
    Kept qs os (setSlot s k x) := by
  unfold setSlot
  repeat' (first | with_reducible assumption | refine kept_upd ?_ rfl rfl rfl rfl rfl rfl rfl rfl rfl rfl rfl rfl)

theorem leaveSlot_kept (s : State) (n : Nat) (hs : Kept qs os s) :
    Kept qs os (leaveSlot s n) := by
  unfold leaveSlot
  repeat' (first | with_reducible assumption | with_reducible apply cachePut_kept | with_reducible apply setSlot_kept | split)

theorem saveFrame_kept (s : State) (n : Nat) (hs : Kept qs os s) :
    Kept qs os (saveFrame s n) := by
  unfold saveFrame
  repeat' (first | with_reducible assumption | with_reducible apply writeDram_kept | split)

theorem dequeue_kept (s : State) (n : Nat) (hs : Kept qs os s) :
    Kept qs os (dequeue s n) := by
  unfold dequeue
  repeat' (first | with_reducible assumption | refine kept_upd ?_ rfl rfl rfl rfl rfl rfl rfl rfl rfl rfl rfl rfl)

theorem enqueue_kept (s : State) (n : Nat) (hs : Kept qs os s) :
    Kept qs os (enqueue s n) := by
  unfold enqueue
  repeat' (first | with_reducible assumption | ((fail_if_success (fail_if_success extract_lets)); extract_lets +onlyGivenNames kx; (fail_if_success (have : True := kx)); (first | (refine kept_cut qs os kx ?_ fun _ => ?_; unfold kx; rotate_left; clear_value kx; rotate_right) | clear_value kx); all_goals have kx := True.intro) | with_reducible apply dequeue_kept | with_reducible apply cachePut_kept | refine kept_upd ?_ rfl rfl rfl rfl rfl rfl rfl rfl rfl rfl rfl rfl)

theorem toQueued_kept (s : State) (n : Nat) (cause : BitVec 3) (hs : Kept qs os s) :
    Kept qs os (toQueued s n cause) := by
  unfold toQueued
  repeat' (first | with_reducible assumption | (first | (intro _ hk; have := hk.queue) | (intro _ _ hk; have := hk.queue) | (intro _ _ _ hk; have := hk.queue); clear this) | intro _ | with_reducible apply enqueue_kept | with_reducible apply modP_kept | with_reducible apply kept_ite | split | refine kept_upd ?_ rfl rfl rfl rfl rfl rfl rfl rfl rfl rfl rfl rfl)

theorem startAt_kept (s : State) (n : Nat) (a : Dword) (cause : BitVec 3) (hs : Kept qs os s) :
    Kept qs os (startAt s n a cause) := by
  unfold startAt
  repeat' (first | with_reducible assumption | with_reducible apply toQueued_kept | with_reducible apply modP_kept)

theorem toIdle_kept (s : State) (n : Nat) (hs : Kept qs os s) :
    Kept qs os (toIdle s n) := by
  unfold toIdle
  repeat' (first | with_reducible assumption | ((fail_if_success (fail_if_success extract_lets)); extract_lets +onlyGivenNames kx; (fail_if_success (have : True := kx)); (first | (refine kept_cut qs os kx ?_ fun _ => ?_; unfold kx; rotate_left; clear_value kx; rotate_right) | (refine kept_cut qs os kx.1 ?_ fun _ => ?_; unfold kx; rotate_left; clear_value kx; rotate_right) | (first | have := (kx : State → _) | have := (kx : Twin) | have := (kx : Mem) | have := (kx : Hu) | have := (kx : Sec); clear this) | clear_value kx); all_goals have kx := True.intro) | with_reducible apply setP_kept | with_reducible apply startAt_kept | with_reducible apply kept_ite | split | refine kept_upd ?_ rfl rfl rfl rfl rfl rfl rfl rfl rfl rfl rfl rfl)

theorem setWords_kept (s : State) (l : List (Nat × Nat × BitVec 256)) (hs : Kept qs os s) :
    Kept qs os (setWords s l) := by
  unfold setWords
  repeat' (first | with_reducible assumption | refine kept_upd ?_ rfl rfl rfl rfl rfl rfl rfl rfl rfl rfl rfl rfl)

theorem postBits_kept (s : State) (n sq : Nat) (bits : BitVec 256) (hs : Kept qs os s) :
    Kept qs os (postBits s n sq bits).1 := by
  unfold postBits
  repeat' (first | with_reducible assumption | (first | (intro _ hk; have := hk.queue) | (intro _ _ hk; have := hk.queue) | (intro _ _ _ hk; have := hk.queue); clear this) | intro _ | ((fail_if_success (fail_if_success extract_lets)); extract_lets +onlyGivenNames kx; (fail_if_success (have : True := kx)); (first | (refine kept_cut qs os kx ?_ fun _ => ?_; unfold kx; rotate_left; clear_value kx; rotate_right) | (refine kept_cut qs os kx.1 ?_ fun _ => ?_; unfold kx; rotate_left; clear_value kx; rotate_right) | (first | have := (kx : State → _) | have := (kx : Twin) | have := (kx : Mem) | have := (kx : Hu) | have := (kx : Sec); clear this) | clear_value kx); all_goals have kx := True.intro) | with_reducible apply setP_kept | with_reducible apply sqWrite_kept | with_reducible apply setWords_kept | with_reducible apply kept_ite | with_reducible apply kept_ite_fst | split | refine kept_upd ?_ rfl rfl rfl rfl rfl rfl rfl rfl rfl rfl rfl rfl)

theorem postDirect_kept (s : State) (n : Nat) (w : SWord) (hs : Kept qs os s) :
    Kept qs os (postDirect s n w).1 := by
  unfold postDirect
  repeat' (first | with_reducible assumption | with_reducible apply postBits_kept)

end Sys2Proof.Machine
end

