-- ==== Sys2Proof/Laws/KeptTwinLink.lean ====
section
/-!
SUPPORT. Every function of Machine/TwinLink.lean keeps a sound state, the queue and what was sent.
-/

namespace Sys2Proof.Machine

variable {qs : List Instr} {os : List Out}

theorem twinCount_kept (s : State) (i : Nat) (hs : Kept qs os s) :
    Kept qs os (twinCount s i) := by
  unfold twinCount
  repeat' (first | with_reducible assumption | with_reducible apply rcPulse_kept | refine kept_upd ?_ rfl rfl rfl rfl rfl rfl rfl rfl rfl rfl rfl rfl)

theorem putFlit_kept (s : State) (f : Flit) (hs : Kept qs os s) :
    Kept qs os (putFlit s f) := by
  unfold putFlit
  repeat' (first | with_reducible assumption | ((fail_if_success (fail_if_success extract_lets)); extract_lets +onlyGivenNames kx; (fail_if_success (have : True := kx)); (first | (refine kept_cut qs os kx ?_ fun _ => ?_; unfold kx; rotate_left; clear_value kx; rotate_right) | (refine kept_cut qs os kx.1 ?_ fun _ => ?_; unfold kx; rotate_left; clear_value kx; rotate_right) | (first | have := (kx : State → _) | have := (kx : Twin) | have := (kx : Mem) | have := (kx : Hu) | have := (kx : Sec); clear this) | clear_value kx); all_goals have kx := True.intro) | with_reducible apply emit_kept | refine kept_upd ?_ rfl rfl rfl rfl rfl rfl rfl rfl rfl rfl rfl rfl)

theorem sendFlit_kept (s : State) (bulk : Bool) (l : List Byte) (hs : Kept qs os s) :
    Kept qs os (sendFlit s bulk l) := by
  unfold sendFlit
  repeat' (first | with_reducible assumption | ((fail_if_success (fail_if_success extract_lets)); extract_lets +onlyGivenNames kx; (fail_if_success (have : True := kx)); (first | (refine kept_cut qs os kx ?_ fun _ => ?_; unfold kx; rotate_left; clear_value kx; rotate_right) | (refine kept_cut qs os kx.1 ?_ fun _ => ?_; unfold kx; rotate_left; clear_value kx; rotate_right) | (first | have := (kx : State → _) | have := (kx : Twin) | have := (kx : Mem) | have := (kx : Hu) | have := (kx : Sec); clear this) | clear_value kx); all_goals have kx := True.intro) | with_reducible apply putFlit_kept | refine kept_upd ?_ rfl rfl rfl rfl rfl rfl rfl rfl rfl rfl rfl rfl)

theorem setRest_kept (s : State) (bulk : Bool) (l : List Byte) (hs : Kept qs os s) :
    Kept qs os (setRest s bulk l) := by
  unfold setRest
  repeat' (first | with_reducible assumption | with_reducible apply kept_ite | split | refine kept_upd ?_ rfl rfl rfl rfl rfl rfl rfl rfl rfl rfl rfl rfl)

theorem fillFlit_kept (bulk : Bool) (y0 : Nat) (y1 : State) (hy1 : Kept qs os y1) :
    Kept qs os (fillFlit bulk y0 y1) := by
  induction y0 generalizing bulk y1 hy1 with
  | zero =>
    rw [fillFlit]
    repeat' (first | with_reducible assumption | with_reducible apply setRest_kept | with_reducible apply kept_ite | split | refine kept_upd ?_ rfl rfl rfl rfl rfl rfl rfl rfl rfl rfl rfl rfl)
  | succ n ih =>
    rw [fillFlit]
    repeat' (first | with_reducible assumption | with_reducible apply ih | with_reducible apply setRest_kept | with_reducible apply kept_ite | split | refine kept_upd ?_ rfl rfl rfl rfl rfl rfl rfl rfl rfl rfl rfl rfl)

theorem sendClass_kept (s : State) (bulk : Bool) (hs : Kept qs os s) :
    Kept qs os (sendClass s bulk) := by
  unfold sendClass
  repeat' (first | with_reducible assumption | ((fail_if_success (fail_if_success extract_lets)); extract_lets +onlyGivenNames kx; (fail_if_success (have : True := kx)); (first | (refine kept_cut qs os kx ?_ fun _ => ?_; unfold kx; rotate_left; clear_value kx; rotate_right) | (refine kept_cut qs os kx.1 ?_ fun _ => ?_; unfold kx; rotate_left; clear_value kx; rotate_right) | (first | have := (kx : State → _) | have := (kx : Twin) | have := (kx : Mem) | have := (kx : Hu) | have := (kx : Sec); clear this) | clear_value kx); all_goals have kx := True.intro) | with_reducible apply fillFlit_kept | with_reducible apply sendFlit_kept | with_reducible apply setRest_kept)

theorem pumpFlits_kept (y0 : Nat) (y1 : State) (hy1 : Kept qs os y1) :
    Kept qs os (pumpFlits y0 y1) := by
  induction y0 generalizing y1 hy1 with
  | zero =>
    rw [pumpFlits]
    repeat' (first | with_reducible assumption | with_reducible apply sendClass_kept | with_reducible apply kept_ite | split)
  | succ n ih =>
    rw [pumpFlits]
    repeat' (first | with_reducible assumption | with_reducible apply ih | with_reducible apply sendClass_kept | with_reducible apply kept_ite | split)

theorem twinPump_kept (s : State) (hs : Kept qs os s) :
    Kept qs os (twinPump s) := by
  unfold twinPump
  repeat' (first | with_reducible assumption | with_reducible apply pumpFlits_kept | with_reducible apply kept_ite | split)

theorem twinSend_kept (s : State) (m : TwinMsg) (hs : Kept qs os s) :
    Kept qs os (twinSend s m) := by
  unfold twinSend
  repeat' (first | with_reducible assumption | with_reducible apply twinPump_kept | refine kept_upd ?_ rfl rfl rfl rfl rfl rfl rfl rfl rfl rfl rfl rfl)

theorem twinLine_kept (s : State) (l : Nat) (hs : Kept qs os s) :
    Kept qs os (twinLine s l) := by
  unfold twinLine
  repeat' (first | with_reducible assumption | with_reducible apply twinSend_kept | with_reducible apply kept_ite | split | refine kept_upd ?_ rfl rfl rfl rfl rfl rfl rfl rfl rfl rfl rfl rfl)

end Sys2Proof.Machine
end

