-- ==== Sys2Proof/Laws/KeptClauses.lean ====
section
/-!
SUPPORT. Every function of Machine/Clauses.lean keeps a sound state, the queue and what was sent.
-/

namespace Sys2Proof.Machine

variable {qs : List Instr} {os : List Out}

theorem setMv_kept (s : State) (m : Nat) (x : Mover) (hs : Kept qs os s) :
    Kept qs os (setMv s m x) := by
  unfold setMv
  repeat' (first | with_reducible assumption | refine kept_upd ?_ rfl rfl rfl rfl rfl rfl rfl rfl rfl rfl rfl rfl)

theorem modMv_kept (s : State) (m : Nat) (f : Mover → Mover) (hs : Kept qs os s) :
    Kept qs os (modMv s m f) := by
  unfold modMv
  repeat' (first | with_reducible assumption | with_reducible apply setMv_kept)

theorem delOp_kept (s : State) (id : Nat) (hs : Kept qs os s) :
    Kept qs os (delOp s id) := by
  unfold delOp
  repeat' (first | with_reducible assumption | (first | (intro _ hk; have := hk.queue) | (intro _ _ hk; have := hk.queue) | (intro _ _ _ hk; have := hk.queue); clear this) | intro _ | ((fail_if_success (fail_if_success extract_lets)); extract_lets +onlyGivenNames kx; (fail_if_success (have : True := kx)); (first | (refine kept_cut qs os kx ?_ fun _ => ?_; unfold kx; rotate_left; clear_value kx; rotate_right) | (refine kept_cut qs os kx.1 ?_ fun _ => ?_; unfold kx; rotate_left; clear_value kx; rotate_right) | (first | have := (kx : State → _) | have := (kx : Twin) | have := (kx : Mem) | have := (kx : Hu) | have := (kx : Sec); clear this) | clear_value kx); all_goals have kx := True.intro) | with_reducible apply kept_ite | split | refine kept_upd ?_ rfl rfl rfl rfl rfl rfl rfl rfl rfl rfl rfl rfl | with_reducible apply kept_getD)

theorem setPhase_kept (s : State) (n : Nat) (ph : Phase) (hs : Kept qs os s) :
    Kept qs os (setPhase s n ph) := by
  unfold setPhase
  repeat' (first | with_reducible assumption | with_reducible apply modP_kept)

theorem releaseHold_kept (s : State) (n : Nat) (hs : Kept qs os s) :
    Kept qs os (releaseHold s n) := by
  unfold releaseHold
  repeat' (first | with_reducible assumption | ((fail_if_success (fail_if_success extract_lets)); extract_lets +onlyGivenNames kx; (fail_if_success (have : True := kx)); clear_value kx; all_goals have kx := True.intro) | with_reducible apply enqueue_kept | with_reducible apply setP_kept | with_reducible apply kept_ite)

theorem cancelWork_kept (s : State) (b : Nat) (hs : Kept qs os s) :
    Kept qs os (cancelWork s b) := by
  unfold cancelWork
  repeat' (first | with_reducible assumption | with_reducible apply modMv_kept | (with_reducible apply kept_foldl; intro _ _ _))

theorem modClause_kept (s : State) (b : Nat) (f : Clause → Clause) (hs : Kept qs os s) :
    Kept qs os (modClause s b f) := by
  unfold modClause
  repeat' (first | with_reducible assumption | refine kept_upd ?_ rfl rfl rfl rfl rfl rfl rfl rfl rfl rfl rfl rfl)

theorem dropClause_kept (s : State) (b : Nat) (hs : Kept qs os s) :
    Kept qs os (dropClause s b) := by
  unfold dropClause
  repeat' (first | with_reducible assumption | refine kept_upd ?_ rfl rfl rfl rfl rfl rfl rfl rfl rfl rfl rfl rfl)

theorem countAbort_kept (s : State) (reason : Byte) (hs : Kept qs os s) :
    Kept qs os (countAbort s reason) := by
  unfold countAbort
  repeat' (first | with_reducible assumption | ((fail_if_success (fail_if_success extract_lets)); extract_lets +onlyGivenNames kx; (fail_if_success (have : True := kx)); clear_value kx; all_goals have kx := True.intro) | with_reducible apply rcPulse_kept | refine kept_upd ?_ rfl rfl rfl rfl rfl rfl rfl rfl rfl rfl rfl rfl)

theorem cutCcw_kept (s : State) (n : Nat) (t : Transfer) (hs : Kept qs os s) :
    Kept qs os (cutCcw s n t) := by
  unfold cutCcw
  repeat' (first | with_reducible assumption | with_reducible apply setPhase_kept | with_reducible apply delOp_kept | with_reducible apply issue_kept | with_reducible apply kept_ite | split | with_reducible apply effKept_ite | with_reducible apply effKept_go | with_reducible apply effKept_jump | with_reducible apply effKept_stall | with_reducible apply effKept_stop | with_reducible apply effKept_trap | with_reducible apply effKept_limit | unfold id)

theorem doomWork_kept (s : State) (c : Clause) (hs : Kept qs os s) :
    Kept qs os (doomWork s c) := by
  unfold doomWork
  repeat' (first | with_reducible assumption | ((fail_if_success (fail_if_success extract_lets)); extract_lets +onlyGivenNames kx; (fail_if_success (have : True := kx)); (first | (refine kept_cut qs os kx ?_ fun _ => ?_; unfold kx; rotate_left; clear_value kx; rotate_right) | (refine kept_cut qs os kx.1 ?_ fun _ => ?_; unfold kx; rotate_left; clear_value kx; rotate_right) | (first | have := (kx : State → _) | have := (kx : Twin) | have := (kx : Mem) | have := (kx : Hu) | have := (kx : Sec); clear this) | clear_value kx); all_goals have kx := True.intro) | with_reducible apply releaseHold_kept | with_reducible apply cancelWork_kept | with_reducible apply cutCcw_kept | split)

theorem doom_kept (s : State) (b : Nat) (reason : Byte) (doomers : List Nat) (hs : Kept qs os s) :
    Kept qs os (doom s b reason doomers) := by
  unfold doom
  repeat' (first | with_reducible assumption | (first | (intro _ hk; have := hk.queue) | (intro _ _ hk; have := hk.queue) | (intro _ _ _ hk; have := hk.queue); clear this) | intro _ | ((fail_if_success (fail_if_success extract_lets)); extract_lets +onlyGivenNames kx; (fail_if_success (have : True := kx)); (first | (refine kept_cut qs os kx ?_ fun _ => ?_; unfold kx; rotate_left; clear_value kx; rotate_right) | (refine kept_cut qs os kx.1 ?_ fun _ => ?_; unfold kx; rotate_left; clear_value kx; rotate_right) | (first | have := (kx : State → _) | have := (kx : Twin) | have := (kx : Mem) | have := (kx : Hu) | have := (kx : Sec); clear this) | clear_value kx); all_goals have kx := True.intro) | with_reducible apply doomWork_kept | with_reducible apply modClause_kept | with_reducible apply modP_kept | with_reducible apply dropClause_kept | with_reducible apply kept_ite | split | refine kept_upd ?_ rfl rfl rfl rfl rfl rfl rfl rfl rfl rfl rfl rfl)

theorem dirRoom_kept (c : Clause) (l : Nat) (y0 : Nat) (y1 : State) (hy1 : Kept qs os y1) :
    CtmGoKept qs os (dirRoom c l y0 y1) := by
  induction y0 generalizing c l y1 hy1 with
  | zero =>
    rw [dirRoom]
    repeat' (first | with_reducible assumption | (first | (intro _ hk; have := hk.queue) | (intro _ _ hk; have := hk.queue) | (intro _ _ _ hk; have := hk.queue); clear this) | intro _ | ((fail_if_success (fail_if_success extract_lets)); extract_lets +onlyGivenNames kx; (fail_if_success (have : True := kx)); (first | (refine kept_cut qs os kx ?_ fun _ => ?_; unfold kx; rotate_left; clear_value kx; rotate_right) | (refine kept_cut qs os kx.1 ?_ fun _ => ?_; unfold kx; rotate_left; clear_value kx; rotate_right) | (first | have := (kx : State → _) | have := (kx : Twin) | have := (kx : Mem) | have := (kx : Hu) | have := (kx : Sec); clear this) | clear_value kx); all_goals have kx := True.intro) | with_reducible apply ctmGoKept_go | with_reducible apply ctmGoKept_waitLine | with_reducible apply ctmGoKept_waitEntries | with_reducible apply ctmGoKept_lost | with_reducible apply ctmGoKept_ite | with_reducible apply doom_kept | with_reducible apply kept_ite | split)
  | succ n ih =>
    rw [dirRoom]
    repeat' (first | with_reducible assumption | with_reducible apply ih | (first | (intro _ hk; have := hk.queue) | (intro _ _ hk; have := hk.queue) | (intro _ _ _ hk; have := hk.queue); clear this) | intro _ | ((fail_if_success (fail_if_success extract_lets)); extract_lets +onlyGivenNames kx; (fail_if_success (have : True := kx)); (first | (refine kept_cut qs os kx ?_ fun _ => ?_; unfold kx; rotate_left; clear_value kx; rotate_right) | (refine kept_cut qs os kx.1 ?_ fun _ => ?_; unfold kx; rotate_left; clear_value kx; rotate_right) | (first | have := (kx : State → _) | have := (kx : Twin) | have := (kx : Mem) | have := (kx : Hu) | have := (kx : Sec); clear this) | clear_value kx); all_goals have kx := True.intro) | with_reducible apply ctmGoKept_go | with_reducible apply ctmGoKept_waitLine | with_reducible apply ctmGoKept_waitEntries | with_reducible apply ctmGoKept_lost | with_reducible apply ctmGoKept_ite | with_reducible apply doom_kept | with_reducible apply kept_ite | split)

theorem dirCheck_kept (s : State) (c : Clause) (l : Nat) (write : Bool) (hs : Kept qs os s) :
    CtmGoKept qs os (dirCheck s c l write) := by
  unfold dirCheck
  repeat' (first | with_reducible assumption | (first | (intro _ hk; have := hk.queue) | (intro _ _ hk; have := hk.queue) | (intro _ _ _ hk; have := hk.queue); clear this) | intro _ | ((fail_if_success (fail_if_success extract_lets)); extract_lets +onlyGivenNames kx; (fail_if_success (have : True := kx)); (first | (refine kept_cut qs os kx ?_ fun _ => ?_; unfold kx; rotate_left; clear_value kx; rotate_right) | (refine kept_cut qs os kx.1 ?_ fun _ => ?_; unfold kx; rotate_left; clear_value kx; rotate_right) | (first | have := (kx : State → _) | have := (kx : Twin) | have := (kx : Mem) | have := (kx : Hu) | have := (kx : Sec); clear this) | clear_value kx); all_goals have kx := True.intro) | with_reducible apply ctmGoKept_go | with_reducible apply ctmGoKept_waitLine | with_reducible apply ctmGoKept_waitEntries | with_reducible apply ctmGoKept_lost | with_reducible apply ctmGoKept_ite | with_reducible apply doom_kept | with_reducible apply dirRoom_kept | (with_reducible apply kept_foldl; intro _ _ _) | with_reducible apply kept_ite | with_reducible refine ctmGoKept_of_go (by assumption) ?_ | with_reducible refine ctmGoKept_of_waitLine (by assumption) ?_ | with_reducible refine ctmGoKept_of_waitEntries (by assumption) ?_ | with_reducible refine ctmGoKept_of_lost (by assumption) ?_ | split)

theorem stageRoom_kept (s : State) (b : Nat) (need : Nat) (y0 : Nat) (hs : Kept qs os s) :
    Kept qs os (stageRoom s b need y0) := by
  induction y0 generalizing s b need hs with
  | zero =>
    rw [stageRoom]
    repeat' (with_reducible assumption)
  | succ n ih =>
    rw [stageRoom]
    repeat' (first | with_reducible assumption | with_reducible apply ih | ((fail_if_success (fail_if_success extract_lets)); extract_lets +onlyGivenNames kx; (fail_if_success (have : True := kx)); (refine kept_cut qs os kx ?_ fun _ => ?_; unfold kx; rotate_left; clear_value kx; rotate_right); all_goals have kx := True.intro) | with_reducible apply doom_kept | with_reducible apply kept_ite | split)

theorem stage_kept (s : State) (b : Nat) (es : List Effect) (nEff bytes ranges : Nat) (hs : Kept qs os s) :
    StagedKept qs os (stage s b es nEff bytes ranges) := by
  unfold stage
  repeat' (first | with_reducible assumption | ((fail_if_success (fail_if_success extract_lets)); extract_lets +onlyGivenNames kx; (fail_if_success (have : True := kx)); (refine kept_cut qs os kx ?_ fun _ => ?_; unfold kx; rotate_left; clear_value kx; rotate_right); all_goals have kx := True.intro) | with_reducible apply stagedKept_ok | with_reducible apply stagedKept_lost | with_reducible apply stagedKept_limit | with_reducible apply stagedKept_ite | with_reducible apply stageRoom_kept | with_reducible apply modClause_kept | split)

theorem ctmReadIn_kept (s : State) (c : Clause) (a n : Nat) (hs : Kept qs os s) :
    CtmOutKept qs os (ctmReadIn s c a n) := by
  unfold ctmReadIn
  repeat' (first | with_reducible assumption | ((fail_if_success (fail_if_success extract_lets)); extract_lets +onlyGivenNames kx; (fail_if_success (have : True := kx)); (first | (refine kept_cut qs os kx ?_ fun _ => ?_; unfold kx; rotate_left; clear_value kx; rotate_right) | clear_value kx); all_goals have kx := True.intro) | with_reducible apply ctmOutKept_ok | with_reducible apply ctmOutKept_waitLine | with_reducible apply ctmOutKept_waitEntries | with_reducible apply ctmOutKept_lost | with_reducible apply ctmOutKept_limit | with_reducible apply ctmOutKept_ecc | with_reducible apply ctmOutKept_ite | with_reducible apply dirCheck_kept | with_reducible apply modClause_kept | with_reducible refine ctmGoKept_of_go (by assumption) ?_ | with_reducible refine ctmGoKept_of_waitLine (by assumption) ?_ | with_reducible refine ctmGoKept_of_waitEntries (by assumption) ?_ | with_reducible refine ctmGoKept_of_lost (by assumption) ?_ | split)

theorem ctmWriteIn_kept (s : State) (c : Clause) (ccw : Dword) (bar : Bool) (a : Nat) (bs : List Byte) (hs : Kept qs os s) :
    CtmOutKept qs os (ctmWriteIn s c ccw bar a bs) := by
  unfold ctmWriteIn
  repeat' (first | with_reducible assumption | ((fail_if_success (fail_if_success extract_lets)); extract_lets +onlyGivenNames kx; (fail_if_success (have : True := kx)); clear_value kx; all_goals have kx := True.intro) | with_reducible apply ctmOutKept_ok | with_reducible apply ctmOutKept_waitLine | with_reducible apply ctmOutKept_waitEntries | with_reducible apply ctmOutKept_lost | with_reducible apply ctmOutKept_limit | with_reducible apply ctmOutKept_ecc | with_reducible apply ctmOutKept_ite | with_reducible apply dirCheck_kept | with_reducible apply modClause_kept | with_reducible apply stage_kept | with_reducible refine stagedKept_of_ok (by assumption) ?_ | with_reducible refine stagedKept_of_lost (by assumption) ?_ | with_reducible refine ctmGoKept_of_go (by assumption) ?_ | with_reducible refine ctmGoKept_of_waitLine (by assumption) ?_ | with_reducible refine ctmGoKept_of_waitEntries (by assumption) ?_ | with_reducible refine ctmGoKept_of_lost (by assumption) ?_ | split)

theorem ctmReadOut_kept (s : State) (a n : Nat) (hs : Kept qs os s) :
    CtmOutKept qs os (ctmReadOut s a n) := by
  unfold ctmReadOut
  repeat' (first | with_reducible assumption | with_reducible apply ctmOutKept_ok | with_reducible apply ctmOutKept_ecc | with_reducible apply ctmOutKept_ite)

theorem ctmStore_kept (s : State) (a : Nat) (bs : List Byte) (hs : Kept qs os s) :
    Kept qs os (ctmStore s a bs) := by
  unfold ctmStore
  repeat' (first | with_reducible assumption | ((fail_if_success (fail_if_success extract_lets)); extract_lets +onlyGivenNames kx; (fail_if_success (have : True := kx)); (first | (refine kept_cut qs os kx ?_ fun _ => ?_; unfold kx; rotate_left; clear_value kx; rotate_right) | clear_value kx); all_goals have kx := True.intro) | with_reducible apply twinLine_kept | with_reducible apply writeDram_kept | with_reducible apply doom_kept | (with_reducible apply kept_foldl; intro _ _ _))

theorem ctmWriteOut_kept (s : State) (a : Nat) (bs : List Byte) (hs : Kept qs os s) :
    CtmOutKept qs os (ctmWriteOut s a bs) := by
  unfold ctmWriteOut
  repeat' (first | with_reducible assumption | with_reducible apply ctmOutKept_ok | with_reducible apply ctmOutKept_waitLine | with_reducible apply ctmOutKept_ite | with_reducible apply ctmStore_kept)

theorem setLock_kept (s : State) (a owner : Nat) (broken : Bool) (hs : Kept qs os s) :
    Kept qs os (setLock s a owner broken) := by
  unfold setLock
  repeat' (first | with_reducible assumption | refine kept_upd ?_ rfl rfl rfl rfl rfl rfl rfl rfl rfl rfl rfl rfl)

theorem delLock_kept (s : State) (a : Nat) (hs : Kept qs os s) :
    Kept qs os (delLock s a) := by
  unfold delLock
  repeat' (first | with_reducible assumption | refine kept_upd ?_ rfl rfl rfl rfl rfl rfl rfl rfl rfl rfl rfl rfl)

theorem lockOp_kept (s : State) (n a : Nat) (hs : Kept qs os s) : FstKept qs os (lockOp s n a) := by
  have take (s : State) (b : Bool) (hs : Kept qs os s) : FstKept qs os
      (match ctmWriteOut (setLock s a n b) a (toLE 4 (lockWord n b).toNat) with
       | .ok s _ => some (s, true, b)
       | _ => none) := by
    split
    · exact fstKept_some (ctmOutKept_of_ok (by assumption) (ctmWriteOut_kept _ _ _ (setLock_kept _ _ _ _ hs)))
    · exact fstKept_none
  unfold lockOp
  split
  · exact fstKept_ite (take _ _ hs) (fstKept_ite (take _ _ hs) (fstKept_some hs))
  · refine fstKept_ite ?_ (take _ _ hs)
    have h : Kept qs os { s with cls := { s.cls with lockFull := true } } := kept_upd hs rfl rfl rfl rfl rfl rfl rfl rfl rfl rfl rfl rfl
    exact fstKept_some (pulse_kept _ _ h)

theorem unlockOp_kept (s : State) (n a : Nat) (hs : Kept qs os s) :
    FstKept qs os (unlockOp s n a) := by
  unfold unlockOp
  repeat' (first | with_reducible assumption | with_reducible apply fstKept_some | with_reducible apply fstKept_none | with_reducible apply fstKept_ite | with_reducible apply ctmWriteOut_kept | with_reducible apply delLock_kept | with_reducible refine ctmOutKept_of_ok (by assumption) ?_ | split)

theorem breakLock_kept (s : State) (a owner : Nat) (hs : Kept qs os s) :
    Kept qs os (breakLock s a owner) := by
  unfold breakLock
  repeat' (first | with_reducible assumption | ((fail_if_success (fail_if_success extract_lets)); extract_lets +onlyGivenNames kx; (fail_if_success (have : True := kx)); (first | (refine kept_cut qs os kx ?_ fun _ => ?_; unfold kx; rotate_left; clear_value kx; rotate_right) | clear_value kx); all_goals have kx := True.intro) | with_reducible apply setLock_kept | with_reducible apply rcPulse_kept | with_reducible apply ctmWriteOut_kept | with_reducible refine ctmOutKept_of_ok (by assumption) ?_ | split | refine kept_upd ?_ rfl rfl rfl rfl rfl rfl rfl rfl rfl rfl rfl rfl)

theorem breakLocks_kept (s : State) (n : Nat) (hs : Kept qs os s) :
    Kept qs os (breakLocks s n) := by
  unfold breakLocks
  repeat' (first | with_reducible assumption | with_reducible apply breakLock_kept | (with_reducible apply kept_foldl; intro _ _ _))

theorem writeMirrors_kept (s : State) (hs : Kept qs os s) :
    Kept qs os (writeMirrors s) := by
  unfold writeMirrors
  repeat' (first | with_reducible assumption | ((fail_if_success (fail_if_success extract_lets)); extract_lets +onlyGivenNames kx; (fail_if_success (have : True := kx)); (first | (refine kept_cut qs os kx ?_ fun _ => ?_; unfold kx; rotate_left; clear_value kx; rotate_right) | clear_value kx); all_goals have kx := True.intro) | with_reducible apply ctmStore_kept | (with_reducible apply kept_foldl; intro _ _ _) | refine kept_upd ?_ rfl rfl rfl rfl rfl rfl rfl rfl rfl rfl rfl rfl)

theorem endWait_kept (s : State) (n : Nat) (w : WakeBy) (hs : Kept qs os s) :
    Kept qs os (endWait s n w) := by
  unfold endWait
  repeat' (first | with_reducible assumption | (first | (intro _ hk; have := hk.queue) | (intro _ _ hk; have := hk.queue) | (intro _ _ _ hk; have := hk.queue); clear this) | intro _ | ((fail_if_success (fail_if_success extract_lets)); extract_lets +onlyGivenNames kx; (fail_if_success (have : True := kx)); (first | (refine kept_cut qs os kx ?_ fun _ => ?_; unfold kx; rotate_left; clear_value kx; rotate_right) | (refine kept_cut qs os kx.1 ?_ fun _ => ?_; unfold kx; rotate_left; clear_value kx; rotate_right) | (first | have := (kx : State → _) | have := (kx : Twin) | have := (kx : Mem) | have := (kx : Hu) | have := (kx : Sec); clear this) | clear_value kx); all_goals have kx := True.intro) | with_reducible apply toQueued_kept | with_reducible apply setP_kept | with_reducible apply kept_ite | split | refine kept_upd ?_ rfl rfl rfl rfl rfl rfl rfl rfl rfl rfl rfl rfl)

theorem waitEvent_kept (s : State) (n i : Nat) (hs : Kept qs os s) :
    Kept qs os (waitEvent s n i).1 := by
  unfold waitEvent
  repeat' (first | with_reducible assumption | ((fail_if_success (fail_if_success extract_lets)); extract_lets +onlyGivenNames kx; (fail_if_success (have : True := kx)); (first | (refine kept_cut qs os kx ?_ fun _ => ?_; unfold kx; rotate_left; clear_value kx; rotate_right) | clear_value kx); all_goals have kx := True.intro) | with_reducible apply setP_kept | with_reducible apply endWait_kept | with_reducible apply toQueued_kept | with_reducible apply startAt_kept | with_reducible apply kept_ite_fst | split | refine kept_upd ?_ rfl rfl rfl rfl rfl rfl rfl rfl rfl rfl rfl rfl)

end Sys2Proof.Machine
end

