-- ==== Sys2Proof/Laws/KeptPronouns.lean ====
section
/-!
SUPPORT. Every function of Machine/Pronouns.lean keeps a sound state, the queue and what was sent.
-/

namespace Sys2Proof.Machine

variable {qs : List Instr} {os : List Out}

theorem leaveAll_kept (s : State) (n : Nat) (hs : Kept qs os s) :
    Kept qs os (leaveAll s n) := by
  unfold leaveAll
  repeat' (first | with_reducible assumption | with_reducible apply leaveSlot_kept | with_reducible apply dequeue_kept)

theorem enterChecked_kept (s : State) (n : Nat) (kind : Byte) (hs : Kept qs os s) :
    Kept qs os (enterChecked s n kind) := by
  unfold enterChecked
  repeat' (first | with_reducible assumption | (first | (intro _ hk; have := hk.queue) | (intro _ _ hk; have := hk.queue) | (intro _ _ _ hk; have := hk.queue); clear this) | intro _ | ((fail_if_success (fail_if_success extract_lets)); extract_lets +onlyGivenNames kx; (fail_if_success (have : True := kx)); (first | (refine kept_cut qs os kx ?_ fun _ => ?_; unfold kx; rotate_left; clear_value kx; rotate_right) | (refine kept_cut qs os kx.1 ?_ fun _ => ?_; unfold kx; rotate_left; clear_value kx; rotate_right) | (first | have := (kx : State → _) | have := (kx : Twin) | have := (kx : Mem) | have := (kx : Hu) | have := (kx : Sec); clear this) | clear_value kx); all_goals have kx := True.intro) | with_reducible apply leaveAll_kept | with_reducible apply modP_kept | with_reducible apply breakLocks_kept | with_reducible apply finishHeld_kept | with_reducible apply kept_ite | split | refine kept_upd ?_ rfl rfl rfl rfl rfl rfl rfl rfl rfl rfl rfl rfl)

theorem enterIdle_kept (s : State) (n : Nat) (hs : Kept qs os s) :
    Kept qs os (enterIdle s n) := by
  unfold enterIdle
  repeat' (first | with_reducible assumption | ((fail_if_success (fail_if_success extract_lets)); extract_lets +onlyGivenNames kx; (fail_if_success (have : True := kx)); (first | (refine kept_cut qs os kx ?_ fun _ => ?_; unfold kx; rotate_left; clear_value kx; rotate_right) | clear_value kx); all_goals have kx := True.intro) | with_reducible apply toIdle_kept | with_reducible apply leaveAll_kept | with_reducible apply finishHeld_kept | with_reducible apply kept_ite)

theorem suspend_kept (s : State) (n : Nat) (hs : Kept qs os s) :
    Kept qs os (suspend s n) := by
  unfold suspend
  repeat' (first | with_reducible assumption | with_reducible apply modP_kept | with_reducible apply leaveAll_kept)

theorem leaveWaits_kept (s : State) (n : Nat) (hs : Kept qs os s) :
    Kept qs os (leaveWaits s n) := by
  unfold leaveWaits
  repeat' (first | with_reducible assumption | (first | (intro _ hk; have := hk.queue) | (intro _ _ hk; have := hk.queue) | (intro _ _ _ hk; have := hk.queue); clear this) | intro _ | refine kept_upd ?_ rfl rfl rfl rfl rfl rfl rfl rfl rfl rfl rfl rfl)

theorem abortClause_kept (s : State) (n : Nat) (reason : Byte) (keep : Bool) (hs : Kept qs os s) :
    Kept qs os (abortClause s n reason keep).1 := by
  unfold abortClause
  repeat' (first | with_reducible assumption | (first | (intro _ hk; have := hk.queue) | (intro _ _ hk; have := hk.queue) | (intro _ _ _ hk; have := hk.queue); clear this) | intro _ | ((fail_if_success (fail_if_success extract_lets)); extract_lets +onlyGivenNames kx; (fail_if_success (have : True := kx)); (first | (refine kept_cut qs os kx ?_ fun _ => ?_; unfold kx; rotate_left; clear_value kx; rotate_right) | (refine kept_cut qs os kx.1 ?_ fun _ => ?_; unfold kx; rotate_left; clear_value kx; rotate_right) | (first | have := (kx : State → _) | have := (kx : Twin) | have := (kx : Mem) | have := (kx : Hu) | have := (kx : Sec); clear this) | clear_value kx); all_goals have kx := True.intro) | with_reducible apply leaveWaits_kept | with_reducible apply countAbort_kept | with_reducible apply dropClause_kept | with_reducible apply cancelWork_kept | with_reducible apply modP_kept | with_reducible apply kept_ite | with_reducible apply kept_ite_fst | split | refine kept_upd ?_ rfl rfl rfl rfl rfl rfl rfl rfl rfl rfl rfl rfl | with_reducible apply kept_getD)

theorem afterPost_kept (s : State × Bool) (n : Nat) (fin : Fin) (now : State → State) (hs : Kept qs os s.1) (hnow : ∀ (x0 : State), Kept qs os x0 → Kept qs os (now x0)) :
    Kept qs os (afterPost s n fin now) := by
  unfold afterPost
  repeat' (first | with_reducible assumption | with_reducible apply modP_kept | apply hnow | with_reducible apply kept_ite)

theorem haltAct_kept (s : State) (n : Nat) (hs : Kept qs os s) :
    Kept qs os (haltAct s n) := by
  unfold haltAct
  repeat' (first | with_reducible assumption | (first | (intro _ hk; have := hk.queue) | (intro _ _ hk; have := hk.queue) | (intro _ _ _ hk; have := hk.queue); clear this) | with_reducible apply abortClause_kept | with_reducible apply modP_kept | with_reducible apply afterPost_kept | with_reducible apply postDirect_kept | with_reducible apply enterIdle_kept)

theorem programCheck_kept (s : State) (n : Nat) (code det : Byte) (resid : Word) (ccw : Dword) (hs : Kept qs os s) :
    Kept qs os (programCheck s n code det resid ccw) := by
  unfold programCheck
  repeat' (first | with_reducible assumption | (first | (intro _ hk; have := hk.queue) | (intro _ _ hk; have := hk.queue) | (intro _ _ _ hk; have := hk.queue); clear this) | with_reducible apply abortClause_kept | with_reducible apply modP_kept | with_reducible apply afterPost_kept | with_reducible apply postDirect_kept | with_reducible apply enterChecked_kept)

theorem stopCondition_kept (s : State) (n : Nat) (dev chan det : Byte) (resid : Word) (ccw : Dword) (hs : Kept qs os s) :
    Kept qs os (stopCondition s n dev chan det resid ccw) := by
  unfold stopCondition
  repeat' (first | with_reducible assumption | (first | (intro _ hk; have := hk.queue) | (intro _ _ hk; have := hk.queue) | (intro _ _ _ hk; have := hk.queue); clear this) | with_reducible apply abortClause_kept | with_reducible apply modP_kept | with_reducible apply afterPost_kept | with_reducible apply postDirect_kept | with_reducible apply enterChecked_kept)

theorem reportAbort_kept (s : State) (n : Nat) (clb : Dword) (det : Byte) (hs : Kept qs os s) :
    Kept qs os (reportAbort s n clb det) := by
  unfold reportAbort
  repeat' (first | with_reducible assumption | (first | (intro _ hk; have := hk.queue) | (intro _ _ hk; have := hk.queue) | (intro _ _ _ hk; have := hk.queue); clear this) | ((fail_if_success (fail_if_success extract_lets)); extract_lets +onlyGivenNames kx; (fail_if_success (have : True := kx)); (refine kept_cut qs os kx ?_ fun _ => ?_; unfold kx; rotate_left; clear_value kx; rotate_right); all_goals have kx := True.intro) | with_reducible apply modP_kept | with_reducible apply afterPost_kept | with_reducible apply postDirect_kept | with_reducible apply enterChecked_kept)

theorem abortAct_kept (s : State) (n : Nat) (x : Rerun) (hs : Kept qs os s) :
    Kept qs os (abortAct s n x) := by
  unfold abortAct
  dsimp only
  repeat' (first | with_reducible assumption | (first | (intro _ hk; have := hk.queue) | (intro _ _ hk; have := hk.queue) | (intro _ _ _ hk; have := hk.queue); clear this) | intro _ | ((fail_if_success (fail_if_success extract_lets)); extract_lets +onlyGivenNames kx; (fail_if_success (have : True := kx)); (first | (refine kept_cut qs os kx ?_ fun _ => ?_; unfold kx; rotate_left; clear_value kx; rotate_right) | (refine kept_cut qs os kx.1 ?_ fun _ => ?_; unfold kx; rotate_left; clear_value kx; rotate_right) | (first | have := (kx : State → _) | have := (kx : Twin) | have := (kx : Mem) | have := (kx : Hu) | have := (kx : Sec); clear this) | clear_value kx); all_goals have kx := True.intro) | with_reducible apply haltAct_kept | with_reducible apply countAbort_kept | with_reducible apply modP_kept | with_reducible apply reportAbort_kept | with_reducible apply kept_ite | split | refine kept_upd ?_ rfl rfl rfl rfl rfl rfl rfl rfl rfl rfl rfl rfl)

theorem fenceAct_kept (s : State) (n : Nat) (code : Byte) (hs : Kept qs os s) :
    Kept qs os (fenceAct s n code) := by
  unfold fenceAct
  repeat' (first | with_reducible assumption | (first | (intro _ hk; have := hk.queue) | (intro _ _ hk; have := hk.queue) | (intro _ _ _ hk; have := hk.queue); clear this) | ((fail_if_success (fail_if_success extract_lets)); extract_lets +onlyGivenNames kx; (fail_if_success (have : True := kx)); (first | (refine kept_cut qs os kx ?_ fun _ => ?_; unfold kx; rotate_left; clear_value kx; rotate_right) | clear_value kx); all_goals have kx := True.intro) | with_reducible apply abortClause_kept | with_reducible apply modP_kept | with_reducible apply reportAbort_kept | with_reducible apply afterPost_kept | with_reducible apply postDirect_kept | with_reducible apply enterChecked_kept | with_reducible refine kept_of_pair (by assumption) ?_ | split)

theorem boundary_kept (s : State) (n : Nat) (next : Dword) (hs : Kept qs os s) :
    Kept qs os (boundary s n next) := by
  unfold boundary
  repeat' (first | with_reducible assumption | (first | (intro _ hk; have := hk.queue) | (intro _ _ hk; have := hk.queue) | (intro _ _ _ hk; have := hk.queue); clear this) | intro _ | ((fail_if_success (fail_if_success extract_lets)); extract_lets +onlyGivenNames kx; (fail_if_success (have : True := kx)); (first | (refine kept_cut qs os kx ?_ fun _ => ?_; unfold kx; rotate_left; clear_value kx; rotate_right) | (refine kept_cut qs os kx.1 ?_ fun _ => ?_; unfold kx; rotate_left; clear_value kx; rotate_right) | (first | have := (kx : State → _) | have := (kx : Twin) | have := (kx : Mem) | have := (kx : Hu) | have := (kx : Sec); clear this) | clear_value kx); all_goals have kx := True.intro) | with_reducible apply modP_kept | with_reducible apply fenceAct_kept | with_reducible apply haltAct_kept | with_reducible apply abortAct_kept | with_reducible apply dropClause_kept | with_reducible apply kept_ite | split | refine kept_upd ?_ rfl rfl rfl rfl rfl rfl rfl rfl rfl rfl rfl rfl)

theorem runFin_kept (s : State) (n : Nat) (f : Fin) (hs : Kept qs os s) :
    Kept qs os (runFin s n f) := by
  unfold runFin
  repeat' (first | with_reducible assumption | with_reducible apply haltAct_kept | with_reducible apply suspend_kept | with_reducible apply modP_kept | with_reducible apply boundary_kept | with_reducible apply enterIdle_kept | with_reducible apply enterChecked_kept | with_reducible apply kept_ite | split)

theorem postThen_kept (s : State) (n : Nat) (w : SWord) (f : Fin) (hs : Kept qs os s) :
    Kept qs os (postThen s n w f) := by
  unfold postThen
  repeat' (first | with_reducible assumption | (first | (intro _ hk; have := hk.queue) | (intro _ _ hk; have := hk.queue) | (intro _ _ _ hk; have := hk.queue); clear this) | with_reducible apply afterPost_kept | with_reducible apply postDirect_kept | with_reducible apply runFin_kept)

theorem wordsOut_kept (s : State) (n : Nat) (hs : Kept qs os s) :
    Kept qs os (wordsOut s n) := by
  unfold wordsOut
  repeat' (first | with_reducible assumption | (first | (intro _ hk; have := hk.queue) | (intro _ _ hk; have := hk.queue) | (intro _ _ _ hk; have := hk.queue); clear this) | intro _ | with_reducible apply runFin_kept | with_reducible apply modP_kept | with_reducible apply kept_ite | split | refine kept_upd ?_ rfl rfl rfl rfl rfl rfl rfl rfl rfl rfl rfl rfl)

theorem drainWords_kept (sq : Nat) (y0 : Nat) (y1 : State) (hy1 : Kept qs os y1) :
    Kept qs os (drainWords sq y0 y1) := by
  induction y0 generalizing sq y1 hy1 with
  | zero =>
    rw [drainWords]
    repeat' (first | with_reducible assumption | (first | (intro _ hk; have := hk.queue) | (intro _ _ hk; have := hk.queue) | (intro _ _ _ hk; have := hk.queue); clear this) | intro _ | with_reducible apply wordsOut_kept | with_reducible apply sqWrite_kept | with_reducible apply setWords_kept | with_reducible apply kept_ite | split)
  | succ n ih =>
    rw [drainWords]
    repeat' (first | with_reducible assumption | with_reducible apply ih | (first | (intro _ hk; have := hk.queue) | (intro _ _ hk; have := hk.queue) | (intro _ _ _ hk; have := hk.queue); clear this) | intro _ | with_reducible apply wordsOut_kept | with_reducible apply sqWrite_kept | with_reducible apply setWords_kept | with_reducible apply kept_ite | split)

theorem drainQueue_kept (s : State) (sq : Nat) (hs : Kept qs os s) :
    Kept qs os (drainQueue s sq) := by
  unfold drainQueue
  repeat' (first | with_reducible assumption | with_reducible apply drainWords_kept | split)

theorem startOp_kept (s : State) (n : Nat) (a : Dword) (hs : Kept qs os s) :
    Kept qs os (startOp s n a).1 := by
  unfold startOp
  repeat' (first | with_reducible assumption | with_reducible apply startAt_kept | with_reducible apply modP_kept | split)

theorem resumeOp_kept (s : State) (n : Nat) (hs : Kept qs os s) :
    Kept qs os (resumeOp s n).1 := by
  unfold resumeOp
  repeat' (first | with_reducible assumption | ((fail_if_success (fail_if_success extract_lets)); extract_lets +onlyGivenNames kx; (fail_if_success (have : True := kx)); clear_value kx; all_goals have kx := True.intro) | with_reducible apply toQueued_kept | with_reducible apply setP_kept | with_reducible apply kept_ite_fst)

theorem haltOp_kept (s : State) (n : Nat) (hs : Kept qs os s) :
    Kept qs os (haltOp s n).1 := by
  unfold haltOp
  repeat' (first | with_reducible assumption | ((fail_if_success (fail_if_success extract_lets)); extract_lets +onlyGivenNames kx; (fail_if_success (have : True := kx)); (first | (refine kept_cut qs os kx ?_ fun _ => ?_; unfold kx; rotate_left; clear_value kx; rotate_right) | clear_value kx); all_goals have kx := True.intro) | with_reducible apply setP_kept | with_reducible apply modP_kept | with_reducible apply haltAct_kept | with_reducible apply leaveAll_kept | with_reducible apply kept_ite_fst | split)

theorem place_kept (s : State) (hs : Kept qs os s) :
    Kept qs os (place s) := by
  unfold place
  repeat' (first | with_reducible assumption | with_reducible apply setSlot_kept | with_reducible apply dequeue_kept | with_reducible apply kept_ite | split)

theorem recordLost_kept (s : State) (n : Nat) (hs : Kept qs os s) :
    Kept qs os (recordLost s n) := by
  unfold recordLost
  repeat' (first | with_reducible assumption | ((fail_if_success (fail_if_success extract_lets)); extract_lets +onlyGivenNames kx; (fail_if_success (have : True := kx)); (refine kept_cut qs os kx ?_ fun _ => ?_; unfold kx; rotate_left; clear_value kx; rotate_right); all_goals have kx := True.intro) | with_reducible apply setP_kept | with_reducible apply stopCondition_kept | with_reducible apply kept_ite)

theorem limitCheck_kept (s : State) (n : Nat) (d : Byte) (hs : Kept qs os s) :
    Kept qs os (limitCheck s n d) := by
  unfold limitCheck
  repeat' (first | with_reducible assumption | (first | (intro _ hk; have := hk.queue) | (intro _ _ hk; have := hk.queue) | (intro _ _ _ hk; have := hk.queue); clear this) | intro _ | ((fail_if_success (fail_if_success extract_lets)); extract_lets +onlyGivenNames kx; (fail_if_success (have : True := kx)); (first | (refine kept_cut qs os kx ?_ fun _ => ?_; unfold kx; rotate_left; clear_value kx; rotate_right) | (refine kept_cut qs os kx.1 ?_ fun _ => ?_; unfold kx; rotate_left; clear_value kx; rotate_right) | (first | have := (kx : State → _) | have := (kx : Twin) | have := (kx : Mem) | have := (kx : Hu) | have := (kx : Sec); clear this) | clear_value kx); all_goals have kx := True.intro) | with_reducible apply programCheck_kept | with_reducible apply modP_kept | refine kept_upd ?_ rfl rfl rfl rfl rfl rfl rfl rfl rfl rfl rfl rfl | with_reducible apply kept_getD)

theorem loadDone_kept (s : State) (k : Nat) (hs : Kept qs os s) :
    Kept qs os (loadDone s k) := by
  unfold loadDone
  repeat' (first | with_reducible assumption | (first | (intro _ hk; have := hk.queue) | (intro _ _ hk; have := hk.queue) | (intro _ _ _ hk; have := hk.queue); clear this) | intro _ | ((fail_if_success (fail_if_success extract_lets)); extract_lets +onlyGivenNames kx; (fail_if_success (have : True := kx)); (first | (refine kept_cut qs os kx ?_ fun _ => ?_; unfold kx; rotate_left; clear_value kx; rotate_right) | (refine kept_cut qs os kx.1 ?_ fun _ => ?_; unfold kx; rotate_left; clear_value kx; rotate_right) | (first | have := (kx : State → _) | have := (kx : Twin) | have := (kx : Mem) | have := (kx : Hu) | have := (kx : Sec); clear this) | clear_value kx); all_goals have kx := True.intro) | with_reducible apply setSlot_kept | with_reducible apply cacheTake_kept | with_reducible apply modP_kept | with_reducible apply recordLost_kept | with_reducible apply fenceAct_kept | with_reducible apply abortAct_kept | with_reducible apply limitCheck_kept | with_reducible apply kept_ite | split | refine kept_upd ?_ rfl rfl rfl rfl rfl rfl rfl rfl rfl rfl rfl rfl)

end Sys2Proof.Machine
end

