-- ==== Sys2Proof/Laws/KeptDevices.lean ====
section
/-!
SUPPORT. Every function of Machine/Devices.lean keeps a sound state, the queue and what was sent.
-/

namespace Sys2Proof.Machine

variable {qs : List Instr} {os : List Out}

theorem setQ_kept (s : State) (q : Nat) (x : Quad) (hs : Kept qs os s) :
    Kept qs os (setQ s q x) := by
  unfold setQ
  repeat' (first | with_reducible assumption | refine kept_upd ?_ rfl rfl rfl rfl rfl rfl rfl rfl rfl rfl rfl rfl)

theorem setPort_kept (s : State) (q p : Nat) (x : Port) (hs : Kept qs os s) :
    Kept qs os (setPort s q p x) := by
  unfold setPort
  repeat' (first | with_reducible assumption | ((fail_if_success (fail_if_success extract_lets)); extract_lets +onlyGivenNames kx; (fail_if_success (have : True := kx)); clear_value kx; all_goals have kx := True.intro) | with_reducible apply setQ_kept)

theorem modPort_kept (s : State) (q p : Nat) (f : Port → Port) (hs : Kept qs os s) :
    Kept qs os (modPort s q p f) := by
  unfold modPort
  repeat' (first | with_reducible assumption | with_reducible apply setPort_kept)

theorem modPP_kept (s : State) (q p : Nat) (f : PPort → PPort) (hs : Kept qs os s) :
    Kept qs os (modPP s q p f) := by
  unfold modPP
  repeat' (first | with_reducible assumption | with_reducible apply modPort_kept)

theorem modEP_kept (s : State) (q p : Nat) (f : EPort → EPort) (hs : Kept qs os s) :
    Kept qs os (modEP s q p f) := by
  unfold modEP
  repeat' (first | with_reducible assumption | with_reducible apply modPort_kept)

theorem modKP_kept (s : State) (q p : Nat) (f : KPort → KPort) (hs : Kept qs os s) :
    Kept qs os (modKP s q p f) := by
  unfold modKP
  repeat' (first | with_reducible assumption | with_reducible apply modPort_kept)

theorem countBy_kept (s : State) (q p i n : Nat) (hs : Kept qs os s) :
    Kept qs os (countBy s q p i n) := by
  unfold countBy
  repeat' (first | with_reducible assumption | ((fail_if_success (fail_if_success extract_lets)); extract_lets +onlyGivenNames kx; (fail_if_success (have : True := kx)); (first | (refine kept_cut qs os kx ?_ fun _ => ?_; unfold kx; rotate_left; clear_value kx; rotate_right) | (refine kept_cut qs os kx.1 ?_ fun _ => ?_; unfold kx; rotate_left; clear_value kx; rotate_right) | (first | have := (kx : State → _) | have := (kx : Twin) | have := (kx : Mem) | have := (kx : Hu) | have := (kx : Sec); clear this) | clear_value kx); all_goals have kx := True.intro) | with_reducible apply setPort_kept | with_reducible apply pulse_kept | with_reducible apply kept_ite | split | refine kept_upd ?_ rfl rfl rfl rfl rfl rfl rfl rfl rfl rfl rfl rfl)

theorem count_kept (s : State) (q p i : Nat) (hs : Kept qs os s) :
    Kept qs os (count s q p i) := by
  unfold count
  repeat' (first | with_reducible assumption | with_reducible apply countBy_kept)

theorem setOp_kept (s : State) (o : DevOp) (hs : Kept qs os s) :
    Kept qs os (setOp s o) := by
  unfold setOp
  repeat' (first | with_reducible assumption | refine kept_upd ?_ rfl rfl rfl rfl rfl rfl rfl rfl rfl rfl rfl rfl)

theorem addOp_kept (s : State) (o : DevOp) (hs : Kept qs os s) :
    Kept qs os (addOp s o).1 := by
  unfold addOp
  repeat' (first | with_reducible assumption | ((fail_if_success (fail_if_success extract_lets)); extract_lets +onlyGivenNames kx; (fail_if_success (have : True := kx)); clear_value kx; all_goals have kx := True.intro) | refine kept_upd ?_ rfl rfl rfl rfl rfl rfl rfl rfl rfl rfl rfl rfl)

theorem freePages_kept (s : State) (o : DevOp) (hs : Kept qs os s) :
    Kept qs os (freePages s o) := by
  unfold freePages
  repeat' (first | with_reducible assumption | with_reducible apply modPP_kept | with_reducible apply kept_ite)

theorem endOp_kept (s : State) (o : DevOp) (dev det : Byte) (resid : Nat) (hs : Kept qs os s) :
    Kept qs os (endOp s o dev det resid) := by
  unfold endOp
  repeat' (first | with_reducible assumption | ((fail_if_success (fail_if_success extract_lets)); extract_lets +onlyGivenNames kx; (fail_if_success (have : True := kx)); (first | (refine kept_cut qs os kx ?_ fun _ => ?_; unfold kx; rotate_left; clear_value kx; rotate_right) | (refine kept_cut qs os kx.1 ?_ fun _ => ?_; unfold kx; rotate_left; clear_value kx; rotate_right) | (first | have := (kx : State → _) | have := (kx : Twin) | have := (kx : Mem) | have := (kx : Hu) | have := (kx : Sec); clear this) | clear_value kx); all_goals have kx := True.intro) | with_reducible apply freePages_kept | with_reducible apply setOp_kept | with_reducible apply stage_kept | with_reducible apply count_kept | with_reducible apply kept_ite | with_reducible refine stagedKept_of_ok (by assumption) ?_ | with_reducible refine stagedKept_of_lost (by assumption) ?_ | split | refine kept_upd ?_ rfl rfl rfl rfl rfl rfl rfl rfl rfl rfl rfl rfl)

theorem putPages_kept (s : State) (y0 : List Nat) (y1 : List Byte) (hs : Kept qs os s) :
    Kept qs os (putPages s y0 y1) := by
  induction y0 generalizing s y1 hs with
  | nil =>
    rw [putPages]
    repeat' (with_reducible assumption)
  | cons x l ih =>
    rw [putPages]
    repeat' (first | with_reducible assumption | with_reducible apply ih | with_reducible apply writeDram_kept)

theorem markUsed_kept (s : State) (q p : Nat) (l : List Nat) (hs : Kept qs os s) :
    Kept qs os (markUsed s q p l) := by
  unfold markUsed
  repeat' (first | with_reducible assumption | (first | (intro _ hk; have := hk.queue) | (intro _ _ hk; have := hk.queue) | (intro _ _ _ hk; have := hk.queue); clear this) | intro _ | with_reducible apply modPP_kept | refine kept_upd ?_ rfl rfl rfl rfl rfl rfl rfl rfl rfl rfl rfl rfl)

theorem withPages_kept (s : State) (o : DevOp) (n : Nat) (hs : Kept qs os s) :
    FstKept qs os (withPages s o n) := by
  unfold withPages
  split
  · exact fstKept_some hs
  · intro x hx
    obtain ⟨l, -, rfl⟩ := Option.map_eq_some_iff.mp hx
    exact markUsed_kept _ _ _ _ hs

theorem nvSubmit_kept (s : State) (o : DevOp) (hs : Kept qs os s) :
    OptKept qs os (nvSubmit s o) := by
  unfold nvSubmit
  have hw := withPages_kept s o (nvPages (nvBytes o)) hs
  repeat' (first | with_reducible assumption | ((fail_if_success (fail_if_success extract_lets)); extract_lets +onlyGivenNames kx; (fail_if_success (have : True := kx)); (first | (refine kept_cut qs os kx ?_ fun _ => ?_; unfold kx; rotate_left; clear_value kx; rotate_right) | clear_value kx); all_goals have kx := True.intro) | with_reducible apply optKept_some | with_reducible apply optKept_none | with_reducible apply optKept_ite | with_reducible apply putPages_kept | with_reducible apply writeDram_kept | with_reducible apply modPP_kept | with_reducible apply setOp_kept | with_reducible apply emit_kept | with_reducible apply count_kept | with_reducible apply kept_ite | with_reducible refine kept_of_fst (by assumption) hw | split)

theorem ringPost_kept (s : State) (o : DevOp) (hs : Kept qs os s) :
    OptKept qs os (ringPost s o) := by
  unfold ringPost
  have hw := withPages_kept s o 1 hs
  repeat' (first | with_reducible assumption | ((fail_if_success (fail_if_success extract_lets)); extract_lets +onlyGivenNames kx; (fail_if_success (have : True := kx)); (first | (refine kept_cut qs os kx ?_ fun _ => ?_; unfold kx; rotate_left; clear_value kx; rotate_right) | clear_value kx); all_goals have kx := True.intro) | with_reducible apply optKept_some | with_reducible apply optKept_none | with_reducible apply optKept_ite | with_reducible apply writeDram_kept | with_reducible apply modPP_kept | with_reducible apply setOp_kept | with_reducible apply emit_kept | with_reducible apply count_kept | with_reducible apply kept_ite | with_reducible refine kept_of_fst (by assumption) hw | split)

theorem ringTake_kept (s : State) (o : DevOp) (hs : Kept qs os s) :
    Kept qs os (ringTake s o) := by
  unfold ringTake
  repeat' (first | with_reducible assumption | (first | (intro _ hk; have := hk.queue) | (intro _ _ hk; have := hk.queue) | (intro _ _ _ hk; have := hk.queue); clear this) | intro _ | ((fail_if_success (fail_if_success extract_lets)); extract_lets +onlyGivenNames kx; (fail_if_success (have : True := kx)); (first | (refine kept_cut qs os kx ?_ fun _ => ?_; unfold kx; rotate_left; clear_value kx; rotate_right) | (refine kept_cut qs os kx.1 ?_ fun _ => ?_; unfold kx; rotate_left; clear_value kx; rotate_right) | (first | have := (kx : State → _) | have := (kx : Twin) | have := (kx : Mem) | have := (kx : Hu) | have := (kx : Sec); clear this) | clear_value kx); all_goals have kx := True.intro) | with_reducible apply modPP_kept | with_reducible apply endOp_kept | with_reducible apply kept_ite | split | refine kept_upd ?_ rfl rfl rfl rfl rfl rfl rfl rfl rfl rfl rfl rfl | with_reducible apply kept_getD)

theorem ringSend_kept (s : State) (o : DevOp) (hs : Kept qs os s) :
    Kept qs os (ringSend s o) := by
  unfold ringSend
  repeat' (first | with_reducible assumption | ((fail_if_success (fail_if_success extract_lets)); extract_lets +onlyGivenNames kx; (fail_if_success (have : True := kx)); (first | (refine kept_cut qs os kx ?_ fun _ => ?_; unfold kx; rotate_left; clear_value kx; rotate_right) | (refine kept_cut qs os kx.1 ?_ fun _ => ?_; unfold kx; rotate_left; clear_value kx; rotate_right) | (first | have := (kx : State → _) | have := (kx : Twin) | have := (kx : Mem) | have := (kx : Hu) | have := (kx : Sec); clear this) | clear_value kx); all_goals have kx := True.intro) | with_reducible apply setOp_kept | with_reducible apply stage_kept | with_reducible apply emit_kept | with_reducible refine stagedKept_of_ok (by assumption) ?_ | with_reducible refine stagedKept_of_lost (by assumption) ?_ | split | refine kept_upd ?_ rfl rfl rfl rfl rfl rfl rfl rfl rfl rfl rfl rfl | with_reducible apply kept_getD)

theorem ringRequest_kept (s : State) (o : DevOp) (hs : Kept qs os s) :
    OptKept qs os (ringRequest s o) := by
  intro t ht
  obtain ⟨x, hx, rfl⟩ := Option.map_eq_some_iff.mp ht
  have hw := withPages_kept s o _ hs x hx
  exact kept_ite (ringTake_kept _ _ hw) (ringSend_kept _ _ hw)

theorem startTx_kept (s : State) (q p : Nat) (hs : Kept qs os s) :
    Kept qs os (startTx s q p) := by
  unfold startTx
  repeat' (first | with_reducible assumption | ((fail_if_success (fail_if_success extract_lets)); extract_lets +onlyGivenNames kx; (fail_if_success (have : True := kx)); clear_value kx; all_goals have kx := True.intro) | with_reducible apply modEP_kept | with_reducible apply kept_ite | split)

theorem ethQueue_kept (s : State) (o : DevOp) (flow : Word) (hs : Kept qs os s) :
    Kept qs os (ethQueue s o flow) := by
  unfold ethQueue
  repeat' (first | with_reducible assumption | ((fail_if_success (fail_if_success extract_lets)); extract_lets +onlyGivenNames kx; (fail_if_success (have : True := kx)); (refine kept_cut qs os kx ?_ fun _ => ?_; unfold kx; rotate_left; clear_value kx; rotate_right); all_goals have kx := True.intro) | with_reducible apply modEP_kept | with_reducible apply startTx_kept | with_reducible apply setOp_kept)

theorem sendKdl_kept (s : State) (q p : Nat) (f : KdlFrame) (hs : Kept qs os s) :
    Kept qs os (sendKdl s q p f) := by
  unfold sendKdl
  repeat' (first | with_reducible assumption | with_reducible apply emit_kept)

theorem kdlSendOne_kept (s : State) (q p : Nat) (f : KdlFrame) (hs : Kept qs os s) :
    Kept qs os (kdlSendOne s q p f) := by
  unfold kdlSendOne
  repeat' (first | with_reducible assumption | (first | (intro _ hk; have := hk.queue) | (intro _ _ hk; have := hk.queue) | (intro _ _ _ hk; have := hk.queue); clear this) | intro _ | ((fail_if_success (fail_if_success extract_lets)); extract_lets +onlyGivenNames kx; (fail_if_success (have : True := kx)); (first | (refine kept_cut qs os kx ?_ fun _ => ?_; unfold kx; rotate_left; clear_value kx; rotate_right) | (refine kept_cut qs os kx.1 ?_ fun _ => ?_; unfold kx; rotate_left; clear_value kx; rotate_right) | (first | have := (kx : State → _) | have := (kx : Twin) | have := (kx : Mem) | have := (kx : Hu) | have := (kx : Sec); clear this) | clear_value kx); all_goals have kx := True.intro) | with_reducible apply modKP_kept | with_reducible apply count_kept | with_reducible apply sendKdl_kept | refine kept_upd ?_ rfl rfl rfl rfl rfl rfl rfl rfl rfl rfl rfl rfl)

theorem kdlPumpList_kept (q p : Nat) (y0 : State) (y1 : List Nat) (y2 : List KdlFrame) (hy0 : Kept qs os y0) :
    Kept qs os (kdlPumpList q p y0 y1 y2) := by
  induction y2 generalizing q p y0 y1 hy0 with
  | nil =>
    rw [kdlPumpList]
    repeat' (with_reducible assumption)
  | cons x l ih =>
    rw [kdlPumpList]
    repeat' (first | with_reducible assumption | with_reducible apply ih | with_reducible apply kdlSendOne_kept | with_reducible apply modKP_kept | with_reducible apply kept_ite)

theorem kdlPump_kept (s : State) (q p : Nat) (hs : Kept qs os s) :
    Kept qs os (kdlPump s q p) := by
  unfold kdlPump
  repeat' (first | with_reducible assumption | ((fail_if_success (fail_if_success extract_lets)); extract_lets +onlyGivenNames kx; (fail_if_success (have : True := kx)); clear_value kx; all_goals have kx := True.intro) | with_reducible apply kdlPumpList_kept | with_reducible apply modKP_kept | with_reducible apply kept_ite)

theorem kdlEnqueue_kept (s : State) (q p : Nat) (l : List KdlFrame) (hs : Kept qs os s) :
    Kept qs os (kdlEnqueue s q p l) := by
  unfold kdlEnqueue
  repeat' (first | with_reducible assumption | with_reducible apply kdlPump_kept | with_reducible apply modKP_kept)

theorem kdlIssue_kept (s : State) (o : DevOp) (hs : Kept qs os s) :
    OptKept qs os (kdlIssue s o) := by
  unfold kdlIssue
  repeat' (first | with_reducible assumption | ((fail_if_success (fail_if_success extract_lets)); extract_lets +onlyGivenNames kx; (fail_if_success (have : True := kx)); (first | (refine kept_cut qs os kx ?_ fun _ => ?_; unfold kx; rotate_left; clear_value kx; rotate_right) | clear_value kx); all_goals have kx := True.intro) | with_reducible apply optKept_some | with_reducible apply optKept_none | with_reducible apply optKept_ite | with_reducible apply modKP_kept | with_reducible apply setOp_kept | with_reducible apply kdlEnqueue_kept)

theorem setRx_kept (s : State) (l : List RxFrame) (hs : Kept qs os s) :
    Kept qs os (setRx s l) := by
  unfold setRx
  repeat' (first | with_reducible assumption | refine kept_upd ?_ rfl rfl rfl rfl rfl rfl rfl rfl rfl rfl rfl rfl)

theorem sendPause_kept (s : State) (q time : Nat) (hs : Kept qs os s) :
    Kept qs os (sendPause s q time) := by
  unfold sendPause
  repeat' (first | with_reducible assumption | (first | (intro _ hk; have := hk.queue) | (intro _ _ hk; have := hk.queue) | (intro _ _ _ hk; have := hk.queue); clear this) | intro _ | with_reducible apply count_kept | with_reducible apply emit_kept | (with_reducible apply kept_foldl; intro _ _ _) | with_reducible apply kept_ite | split)

theorem relieve_kept (s : State) (q : Nat) (hs : Kept qs os s) :
    Kept qs os (relieve s q) := by
  unfold relieve
  repeat' (first | with_reducible assumption | ((fail_if_success (fail_if_success extract_lets)); extract_lets +onlyGivenNames kx; (fail_if_success (have : True := kx)); (first | (refine kept_cut qs os kx ?_ fun _ => ?_; unfold kx; rotate_left; clear_value kx; rotate_right) | (refine kept_cut qs os kx.1 ?_ fun _ => ?_; unfold kx; rotate_left; clear_value kx; rotate_right) | (first | have := (kx : State → _) | have := (kx : Twin) | have := (kx : Mem) | have := (kx : Hu) | have := (kx : Sec); clear this) | clear_value kx); all_goals have kx := True.intro) | with_reducible apply sendPause_kept | with_reducible apply setQ_kept | with_reducible apply kept_ite | split | refine kept_upd ?_ rfl rfl rfl rfl rfl rfl rfl rfl rfl rfl rfl rfl)

theorem tryIssue_kept (s : State) (o : DevOp) (flow : Word) (hs : Kept qs os s) :
    Kept qs os (tryIssue s o flow) := by
  unfold tryIssue
  repeat' (first | with_reducible assumption | with_reducible apply nvSubmit_kept | with_reducible apply ringPost_kept | with_reducible apply ringRequest_kept | with_reducible apply ethQueue_kept | with_reducible apply kdlIssue_kept | with_reducible apply kept_ite | with_reducible refine kept_of_some (by assumption) ?_ | split | with_reducible apply kept_getD)

theorem issueOp_kept (s : State) (o : DevOp) (flow : Word) (hs : Kept qs os s) :
    Kept qs os (issueOp s o flow).1 := by
  unfold issueOp
  repeat' (first | with_reducible assumption | with_reducible apply addOp_kept | with_reducible apply endOp_kept | with_reducible apply tryIssue_kept | with_reducible apply kept_ite_fst)

theorem fwAdmin_kept (s : State) (q p : Nat) (opcode : Byte) (nsid : Nat) (prp1 : Nat) (dws : List Nat) (hs : Kept qs os s) :
    Kept qs os (fwAdmin s q p opcode nsid prp1 dws) := by
  unfold fwAdmin
  repeat' (first | with_reducible assumption | (first | (intro _ hk; have := hk.queue) | (intro _ _ hk; have := hk.queue) | (intro _ _ _ hk; have := hk.queue); clear this) | intro _ | ((fail_if_success (fail_if_success extract_lets)); extract_lets +onlyGivenNames kx; (fail_if_success (have : True := kx)); (first | (refine kept_cut qs os kx ?_ fun _ => ?_; unfold kx; rotate_left; clear_value kx; rotate_right) | (refine kept_cut qs os kx.1 ?_ fun _ => ?_; unfold kx; rotate_left; clear_value kx; rotate_right) | (first | have := (kx : State → _) | have := (kx : Twin) | have := (kx : Mem) | have := (kx : Hu) | have := (kx : Sec); clear this) | clear_value kx); all_goals have kx := True.intro) | with_reducible apply count_kept | with_reducible apply issueOp_kept | with_reducible refine kept_of_pair (by assumption) ?_ | refine kept_upd ?_ rfl rfl rfl rfl rfl rfl rfl rfl rfl rfl rfl rfl)

theorem retryQueued_kept (s : State) (q p : Nat) (hs : Kept qs os s) :
    Kept qs os (retryQueued s q p) := by
  unfold retryQueued
  repeat' (first | with_reducible assumption | (first | (intro _ hk; have := hk.queue) | (intro _ _ hk; have := hk.queue) | (intro _ _ _ hk; have := hk.queue); clear this) | intro _ | with_reducible apply tryIssue_kept | (with_reducible apply kept_foldl; intro _ _ _) | with_reducible apply kept_ite | split)

theorem dropOp_kept (s : State) (o : DevOp) (hs : Kept qs os s) :
    Kept qs os (dropOp s o) := by
  unfold dropOp
  repeat' (first | with_reducible assumption | with_reducible apply retryQueued_kept | with_reducible apply delOp_kept)

theorem dropOpOf_kept (s : State) (id : Option Nat) (hs : Kept qs os s) :
    Kept qs os (dropOpOf s id) := by
  unfold dropOpOf
  repeat' (first | with_reducible assumption | with_reducible apply dropOp_kept | split)

theorem takeAppend_kept (s : State) (b : BitVec 128) (blocks : Nat) (hs : Kept qs os s) :
    Kept qs os (takeAppend s b blocks).1 := by
  unfold takeAppend
  repeat' (first | with_reducible assumption | ((fail_if_success (fail_if_success extract_lets)); extract_lets +onlyGivenNames kx; (fail_if_success (have : True := kx)); (first | (refine kept_cut qs os kx ?_ fun _ => ?_; unfold kx; rotate_left; clear_value kx; rotate_right) | clear_value kx); all_goals have kx := True.intro) | with_reducible apply modPP_kept | with_reducible apply count_kept | with_reducible apply kept_ite | split)

end Sys2Proof.Machine
end

