-- ==== Sys2Proof/Laws/KeptMailboxes.lean ====
section
/-!
SUPPORT. Every function of Machine/Mailboxes.lean keeps a sound state, the queue and what was sent.
-/

namespace Sys2Proof.Machine

variable {qs : List Instr} {os : List Out}

theorem setMbx_kept (s : State) (m : Nat) (x : Mbx) (hs : Kept qs os s) :
    Kept qs os (setMbx s m x) := by
  unfold setMbx
  repeat' (first | with_reducible assumption | refine kept_upd ?_ rfl rfl rfl rfl rfl rfl rfl rfl rfl rfl rfl rfl)

theorem twinMail_kept (s : State) (m : Nat) (ack : Bool) (hs : Kept qs os s) :
    Kept qs os (twinMail s m ack) := by
  unfold twinMail
  repeat' (first | with_reducible assumption | with_reducible apply twinSend_kept)

theorem crossMarks_kept (s : State) (m : Nat) (hs : Kept qs os s) :
    Kept qs os (crossMarks s m) := by
  unfold crossMarks
  repeat' (first | with_reducible assumption | ((fail_if_success (fail_if_success extract_lets)); extract_lets +onlyGivenNames kx; (fail_if_success (have : True := kx)); (first | (refine kept_cut qs os kx ?_ fun _ => ?_; unfold kx; rotate_left; clear_value kx; rotate_right) | clear_value kx); all_goals have kx := True.intro) | with_reducible apply setMbx_kept | with_reducible apply pulse_kept | (with_reducible apply kept_foldl; intro _ _ _) | with_reducible apply kept_ite)

theorem mbxWakeFn_kept (s : State) (who : Master) (hs : Kept qs os s) :
    Kept qs os (mbxWakeFn s who) := by
  unfold mbxWakeFn
  repeat' (first | with_reducible assumption | with_reducible apply emit_kept | with_reducible apply kept_ite)

theorem copyBuffer_kept (s : State) (ce m : Nat) (hs : Kept qs os s) :
    Kept qs os (copyBuffer s ce m) := by
  unfold copyBuffer
  repeat' (first | with_reducible assumption | ((fail_if_success (fail_if_success extract_lets)); extract_lets +onlyGivenNames kx; (fail_if_success (have : True := kx)); (first | (refine kept_cut qs os kx ?_ fun _ => ?_; unfold kx; rotate_left; clear_value kx; rotate_right) | (refine kept_cut qs os kx.1 ?_ fun _ => ?_; unfold kx; rotate_left; clear_value kx; rotate_right) | (first | have := (kx : State → _) | have := (kx : Twin) | have := (kx : Mem) | have := (kx : Hu) | have := (kx : Sec); clear this) | clear_value kx); all_goals have kx := True.intro) | with_reducible apply setMbx_kept | with_reducible apply kept_ite | split | refine kept_upd ?_ rfl rfl rfl rfl rfl rfl rfl rfl rfl rfl rfl rfl)

theorem ceData_kept (s : State) (m : Nat) (hs : Kept qs os s) :
    Kept qs os (ceData s m) := by
  unfold ceData
  repeat' (first | with_reducible assumption | ((fail_if_success (fail_if_success extract_lets)); extract_lets +onlyGivenNames kx; (fail_if_success (have : True := kx)); (first | (refine kept_cut qs os kx ?_ fun _ => ?_; unfold kx; rotate_left; clear_value kx; rotate_right) | (refine kept_cut qs os kx.1 ?_ fun _ => ?_; unfold kx; rotate_left; clear_value kx; rotate_right) | (first | have := (kx : State → _) | have := (kx : Twin) | have := (kx : Mem) | have := (kx : Hu) | have := (kx : Sec); clear this) | clear_value kx); all_goals have kx := True.intro) | with_reducible apply copyBuffer_kept | with_reducible apply kept_ite | split)

theorem mbxPostOp_kept (s : State) (m : Nat) (fromTwin : Bool) (hs : Kept qs os s) :
    Kept qs os (mbxPostOp s m fromTwin) := by
  unfold mbxPostOp
  repeat' (first | with_reducible assumption | ((fail_if_success (fail_if_success extract_lets)); extract_lets +onlyGivenNames kx; (fail_if_success (have : True := kx)); (first | (refine kept_cut qs os kx ?_ fun _ => ?_; unfold kx; rotate_left; clear_value kx; rotate_right) | clear_value kx); all_goals have kx := True.intro) | with_reducible apply setMbx_kept | with_reducible apply writeLoc_kept | with_reducible apply crossMarks_kept | with_reducible apply pulse_kept | with_reducible apply mbxWakeFn_kept | with_reducible apply twinMail_kept | with_reducible apply kept_ite)

theorem mbxAckOp_kept (s : State) (m : Nat) (fromTwin : Bool) (hs : Kept qs os s) :
    Kept qs os (mbxAckOp s m fromTwin) := by
  unfold mbxAckOp
  repeat' (first | with_reducible assumption | ((fail_if_success (fail_if_success extract_lets)); extract_lets +onlyGivenNames kx; (fail_if_success (have : True := kx)); (first | (refine kept_cut qs os kx ?_ fun _ => ?_; unfold kx; rotate_left; clear_value kx; rotate_right) | clear_value kx); all_goals have kx := True.intro) | with_reducible apply pulse_kept | with_reducible apply setMbx_kept | with_reducible apply twinMail_kept | with_reducible apply kept_ite)

theorem resetMaster_kept (s : State) (who : Master) (hs : Kept qs os s) :
    Kept qs os (resetMaster s who) := by
  unfold resetMaster
  repeat' (first | with_reducible assumption | ((fail_if_success (fail_if_success extract_lets)); extract_lets +onlyGivenNames kx; (fail_if_success (have : True := kx)); (first | (refine kept_cut qs os kx ?_ fun _ => ?_; unfold kx; rotate_left; clear_value kx; rotate_right) | clear_value kx); all_goals have kx := True.intro) | with_reducible apply pulse_kept | with_reducible apply setMbx_kept | (with_reducible apply kept_foldl; intro _ _ _) | with_reducible apply kept_ite | refine kept_upd ?_ rfl rfl rfl rfl rfl rfl rfl rfl rfl rfl rfl rfl)

theorem applySignal_kept (s : State) (mod : Byte) (addr : Dword) (ce : Nat) (hs : Kept qs os s) :
    Kept qs os (applySignal s mod addr ce) := by
  unfold applySignal
  repeat' (first | with_reducible assumption | ((fail_if_success (fail_if_success extract_lets)); extract_lets +onlyGivenNames kx; (fail_if_success (have : True := kx)); (first | (refine kept_cut qs os kx ?_ fun _ => ?_; unfold kx; rotate_left; clear_value kx; rotate_right) | (refine kept_cut qs os kx.1 ?_ fun _ => ?_; unfold kx; rotate_left; clear_value kx; rotate_right) | (first | have := (kx : State → _) | have := (kx : Twin) | have := (kx : Mem) | have := (kx : Hu) | have := (kx : Sec); clear this) | clear_value kx); all_goals have kx := True.intro) | with_reducible apply mbxPostOp_kept | with_reducible apply copyBuffer_kept | with_reducible apply mbxAckOp_kept | with_reducible apply pulse_kept | with_reducible apply waitEvent_kept | with_reducible apply kept_ite | with_reducible apply kept_ite_fst | with_reducible refine kept_of_pair (by assumption) ?_ | split)

end Sys2Proof.Machine
end

