-- ==== Sys2Proof/Laws/KeptStore.lean ====
section
/-!
SUPPORT. Every function of Machine/Store.lean keeps a sound state, the queue and what was sent.
-/

namespace Sys2Proof.Machine

variable {qs : List Instr} {os : List Out}

theorem ignoreCopy_kept (s : State) (hs : Kept qs os s) :
    Kept qs os (ignoreCopy s) := by
  unfold ignoreCopy
  repeat' (first | with_reducible assumption | with_reducible apply pulse_kept | with_reducible apply rcPulse_kept | refine kept_upd ?_ rfl rfl rfl rfl rfl rfl rfl rfl rfl rfl rfl rfl)

theorem ignoreCopies_kept (y0 : Nat) (y1 : State) (hy1 : Kept qs os y1) :
    Kept qs os (ignoreCopies y0 y1) := by
  induction y0 generalizing y1 hy1 with
  | zero =>
    rw [ignoreCopies]
    repeat' (with_reducible assumption)
  | succ n ih =>
    rw [ignoreCopies]
    repeat' (first | with_reducible assumption | with_reducible apply ih | with_reducible apply ignoreCopy_kept)

theorem lcWrite_kept (s : State) (v : LcRec) (hs : Kept qs os s) :
    Kept qs os (lcWrite s v) := by
  unfold lcWrite
  repeat' (first | with_reducible assumption | ((fail_if_success (fail_if_success extract_lets)); extract_lets +onlyGivenNames kx; (fail_if_success (have : True := kx)); clear_value kx; all_goals have kx := True.intro) | refine kept_upd ?_ rfl rfl rfl rfl rfl rfl rfl rfl rfl rfl rfl rfl)

theorem lcRepair_kept (s : State) (hs : Kept qs os s) :
    Kept qs os (lcRepair s) := by
  unfold lcRepair
  repeat' (first | with_reducible assumption | ((fail_if_success (fail_if_success extract_lets)); extract_lets +onlyGivenNames kx; (fail_if_success (have : True := kx)); clear_value kx; all_goals have kx := True.intro) | with_reducible apply ignoreCopies_kept | split | refine kept_upd ?_ rfl rfl rfl rfl rfl rfl rfl rfl rfl rfl rfl rfl)

theorem logWrite_kept (s : State) (e : LogEntry) (hs : Kept qs os s) :
    Kept qs os (logWrite s e) := by
  unfold logWrite
  repeat' (first | with_reducible assumption | ((fail_if_success (fail_if_success extract_lets)); extract_lets +onlyGivenNames kx; (fail_if_success (have : True := kx)); (first | (refine kept_cut qs os kx ?_ fun _ => ?_; unfold kx; rotate_left; clear_value kx; rotate_right) | clear_value kx); all_goals have kx := True.intro) | with_reducible apply pulse_kept | with_reducible apply kept_ite | refine kept_upd ?_ rfl rfl rfl rfl rfl rfl rfl rfl rfl rfl rfl rfl)

theorem logFlush_kept (s : State) (hs : Kept qs os s) :
    Kept qs os (logFlush s) := by
  unfold logFlush
  repeat' (first | with_reducible assumption | with_reducible apply logWrite_kept | (with_reducible apply kept_foldl; intro _ _ _) | refine kept_upd ?_ rfl rfl rfl rfl rfl rfl rfl rfl rfl rfl rfl rfl)

theorem logEvent_kept (s : State) (code str : Byte) (unit : Nat) (addr : Dword) (data : List Byte) (hs : Kept qs os s) :
    Kept qs os (logEvent s code str unit addr data) := by
  unfold logEvent
  repeat' (first | with_reducible assumption | ((fail_if_success (fail_if_success extract_lets)); extract_lets +onlyGivenNames kx; (fail_if_success (have : True := kx)); clear_value kx; all_goals have kx := True.intro) | with_reducible apply logFlush_kept | with_reducible apply kept_ite | refine kept_upd ?_ rfl rfl rfl rfl rfl rfl rfl rfl rfl rfl rfl rfl)

end Sys2Proof.Machine
end

