-- ==== Sys2Proof/Laws/KeptFullStop.lean ====
section
/-!
SUPPORT. Every function of Machine/FullStop.lean keeps a sound state, the queue and what was sent.
-/

namespace Sys2Proof.Machine

variable {qs : List Instr} {os : List Out}

theorem numberEffect_kept (binds : BitVec 512) (tag : Nat) (s : State) (e : Effect) (hs : Kept qs os s) :
    Kept qs os (numberEffect binds tag s e).1 := by
  unfold numberEffect
  repeat' (first | with_reducible assumption | ((fail_if_success (fail_if_success extract_lets)); extract_lets +onlyGivenNames kx; (fail_if_success (have : True := kx)); clear_value kx; all_goals have kx := True.intro) | with_reducible apply takeAppend_kept | with_reducible apply kept_ite_fst | split)

theorem numberEffects_kept (binds : BitVec 512) (tag : Nat) (y0 : State) (y1 : List Effect) (hy0 : Kept qs os y0) :
    Kept qs os (numberEffects binds tag y0 y1).1 := by
  induction y1 generalizing binds tag y0 hy0 with
  | nil =>
    rw [numberEffects]
    repeat' (with_reducible assumption)
  | cons x l ih =>
    rw [numberEffects]
    repeat' (first | with_reducible assumption | with_reducible apply ih | with_reducible apply numberEffect_kept)

theorem modNum_kept (s : State) (n : Nat) (f : NClause → NClause) (hs : Kept qs os s) :
    Kept qs os (modNum s n f) := by
  unfold modNum
  repeat' (first | with_reducible assumption | refine kept_upd ?_ rfl rfl rfl rfl rfl rfl rfl rfl rfl rfl rfl rfl)

theorem commit_kept (s : State) (n prn : Nat) (hs : Kept qs os s) :
    Kept qs os (commit s n prn) := by
  unfold commit
  repeat' (first | with_reducible assumption | with_reducible apply modP_kept | with_reducible apply modNum_kept)

theorem watermarkPulse_kept (s : State) (before : Nat) (hs : Kept qs os s) :
    Kept qs os (watermarkPulse s before) := by
  unfold watermarkPulse
  repeat' (first | with_reducible assumption | ((fail_if_success (fail_if_success extract_lets)); extract_lets +onlyGivenNames kx; (fail_if_success (have : True := kx)); clear_value kx; all_goals have kx := True.intro) | with_reducible apply pulse_kept | with_reducible apply kept_ite)

theorem takeNumber_kept (s : State) (prn : Nat) (hs : Kept qs os s) :
    Kept qs os (takeNumber s prn) := by
  unfold takeNumber
  repeat' (first | with_reducible assumption | ((fail_if_success (fail_if_success extract_lets)); extract_lets +onlyGivenNames kx; (fail_if_success (have : True := kx)); clear_value kx; all_goals have kx := True.intro) | with_reducible apply numberEffects_kept | with_reducible apply dropClause_kept | with_reducible apply watermarkPulse_kept | with_reducible apply twinSend_kept | with_reducible apply commit_kept | with_reducible apply kept_ite | split | refine kept_upd ?_ rfl rfl rfl rfl rfl rfl rfl rfl rfl rfl rfl rfl)

theorem fullStop_kept (s : State) (n : Nat) (fin : Fin) (hs : Kept qs os s) :
    Kept qs os (fullStop s n fin) := by
  unfold fullStop
  repeat' (first | with_reducible assumption | ((fail_if_success (fail_if_success extract_lets)); extract_lets +onlyGivenNames kx; (fail_if_success (have : True := kx)); (first | (refine kept_cut qs os kx ?_ fun _ => ?_; unfold kx; rotate_left; clear_value kx; rotate_right) | clear_value kx); all_goals have kx := True.intro) | with_reducible apply runFin_kept | with_reducible apply takeNumber_kept | with_reducible apply modP_kept | with_reducible apply kept_ite | split | refine kept_upd ?_ rfl rfl rfl rfl rfl rfl rfl rfl rfl rfl rfl rfl)

theorem admitOne_kept (s : State) (hs : Kept qs os s) :
    Kept qs os (admitOne s) := by
  unfold admitOne
  repeat' (first | with_reducible assumption | with_reducible apply runFin_kept | with_reducible apply takeNumber_kept | with_reducible apply kept_ite | split | refine kept_upd ?_ rfl rfl rfl rfl rfl rfl rfl rfl rfl rfl rfl rfl)

theorem reserve_kept (s : State) (hs : Kept qs os s) :
    Kept qs os (reserve s) := by
  unfold reserve
  repeat' (first | with_reducible assumption | ((fail_if_success (fail_if_success extract_lets)); extract_lets +onlyGivenNames kx; (fail_if_success (have : True := kx)); clear_value kx; all_goals have kx := True.intro) | with_reducible apply kept_ite | refine kept_upd ?_ rfl rfl rfl rfl rfl rfl rfl rfl rfl rfl rfl rfl)

theorem putSave_kept (s : State) (v : Save) (hs : Kept qs os s) :
    Kept qs os (putSave s v) := by
  unfold putSave
  repeat' (first | with_reducible assumption | with_reducible apply kept_ite | refine kept_upd ?_ rfl rfl rfl rfl rfl rfl rfl rfl rfl rfl rfl rfl)

theorem cutSave_kept (s : State) (hs : Kept qs os s) :
    Kept qs os (cutSave s) := by
  unfold cutSave
  repeat' (first | with_reducible assumption | with_reducible apply kept_ite | split | refine kept_upd ?_ rfl rfl rfl rfl rfl rfl rfl rfl rfl rfl rfl rfl)

theorem consumeSave_kept (s : State) (hs : Kept qs os s) :
    Kept qs os (consumeSave s) := by
  unfold consumeSave
  repeat' (first | with_reducible assumption | ((fail_if_success (fail_if_success extract_lets)); extract_lets +onlyGivenNames kx; (fail_if_success (have : True := kx)); (first | (refine kept_cut qs os kx ?_ fun _ => ?_; unfold kx; rotate_left; clear_value kx; rotate_right) | clear_value kx); all_goals have kx := True.intro) | with_reducible apply putSave_kept | refine kept_upd ?_ rfl rfl rfl rfl rfl rfl rfl rfl rfl rfl rfl rfl)

theorem finishReissue_kept (s : State) (hs : Kept qs os s) :
    Kept qs os (finishReissue s) := by
  unfold finishReissue
  repeat' (first | with_reducible assumption | (first | (intro _ hk; have := hk.queue) | (intro _ _ hk; have := hk.queue) | (intro _ _ _ hk; have := hk.queue); clear this) | intro _ | ((fail_if_success (fail_if_success extract_lets)); extract_lets +onlyGivenNames kx; (fail_if_success (have : True := kx)); (first | (refine kept_cut qs os kx ?_ fun _ => ?_; unfold kx; rotate_left; clear_value kx; rotate_right) | (refine kept_cut qs os kx.1 ?_ fun _ => ?_; unfold kx; rotate_left; clear_value kx; rotate_right) | (first | have := (kx : State → _) | have := (kx : Twin) | have := (kx : Mem) | have := (kx : Hu) | have := (kx : Sec); clear this) | clear_value kx); all_goals have kx := True.intro) | with_reducible apply finishHeld_kept | with_reducible apply consumeSave_kept | with_reducible apply pulse_kept | with_reducible apply kept_ite | split | refine kept_upd ?_ rfl rfl rfl rfl rfl rfl rfl rfl rfl rfl rfl rfl)

theorem finishUnbind_kept (s : State) (n : Nat) (hs : Kept qs os s) :
    Kept qs os (finishUnbind s n) := by
  unfold finishUnbind
  repeat' (first | with_reducible assumption | ((fail_if_success (fail_if_success extract_lets)); extract_lets +onlyGivenNames kx; (fail_if_success (have : True := kx)); clear_value kx; all_goals have kx := True.intro) | with_reducible apply finishHeld_kept | with_reducible apply setP_kept | with_reducible apply kept_ite)

theorem dropFrames_kept (s : State) (n : Nat) (hs : Kept qs os s) :
    Kept qs os (dropFrames s n) := by
  unfold dropFrames
  repeat' (first | with_reducible assumption | (first | (intro _ hk; have := hk.queue) | (intro _ _ hk; have := hk.queue) | (intro _ _ _ hk; have := hk.queue); clear this) | intro _ | ((fail_if_success (fail_if_success extract_lets)); extract_lets +onlyGivenNames kx; (fail_if_success (have : True := kx)); (first | (refine kept_cut qs os kx ?_ fun _ => ?_; unfold kx; rotate_left; clear_value kx; rotate_right) | (refine kept_cut qs os kx.1 ?_ fun _ => ?_; unfold kx; rotate_left; clear_value kx; rotate_right) | (first | have := (kx : State → _) | have := (kx : Twin) | have := (kx : Mem) | have := (kx : Hu) | have := (kx : Sec); clear this) | clear_value kx); all_goals have kx := True.intro) | with_reducible apply count_kept | with_reducible apply relieve_kept | with_reducible apply setRx_kept | (with_reducible apply kept_foldl; intro _ _ _))

theorem dropAttention_kept (s : State) (a : Nat × Nat) (hs : Kept qs os s) :
    Kept qs os (dropAttention s a) := by
  unfold dropAttention
  repeat' (first | with_reducible assumption | with_reducible apply count_kept | with_reducible apply kept_ite | split)

theorem dropAttentions_kept (s : State) (n : Nat) (hs : Kept qs os s) :
    Kept qs os (dropAttentions s n) := by
  unfold dropAttentions
  repeat' (first | with_reducible assumption | (first | (intro _ hk; have := hk.queue) | (intro _ _ hk; have := hk.queue) | (intro _ _ _ hk; have := hk.queue); clear this) | intro _ | with_reducible apply modP_kept | with_reducible apply dropAttention_kept | (with_reducible apply kept_foldl; intro _ _ _) | refine kept_upd ?_ rfl rfl rfl rfl rfl rfl rfl rfl rfl rfl rfl rfl)

theorem becomeUnbound_kept (s : State) (n : Nat) (hs : Kept qs os s) :
    Kept qs os (becomeUnbound s n) := by
  unfold becomeUnbound
  repeat' (first | with_reducible assumption | (first | (intro _ hk; have := hk.queue) | (intro _ _ hk; have := hk.queue) | (intro _ _ _ hk; have := hk.queue); clear this) | intro _ | ((fail_if_success (fail_if_success extract_lets)); extract_lets +onlyGivenNames kx; (fail_if_success (have : True := kx)); (first | (refine kept_cut qs os kx ?_ fun _ => ?_; unfold kx; rotate_left; clear_value kx; rotate_right) | (refine kept_cut qs os kx.1 ?_ fun _ => ?_; unfold kx; rotate_left; clear_value kx; rotate_right) | (first | have := (kx : State → _) | have := (kx : Twin) | have := (kx : Mem) | have := (kx : Hu) | have := (kx : Sec); clear this) | clear_value kx); all_goals have kx := True.intro) | with_reducible apply dropAttentions_kept | with_reducible apply dropFrames_kept | with_reducible apply modP_kept | with_reducible apply breakLocks_kept | refine kept_upd ?_ rfl rfl rfl rfl rfl rfl rfl rfl rfl rfl rfl rfl)

theorem resetFinish_kept (s : State) (n : Nat) (hs : Kept qs os s) :
    Kept qs os (resetFinish s n) := by
  unfold resetFinish
  repeat' (first | with_reducible assumption | (first | (intro _ hk; have := hk.queue) | (intro _ _ hk; have := hk.queue) | (intro _ _ _ hk; have := hk.queue); clear this) | intro _ | ((fail_if_success (fail_if_success extract_lets)); extract_lets +onlyGivenNames kx; (fail_if_success (have : True := kx)); (first | (refine kept_cut qs os kx ?_ fun _ => ?_; unfold kx; rotate_left; clear_value kx; rotate_right) | (refine kept_cut qs os kx.1 ?_ fun _ => ?_; unfold kx; rotate_left; clear_value kx; rotate_right) | (first | have := (kx : State → _) | have := (kx : Twin) | have := (kx : Mem) | have := (kx : Hu) | have := (kx : Sec); clear this) | clear_value kx); all_goals have kx := True.intro) | with_reducible apply abortClause_kept | with_reducible apply postDirect_kept | with_reducible apply breakLocks_kept | with_reducible apply leaveAll_kept | with_reducible apply modP_kept | with_reducible apply finishHeld_kept | with_reducible apply finishUnbind_kept | with_reducible apply becomeUnbound_kept | with_reducible apply setWords_kept | with_reducible apply kept_ite | with_reducible apply kept_ite_fst | with_reducible refine kept_of_pair (by assumption) ?_ | with_reducible refine kept_of_pair (by assumption) ?_ | split | refine kept_upd ?_ rfl rfl rfl rfl rfl rfl rfl rfl rfl rfl rfl rfl)

theorem resetPron_kept (s : State) (n : Nat) (hs : Kept qs os s) :
    Kept qs os (resetPron s n) := by
  unfold resetPron
  repeat' (first | with_reducible assumption | (first | (intro _ hk; have := hk.queue) | (intro _ _ hk; have := hk.queue) | (intro _ _ _ hk; have := hk.queue); clear this) | intro _ | ((fail_if_success (fail_if_success extract_lets)); extract_lets +onlyGivenNames kx; (fail_if_success (have : True := kx)); (first | (refine kept_cut qs os kx ?_ fun _ => ?_; unfold kx; rotate_left; clear_value kx; rotate_right) | (refine kept_cut qs os kx.1 ?_ fun _ => ?_; unfold kx; rotate_left; clear_value kx; rotate_right) | (first | have := (kx : State → _) | have := (kx : Twin) | have := (kx : Mem) | have := (kx : Hu) | have := (kx : Sec); clear this) | clear_value kx); all_goals have kx := True.intro) | with_reducible apply dequeue_kept | with_reducible apply leaveWaits_kept | with_reducible apply resetFinish_kept | with_reducible apply modP_kept | with_reducible apply kept_ite | split | refine kept_upd ?_ rfl rfl rfl rfl rfl rfl rfl rfl rfl rfl rfl rfl)

theorem sendReleased_kept (s : State) (hs : Kept qs os s) :
    Kept qs os (sendReleased s) := by
  unfold sendReleased
  repeat' (first | with_reducible assumption | ((fail_if_success (fail_if_success extract_lets)); extract_lets +onlyGivenNames kx; (fail_if_success (have : True := kx)); (first | (refine kept_cut qs os kx ?_ fun _ => ?_; unfold kx; rotate_left; clear_value kx; rotate_right) | (refine kept_cut qs os kx.1 ?_ fun _ => ?_; unfold kx; rotate_left; clear_value kx; rotate_right) | (first | have := (kx : State → _) | have := (kx : Twin) | have := (kx : Mem) | have := (kx : Hu) | have := (kx : Sec); clear this) | clear_value kx); all_goals have kx := True.intro) | with_reducible apply twinSend_kept | with_reducible apply kept_ite | split | refine kept_upd ?_ rfl rfl rfl rfl rfl rfl rfl rfl rfl rfl rfl rfl)

theorem clauseReleased_kept (s : State) (n : Nat) (hs : Kept qs os s) :
    Kept qs os (clauseReleased s n) := by
  unfold clauseReleased
  repeat' (first | with_reducible assumption | ((fail_if_success (fail_if_success extract_lets)); extract_lets +onlyGivenNames kx; (fail_if_success (have : True := kx)); (first | (refine kept_cut qs os kx ?_ fun _ => ?_; unfold kx; rotate_left; clear_value kx; rotate_right) | clear_value kx); all_goals have kx := True.intro) | with_reducible apply finishUnbind_kept | with_reducible apply sendReleased_kept | with_reducible apply writeMirrors_kept | with_reducible apply kept_ite | split | refine kept_upd ?_ rfl rfl rfl rfl rfl rfl rfl rfl rfl rfl rfl rfl)

theorem effectDone_kept (s : State) (n i : Nat) (hs : Kept qs os s) :
    Kept qs os (effectDone s n i) := by
  unfold effectDone
  repeat' (first | with_reducible assumption | ((fail_if_success (fail_if_success extract_lets)); extract_lets +onlyGivenNames kx; (fail_if_success (have : True := kx)); (first | (refine kept_cut qs os kx ?_ fun _ => ?_; unfold kx; rotate_left; clear_value kx; rotate_right) | clear_value kx); all_goals have kx := True.intro) | with_reducible apply modNum_kept | with_reducible apply clauseReleased_kept | with_reducible apply kept_ite | refine kept_upd ?_ rfl rfl rfl rfl rfl rfl rfl rfl rfl rfl rfl rfl)

theorem releaseErrorWord_kept (s : State) (c : NClause) (ccw : Dword) (dev chan det : Byte) (hs : Kept qs os s) :
    Kept qs os (releaseErrorWord s c ccw dev chan det) := by
  unfold releaseErrorWord
  repeat' (first | with_reducible assumption | ((fail_if_success (fail_if_success extract_lets)); extract_lets +onlyGivenNames kx; (fail_if_success (have : True := kx)); (first | (refine kept_cut qs os kx ?_ fun _ => ?_; unfold kx; rotate_left; clear_value kx; rotate_right) | clear_value kx); all_goals have kx := True.intro) | with_reducible apply postBits_kept | with_reducible apply pulse_kept | with_reducible apply rcPulse_kept | refine kept_upd ?_ rfl rfl rfl rfl rfl rfl rfl rfl rfl rfl rfl rfl)

theorem effectFailed_kept (s : State) (n i : Nat) (dev chan det : Byte) (hs : Kept qs os s) :
    Kept qs os (effectFailed s n i dev chan det) := by
  unfold effectFailed
  repeat' (first | with_reducible assumption | with_reducible apply effectDone_kept | with_reducible apply releaseErrorWord_kept | split)

theorem effectOpEnd_kept (s : State) (n i : Nat) (dev : Byte) (hs : Kept qs os s) :
    Kept qs os (effectOpEnd s n i dev) := by
  unfold effectOpEnd
  repeat' (first | with_reducible assumption | with_reducible apply effectDone_kept | with_reducible apply effectFailed_kept | with_reducible apply kept_ite | split)

theorem setIssued_kept (s : State) (n i : Nat) (hs : Kept qs os s) :
    Kept qs os (setIssued s n i) := by
  unfold setIssued
  repeat' (first | with_reducible assumption | with_reducible apply modNum_kept)

theorem barHeld_kept (s : State) (n i : Nat) (bar : Bool) (hs : Kept qs os s) :
    Kept qs os (barHeld s n i bar) := by
  unfold barHeld
  repeat' (first | with_reducible assumption | with_reducible apply kept_ite | refine kept_upd ?_ rfl rfl rfl rfl rfl rfl rfl rfl rfl rfl rfl rfl)

theorem issueDev_kept (s0 : State) (c : NClause) (i : Nat) (e : Effect) (b image : BitVec 128) (hs0 : Kept qs os s0) :
    Kept qs os (issueDev s0 c i e b image) := by
  unfold issueDev
  repeat' (first | with_reducible assumption | ((fail_if_success (fail_if_success extract_lets)); extract_lets +onlyGivenNames kx; (fail_if_success (have : True := kx)); (first | (refine kept_cut qs os kx ?_ fun _ => ?_; unfold kx; rotate_left; clear_value kx; rotate_right) | (refine kept_cut qs os kx.1 ?_ fun _ => ?_; unfold kx; rotate_left; clear_value kx; rotate_right) | (first | have := (kx : State → _) | have := (kx : Twin) | have := (kx : Mem) | have := (kx : Hu) | have := (kx : Sec); clear this) | clear_value kx); all_goals have kx := True.intro) | with_reducible apply barHeld_kept | with_reducible apply setIssued_kept | with_reducible apply issueOp_kept | with_reducible apply effectOpEnd_kept | with_reducible apply dropOp_kept | with_reducible apply kept_ite | with_reducible apply kept_ite_fst | with_reducible refine kept_of_pair (by assumption) ?_ | split | refine kept_upd ?_ rfl rfl rfl rfl rfl rfl rfl rfl rfl rfl rfl rfl | with_reducible apply kept_getD)

theorem issueEffect_kept (s : State) (c : NClause) (i : Nat) (e : Effect) (hs : Kept qs os s) :
    Kept qs os (issueEffect s c i e) := by
  unfold issueEffect
  repeat' (first | with_reducible assumption | ((fail_if_success (fail_if_success extract_lets)); extract_lets +onlyGivenNames kx; (fail_if_success (have : True := kx)); (first | (refine kept_cut qs os kx ?_ fun _ => ?_; unfold kx; rotate_left; clear_value kx; rotate_right) | clear_value kx); all_goals have kx := True.intro) | with_reducible apply effectFailed_kept | with_reducible apply hostWrite_kept | with_reducible apply barHeld_kept | with_reducible apply setIssued_kept | with_reducible apply effectDone_kept | with_reducible apply sqWrite_kept | with_reducible apply twinLine_kept | with_reducible apply writeDram_kept | with_reducible apply applySignal_kept | with_reducible apply issueDev_kept | with_reducible apply kept_ite | split)

theorem releaseNext_kept (s : State) (hs : Kept qs os s) :
    Kept qs os (releaseNext s) := by
  unfold releaseNext
  repeat' (first | with_reducible assumption | with_reducible apply finishReissue_kept | with_reducible apply issueEffect_kept | with_reducible apply kept_ite | split)

end Sys2Proof.Machine
end

