-- ==== Sys2Proof/Laws/KeptTransform.lean ====
section
/-!
SUPPORT. Every function of Machine/Transform.lean keeps a sound state, the queue and what was sent.
-/

namespace Sys2Proof.Machine

variable {qs : List Instr} {os : List Out}

theorem gcmInvoke_kept (s : State) (i : Nat) (hs : Kept qs os s) :
    Kept qs os (gcmInvoke s i) := by
  unfold gcmInvoke
  repeat' (first | with_reducible assumption | ((fail_if_success (fail_if_success extract_lets)); extract_lets +onlyGivenNames kx; (fail_if_success (have : True := kx)); (first | (refine kept_cut qs os kx ?_ fun _ => ?_; unfold kx; rotate_left; clear_value kx; rotate_right) | (have := (kx : Sec); clear this)); all_goals have kx := True.intro) | with_reducible apply pulse_kept | with_reducible apply kept_ite | split | refine kept_upd ?_ rfl rfl rfl rfl rfl rfl rfl rfl rfl rfl rfl rfl)

theorem xfStart_kept (s : State) (x : Xform) (record : List Byte) (hs : Kept qs os s) :
    Kept qs os (xfStart s x record).1 := by
  unfold xfStart
  repeat' (first | with_reducible assumption | ((fail_if_success (fail_if_success extract_lets)); extract_lets +onlyGivenNames kx; (fail_if_success (have : True := kx)); (first | (refine kept_cut qs os kx ?_ fun _ => ?_; unfold kx; rotate_left; clear_value kx; rotate_right) | clear_value kx); all_goals have kx := True.intro) | with_reducible apply gcmInvoke_kept | with_reducible apply kept_ite)

end Sys2Proof.Machine
end

