-- ==== Sys2Proof/Laws/KeptChain.lean ====
section
/-!
SUPPORT. Every function of Machine/Chain.lean keeps a sound state, the queue and what was sent.
-/

namespace Sys2Proof.Machine

variable {qs : List Instr} {os : List Out}

theorem stageWord_kept (s : State) (n : Nat) (b : Nat) (ccw : Dword) (w : SWord) (hs : Kept qs os s) :
    StagedKept qs os (stageWord s n b ccw w) := by
  unfold stageWord
  repeat' (first | with_reducible assumption | ((fail_if_success (fail_if_success extract_lets)); extract_lets +onlyGivenNames kx; (fail_if_success (have : True := kx)); (first | (refine kept_cut qs os kx ?_ fun _ => ?_; unfold kx; rotate_left; clear_value kx; rotate_right) | clear_value kx); all_goals have kx := True.intro) | with_reducible apply setP_kept | with_reducible apply stage_kept)

theorem chainGoes_kept (s : State) (n : Nat) (c : Ccw) (e : EndInfo) (fin : Fin) (hs : Kept qs os s) :
    Kept qs os (chainGoes s n c e fin) := by
  unfold chainGoes
  repeat' (first | with_reducible assumption | ((fail_if_success (fail_if_success extract_lets)); extract_lets +onlyGivenNames kx; (fail_if_success (have : True := kx)); clear_value kx; all_goals have kx := True.intro) | with_reducible apply programCheck_kept | with_reducible apply runFin_kept | with_reducible apply stageWord_kept | with_reducible apply boundary_kept | with_reducible apply fullStop_kept | with_reducible apply postThen_kept | with_reducible apply kept_ite | with_reducible refine stagedKept_of_ok (by assumption) ?_ | with_reducible refine stagedKept_of_lost (by assumption) ?_ | split)

theorem endCcw_kept (s : State) (n : Nat) (e : EndInfo) (hs : Kept qs os s) :
    Kept qs os (endCcw s n e) := by
  unfold endCcw
  repeat' (first | with_reducible assumption | ((fail_if_success (fail_if_success extract_lets)); extract_lets +onlyGivenNames kx; (fail_if_success (have : True := kx)); (first | (refine kept_cut qs os kx ?_ fun _ => ?_; unfold kx; rotate_left; clear_value kx; rotate_right) | clear_value kx); all_goals have kx := True.intro) | with_reducible apply modP_kept | with_reducible apply boundary_kept | with_reducible apply chainGoes_kept | split)

theorem readEnd_kept (s : State) (n : Nat) (dev : Byte) (got : Nat) (long : Bool) (short : Nat) (hs : Kept qs os s) :
    Kept qs os (readEnd s n dev got long short) := by
  unfold readEnd
  repeat' (first | with_reducible assumption | ((fail_if_success (fail_if_success extract_lets)); extract_lets +onlyGivenNames kx; (fail_if_success (have : True := kx)); (first | (refine kept_cut qs os kx ?_ fun _ => ?_; unfold kx; rotate_left; clear_value kx; rotate_right) | (refine kept_cut qs os kx.1 ?_ fun _ => ?_; unfold kx; rotate_left; clear_value kx; rotate_right) | (first | have := (kx : State → _) | have := (kx : Twin) | have := (kx : Mem) | have := (kx : Hu) | have := (kx : Sec); clear this) | clear_value kx); all_goals have kx := True.intro) | with_reducible apply endCcw_kept | with_reducible apply stopCondition_kept | with_reducible apply got_kept | with_reducible apply kept_ite | split | refine kept_upd ?_ rfl rfl rfl rfl rfl rfl rfl rfl rfl rfl rfl rfl | with_reducible apply kept_getD)

theorem writeEnd_kept (s : State) (n : Nat) (dev : Byte) (left : Nat) (hs : Kept qs os s) :
    Kept qs os (writeEnd s n dev left) := by
  unfold writeEnd
  repeat' (first | with_reducible assumption | ((fail_if_success (fail_if_success extract_lets)); extract_lets +onlyGivenNames kx; (fail_if_success (have : True := kx)); (first | (refine kept_cut qs os kx ?_ fun _ => ?_; unfold kx; rotate_left; clear_value kx; rotate_right) | (refine kept_cut qs os kx.1 ?_ fun _ => ?_; unfold kx; rotate_left; clear_value kx; rotate_right) | (first | have := (kx : State → _) | have := (kx : Twin) | have := (kx : Mem) | have := (kx : Hu) | have := (kx : Sec); clear this) | clear_value kx); all_goals have kx := True.intro) | with_reducible apply endCcw_kept | with_reducible apply stopCondition_kept | with_reducible apply kept_ite | split | refine kept_upd ?_ rfl rfl rfl rfl rfl rfl rfl rfl rfl rfl rfl rfl)

theorem deviceFails_kept (s : State) (n : Nat) (o : DevOp) (dev det : Byte) (resid : Nat) (hs : Kept qs os s) :
    Kept qs os (deviceFails s n o dev det resid) := by
  unfold deviceFails
  repeat' (first | with_reducible assumption | ((fail_if_success (fail_if_success extract_lets)); extract_lets +onlyGivenNames kx; (fail_if_success (have : True := kx)); (first | (refine kept_cut qs os kx ?_ fun _ => ?_; unfold kx; rotate_left; clear_value kx; rotate_right) | (refine kept_cut qs os kx.1 ?_ fun _ => ?_; unfold kx; rotate_left; clear_value kx; rotate_right) | (first | have := (kx : State → _) | have := (kx : Twin) | have := (kx : Mem) | have := (kx : Hu) | have := (kx : Sec); clear this) | clear_value kx); all_goals have kx := True.intro) | with_reducible apply stopCondition_kept | with_reducible apply kept_ite | split)

end Sys2Proof.Machine
end

