-- ==== Sys2Proof/Laws/KeptTransfers.lean ====
section
/-!
SUPPORT. Every function of Machine/Transfers.lean keeps a sound state, the queue and what was sent.
-/

namespace Sys2Proof.Machine

variable {qs : List Instr} {os : List Out}

theorem fillMv_kept (s : State) (m : Nat) (hs : Kept qs os s) :
    Kept qs os (fillMv s m) := by
  unfold fillMv
  repeat' (first | with_reducible assumption | with_reducible apply modMv_kept)

theorem acceptOn_kept (s : State) (m : Nat) (t : Transfer) (hs : Kept qs os s) :
    OptKept qs os (acceptOn s m t) := by
  unfold acceptOn
  repeat' (first | with_reducible assumption | ((fail_if_success (fail_if_success extract_lets)); extract_lets +onlyGivenNames kx; (fail_if_success (have : True := kx)); (first | (refine kept_cut qs os kx ?_ fun _ => ?_; unfold kx; rotate_left; clear_value kx; rotate_right) | clear_value kx); all_goals have kx := True.intro) | with_reducible apply optKept_some | with_reducible apply optKept_none | with_reducible apply optKept_ite | with_reducible apply fillMv_kept | with_reducible apply setMv_kept | refine kept_upd ?_ rfl rfl rfl rfl rfl rfl rfl rfl rfl rfl rfl rfl)

theorem putCtx_kept (s : State) (m k : Nat) (t : Transfer) (hs : Kept qs os s) :
    Kept qs os (putCtx s m k t) := by
  unfold putCtx
  repeat' (first | with_reducible assumption | ((fail_if_success (fail_if_success extract_lets)); extract_lets +onlyGivenNames kx; (fail_if_success (have : True := kx)); clear_value kx; all_goals have kx := True.intro) | with_reducible apply modMv_kept)

theorem dropCtx_kept (s : State) (m k : Nat) (hs : Kept qs os s) :
    Kept qs os (dropCtx s m k) := by
  unfold dropCtx
  repeat' (first | with_reducible assumption | with_reducible apply modMv_kept)

theorem ctmReadRun_kept (y0 : Nat) (y1 : State) (y2 : Nat) (y3 : Nat) (y4 : Nat) (y5 : List Byte) (hy1 : Kept qs os y1) :
    GotKept qs os (ctmReadRun y0 y1 y2 y3 y4 y5) := by
  induction y0 generalizing y1 y2 y3 y4 y5 hy1 with
  | zero =>
    rw [ctmReadRun]
    repeat' (first | with_reducible assumption | with_reducible apply gotKept_ok)
  | succ n ih =>
    rw [ctmReadRun]
    repeat' (first | with_reducible assumption | with_reducible apply ih | ((fail_if_success (fail_if_success extract_lets)); extract_lets +onlyGivenNames kx; (fail_if_success (have : True := kx)); clear_value kx; all_goals have kx := True.intro) | with_reducible apply gotKept_ok | with_reducible apply gotKept_wait | with_reducible apply gotKept_bad | with_reducible apply gotKept_limit | with_reducible apply gotKept_ite | with_reducible apply ctmReadIn_kept | with_reducible refine ctmOutKept_of_ok (by assumption) ?_ | with_reducible refine ctmOutKept_of_waitLine (by assumption) ?_ | with_reducible refine ctmOutKept_of_waitEntries (by assumption) ?_ | with_reducible refine ctmOutKept_of_lost (by assumption) ?_ | split)

theorem dataRead_kept (s : State) (t : Transfer) (a : Dword) (n : Nat) (hs : Kept qs os s) :
    GotKept qs os (dataRead s t a n) := by
  unfold dataRead
  repeat' (first | with_reducible assumption | ((fail_if_success (fail_if_success extract_lets)); extract_lets +onlyGivenNames kx; (fail_if_success (have : True := kx)); clear_value kx; all_goals have kx := True.intro) | with_reducible apply gotKept_ok | with_reducible apply gotKept_wait | with_reducible apply gotKept_bad | with_reducible apply gotKept_ite | with_reducible apply ctmReadRun_kept | with_reducible apply ctmReadOut_kept | with_reducible refine ctmOutKept_of_ok (by assumption) ?_ | split)

theorem ctmWriteRun_kept (ccw : Dword) (bar : Bool) (y0 : Nat) (y1 : State) (y2 : Nat) (y3 : Nat) (y4 : List Byte) (y5 : Nat) (hy1 : Kept qs os y1) :
    Kept qs os (ctmWriteRun ccw bar y0 y1 y2 y3 y4 y5).1 := by
  induction y0 generalizing ccw bar y1 y2 y3 y4 y5 hy1 with
  | zero =>
    rw [ctmWriteRun]
    repeat' (with_reducible assumption)
  | succ n ih =>
    rw [ctmWriteRun]
    repeat' (first | with_reducible assumption | with_reducible apply ih | ((fail_if_success (fail_if_success extract_lets)); extract_lets +onlyGivenNames kx; (fail_if_success (have : True := kx)); clear_value kx; all_goals have kx := True.intro) | with_reducible apply ctmWriteIn_kept | with_reducible apply kept_ite_fst | with_reducible refine ctmOutKept_of_ok (by assumption) ?_ | with_reducible refine ctmOutKept_of_waitLine (by assumption) ?_ | with_reducible refine ctmOutKept_of_waitEntries (by assumption) ?_ | with_reducible refine ctmOutKept_of_lost (by assumption) ?_ | split)

theorem ctmStoreRun_kept (y0 : Nat) (y1 : State) (y2 : Nat) (y3 : List Byte) (y4 : Nat) (hy1 : Kept qs os y1) :
    Kept qs os (ctmStoreRun y0 y1 y2 y3 y4).1 := by
  induction y0 generalizing y1 y2 y3 y4 hy1 with
  | zero =>
    rw [ctmStoreRun]
    repeat' (with_reducible assumption)
  | succ n ih =>
    rw [ctmStoreRun]
    repeat' (first | with_reducible assumption | with_reducible apply ih | ((fail_if_success (fail_if_success extract_lets)); extract_lets +onlyGivenNames kx; (fail_if_success (have : True := kx)); clear_value kx; all_goals have kx := True.intro) | with_reducible apply ctmWriteOut_kept | with_reducible apply kept_ite_fst | with_reducible refine ctmOutKept_of_ok (by assumption) ?_ | split)

theorem dataWrite_kept (s : State) (t : Transfer) (seg : Nat) (a : Dword) (l : List Byte) (join : Bool) (hs : Kept qs os s) :
    Kept qs os (dataWrite s t seg a l join).s := by
  unfold dataWrite
  repeat' (first | with_reducible assumption | ((fail_if_success (fail_if_success extract_lets)); extract_lets +onlyGivenNames kx; (fail_if_success (have : True := kx)); (first | (refine kept_cut qs os kx.1 ?_ fun _ => ?_; unfold kx; rotate_left; clear_value kx; rotate_right) | clear_value kx); all_goals have kx := True.intro) | with_reducible apply hostWrite_kept | with_reducible apply ctmWriteRun_kept | with_reducible apply ctmStoreRun_kept | with_reducible apply writeDram_kept | with_reducible apply writeLoc_kept | with_reducible apply kept_ite_fst | with_reducible apply kept_ite_put | split)

theorem scatter_kept (seg : Nat) (tab base : Dword) (lg : Nat) (y0 : Nat) (y1 : Put) (y2 : Nat) (y3 : List Byte) (hy1 : Kept qs os y1.s) :
    Kept qs os (scatter seg tab base lg y0 y1 y2 y3).s := by
  induction y0 generalizing seg tab base lg y1 y2 y3 hy1 with
  | zero =>
    rw [scatter]
    repeat' (first | with_reducible assumption | ((fail_if_success (fail_if_success extract_lets)); extract_lets +onlyGivenNames kx; (fail_if_success (have : True := kx)); (first | (refine kept_cut qs os kx ?_ fun _ => ?_; unfold kx; rotate_left; clear_value kx; rotate_right) | (refine kept_cut qs os kx.1 ?_ fun _ => ?_; unfold kx; rotate_left; clear_value kx; rotate_right) | (first | have := (kx : State → _) | have := (kx : Twin) | have := (kx : Mem) | have := (kx : Hu) | have := (kx : Sec); clear this) | clear_value kx); all_goals have kx := True.intro) | with_reducible apply dataWrite_kept | with_reducible apply kept_ite | with_reducible apply kept_ite_put | split | refine kept_upd ?_ rfl rfl rfl rfl rfl rfl rfl rfl rfl rfl rfl rfl)
  | succ n ih =>
    rw [scatter]
    repeat' (first | with_reducible assumption | with_reducible apply ih | ((fail_if_success (fail_if_success extract_lets)); extract_lets +onlyGivenNames kx; (fail_if_success (have : True := kx)); (first | (refine kept_cut qs os kx ?_ fun _ => ?_; unfold kx; rotate_left; clear_value kx; rotate_right) | (refine kept_cut qs os kx.1 ?_ fun _ => ?_; unfold kx; rotate_left; clear_value kx; rotate_right) | (first | have := (kx : State → _) | have := (kx : Twin) | have := (kx : Mem) | have := (kx : Hu) | have := (kx : Sec); clear this) | clear_value kx); all_goals have kx := True.intro) | with_reducible apply dataWrite_kept | with_reducible apply kept_ite | with_reducible apply kept_ite_put | split | refine kept_upd ?_ rfl rfl rfl rfl rfl rfl rfl rfl rfl rfl rfl rfl)

theorem destWrite_kept (s : State) (t : Transfer) (seg : Nat) (d : Dest) (off : Nat) (l : List Byte) (hs : Kept qs os s) :
    Kept qs os (destWrite s t seg d off l).s := by
  unfold destWrite
  repeat' (first | with_reducible assumption | with_reducible apply dataWrite_kept | with_reducible apply scatter_kept | split | refine kept_upd ?_ rfl rfl rfl rfl rfl rfl rfl rfl rfl rfl rfl rfl)

theorem elemRun_kept (tab base : Dword) (lg r : Nat) (y0 : Nat) (y1 : State) (y2 : Transfer) (y3 : Nat) (y4 : Nat) (y5 : List Byte) (hy1 : Kept qs os y1) :
    FetchKept qs os (elemRun tab base lg r y0 y1 y2 y3 y4 y5) := by
  induction y0 generalizing tab base lg r y1 y2 y3 y4 y5 hy1 with
  | zero =>
    rw [elemRun]
    repeat' (first | with_reducible assumption | ((fail_if_success (fail_if_success extract_lets)); extract_lets +onlyGivenNames kx; (fail_if_success (have : True := kx)); (first | (refine kept_cut qs os kx ?_ fun _ => ?_; unfold kx; rotate_left; clear_value kx; rotate_right) | (refine kept_cut qs os kx.1 ?_ fun _ => ?_; unfold kx; rotate_left; clear_value kx; rotate_right) | (first | have := (kx : State → _) | have := (kx : Twin) | have := (kx : Mem) | have := (kx : Hu) | have := (kx : Sec); clear this) | clear_value kx); all_goals have kx := True.intro) | with_reducible apply fetchKept_pass | with_reducible apply fetchKept_got | with_reducible apply fetchKept_limit | with_reducible apply fetchKept_ite | with_reducible apply got_kept | with_reducible apply dataRead_kept | with_reducible apply kept_ite | with_reducible refine gotKept_of_ok (by assumption) ?_ | with_reducible refine gotKept_of_wait (by assumption) ?_ | split | refine kept_upd ?_ rfl rfl rfl rfl rfl rfl rfl rfl rfl rfl rfl rfl)
  | succ n ih =>
    rw [elemRun]
    repeat' (first | with_reducible assumption | with_reducible apply ih | ((fail_if_success (fail_if_success extract_lets)); extract_lets +onlyGivenNames kx; (fail_if_success (have : True := kx)); (first | (refine kept_cut qs os kx ?_ fun _ => ?_; unfold kx; rotate_left; clear_value kx; rotate_right) | (refine kept_cut qs os kx.1 ?_ fun _ => ?_; unfold kx; rotate_left; clear_value kx; rotate_right) | (first | have := (kx : State → _) | have := (kx : Twin) | have := (kx : Mem) | have := (kx : Hu) | have := (kx : Sec); clear this) | clear_value kx); all_goals have kx := True.intro) | with_reducible apply fetchKept_pass | with_reducible apply fetchKept_got | with_reducible apply fetchKept_limit | with_reducible apply fetchKept_ite | with_reducible apply got_kept | with_reducible apply dataRead_kept | with_reducible apply kept_ite | with_reducible refine gotKept_of_ok (by assumption) ?_ | with_reducible refine gotKept_of_wait (by assumption) ?_ | split | refine kept_upd ?_ rfl rfl rfl rfl rfl rfl rfl rfl rfl rfl rfl rfl)

theorem elemWhole_kept (s : State) (t : Transfer) (g : Seg) (tab base : Dword) (lg r : Nat) (hs : Kept qs os s) :
    FetchKept qs os (elemWhole s t g tab base lg r) := by
  unfold elemWhole
  repeat' (first | with_reducible assumption | ((fail_if_success (fail_if_success extract_lets)); extract_lets +onlyGivenNames kx; (fail_if_success (have : True := kx)); (first | (refine kept_cut qs os kx ?_ fun _ => ?_; unfold kx; rotate_left; clear_value kx; rotate_right) | (refine kept_cut qs os kx.1 ?_ fun _ => ?_; unfold kx; rotate_left; clear_value kx; rotate_right) | (first | have := (kx : State → _) | have := (kx : Twin) | have := (kx : Mem) | have := (kx : Hu) | have := (kx : Sec); clear this) | clear_value kx); all_goals have kx := True.intro) | with_reducible apply fetchKept_pass | with_reducible apply fetchKept_got | with_reducible apply fetchKept_limit | with_reducible apply fetchKept_ite | with_reducible apply got_kept | with_reducible apply dataRead_kept | with_reducible apply kept_ite | with_reducible refine gotKept_of_ok (by assumption) ?_ | with_reducible refine gotKept_of_wait (by assumption) ?_ | split | refine kept_upd ?_ rfl rfl rfl rfl rfl rfl rfl rfl rfl rfl rfl rfl)

theorem fetchMain_kept (s : State) (t : Transfer) (r : Nat) (hs : Kept qs os s) :
    FetchKept qs os (fetchMain s t r) := by
  unfold fetchMain
  repeat' (first | with_reducible assumption | ((fail_if_success (fail_if_success extract_lets)); extract_lets +onlyGivenNames kx; (fail_if_success (have : True := kx)); (first | (refine kept_cut qs os kx ?_ fun _ => ?_; unfold kx; rotate_left; clear_value kx; rotate_right) | (refine kept_cut qs os kx.1 ?_ fun _ => ?_; unfold kx; rotate_left; clear_value kx; rotate_right) | (first | have := (kx : State → _) | have := (kx : Twin) | have := (kx : Mem) | have := (kx : Hu) | have := (kx : Sec); clear this) | clear_value kx); all_goals have kx := True.intro) | with_reducible apply fetchKept_pass | with_reducible apply fetchKept_got | with_reducible apply fetchKept_limit | with_reducible apply fetchKept_ite | with_reducible apply got_kept | with_reducible apply dataRead_kept | with_reducible apply elemWhole_kept | with_reducible apply elemRun_kept | with_reducible apply kept_ite | with_reducible refine fetchKept_of_pass (by assumption) ?_ | with_reducible refine fetchKept_of_got (by assumption) ?_ | with_reducible refine fetchKept_of_limit (by assumption) ?_ | with_reducible refine gotKept_of_ok (by assumption) ?_ | with_reducible refine gotKept_of_wait (by assumption) ?_ | split)

theorem fetchOther_kept (s : State) (t : Transfer) (c : Chunk) (b : Dword) (hs : Kept qs os s) :
    FetchKept qs os (fetchOther s t c b) := by
  unfold fetchOther
  repeat' (first | with_reducible assumption | ((fail_if_success (fail_if_success extract_lets)); extract_lets +onlyGivenNames kx; (fail_if_success (have : True := kx)); clear_value kx; all_goals have kx := True.intro) | with_reducible apply fetchKept_pass | with_reducible apply fetchKept_got | with_reducible apply fetchKept_limit | with_reducible apply fetchKept_ite | with_reducible apply dataRead_kept | with_reducible refine gotKept_of_ok (by assumption) ?_ | with_reducible refine gotKept_of_wait (by assumption) ?_ | split)

theorem fetchTurn_kept (s : State) (t : Transfer) (r : Nat) (hs : Kept qs os s) :
    FetchKept qs os (fetchTurn s t r) := by
  unfold fetchTurn
  extract_lets data
  have hd : FetchKept qs os data := fetchKept_ite (fetchKept_pass hs) (fetchMain_kept _ _ _ hs)
  clear_value data
  split
  · exact fetchOther_kept _ _ _ _ hs
  · refine fetchKept_ite (fetchKept_pass hs) ?_
    split
    · exact fetchKept_got hs
    · exact hd
  · exact hd

theorem scriptEnds_kept (s : State) (n : Nat) (w : Word) (hs : Kept qs os s) :
    Kept qs os (scriptEnds s n w) := by
  unfold scriptEnds
  repeat' (first | with_reducible assumption | with_reducible apply endCcw_kept | split)

theorem resumeEnding_kept (s : State) (n : Nat) (hs : Kept qs os s) :
    Kept qs os (resumeEnding s n) := by
  unfold resumeEnding
  repeat' (first | with_reducible assumption | with_reducible apply scriptEnds_kept | with_reducible apply kept_ite | split)

theorem writeOut_kept (s : State) (origin : Origin) (v : Nat) (hs : Kept qs os s) :
    Kept qs os (writeOut s origin v) := by
  unfold writeOut
  repeat' (first | with_reducible assumption | with_reducible apply writeLoc_kept | with_reducible apply writeTcm_kept | split)

theorem requestEnd_kept (s : State) (t : Transfer) (e : TEnd) (hs : Kept qs os s) :
    Kept qs os (requestEnd s t e) := by
  unfold requestEnd
  repeat' (first | with_reducible assumption | ((fail_if_success (fail_if_success extract_lets)); extract_lets +onlyGivenNames kx; (fail_if_success (have : True := kx)); (first | (refine kept_cut qs os kx ?_ fun _ => ?_; unfold kx; rotate_left; clear_value kx; rotate_right) | clear_value kx); all_goals have kx := True.intro) | with_reducible apply writeOut_kept | with_reducible apply modP_kept | with_reducible apply resumeEnding_kept | with_reducible apply releaseHold_kept | split | refine kept_upd ?_ rfl rfl rfl rfl rfl rfl rfl rfl rfl rfl rfl rfl)

theorem resetWaits_kept (s : State) (n : Nat) (hs : Kept qs os s) :
    Kept qs os (resetWaits s n) := by
  unfold resetWaits
  repeat' (first | with_reducible assumption | with_reducible apply resetFinish_kept | with_reducible apply kept_ite)

theorem compareEnd_kept (s : State) (n : Nat) (t : Transfer) (hs : Kept qs os s) :
    Kept qs os (compareEnd s n t) := by
  unfold compareEnd
  repeat' (first | with_reducible assumption | ((fail_if_success (fail_if_success extract_lets)); extract_lets +onlyGivenNames kx; (fail_if_success (have : True := kx)); clear_value kx; all_goals have kx := True.intro) | with_reducible apply endCcw_kept | split)

theorem opEnds_kept (s : State) (n : Nat) (o : DevOp) (hs : Kept qs os s) :
    Kept qs os (opEnds s n o) := by
  unfold opEnds
  repeat' (first | with_reducible assumption | ((fail_if_success (fail_if_success extract_lets)); extract_lets +onlyGivenNames kx; (fail_if_success (have : True := kx)); (first | (refine kept_cut qs os kx ?_ fun _ => ?_; unfold kx; rotate_left; clear_value kx; rotate_right) | (refine kept_cut qs os kx.1 ?_ fun _ => ?_; unfold kx; rotate_left; clear_value kx; rotate_right) | (first | have := (kx : State → _) | have := (kx : Twin) | have := (kx : Mem) | have := (kx : Hu) | have := (kx : Sec); clear this) | clear_value kx); all_goals have kx := True.intro) | with_reducible apply dropOp_kept | with_reducible apply writeEnd_kept | with_reducible apply deviceFails_kept | with_reducible apply kept_ite | split)

theorem handOp_kept (s : State) (n : Nat) (t : Transfer) (bi : Nat) (hs : Kept qs os s) : Kept qs os (handOp s n t bi) := by
  unfold handOp
  extract_lets p c b sub flow
  refine kept_ite (programCheck_kept _ _ _ _ _ _ hs) ?_
  dsimp only
  split
  · split
    · exact endCcw_kept _ _ _ hs
    · have h := fun k e n => stage_kept s k e 1 n 0 hs
      split
      · exact programCheck_kept _ _ _ _ _ _ hs
      · exact endCcw_kept _ _ _ (stagedKept_of_lost (by assumption) (h _ _ _))
      · exact endCcw_kept _ _ _ (stagedKept_of_ok (by assumption) (h _ _ _))
  · have h : Kept qs os (if bKind b = 1 ∧ c.verb = 0x21 ∧ (sub = 0 ∨ sub = 2) then takeAppend s b
        (bitsAt (opImage s b c.verb sub t.gather.length t.gather flow) 32 32) else (s, 0)).1 := kept_ite_fst (takeAppend_kept s b _ hs) hs
    have h := fun o f k q p l => setPhase_kept _ n k (issueOp_kept _ o f (kept_ite (c := t.pages.isEmpty = true) h (markUsed_kept _ q p l h)))
    split
    · exact kept_ite (opEnds_kept _ _ _ (h _ _ _ _ _ _)) (h _ _ _ _ _ _)
    · exact h _ _ _ _ _ _

theorem readDone_kept (s : State) (n : Nat) (o : DevOp) (moved : Nat) (hs : Kept qs os s) :
    Kept qs os (readDone s n o moved) := by
  unfold readDone
  repeat' (first | with_reducible assumption | ((fail_if_success (fail_if_success extract_lets)); extract_lets +onlyGivenNames kx; (fail_if_success (have : True := kx)); (first | (refine kept_cut qs os kx ?_ fun _ => ?_; unfold kx; rotate_left; clear_value kx; rotate_right) | (refine kept_cut qs os kx.1 ?_ fun _ => ?_; unfold kx; rotate_left; clear_value kx; rotate_right) | (first | have := (kx : State → _) | have := (kx : Twin) | have := (kx : Mem) | have := (kx : Hu) | have := (kx : Sec); clear this) | clear_value kx); all_goals have kx := True.intro) | with_reducible apply dropOp_kept | with_reducible apply readEnd_kept | with_reducible apply deviceFails_kept | with_reducible apply kept_ite | split)

theorem ccwDataEnd_kept (s : State) (n : Nat) (t : Transfer) (hs : Kept qs os s) :
    Kept qs os (ccwDataEnd s n t) := by
  unfold ccwDataEnd
  repeat' (first | with_reducible assumption | with_reducible apply compareEnd_kept | with_reducible apply handOp_kept | with_reducible apply readDone_kept | with_reducible apply setPhase_kept | with_reducible apply endCcw_kept | with_reducible apply kept_ite | split)

theorem transferEnd_kept (s : State) (m k : Nat) (t : Transfer) (e : TEnd) (hs : Kept qs os s) :
    Kept qs os (transferEnd s m k t e) := by
  unfold transferEnd
  repeat' (first | with_reducible assumption | ((fail_if_success (fail_if_success extract_lets)); extract_lets +onlyGivenNames kx; (fail_if_success (have : True := kx)); (refine kept_cut qs os kx ?_ fun _ => ?_; unfold kx; rotate_left; clear_value kx; rotate_right); all_goals have kx := True.intro) | with_reducible apply fillMv_kept | with_reducible apply dropCtx_kept | with_reducible apply resetWaits_kept | with_reducible apply ccwDataEnd_kept | with_reducible apply requestEnd_kept | split)

theorem limitMet_kept (s : State) (n : Nat) (t : Transfer) (det : Byte) (hs : Kept qs os s) :
    Kept qs os (limitMet s n t det) := by
  unfold limitMet
  repeat' (first | with_reducible assumption | (first | (intro _ hk; have := hk.queue) | (intro _ _ hk; have := hk.queue) | (intro _ _ _ hk; have := hk.queue); clear this) | intro _ | ((fail_if_success (fail_if_success extract_lets)); extract_lets +onlyGivenNames kx; (fail_if_success (have : True := kx)); (first | (refine kept_cut qs os kx ?_ fun _ => ?_; unfold kx; rotate_left; clear_value kx; rotate_right) | (refine kept_cut qs os kx.1 ?_ fun _ => ?_; unfold kx; rotate_left; clear_value kx; rotate_right) | (first | have := (kx : State → _) | have := (kx : Twin) | have := (kx : Mem) | have := (kx : Hu) | have := (kx : Sec); clear this) | clear_value kx); all_goals have kx := True.intro) | with_reducible apply programCheck_kept | with_reducible apply modP_kept | with_reducible apply requestEnd_kept | with_reducible apply kept_ite | split | refine kept_upd ?_ rfl rfl rfl rfl rfl rfl rfl rfl rfl rfl rfl rfl | with_reducible apply kept_getD)

theorem transferCheck_kept (s : State) (m k : Nat) (t : Transfer) (code det result : Byte) (hs : Kept qs os s) :
    Kept qs os (transferCheck s m k t code det result) := by
  unfold transferCheck
  repeat' (first | with_reducible assumption | ((fail_if_success (fail_if_success extract_lets)); extract_lets +onlyGivenNames kx; (fail_if_success (have : True := kx)); (first | (refine kept_cut qs os kx ?_ fun _ => ?_; unfold kx; rotate_left; clear_value kx; rotate_right) | (refine kept_cut qs os kx.1 ?_ fun _ => ?_; unfold kx; rotate_left; clear_value kx; rotate_right) | (first | have := (kx : State → _) | have := (kx : Twin) | have := (kx : Mem) | have := (kx : Hu) | have := (kx : Sec); clear this) | clear_value kx); all_goals have kx := True.intro) | with_reducible apply fillMv_kept | with_reducible apply dropCtx_kept | with_reducible apply dropOpOf_kept | with_reducible apply resetWaits_kept | with_reducible apply programCheck_kept | with_reducible apply limitMet_kept | with_reducible apply requestEnd_kept | with_reducible apply kept_ite | split | refine kept_upd ?_ rfl rfl rfl rfl rfl rfl rfl rfl rfl rfl rfl rfl | with_reducible apply kept_getD)

theorem transferStops_kept (s : State) (m k : Nat) (t : Transfer) (chan det : Byte) (e : TEnd) (resid : Option Word) (hs : Kept qs os s) :
    Kept qs os (transferStops s m k t chan det e resid) := by
  unfold transferStops
  repeat' (first | with_reducible assumption | ((fail_if_success (fail_if_success extract_lets)); extract_lets +onlyGivenNames kx; (fail_if_success (have : True := kx)); (first | (refine kept_cut qs os kx ?_ fun _ => ?_; unfold kx; rotate_left; clear_value kx; rotate_right) | (refine kept_cut qs os kx.1 ?_ fun _ => ?_; unfold kx; rotate_left; clear_value kx; rotate_right) | (first | have := (kx : State → _) | have := (kx : Twin) | have := (kx : Mem) | have := (kx : Hu) | have := (kx : Sec); clear this) | clear_value kx); all_goals have kx := True.intro) | with_reducible apply fillMv_kept | with_reducible apply dropCtx_kept | with_reducible apply dropOpOf_kept | with_reducible apply resetWaits_kept | with_reducible apply stopCondition_kept | with_reducible apply requestEnd_kept | with_reducible apply kept_ite | split | with_reducible apply kept_getD)

theorem stageRuns_kept (s : State) (b : Nat) (t : Transfer) (y0 : List Nat) (hs : Kept qs os s) :
    StagedKept qs os (stageRuns s b t y0) := by
  induction y0 generalizing s b t hs with
  | nil =>
    rw [stageRuns]
    repeat' (first | with_reducible assumption | with_reducible apply stagedKept_ok)
  | cons x l ih =>
    rw [stageRuns]
    repeat' (first | with_reducible assumption | with_reducible apply ih | with_reducible apply stage_kept | with_reducible refine stagedKept_of_ok (by assumption) ?_ | split)

theorem writeRecord_kept (s : State) (t : Transfer) (x : Xform) (l : List Byte) (hs : Kept qs os s) :
    StagedKept qs os (writeRecord s t x l) := by
  unfold writeRecord
  repeat' (first | with_reducible assumption | with_reducible apply stagedKept_ok | with_reducible apply stagedKept_ite | with_reducible apply stage_kept | with_reducible apply hostWrite_kept | with_reducible apply writeDram_kept | with_reducible apply writeLoc_kept | split)

theorem lastByte_kept (s : State) (m k : Nat) (t : Transfer) (hs : Kept qs os s) : Kept qs os (lastByte s m k t) := by
  unfold lastByte
  refine kept_ite (putCtx_kept _ _ _ _ hs) ?_
  extract_lets data fin staged
  have hf : StagedKept qs os data := by
    unfold data
    split
    · exact stageRuns_kept _ _ _ _ hs
    · exact hs
  clear_value data fin
  have hk : StagedKept qs os staged := by
    unfold staged
    split
    · exact writeRecord_kept _ _ _ _ hf
    · exact hf
  clear_value staged
  cases staged with
  | limit x => exact transferCheck_kept _ _ _ _ _ _ _ hs
  | lost s => exact transferEnd_kept _ _ _ _ _ hk
  | ok s =>
    have h : Kept qs os s := hk
    refine kept_ite (transferStops_kept _ _ _ _ _ _ _ _ h) (kept_ite ?_ (transferEnd_kept _ _ _ _ _ h))
    have h := putCtx_kept _ m k { t with arrival := true, runs := [] } h
    dsimp only
    split
    · exact setPhase_kept _ _ _ h
    · exact h

theorem afterPut_kept (s : State) (m k : Nat) (t : Transfer) (stop : Stop) (hs : Kept qs os s) :
    Kept qs os (afterPut s m k t stop) := by
  unfold afterPut
  repeat' (first | with_reducible assumption | with_reducible apply transferCheck_kept | with_reducible apply lastByte_kept | with_reducible apply putCtx_kept | with_reducible apply kept_ite | split)

theorem putStream_kept (s : State) (t : Transfer) (pos : Nat) (l : List Byte) (hs : Kept qs os s) :
    Kept qs os (putStream s t pos l).s := by
  unfold putStream
  repeat' (first | with_reducible assumption | with_reducible apply destWrite_kept | split)

theorem putXform_kept (s : State) (m k : Nat) (t : Transfer) (x : Xform) (hs : Kept qs os s) :
    OptKept qs os (putXform s m k t x) := by
  unfold putXform
  have hw := putStream_kept s t x.out ((xfPending x).take 4096) hs
  exact optKept_ite (optKept_ite optKept_none (optKept_some (putCtx_kept _ _ _ _ hw))) (optKept_some (afterPut_kept _ _ _ _ _ hw))

theorem writeTurn_kept (s : State) (m k : Nat) (t : Transfer) (hs : Kept qs os s) :
    OptKept qs os (writeTurn s m k t) := by
  unfold writeTurn
  repeat' (first | with_reducible assumption | ((fail_if_success (fail_if_success extract_lets)); extract_lets +onlyGivenNames kx; (fail_if_success (have : True := kx)); (first | (refine kept_cut qs os kx ?_ fun _ => ?_; unfold kx; rotate_left; clear_value kx; rotate_right) | (refine kept_cut qs os kx.1 ?_ fun _ => ?_; unfold kx; rotate_left; clear_value kx; rotate_right) | (first | have := (kx : State → _) | have := (kx : Twin) | have := (kx : Mem) | have := (kx : Hu) | have := (kx : Sec); clear this) | clear_value kx); all_goals have kx := True.intro) | with_reducible apply optKept_some | with_reducible apply optKept_none | with_reducible apply optKept_ite | with_reducible apply transferCheck_kept | with_reducible apply lastByte_kept | with_reducible apply putCtx_kept | with_reducible apply putXform_kept | with_reducible apply destWrite_kept | with_reducible apply afterPut_kept | with_reducible apply putStream_kept | with_reducible apply kept_ite | with_reducible refine kept_of_some (by assumption) ?_ | split | refine kept_upd ?_ rfl rfl rfl rfl rfl rfl rfl rfl rfl rfl rfl rfl)

theorem writeRotate_kept (s : State) (m : Nat) (y0 : List Nat) (hs : Kept qs os s) :
    Kept qs os (writeRotate s m y0) := by
  induction y0 generalizing s m hs with
  | nil =>
    rw [writeRotate]
    repeat' (with_reducible assumption)
  | cons x l ih =>
    rw [writeRotate]
    repeat' (first | with_reducible assumption | with_reducible apply ih | with_reducible apply writeTurn_kept | with_reducible apply modMv_kept | with_reducible refine kept_of_some (by assumption) ?_ | split)

theorem afterOpEnd_kept (s : State) (o : DevOp) (hs : Kept qs os s) :
    Kept qs os (afterOpEnd s o) := by
  unfold afterOpEnd
  repeat' (first | with_reducible assumption | (first | (intro _ hk; have := hk.queue) | (intro _ _ hk; have := hk.queue) | (intro _ _ _ hk; have := hk.queue); clear this) | intro _ | ((fail_if_success (fail_if_success extract_lets)); extract_lets +onlyGivenNames kx; (fail_if_success (have : True := kx)); (first | (refine kept_cut qs os kx ?_ fun _ => ?_; unfold kx; rotate_left; clear_value kx; rotate_right) | (refine kept_cut qs os kx.1 ?_ fun _ => ?_; unfold kx; rotate_left; clear_value kx; rotate_right) | (first | have := (kx : State → _) | have := (kx : Twin) | have := (kx : Mem) | have := (kx : Hu) | have := (kx : Sec); clear this) | clear_value kx); all_goals have kx := True.intro) | with_reducible apply opEnds_kept | with_reducible apply readDone_kept | with_reducible apply lastByte_kept | with_reducible apply effectOpEnd_kept | with_reducible apply dropOp_kept | with_reducible apply kept_ite | split | with_reducible apply kept_getD)

theorem finishOp_kept (s : State) (o : DevOp) (dev det : Byte) (resid : Nat) (hs : Kept qs os s) :
    Kept qs os (finishOp s o dev det resid) := by
  unfold finishOp
  repeat' (first | with_reducible assumption | ((fail_if_success (fail_if_success extract_lets)); extract_lets +onlyGivenNames kx; (fail_if_success (have : True := kx)); (refine kept_cut qs os kx ?_ fun _ => ?_; unfold kx; rotate_left; clear_value kx; rotate_right); all_goals have kx := True.intro) | with_reducible apply endOp_kept | with_reducible apply afterOpEnd_kept | split)

theorem startXform_kept (s : State) (m k : Nat) (t : Transfer) (x : Xform) (hs : Kept qs os s) :
    Kept qs os (startXform s m k t x) := by
  unfold startXform
  repeat' (first | with_reducible assumption | ((fail_if_success (fail_if_success extract_lets)); extract_lets +onlyGivenNames kx; (fail_if_success (have : True := kx)); clear_value kx; all_goals have kx := True.intro) | with_reducible apply xfStart_kept | with_reducible apply putCtx_kept | with_reducible apply transferStops_kept | split)

theorem readTurn_kept (s : State) (m k : Nat) (t : Transfer) (hs : Kept qs os s) :
    OptKept qs os (readTurn s m k t) := by
  have hgo : OptKept qs os (readTurn.readGo s m k t) := by
    unfold readTurn.readGo
    repeat' (first | with_reducible assumption | with_reducible apply optKept_some | with_reducible apply optKept_none | with_reducible apply optKept_ite | with_reducible apply fetchTurn_kept | with_reducible apply putCtx_kept | with_reducible apply got_kept | with_reducible apply transferCheck_kept | with_reducible refine fetchKept_of_pass (by assumption) ?_ | with_reducible refine fetchKept_of_got (by assumption) ?_ | with_reducible refine fetchKept_of_limit (by assumption) ?_ | split)
  unfold readTurn
  repeat' (first | with_reducible assumption | with_reducible apply optKept_some | with_reducible apply optKept_none | with_reducible apply optKept_ite | with_reducible apply startXform_kept | split)

theorem readRotate_kept (s : State) (m : Nat) (y0 : List Nat) (hs : Kept qs os s) :
    Kept qs os (readRotate s m y0) := by
  induction y0 generalizing s m hs with
  | nil =>
    rw [readRotate]
    repeat' (with_reducible assumption)
  | cons x l ih =>
    rw [readRotate]
    repeat' (first | with_reducible assumption | with_reducible apply ih | with_reducible apply readTurn_kept | with_reducible apply modMv_kept | with_reducible refine kept_of_some (by assumption) ?_ | split)

theorem checkClause_kept (s : State) (n : Nat) (hs : Kept qs os s) :
    Kept qs os (checkClause s n) := by
  unfold checkClause
  repeat' (first | with_reducible assumption | with_reducible apply doom_kept | with_reducible apply modP_kept | with_reducible apply dropClause_kept | with_reducible apply cancelWork_kept | split)

theorem checkWork_kept (lost : List Nat) (s : State) (n : Nat) (hs : Kept qs os s) :
    Kept qs os (checkWork lost s n) := by
  unfold checkWork
  repeat' (first | with_reducible assumption | with_reducible apply checkClause_kept | with_reducible apply kept_ite | split)

theorem holdPronoun_kept (m : Nat) (lost : List Nat) (s : State) (n : Nat) (hs : Kept qs os s) :
    Kept qs os (holdPronoun m lost s n) := by
  unfold holdPronoun
  repeat' (first | with_reducible assumption | (first | (intro _ hk; have := hk.queue) | (intro _ _ hk; have := hk.queue) | (intro _ _ _ hk; have := hk.queue); clear this) | intro _ | ((fail_if_success (fail_if_success extract_lets)); extract_lets +onlyGivenNames kx; (fail_if_success (have : True := kx)); (first | (refine kept_cut qs os kx ?_ fun _ => ?_; unfold kx; rotate_left; clear_value kx; rotate_right) | (refine kept_cut qs os kx.1 ?_ fun _ => ?_; unfold kx; rotate_left; clear_value kx; rotate_right) | (first | have := (kx : State → _) | have := (kx : Twin) | have := (kx : Mem) | have := (kx : Hu) | have := (kx : Sec); clear this) | clear_value kx); all_goals have kx := True.intro) | with_reducible apply resetWaits_kept | with_reducible apply checkWork_kept | with_reducible apply leaveAll_kept | with_reducible apply saveFrame_kept | with_reducible apply setP_kept | with_reducible apply postDirect_kept | with_reducible apply haltAct_kept | with_reducible apply kept_ite | with_reducible apply kept_ite_fst | with_reducible refine kept_of_pair (by assumption) ?_ | split | refine kept_upd ?_ rfl rfl rfl rfl rfl rfl rfl rfl rfl rfl rfl rfl)

theorem cancelTicket_kept (s : State) (t : Transfer) (hs : Kept qs os s) :
    Kept qs os (cancelTicket s t) := by
  unfold cancelTicket
  repeat' (first | with_reducible assumption | (first | (intro _ hk; have := hk.queue) | (intro _ _ hk; have := hk.queue) | (intro _ _ _ hk; have := hk.queue); clear this) | intro _ | with_reducible apply modP_kept | with_reducible apply dropOpOf_kept | split | refine kept_upd ?_ rfl rfl rfl rfl rfl rfl rfl rfl rfl rfl rfl rfl)

theorem cancelMover_kept (s : State) (m : Nat) (hs : Kept qs os s) :
    Kept qs os (cancelMover s m).1 := by
  unfold cancelMover
  repeat' (first | with_reducible assumption | (first | (intro _ hk; have := hk.queue) | (intro _ _ hk; have := hk.queue) | (intro _ _ _ hk; have := hk.queue); clear this) | intro _ | ((fail_if_success (fail_if_success extract_lets)); extract_lets +onlyGivenNames kx; (fail_if_success (have : True := kx)); (first | (refine kept_cut qs os kx ?_ fun _ => ?_; unfold kx; rotate_left; clear_value kx; rotate_right) | (refine kept_cut qs os kx.1 ?_ fun _ => ?_; unfold kx; rotate_left; clear_value kx; rotate_right) | (first | have := (kx : State → _) | have := (kx : Twin) | have := (kx : Mem) | have := (kx : Hu) | have := (kx : Sec); clear this) | clear_value kx); all_goals have kx := True.intro) | with_reducible apply modMv_kept | with_reducible apply cancelTicket_kept | (with_reducible apply kept_foldl; intro _ _ _) | refine kept_upd ?_ rfl rfl rfl rfl rfl rfl rfl rfl rfl rfl rfl rfl)

theorem forgetHeld_kept (s : State) (m : Nat) (hs : Kept qs os s) :
    Kept qs os (forgetHeld s m) := by
  unfold forgetHeld
  repeat' (first | with_reducible assumption | (first | (intro _ hk; have := hk.queue) | (intro _ _ hk; have := hk.queue) | (intro _ _ _ hk; have := hk.queue); clear this) | intro _ | with_reducible apply modP_kept | (with_reducible apply kept_foldl; intro _ _ _) | refine kept_upd ?_ rfl rfl rfl rfl rfl rfl rfl rfl rfl rfl rfl rfl)

theorem moverCheck_kept (s : State) (m k : Nat) (err : FetchError) (multi : Bool) (hs : Kept qs os s) :
    Kept qs os (moverCheck s m k err multi) := by
  unfold moverCheck
  repeat' (first | with_reducible assumption | (first | (intro _ hk; have := hk.queue) | (intro _ _ hk; have := hk.queue) | (intro _ _ _ hk; have := hk.queue); clear this) | intro _ | ((fail_if_success (fail_if_success extract_lets)); extract_lets +onlyGivenNames kx; (fail_if_success (have : True := kx)); (first | (refine kept_cut qs os kx ?_ fun _ => ?_; unfold kx; rotate_left; clear_value kx; rotate_right) | (refine kept_cut qs os kx.1 ?_ fun _ => ?_; unfold kx; rotate_left; clear_value kx; rotate_right) | (first | have := (kx : State → _) | have := (kx : Twin) | have := (kx : Mem) | have := (kx : Hu) | have := (kx : Sec); clear this) | clear_value kx); all_goals have kx := True.intro) | with_reducible apply cancelMover_kept | with_reducible apply forgetHeld_kept | with_reducible apply modMv_kept | with_reducible apply pulse_kept | with_reducible apply rcPulse_kept | with_reducible apply holdPronoun_kept | (with_reducible apply kept_foldl; intro _ _ _) | with_reducible apply kept_ite | with_reducible apply kept_ite_fst | with_reducible refine kept_of_pair (by assumption) ?_ | split | refine kept_upd ?_ rfl rfl rfl rfl rfl rfl rfl rfl rfl rfl rfl rfl | with_reducible apply kept_getD)

theorem resumeOne_kept (s : State) (n : Nat) (hs : Kept qs os s) :
    Kept qs os (resumeOne s n) := by
  unfold resumeOne
  repeat' (first | with_reducible assumption | ((fail_if_success (fail_if_success extract_lets)); extract_lets +onlyGivenNames kx; (fail_if_success (have : True := kx)); clear_value kx; all_goals have kx := True.intro) | with_reducible apply toQueued_kept | with_reducible apply setP_kept | with_reducible apply kept_ite)

end Sys2Proof.Machine
end

