-- ==== Sys2Proof/Laws/KeptCheck.lean ====
section
/-!
SUPPORT. Every function of Machine/Check.lean keeps a sound state, the queue and what was sent.
-/

namespace Sys2Proof.Machine

variable {qs : List Instr} {os : List Out}

theorem notice_kept (s : State) (n : Nat) (c : Ccw) (hs : Kept qs os s) :
    Kept qs os (notice s n c).1 := by
  unfold notice
  repeat' (first | with_reducible assumption | with_reducible apply postDirect_kept)

theorem fetchStops_kept (s : State) (n : Nat) (a : Dword) (r : Checked) (hs : Kept qs os s) :
    Kept qs os (fetchStops s n a r) := by
  unfold fetchStops
  repeat' (first | with_reducible assumption | with_reducible apply programCheck_kept | with_reducible apply stopCondition_kept | split)

theorem fetchRest_kept (n : Nat) (x : Ctx) (y0 : Nat) (y1 : State) (y2 : Dword) (y3 : List Ccw) (hy1 : Kept qs os y1) :
    ChainKept qs os (fetchRest n x y0 y1 y2 y3) := by
  induction y0 generalizing n x y1 y2 y3 hy1 with
  | zero =>
    rw [fetchRest]
    repeat' (first | with_reducible assumption | ((fail_if_success (fail_if_success extract_lets)); extract_lets +onlyGivenNames kx; (fail_if_success (have : True := kx)); (first | (refine kept_cut qs os kx ?_ fun _ => ?_; unfold kx; rotate_left; clear_value kx; rotate_right) | (refine kept_cut qs os kx.1 ?_ fun _ => ?_; unfold kx; rotate_left; clear_value kx; rotate_right) | (first | have := (kx : State → _) | have := (kx : Twin) | have := (kx : Mem) | have := (kx : Hu) | have := (kx : Sec); clear this) | clear_value kx); all_goals have kx := True.intro) | with_reducible apply chainKept_ok | with_reducible apply chainKept_ended | with_reducible apply chainKept_wait | with_reducible apply chainKept_held | with_reducible apply chainKept_ite | with_reducible apply notice_kept | with_reducible apply fetchStops_kept | with_reducible apply kept_ite | with_reducible apply kept_ite_fst | with_reducible refine kept_of_pair (by assumption) ?_ | split | refine kept_upd ?_ rfl rfl rfl rfl rfl rfl rfl rfl rfl rfl rfl rfl)
  | succ n ih =>
    rw [fetchRest]
    repeat' (first | with_reducible assumption | with_reducible apply ih | ((fail_if_success (fail_if_success extract_lets)); extract_lets +onlyGivenNames kx; (fail_if_success (have : True := kx)); (first | (refine kept_cut qs os kx ?_ fun _ => ?_; unfold kx; rotate_left; clear_value kx; rotate_right) | (refine kept_cut qs os kx.1 ?_ fun _ => ?_; unfold kx; rotate_left; clear_value kx; rotate_right) | (first | have := (kx : State → _) | have := (kx : Twin) | have := (kx : Mem) | have := (kx : Hu) | have := (kx : Sec); clear this) | clear_value kx); all_goals have kx := True.intro) | with_reducible apply chainKept_ok | with_reducible apply chainKept_ended | with_reducible apply chainKept_wait | with_reducible apply chainKept_held | with_reducible apply chainKept_ite | with_reducible apply notice_kept | with_reducible apply fetchStops_kept | with_reducible apply kept_ite | with_reducible apply kept_ite_fst | with_reducible refine kept_of_pair (by assumption) ?_ | split | refine kept_upd ?_ rfl rfl rfl rfl rfl rfl rfl rfl rfl rfl rfl rfl)

theorem holdItems_kept (s : State) (n : Nat) (cur : Cur) (l : List Ccw) (ph : Phase) (hs : Kept qs os s) :
    Kept qs os (holdItems s n cur l ph) := by
  unfold holdItems
  repeat' (first | with_reducible assumption | (first | (intro _ hk; have := hk.queue) | (intro _ _ hk; have := hk.queue) | (intro _ _ _ hk; have := hk.queue); clear this) | intro _ | with_reducible apply modP_kept | refine kept_upd ?_ rfl rfl rfl rfl rfl rfl rfl rfl rfl rfl rfl rfl)

theorem chainRest_kept (s : State) (n : Nat) (x : Ctx) (cur : Cur) (a : Dword) (hs : Kept qs os s) :
    Kept qs os (chainRest s n x cur a) := by
  unfold chainRest
  repeat' (first | with_reducible assumption | (first | (intro _ hk; have := hk.queue) | (intro _ _ hk; have := hk.queue) | (intro _ _ _ hk; have := hk.queue); clear this) | intro _ | ((fail_if_success (fail_if_success extract_lets)); extract_lets +onlyGivenNames kx; (fail_if_success (have : True := kx)); (first | (refine kept_cut qs os kx ?_ fun _ => ?_; unfold kx; rotate_left; clear_value kx; rotate_right) | (refine kept_cut qs os kx.1 ?_ fun _ => ?_; unfold kx; rotate_left; clear_value kx; rotate_right) | (first | have := (kx : State → _) | have := (kx : Twin) | have := (kx : Mem) | have := (kx : Hu) | have := (kx : Sec); clear this) | clear_value kx); all_goals have kx := True.intro) | with_reducible apply fetchRest_kept | with_reducible apply holdItems_kept | with_reducible apply modP_kept | with_reducible apply notice_kept | with_reducible refine kept_of_pair (by assumption) ?_ | with_reducible refine chainKept_of_ok (by assumption) ?_ | with_reducible refine chainKept_of_ended (by assumption) ?_ | with_reducible refine chainKept_of_wait (by assumption) ?_ | with_reducible refine chainKept_of_held (by assumption) ?_ | split | refine kept_upd ?_ rfl rfl rfl rfl rfl rfl rfl rfl rfl rfl rfl rfl)

theorem fetchCcw_kept (s : State) (k n : Nat) (hs : Kept qs os s) :
    Kept qs os (fetchCcw s k n) := by
  unfold fetchCcw
  repeat' (first | with_reducible assumption | (first | (intro _ hk; have := hk.queue) | (intro _ _ hk; have := hk.queue) | (intro _ _ _ hk; have := hk.queue); clear this) | intro _ | ((fail_if_success (fail_if_success extract_lets)); extract_lets +onlyGivenNames kx; (fail_if_success (have : True := kx)); (first | (refine kept_cut qs os kx ?_ fun _ => ?_; unfold kx; rotate_left; clear_value kx; rotate_right) | (refine kept_cut qs os kx.1 ?_ fun _ => ?_; unfold kx; rotate_left; clear_value kx; rotate_right) | (first | have := (kx : State → _) | have := (kx : Twin) | have := (kx : Mem) | have := (kx : Hu) | have := (kx : Sec); clear this) | clear_value kx); all_goals have kx := True.intro) | with_reducible apply afterPost_kept | with_reducible apply notice_kept | with_reducible apply runFin_kept | with_reducible apply chainRest_kept | with_reducible apply holdItems_kept | with_reducible apply modP_kept | with_reducible apply fetchStops_kept | with_reducible apply kept_ite | with_reducible apply kept_ite_fst | with_reducible refine kept_of_pair (by assumption) ?_ | split | refine kept_upd ?_ rfl rfl rfl rfl rfl rfl rfl rfl rfl rfl rfl rfl | with_reducible apply kept_getD)

theorem fetchOp_kept (s : State) (k : Nat) (hs : Kept qs os s) :
    Kept qs os (fetchOp s k) := by
  unfold fetchOp
  repeat' (first | with_reducible assumption | ((fail_if_success (fail_if_success extract_lets)); extract_lets +onlyGivenNames kx; (fail_if_success (have : True := kx)); (first | (refine kept_cut qs os kx ?_ fun _ => ?_; unfold kx; rotate_left; clear_value kx; rotate_right) | (refine kept_cut qs os kx.1 ?_ fun _ => ?_; unfold kx; rotate_left; clear_value kx; rotate_right) | (first | have := (kx : State → _) | have := (kx : Twin) | have := (kx : Mem) | have := (kx : Hu) | have := (kx : Sec); clear this) | clear_value kx); all_goals have kx := True.intro) | with_reducible apply boundary_kept | with_reducible apply endCcw_kept | with_reducible apply chainRest_kept | with_reducible apply fetchCcw_kept | with_reducible apply kept_ite | split | refine kept_upd ?_ rfl rfl rfl rfl rfl rfl rfl rfl rfl rfl rfl rfl)

end Sys2Proof.Machine
end

