-- ==== Sys2Proof/Laws/KeptMoverRows.lean ====
section
/-!
SUPPORT. Every function of Machine/MoverRows.lean keeps a sound state, the queue and what was sent.
-/

namespace Sys2Proof.Machine

variable {qs : List Instr} {os : List Out}

theorem execMoverReadTurn_kept (m : BitVec 3) (s : State) (hs : Kept qs os s) :
    ResKept qs os (execMoverReadTurn m s) := by
  unfold execMoverReadTurn
  repeat' (first | with_reducible assumption | with_reducible apply resKept_next | with_reducible apply readRotate_kept | with_reducible apply kept_ite)

theorem execMoverWriteTurn_kept (m : BitVec 3) (s : State) (hs : Kept qs os s) :
    ResKept qs os (execMoverWriteTurn m s) := by
  unfold execMoverWriteTurn
  repeat' (first | with_reducible assumption | with_reducible apply resKept_next | with_reducible apply writeRotate_kept | with_reducible apply kept_ite)

theorem arrivalOf_kept (s : State) (id : Nat) (detail : Byte) (hs : Kept qs os s) :
    Kept qs os (arrivalOf s id detail) := by
  unfold arrivalOf
  repeat' (first | with_reducible assumption | with_reducible apply transferEnd_kept | with_reducible apply transferStops_kept | with_reducible apply kept_ite | split)

theorem releaseArrival_kept (s : State) (detail : Byte) (hs : Kept qs os s) :
    Kept qs os (releaseArrival s detail) := by
  unfold releaseArrival
  repeat' (first | with_reducible assumption | with_reducible apply effectDone_kept | with_reducible apply effectFailed_kept | with_reducible apply kept_ite | split)

theorem execBarrierReadbackDone_kept (w : Arrival) (detail : Byte) (s : State) (hs : Kept qs os s) :
    ResKept qs os (execBarrierReadbackDone w detail s) := by
  unfold execBarrierReadbackDone
  repeat' (first | with_reducible assumption | with_reducible apply resKept_next | split | with_reducible apply arrivalOf_kept | with_reducible apply releaseArrival_kept)

theorem execMoverFetchError_kept (m : BitVec 3) (ctx : BitVec 6) (err : FetchError) (multi : Bool) (s : State) (hs : Kept qs os s) :
    ResKept qs os (execMoverFetchError m ctx err multi s) := by
  unfold execMoverFetchError
  repeat' (first | with_reducible assumption | with_reducible apply resKept_next | with_reducible apply moverCheck_kept | with_reducible apply kept_ite)

theorem execMvReinit_kept (m : BitVec 3) (s : State) (hs : Kept qs os s) :
    ResKept qs os (execMvReinit m s) := by
  unfold execMvReinit
  repeat' (first | with_reducible assumption | with_reducible apply resKept_next | with_reducible apply setMv_kept | with_reducible apply reject_kept | with_reducible apply kept_ite)

theorem execMoverReinitDone_kept (m : BitVec 3) (s : State) (hs : Kept qs os s) :
    ResKept qs os (execMoverReinitDone m s) := by
  unfold execMoverReinitDone
  repeat' (first | with_reducible assumption | with_reducible apply resKept_next | with_reducible apply setMv_kept | with_reducible apply kept_ite)

theorem execResumeHeld_kept (m : BitVec 3) (s : State) (hs : Kept qs os s) :
    ResKept qs os (execResumeHeld m s) := by
  unfold execResumeHeld
  repeat' (first | with_reducible assumption | with_reducible apply resKept_next | with_reducible apply reject_kept | with_reducible apply modMv_kept | with_reducible apply resumeOne_kept | (with_reducible apply kept_foldl; intro _ _ _) | with_reducible apply kept_ite)

theorem execMvClose_kept (m : BitVec 3) (s : State) (hs : Kept qs os s) :
    ResKept qs os (execMvClose m s) := by
  unfold execMvClose
  repeat' (first | with_reducible assumption | with_reducible apply resKept_next | with_reducible apply reject_kept | with_reducible apply setMv_kept | with_reducible apply kept_ite)

theorem execMvHoldClear_kept (v : Word) (s : State) (hs : Kept qs os s) :
    ResKept qs os (execMvHoldClear v s) := by
  unfold execMvHoldClear
  repeat' (first | with_reducible assumption | with_reducible apply resKept_next | with_reducible apply reject_kept | with_reducible apply resumeOne_kept | with_reducible apply kept_ite)

theorem setArb_kept (s : State) (a : Nat) (x : Arb) (hs : Kept qs os s) :
    Kept qs os (setArb s a x) := by
  unfold setArb
  repeat' (first | with_reducible assumption | refine kept_upd ?_ rfl rfl rfl rfl rfl rfl rfl rfl rfl rfl rfl rfl)

theorem execArbCutoff_kept (a input : BitVec 5) (s : State) (hs : Kept qs os s) :
    ResKept qs os (execArbCutoff a input s) := by
  unfold execArbCutoff
  repeat' (first | with_reducible assumption | with_reducible apply resKept_next | ((fail_if_success (fail_if_success extract_lets)); extract_lets +onlyGivenNames kx; (fail_if_success (have : True := kx)); clear_value kx; all_goals have kx := True.intro) | with_reducible apply rcPulse_kept | with_reducible apply setArb_kept | with_reducible apply kept_ite | split)

theorem execArbStarve_kept (a input : BitVec 5) (s : State) (hs : Kept qs os s) :
    ResKept qs os (execArbStarve a input s) := by
  unfold execArbStarve
  repeat' (first | with_reducible assumption | with_reducible apply resKept_next | with_reducible apply resKept_ite | with_reducible apply pulse_kept | with_reducible apply setArb_kept)

theorem execArbSwap_kept (a : BitVec 5) (v : Word) (s : State) (hs : Kept qs os s) :
    ResKept qs os (execArbSwap a v s) := by
  unfold execArbSwap
  repeat' (first | with_reducible assumption | with_reducible apply resKept_next | with_reducible apply resKept_ite | with_reducible apply reject_kept | with_reducible apply setArb_kept)

end Sys2Proof.Machine
end

