-- ==== Sys2Proof/Laws/KeptChannel.lean ====
section
/-!
SUPPORT. Every function of Machine/Channel.lean keeps a sound state, the queue and what was sent.
-/

namespace Sys2Proof.Machine

variable {qs : List Instr} {os : List Out}

theorem takeFrame_kept (s : State) (n : Nat) (hs : Kept qs os s) :
    Kept qs os (takeFrame s n).1 := by
  unfold takeFrame
  repeat' (first | with_reducible assumption | with_reducible apply relieve_kept | with_reducible apply setRx_kept | split)

theorem ethRead_kept (s : State) (o : DevOp) (n : Nat) (hs : Kept qs os s) :
    Kept qs os (ethRead s o n) := by
  unfold ethRead
  repeat' (first | with_reducible assumption | ((fail_if_success (fail_if_success extract_lets)); extract_lets +onlyGivenNames kx; (fail_if_success (have : True := kx)); (first | (refine kept_cut qs os kx ?_ fun _ => ?_; unfold kx; rotate_left; clear_value kx; rotate_right) | (refine kept_cut qs os kx.1 ?_ fun _ => ?_; unfold kx; rotate_left; clear_value kx; rotate_right) | (first | have := (kx : State → _) | have := (kx : Twin) | have := (kx : Mem) | have := (kx : Hu) | have := (kx : Sec); clear this) | clear_value kx); all_goals have kx := True.intro) | with_reducible apply takeFrame_kept | with_reducible apply addOp_kept | with_reducible apply stage_kept | with_reducible apply issueOp_kept | with_reducible apply kept_ite | with_reducible apply kept_ite_fst | with_reducible refine kept_of_pair (by assumption) ?_ | with_reducible refine kept_of_pair (by assumption) ?_ | with_reducible refine stagedKept_of_ok (by assumption) ?_ | with_reducible refine stagedKept_of_lost (by assumption) ?_ | split | refine kept_upd ?_ rfl rfl rfl rfl rfl rfl rfl rfl rfl rfl rfl rfl)

theorem issueRead_kept (s : State) (n : Nat) (b : BitVec 128) (verb : Byte) (sub total : Nat) (flow : Word) (lba : List Byte) (hs : Kept qs os s) :
    Kept qs os (issueRead s n b verb sub total flow lba) := by
  unfold issueRead
  repeat' (first | with_reducible assumption | ((fail_if_success (fail_if_success extract_lets)); extract_lets +onlyGivenNames kx; (fail_if_success (have : True := kx)); (first | (refine kept_cut qs os kx ?_ fun _ => ?_; unfold kx; rotate_left; clear_value kx; rotate_right) | (refine kept_cut qs os kx.1 ?_ fun _ => ?_; unfold kx; rotate_left; clear_value kx; rotate_right) | (first | have := (kx : State → _) | have := (kx : Twin) | have := (kx : Mem) | have := (kx : Hu) | have := (kx : Sec); clear this) | clear_value kx); all_goals have kx := True.intro) | with_reducible apply ethRead_kept | with_reducible apply issueOp_kept | with_reducible apply kept_ite | with_reducible apply kept_ite_fst | with_reducible refine kept_of_pair (by assumption) ?_ | split | with_reducible apply kept_getD)

theorem lbaRead_kept (t : Transfer) (y0 : State) (y1 : List Ccw) (y2 : Nat) (y3 : List Byte) (hy0 : Kept qs os y0) :
    GotKept qs os (lbaRead t y0 y1 y2 y3) := by
  induction y1 generalizing t y0 y2 y3 hy0 with
  | nil =>
    rw [lbaRead]
    repeat' (first | with_reducible assumption | with_reducible apply gotKept_ok)
  | cons x l ih =>
    rw [lbaRead]
    repeat' (first | with_reducible assumption | with_reducible apply ih | ((fail_if_success (fail_if_success extract_lets)); extract_lets +onlyGivenNames kx; (fail_if_success (have : True := kx)); clear_value kx; all_goals have kx := True.intro) | with_reducible apply gotKept_ok | with_reducible apply gotKept_wait | with_reducible apply gotKept_ite | with_reducible apply dataRead_kept | with_reducible refine gotKept_of_ok (by assumption) ?_ | split)

theorem lbaFails_kept (s : State) (n : Nat) (c : Ccw) (hs : Kept qs os s) :
    Kept qs os (lbaFails s n c) := by
  unfold lbaFails
  repeat' (first | with_reducible assumption | with_reducible apply stopCondition_kept | with_reducible apply kept_ite)

theorem accept_kept (s : State) (k n : Nat) (t : Transfer) (after : State → State) (hs : Kept qs os s) (hafter : ∀ (x0 : State), Kept qs os x0 → Kept qs os (after x0)) :
    Kept qs os (accept s k n t after) := by
  unfold accept
  repeat' (first | with_reducible assumption | with_reducible apply setPhase_kept | with_reducible apply acceptOn_kept | with_reducible apply modP_kept | apply hafter | with_reducible refine kept_of_some (by assumption) ?_ | split)

theorem startData_kept (s : State) (k n : Nat) (hs : Kept qs os s) :
    Kept qs os (startData s k n) := by
  unfold startData
  repeat' (first | with_reducible assumption | (first | (intro _ hk; have := hk.queue) | (intro _ _ hk; have := hk.queue) | (intro _ _ _ hk; have := hk.queue); clear this) | ((fail_if_success (fail_if_success extract_lets)); extract_lets +onlyGivenNames kx; (fail_if_success (have : True := kx)); clear_value kx; all_goals have kx := True.intro) | with_reducible apply handOp_kept | with_reducible apply lbaRead_kept | with_reducible apply accept_kept | with_reducible apply issueRead_kept | with_reducible apply programCheck_kept | with_reducible apply lbaFails_kept | with_reducible apply kept_ite | with_reducible refine gotKept_of_ok (by assumption) ?_ | with_reducible refine gotKept_of_wait (by assumption) ?_ | split | refine kept_upd ?_ rfl rfl rfl rfl rfl rfl rfl rfl rfl rfl rfl rfl)

theorem openClb_kept (s : State) (n : Nat) (c : Ccw) (hs : Kept qs os s) :
    OptKept qs os (openClb s n c) := by
  unfold openClb
  refine optKept_ite optKept_none (optKept_some (modP_kept _ _ _ ?_))
  exact kept_upd hs rfl rfl rfl rfl rfl rfl rfl rfl rfl rfl rfl rfl

theorem runVerb_kept (s : State) (k : Nat) (v : Byte) (f : State → Nat → Ccw → State) (hs : Kept qs os s) (hf : ∀ (x0 : State) (x1 : Nat) (x2 : Ccw), Kept qs os x0 → Kept qs os (f x0 x1 x2)) :
    Kept qs os (runVerb s k v f) := by
  unfold runVerb
  split
  · exact hs
  · extract_lets p c
    refine kept_ite hs (kept_ite (boundary_kept _ _ _ hs) (kept_ite (kept_ite (reportAbort_kept _ _ _ _ (countAbort_kept _ _ hs)) ?_) (hf _ _ _ (modP_kept _ _ _ hs))))
    split
    · exact hf _ _ _ (kept_of_some (by assumption) (openClb_kept _ _ _ hs))
    · exact setPhase_kept _ _ _ (kept_upd hs rfl rfl rfl rfl rfl rfl rfl rfl rfl rfl rfl rfl)

theorem loopOp_kept (s : State) (n : Nat) (c : Ccw) (hs : Kept qs os s) : Kept qs os (loopOp s n c) := by
  unfold loopOp
  dsimp only
  split
  · exact endCcw_kept _ _ _ (modP_kept _ _ _ hs)
  · exact kept_ite (programCheck_kept _ _ _ _ _ _ hs) (endCcw_kept _ _ _ (modP_kept _ _ _ hs))

theorem waitOp_kept (s : State) (n : Nat) (c : Ccw) (hs : Kept qs os s) :
    Kept qs os (waitOp s n c) := by
  unfold waitOp
  repeat' (first | with_reducible assumption | (first | (intro _ hk; have := hk.queue) | (intro _ _ hk; have := hk.queue) | (intro _ _ _ hk; have := hk.queue); clear this) | intro _ | ((fail_if_success (fail_if_success extract_lets)); extract_lets +onlyGivenNames kx; (fail_if_success (have : True := kx)); (first | (refine kept_cut qs os kx ?_ fun _ => ?_; unfold kx; rotate_left; clear_value kx; rotate_right) | (refine kept_cut qs os kx.1 ?_ fun _ => ?_; unfold kx; rotate_left; clear_value kx; rotate_right) | (first | have := (kx : State → _) | have := (kx : Twin) | have := (kx : Mem) | have := (kx : Hu) | have := (kx : Sec); clear this) | clear_value kx); all_goals have kx := True.intro) | with_reducible apply endCcw_kept | with_reducible apply setP_kept | with_reducible apply haltAct_kept | with_reducible apply modP_kept | with_reducible apply leaveSlot_kept | with_reducible apply kept_ite | split | refine kept_upd ?_ rfl rfl rfl rfl rfl rfl rfl rfl rfl rfl rfl rfl)

theorem signalOp_kept (s : State) (k n : Nat) (c : Ccw) (hs : Kept qs os s) :
    Kept qs os (signalOp s k n c) := by
  unfold signalOp
  repeat' (first | with_reducible assumption | with_reducible apply endCcw_kept | with_reducible apply applySignal_kept | with_reducible apply stage_kept | with_reducible apply programCheck_kept | with_reducible refine stagedKept_of_ok (by assumption) ?_ | with_reducible refine stagedKept_of_lost (by assumption) ?_ | split)

theorem scriptOp_kept (s : State) (n : Nat) (c : Ccw) (hs : Kept qs os s) :
    Kept qs os (scriptOp s n c) := by
  unfold scriptOp
  repeat' (first | with_reducible assumption | with_reducible apply modP_kept)

theorem abandonOp_kept (s : State) (n : Nat) (c : Ccw) (hs : Kept qs os s) :
    Kept qs os (abandonOp s n c) := by
  unfold abandonOp
  repeat' (first | with_reducible assumption | ((fail_if_success (fail_if_success extract_lets)); extract_lets +onlyGivenNames kx; (fail_if_success (have : True := kx)); (first | (refine kept_cut qs os kx ?_ fun _ => ?_; unfold kx; rotate_left; clear_value kx; rotate_right) | clear_value kx); all_goals have kx := True.intro) | with_reducible apply abortClause_kept | with_reducible apply modP_kept | with_reducible apply postThen_kept | with_reducible apply runFin_kept | with_reducible refine kept_of_pair (by assumption) ?_ | split)

theorem execCcwFetch_kept (slot : BitVec 9) (s : State) (hs : Kept qs os s) :
    ResKept qs os (execCcwFetch slot s) := by
  unfold execCcwFetch
  repeat' (first | with_reducible assumption | with_reducible apply resKept_next | with_reducible apply fetchOp_kept)

theorem execVerbWrite_kept (slot : BitVec 9) (s : State) (hs : Kept qs os s) :
    ResKept qs os (execVerbWrite slot s) := by
  unfold execVerbWrite
  repeat' (first | with_reducible assumption | (first | (intro _ hk; have := hk.queue) | (intro _ _ hk; have := hk.queue) | (intro _ _ _ hk; have := hk.queue); clear this) | with_reducible apply resKept_next | with_reducible apply runVerb_kept | with_reducible apply startData_kept)

theorem execVerbRead_kept (slot : BitVec 9) (s : State) (hs : Kept qs os s) :
    ResKept qs os (execVerbRead slot s) := by
  unfold execVerbRead
  repeat' (first | with_reducible assumption | (first | (intro _ hk; have := hk.queue) | (intro _ _ hk; have := hk.queue) | (intro _ _ _ hk; have := hk.queue); clear this) | with_reducible apply resKept_next | with_reducible apply runVerb_kept | with_reducible apply startData_kept)

theorem execVerbSense_kept (slot : BitVec 9) (s : State) (hs : Kept qs os s) :
    ResKept qs os (execVerbSense slot s) := by
  unfold execVerbSense
  repeat' (first | with_reducible assumption | (first | (intro _ hk; have := hk.queue) | (intro _ _ hk; have := hk.queue) | (intro _ _ _ hk; have := hk.queue); clear this) | with_reducible apply resKept_next | with_reducible apply runVerb_kept | with_reducible apply startData_kept)

theorem execVerbMove_kept (slot : BitVec 9) (s : State) (hs : Kept qs os s) :
    ResKept qs os (execVerbMove slot s) := by
  unfold execVerbMove
  repeat' (first | with_reducible assumption | (first | (intro _ hk; have := hk.queue) | (intro _ _ hk; have := hk.queue) | (intro _ _ _ hk; have := hk.queue); clear this) | with_reducible apply resKept_next | with_reducible apply runVerb_kept | with_reducible apply startData_kept)

theorem execVerbFill_kept (slot : BitVec 9) (s : State) (hs : Kept qs os s) :
    ResKept qs os (execVerbFill slot s) := by
  unfold execVerbFill
  repeat' (first | with_reducible assumption | (first | (intro _ hk; have := hk.queue) | (intro _ _ hk; have := hk.queue) | (intro _ _ _ hk; have := hk.queue); clear this) | with_reducible apply resKept_next | with_reducible apply runVerb_kept | with_reducible apply startData_kept)

theorem execVerbCompare_kept (slot : BitVec 9) (s : State) (hs : Kept qs os s) :
    ResKept qs os (execVerbCompare slot s) := by
  unfold execVerbCompare
  repeat' (first | with_reducible assumption | (first | (intro _ hk; have := hk.queue) | (intro _ _ hk; have := hk.queue) | (intro _ _ _ hk; have := hk.queue); clear this) | with_reducible apply resKept_next | with_reducible apply runVerb_kept | with_reducible apply startData_kept)

theorem execVerbControl_kept (slot : BitVec 9) (s : State) (hs : Kept qs os s) :
    ResKept qs os (execVerbControl slot s) := by
  unfold execVerbControl
  repeat' (first | with_reducible assumption | (first | (intro _ hk; have := hk.queue) | (intro _ _ hk; have := hk.queue) | (intro _ _ _ hk; have := hk.queue); clear this) | with_reducible apply resKept_next | with_reducible apply runVerb_kept | with_reducible apply startData_kept)

theorem execVerbJump_kept (slot : BitVec 9) (s : State) (hs : Kept qs os s) :
    ResKept qs os (execVerbJump slot s) := by
  unfold execVerbJump
  repeat' (first | with_reducible assumption | (first | (intro _ hk; have := hk.queue) | (intro _ _ hk; have := hk.queue) | (intro _ _ _ hk; have := hk.queue); clear this) | with_reducible apply resKept_next | with_reducible apply runVerb_kept | with_reducible apply endCcw_kept)

theorem execVerbLoop_kept (slot : BitVec 9) (s : State) (hs : Kept qs os s) :
    ResKept qs os (execVerbLoop slot s) := by
  unfold execVerbLoop
  repeat' (first | with_reducible assumption | (first | (intro _ hk; have := hk.queue) | (intro _ _ hk; have := hk.queue) | (intro _ _ _ hk; have := hk.queue); clear this) | with_reducible apply resKept_next | with_reducible apply runVerb_kept | with_reducible apply loopOp_kept)

theorem execVerbNop_kept (slot : BitVec 9) (s : State) (hs : Kept qs os s) :
    ResKept qs os (execVerbNop slot s) := by
  unfold execVerbNop
  repeat' (first | with_reducible assumption | (first | (intro _ hk; have := hk.queue) | (intro _ _ hk; have := hk.queue) | (intro _ _ _ hk; have := hk.queue); clear this) | with_reducible apply resKept_next | with_reducible apply runVerb_kept | with_reducible apply endCcw_kept)

theorem execVerbWait_kept (slot : BitVec 9) (s : State) (hs : Kept qs os s) :
    ResKept qs os (execVerbWait slot s) := by
  unfold execVerbWait
  repeat' (first | with_reducible assumption | (first | (intro _ hk; have := hk.queue) | (intro _ _ hk; have := hk.queue) | (intro _ _ _ hk; have := hk.queue); clear this) | with_reducible apply resKept_next | with_reducible apply runVerb_kept | with_reducible apply waitOp_kept)

theorem execVerbSignal_kept (slot : BitVec 9) (s : State) (hs : Kept qs os s) :
    ResKept qs os (execVerbSignal slot s) := by
  unfold execVerbSignal
  repeat' (first | with_reducible assumption | (first | (intro _ hk; have := hk.queue) | (intro _ _ hk; have := hk.queue) | (intro _ _ _ hk; have := hk.queue); clear this) | with_reducible apply resKept_next | with_reducible apply runVerb_kept | with_reducible apply signalOp_kept)

theorem execVerbScript_kept (slot : BitVec 9) (s : State) (hs : Kept qs os s) :
    ResKept qs os (execVerbScript slot s) := by
  unfold execVerbScript
  repeat' (first | with_reducible assumption | (first | (intro _ hk; have := hk.queue) | (intro _ _ hk; have := hk.queue) | (intro _ _ _ hk; have := hk.queue); clear this) | with_reducible apply resKept_next | with_reducible apply runVerb_kept | with_reducible apply scriptOp_kept)

theorem execVerbAbandon_kept (slot : BitVec 9) (s : State) (hs : Kept qs os s) :
    ResKept qs os (execVerbAbandon slot s) := by
  unfold execVerbAbandon
  repeat' (first | with_reducible assumption | (first | (intro _ hk; have := hk.queue) | (intro _ _ hk; have := hk.queue) | (intro _ _ _ hk; have := hk.queue); clear this) | with_reducible apply resKept_next | with_reducible apply runVerb_kept | with_reducible apply abandonOp_kept)

theorem execVerbPost_kept (slot : BitVec 9) (s : State) (hs : Kept qs os s) :
    ResKept qs os (execVerbPost slot s) := by
  unfold execVerbPost
  repeat' (first | with_reducible assumption | (first | (intro _ hk; have := hk.queue) | (intro _ _ hk; have := hk.queue) | (intro _ _ _ hk; have := hk.queue); clear this) | with_reducible apply resKept_next | with_reducible apply runVerb_kept | with_reducible apply endCcw_kept)

theorem execVerbHalt_kept (slot : BitVec 9) (s : State) (hs : Kept qs os s) :
    ResKept qs os (execVerbHalt slot s) := by
  unfold execVerbHalt
  repeat' (first | with_reducible assumption | (first | (intro _ hk; have := hk.queue) | (intro _ _ hk; have := hk.queue) | (intro _ _ _ hk; have := hk.queue); clear this) | with_reducible apply resKept_next | with_reducible apply runVerb_kept | with_reducible apply endCcw_kept)

theorem execConflictRerun_kept (prn : PrnNum) (s : State) (hs : Kept qs os s) :
    ResKept qs os (execConflictRerun prn s) := by
  unfold execConflictRerun
  repeat' (first | with_reducible assumption | ((fail_if_success (fail_if_success extract_lets)); extract_lets +onlyGivenNames kx; (fail_if_success (have : True := kx)); clear_value kx; all_goals have kx := True.intro) | with_reducible apply resKept_next | with_reducible apply modP_kept | with_reducible apply kept_ite)

theorem execClbRecordWaitEnd_kept (s : State) (hs : Kept qs os s) :
    ResKept qs os (execClbRecordWaitEnd s) := by
  unfold execClbRecordWaitEnd
  repeat' (first | with_reducible assumption | ((fail_if_success (fail_if_success extract_lets)); extract_lets +onlyGivenNames kx; (fail_if_success (have : True := kx)); (first | (refine kept_cut qs os kx ?_ fun _ => ?_; unfold kx; rotate_left; clear_value kx; rotate_right) | clear_value kx); all_goals have kx := True.intro) | with_reducible apply resKept_next | with_reducible apply resKept_ite | with_reducible apply reportAbort_kept | with_reducible apply countAbort_kept | with_reducible apply openClb_kept | with_reducible apply setPhase_kept | with_reducible refine kept_of_some (by assumption) ?_ | split | refine kept_upd ?_ rfl rfl rfl rfl rfl rfl rfl rfl rfl rfl rfl rfl)

theorem execFullStopAdmit_kept (s : State) (hs : Kept qs os s) :
    ResKept qs os (execFullStopAdmit s) := by
  unfold execFullStopAdmit
  repeat' (first | with_reducible assumption | with_reducible apply resKept_next | with_reducible apply admitOne_kept)

theorem execFsReservationWrite_kept (s : State) (hs : Kept qs os s) :
    ResKept qs os (execFsReservationWrite s) := by
  unfold execFsReservationWrite
  repeat' (first | with_reducible assumption | with_reducible apply resKept_next | with_reducible apply reserve_kept)

theorem execReleaseIssue_kept (s : State) (hs : Kept qs os s) :
    ResKept qs os (execReleaseIssue s) := by
  unfold execReleaseIssue
  repeat' (first | with_reducible assumption | with_reducible apply resKept_next | with_reducible apply releaseNext_kept)

theorem countIgnored_kept (s : State) (hs : Kept qs os s) :
    Kept qs os (countIgnored s) := by
  unfold countIgnored
  repeat' (first | with_reducible assumption | with_reducible apply rcPulse_kept | refine kept_upd ?_ rfl rfl rfl rfl rfl rfl rfl rfl rfl rfl rfl rfl)

theorem dbBad_kept (s : State) (hs : Kept qs os s) :
    Kept qs os (dbBad s) := by
  unfold dbBad
  repeat' (first | with_reducible assumption | with_reducible apply pulse_kept | with_reducible apply rcPulse_kept | refine kept_upd ?_ rfl rfl rfl rfl rfl rfl rfl rfl rfl rfl rfl rfl)

theorem doorbellWord_kept (fn : Master) (s : State) (w : Word) (hs : Kept qs os s) :
    Kept qs os (doorbellWord fn s w) := by
  unfold doorbellWord
  repeat' (first | with_reducible assumption | ((fail_if_success (fail_if_success extract_lets)); extract_lets +onlyGivenNames kx; (fail_if_success (have : True := kx)); (first | (refine kept_cut qs os kx.1 ?_ fun _ => ?_; unfold kx; rotate_left; clear_value kx; rotate_right) | clear_value kx); all_goals have kx := True.intro) | with_reducible apply dbBad_kept | with_reducible apply countIgnored_kept | with_reducible apply startOp_kept | with_reducible apply resumeOp_kept | with_reducible apply haltOp_kept | with_reducible apply kept_ite | with_reducible refine kept_of_pair (by assumption) ?_ | split)

theorem execPlacement_kept (s : State) (hs : Kept qs os s) :
    ResKept qs os (execPlacement s) := by
  unfold execPlacement
  repeat' (first | with_reducible assumption | with_reducible apply resKept_next | with_reducible apply place_kept)

theorem execRecordLoadDone_kept (slot : BitVec 9) (s : State) (hs : Kept qs os s) :
    ResKept qs os (execRecordLoadDone slot s) := by
  unfold execRecordLoadDone
  repeat' (first | with_reducible assumption | ((fail_if_success (fail_if_success extract_lets)); extract_lets +onlyGivenNames kx; (fail_if_success (have : True := kx)); (refine kept_cut qs os kx ?_ fun _ => ?_; unfold kx; rotate_left; clear_value kx; rotate_right); all_goals have kx := True.intro) | with_reducible apply resKept_next | with_reducible apply loadDone_kept | with_reducible apply resumeEnding_kept | split)

theorem reachTick_kept (s : State) (t : Nat) (hs : Kept qs os s) :
    Kept qs os (reachTick s t) := by
  unfold reachTick
  repeat' (first | with_reducible assumption | with_reducible apply kept_ite | refine kept_upd ?_ rfl rfl rfl rfl rfl rfl rfl rfl rfl rfl rfl rfl)

end Sys2Proof.Machine
end

