-- ==== Sys2Proof/Laws/KeptLinks.lean ====
section
/-!
SUPPORT. Every function of Machine/Links.lean keeps a sound state, the queue and what was sent.
-/

namespace Sys2Proof.Machine

variable {qs : List Instr} {os : List Out}

theorem attend_kept (s : State) (n q port : Nat) (hs : Kept qs os s) :
    Kept qs os (attend s n q port) := by
  unfold attend
  repeat' (first | with_reducible assumption | ((fail_if_success (fail_if_success extract_lets)); extract_lets +onlyGivenNames kx; (fail_if_success (have : True := kx)); (first | (refine kept_cut qs os kx ?_ fun _ => ?_; unfold kx; rotate_left; clear_value kx; rotate_right) | (refine kept_cut qs os kx.1 ?_ fun _ => ?_; unfold kx; rotate_left; clear_value kx; rotate_right) | (first | have := (kx : State → _) | have := (kx : Twin) | have := (kx : Mem) | have := (kx : Hu) | have := (kx : Sec); clear this) | clear_value kx); all_goals have kx := True.intro) | with_reducible apply endWait_kept | with_reducible apply setP_kept | with_reducible apply startAt_kept | with_reducible apply kept_ite | split | refine kept_upd ?_ rfl rfl rfl rfl rfl rfl rfl rfl rfl rfl rfl rfl)

theorem frameArrives_kept (s : State) (n : Nat) (hs : Kept qs os s) :
    Kept qs os (frameArrives s n) := by
  unfold frameArrives
  repeat' (first | with_reducible assumption | ((fail_if_success (fail_if_success extract_lets)); extract_lets +onlyGivenNames kx; (fail_if_success (have : True := kx)); clear_value kx; all_goals have kx := True.intro) | with_reducible apply endWait_kept | with_reducible apply startAt_kept | with_reducible apply kept_ite | split)

theorem setLinkState_kept (s : State) (q p : Nat) (st : BitVec 3) (hs : Kept qs os s) :
    Kept qs os (setLinkState s q p st) := by
  unfold setLinkState
  repeat' (first | with_reducible assumption | ((fail_if_success (fail_if_success extract_lets)); extract_lets +onlyGivenNames kx; (fail_if_success (have : True := kx)); clear_value kx; all_goals have kx := True.intro) | with_reducible apply pulse_kept | with_reducible apply setPort_kept | with_reducible apply kept_ite)

theorem clearPair_kept (s : State) (k : NvPair) (hs : Kept qs os s) : Kept qs os (clearPair s k) :=
  writeDram_kept _ _ _ hs

theorem clearRing_kept (s : State) (r : Ring) (hs : Kept qs os s) : Kept qs os (clearRing s r) := by
  unfold clearRing
  repeat' (first | with_reducible assumption | with_reducible apply writeDram_kept | with_reducible apply kept_ite)

theorem adminStart_kept (s : State) (q p : Nat) (hs : Kept qs os s) :
    Kept qs os (adminStart s q p) := by
  unfold adminStart
  repeat' (first | with_reducible assumption | (first | (intro _ hk; have := hk.queue) | (intro _ _ hk; have := hk.queue) | (intro _ _ _ hk; have := hk.queue); clear this) | intro _ | ((fail_if_success (fail_if_success extract_lets)); extract_lets +onlyGivenNames kx; (fail_if_success (have : True := kx)); (first | (refine kept_cut qs os kx ?_ fun _ => ?_; unfold kx; rotate_left; clear_value kx; rotate_right) | (refine kept_cut qs os kx.1 ?_ fun _ => ?_; unfold kx; rotate_left; clear_value kx; rotate_right) | (first | have := (kx : State → _) | have := (kx : Twin) | have := (kx : Mem) | have := (kx : Hu) | have := (kx : Sec); clear this) | clear_value kx); all_goals have kx := True.intro) | with_reducible apply modPP_kept | with_reducible apply clearPair_kept | with_reducible apply fwAdmin_kept | with_reducible apply kept_ite | split | refine kept_upd ?_ rfl rfl rfl rfl rfl rfl rfl rfl rfl rfl rfl rfl)

theorem sendSet_kept (s : State) (q p : Nat) (id : Byte) (hs : Kept qs os s) :
    Kept qs os (sendSet s q p id) := by
  unfold sendSet
  repeat' (first | with_reducible assumption | with_reducible apply emit_kept)

theorem portLeaves_kept (s : State) (q p : Nat) (st : BitVec 3) (cause : BitVec 4) (hs : Kept qs os s) :
    Kept qs os (portLeaves s q p st cause) := by
  unfold portLeaves
  repeat' (first | with_reducible assumption | (first | (intro _ hk; have := hk.queue) | (intro _ _ hk; have := hk.queue) | (intro _ _ _ hk; have := hk.queue); clear this) | intro _ | ((fail_if_success (fail_if_success extract_lets)); extract_lets +onlyGivenNames kx; (fail_if_success (have : True := kx)); (first | (refine kept_cut qs os kx ?_ fun _ => ?_; unfold kx; rotate_left; clear_value kx; rotate_right) | (refine kept_cut qs os kx.1 ?_ fun _ => ?_; unfold kx; rotate_left; clear_value kx; rotate_right) | (first | have := (kx : State → _) | have := (kx : Twin) | have := (kx : Mem) | have := (kx : Hu) | have := (kx : Sec); clear this) | clear_value kx); all_goals have kx := True.intro) | with_reducible apply setPort_kept | with_reducible apply setLinkState_kept | with_reducible apply sendSet_kept | with_reducible apply finishOp_kept | (with_reducible apply kept_foldl; intro _ _ _) | with_reducible apply kept_ite | split | refine kept_upd ?_ rfl rfl rfl rfl rfl rfl rfl rfl rfl rfl rfl rfl)

theorem quadDown_kept (cause : BitVec 4) (s : State) (q : Nat) (hs : Kept qs os s) :
    Kept qs os (quadDown cause s q) := by
  unfold quadDown
  repeat' (first | with_reducible assumption | with_reducible apply portLeaves_kept | (with_reducible apply kept_foldl; intro _ _ _) | with_reducible apply kept_ite)

theorem quadsDown_kept (s : State) (cause : BitVec 4) (hs : Kept qs os s) :
    Kept qs os (quadsDown s cause) := by
  unfold quadsDown
  repeat' (first | with_reducible assumption | with_reducible apply quadDown_kept | (with_reducible apply kept_foldl; intro _ _ _))

theorem startPort_kept (s : State) (q p : Nat) (hs : Kept qs os s) :
    Kept qs os (startPort s q p) := by
  unfold startPort
  repeat' (first | with_reducible assumption | ((fail_if_success (fail_if_success extract_lets)); extract_lets +onlyGivenNames kx; (fail_if_success (have : True := kx)); (first | (refine kept_cut qs os kx ?_ fun _ => ?_; unfold kx; rotate_left; clear_value kx; rotate_right) | (refine kept_cut qs os kx.1 ?_ fun _ => ?_; unfold kx; rotate_left; clear_value kx; rotate_right) | (first | have := (kx : State → _) | have := (kx : Twin) | have := (kx : Mem) | have := (kx : Hu) | have := (kx : Sec); clear this) | clear_value kx); all_goals have kx := True.intro) | with_reducible apply setLinkState_kept | with_reducible apply sendSet_kept | with_reducible apply kept_ite | split)

theorem quadsStart_kept (s : State) (hs : Kept qs os s) :
    Kept qs os (quadsStart s) := by
  unfold quadsStart
  repeat' (first | with_reducible assumption | (first | (intro _ hk; have := hk.queue) | (intro _ _ hk; have := hk.queue) | (intro _ _ _ hk; have := hk.queue); clear this) | intro _ | with_reducible apply startPort_kept | (with_reducible apply kept_foldl; intro _ _ _) | with_reducible apply kept_ite | split)

theorem applyPortEn_kept (s : State) (q : Nat) (en : BitVec 4) (hs : Kept qs os s) :
    Kept qs os (applyPortEn s q en) := by
  unfold applyPortEn
  repeat' (first | with_reducible assumption | (first | (intro _ hk; have := hk.queue) | (intro _ _ hk; have := hk.queue) | (intro _ _ _ hk; have := hk.queue); clear this) | intro _ | ((fail_if_success (fail_if_success extract_lets)); extract_lets +onlyGivenNames kx; (fail_if_success (have : True := kx)); (first | (refine kept_cut qs os kx ?_ fun _ => ?_; unfold kx; rotate_left; clear_value kx; rotate_right) | (refine kept_cut qs os kx.1 ?_ fun _ => ?_; unfold kx; rotate_left; clear_value kx; rotate_right) | (first | have := (kx : State → _) | have := (kx : Twin) | have := (kx : Mem) | have := (kx : Hu) | have := (kx : Sec); clear this) | clear_value kx); all_goals have kx := True.intro) | with_reducible apply setQ_kept | with_reducible apply portLeaves_kept | with_reducible apply startPort_kept | (with_reducible apply kept_foldl; intro _ _ _) | with_reducible apply kept_ite | split | refine kept_upd ?_ rfl rfl rfl rfl rfl rfl rfl rfl rfl rfl rfl rfl)

theorem quadCfgWrite_kept (s : State) (q : Nat) (v : Word) (hs : Kept qs os s) :
    Kept qs os (quadCfgWrite s q v) := by
  unfold quadCfgWrite
  repeat' (first | with_reducible assumption | ((fail_if_success (fail_if_success extract_lets)); extract_lets +onlyGivenNames kx; (fail_if_success (have : True := kx)); (first | (refine kept_cut qs os kx ?_ fun _ => ?_; unfold kx; rotate_left; clear_value kx; rotate_right) | clear_value kx); all_goals have kx := True.intro) | with_reducible apply reject_kept | with_reducible apply applyPortEn_kept | with_reducible apply setQ_kept | with_reducible apply kept_ite)

theorem nvComplete_kept (s : State) (o : DevOp) (st : Nat) (hs : Kept qs os s) :
    Kept qs os (nvComplete s o st) := by
  unfold nvComplete
  repeat' (first | with_reducible assumption | ((fail_if_success (fail_if_success extract_lets)); extract_lets +onlyGivenNames kx; (fail_if_success (have : True := kx)); clear_value kx; all_goals have kx := True.intro) | with_reducible apply finishOp_kept | with_reducible apply setOp_kept | with_reducible apply kept_ite)

theorem cqScan_kept (q p pair : Nat) (y0 : Nat) (y1 : State) (hy1 : Kept qs os y1) :
    Kept qs os (cqScan q p pair y0 y1) := by
  induction y0 generalizing q p pair y1 hy1 with
  | zero =>
    rw [cqScan]
    repeat' (with_reducible assumption)
  | succ n ih =>
    rw [cqScan]
    repeat' (first | with_reducible assumption | with_reducible apply ih | ((fail_if_success (fail_if_success extract_lets)); extract_lets +onlyGivenNames kx; (fail_if_success (have : True := kx)); (first | (refine kept_cut qs os kx ?_ fun _ => ?_; unfold kx; rotate_left; clear_value kx; rotate_right) | clear_value kx); all_goals have kx := True.intro) | with_reducible apply modPP_kept | with_reducible apply nvComplete_kept | with_reducible apply kept_ite | split)

theorem scanPair_kept (s : State) (q p pair : Nat) (hs : Kept qs os s) :
    Kept qs os (scanPair s q p pair) := by
  unfold scanPair
  repeat' (first | with_reducible assumption | ((fail_if_success (fail_if_success extract_lets)); extract_lets +onlyGivenNames kx; (fail_if_success (have : True := kx)); (first | (refine kept_cut qs os kx ?_ fun _ => ?_; unfold kx; rotate_left; clear_value kx; rotate_right) | (refine kept_cut qs os kx.1 ?_ fun _ => ?_; unfold kx; rotate_left; clear_value kx; rotate_right) | (first | have := (kx : State → _) | have := (kx : Twin) | have := (kx : Mem) | have := (kx : Hu) | have := (kx : Sec); clear this) | clear_value kx); all_goals have kx := True.intro) | with_reducible apply cqScan_kept | with_reducible apply retryQueued_kept | with_reducible apply emit_kept | with_reducible apply kept_ite | split | with_reducible apply kept_getD)

theorem ringScan_kept (q p n : Nat) (y0 : Nat) (y1 : State) (hy1 : Kept qs os y1) :
    Kept qs os (ringScan q p n y0 y1) := by
  induction y0 generalizing q p n y1 hy1 with
  | zero =>
    rw [ringScan]
    repeat' (with_reducible assumption)
  | succ n ih =>
    rw [ringScan]
    repeat' (first | with_reducible assumption | with_reducible apply ih | ((fail_if_success (fail_if_success extract_lets)); extract_lets +onlyGivenNames kx; (fail_if_success (have : True := kx)); clear_value kx; all_goals have kx := True.intro) | with_reducible apply modPP_kept | with_reducible apply finishOp_kept | with_reducible apply kept_ite | split)

theorem scanRing_kept (s : State) (q p n : Nat) (hs : Kept qs os s) :
    Kept qs os (scanRing s q p n) := by
  unfold scanRing
  repeat' (first | with_reducible assumption | with_reducible apply retryQueued_kept | with_reducible apply ringScan_kept | split)

theorem deviceVector_kept (s : State) (q p fn vec : Nat) (hs : Kept qs os s) :
    Kept qs os (deviceVector s q p fn vec) := by
  unfold deviceVector
  repeat' (first | with_reducible assumption | (first | (intro _ hk; have := hk.queue) | (intro _ _ hk; have := hk.queue) | (intro _ _ _ hk; have := hk.queue); clear this) | intro _ | ((fail_if_success (fail_if_success extract_lets)); extract_lets +onlyGivenNames kx; (fail_if_success (have : True := kx)); (first | (refine kept_cut qs os kx ?_ fun _ => ?_; unfold kx; rotate_left; clear_value kx; rotate_right) | (refine kept_cut qs os kx.1 ?_ fun _ => ?_; unfold kx; rotate_left; clear_value kx; rotate_right) | (first | have := (kx : State → _) | have := (kx : Twin) | have := (kx : Mem) | have := (kx : Hu) | have := (kx : Sec); clear this) | clear_value kx); all_goals have kx := True.intro) | with_reducible apply count_kept | with_reducible apply scanPair_kept | with_reducible apply scanRing_kept | with_reducible apply attend_kept | (with_reducible apply kept_foldl; intro _ _ _) | with_reducible apply kept_ite | split)

theorem pauseRx_kept (s : State) (q p : Nat) (l : List Byte) (hs : Kept qs os s) :
    Kept qs os (pauseRx s q p l) := by
  unfold pauseRx
  repeat' (first | with_reducible assumption | ((fail_if_success (fail_if_success extract_lets)); extract_lets +onlyGivenNames kx; (fail_if_success (have : True := kx)); (first | (refine kept_cut qs os kx ?_ fun _ => ?_; unfold kx; rotate_left; clear_value kx; rotate_right) | clear_value kx); all_goals have kx := True.intro) | with_reducible apply count_kept | with_reducible apply startTx_kept | with_reducible apply modEP_kept | with_reducible apply kept_ite)

theorem bumpHits_kept (s : State) (e : Nat) (hs : Kept qs os s) :
    Kept qs os (bumpHits s e) := by
  unfold bumpHits
  repeat' (first | with_reducible assumption | ((fail_if_success (fail_if_success extract_lets)); extract_lets +onlyGivenNames kx; (fail_if_success (have : True := kx)); clear_value kx; all_goals have kx := True.intro) | with_reducible apply writeDram_kept)

theorem classify_kept (s : State) (q p : Nat) (l : List Byte) (hs : Kept qs os s) :
    Kept qs os (classify s q p l).1 := by
  unfold classify
  repeat' (first | with_reducible assumption | ((fail_if_success (fail_if_success extract_lets)); extract_lets +onlyGivenNames kx; (fail_if_success (have : True := kx)); clear_value kx; all_goals have kx := True.intro) | with_reducible apply bumpHits_kept | with_reducible apply kept_ite_fst | split)

theorem checkXoff_kept (s : State) (q : Nat) (hs : Kept qs os s) :
    Kept qs os (checkXoff s q) := by
  unfold checkXoff
  repeat' (first | with_reducible assumption | ((fail_if_success (fail_if_success extract_lets)); extract_lets +onlyGivenNames kx; (fail_if_success (have : True := kx)); (first | (refine kept_cut qs os kx ?_ fun _ => ?_; unfold kx; rotate_left; clear_value kx; rotate_right) | (refine kept_cut qs os kx.1 ?_ fun _ => ?_; unfold kx; rotate_left; clear_value kx; rotate_right) | (first | have := (kx : State → _) | have := (kx : Twin) | have := (kx : Mem) | have := (kx : Hu) | have := (kx : Sec); clear this) | clear_value kx); all_goals have kx := True.intro) | with_reducible apply sendPause_kept | with_reducible apply setQ_kept | with_reducible apply kept_ite | split | refine kept_upd ?_ rfl rfl rfl rfl rfl rfl rfl rfl rfl rfl rfl rfl)

theorem deliverFrame_kept (s : State) (q p n : Nat) (l : List Byte) (hs : Kept qs os s) :
    Kept qs os (deliverFrame s q p n l) := by
  unfold deliverFrame
  repeat' (first | with_reducible assumption | (first | (intro _ hk; have := hk.queue) | (intro _ _ hk; have := hk.queue) | (intro _ _ _ hk; have := hk.queue); clear this) | intro _ | ((fail_if_success (fail_if_success extract_lets)); extract_lets +onlyGivenNames kx; (fail_if_success (have : True := kx)); (first | (refine kept_cut qs os kx ?_ fun _ => ?_; unfold kx; rotate_left; clear_value kx; rotate_right) | (refine kept_cut qs os kx.1 ?_ fun _ => ?_; unfold kx; rotate_left; clear_value kx; rotate_right) | (first | have := (kx : State → _) | have := (kx : Twin) | have := (kx : Mem) | have := (kx : Hu) | have := (kx : Sec); clear this) | clear_value kx); all_goals have kx := True.intro) | with_reducible apply count_kept | with_reducible apply setRx_kept | with_reducible apply countBy_kept | with_reducible apply modP_kept | with_reducible apply frameArrives_kept | with_reducible apply checkXoff_kept | with_reducible apply kept_ite | split | refine kept_upd ?_ rfl rfl rfl rfl rfl rfl rfl rfl rfl rfl rfl rfl)

theorem ethRx_kept (s : State) (q p : Nat) (l : List Byte) (good : Bool) (hs : Kept qs os s) :
    Kept qs os (ethRx s q p l good) := by
  unfold ethRx
  repeat' (first | with_reducible assumption | ((fail_if_success (fail_if_success extract_lets)); extract_lets +onlyGivenNames kx; (fail_if_success (have : True := kx)); (first | (refine kept_cut qs os kx ?_ fun _ => ?_; unfold kx; rotate_left; clear_value kx; rotate_right) | (refine kept_cut qs os kx.1 ?_ fun _ => ?_; unfold kx; rotate_left; clear_value kx; rotate_right) | (first | have := (kx : State → _) | have := (kx : Twin) | have := (kx : Mem) | have := (kx : Hu) | have := (kx : Sec); clear this) | clear_value kx); all_goals have kx := True.intro) | with_reducible apply count_kept | with_reducible apply pauseRx_kept | with_reducible apply classify_kept | with_reducible apply deliverFrame_kept | with_reducible apply kept_ite | with_reducible apply kept_ite_fst | with_reducible refine kept_of_pair (by assumption) ?_ | split)

theorem sendAck_kept (s : State) (q p : Nat) (hs : Kept qs os s) :
    Kept qs os (sendAck s q p) := by
  unfold sendAck
  repeat' (first | with_reducible assumption | with_reducible apply sendKdl_kept)

theorem sendNak_kept (s : State) (q p : Nat) (hs : Kept qs os s) :
    Kept qs os (sendNak s q p) := by
  unfold sendNak
  repeat' (first | with_reducible assumption | ((fail_if_success (fail_if_success extract_lets)); extract_lets +onlyGivenNames kx; (fail_if_success (have : True := kx)); clear_value kx; all_goals have kx := True.intro) | with_reducible apply count_kept | with_reducible apply sendKdl_kept | with_reducible apply modKP_kept | with_reducible apply kept_ite)

theorem kdlReplay_kept (s : State) (q p : Nat) (hs : Kept qs os s) :
    Kept qs os (kdlReplay s q p) := by
  unfold kdlReplay
  repeat' (first | with_reducible assumption | ((fail_if_success (fail_if_success extract_lets)); extract_lets +onlyGivenNames kx; (fail_if_success (have : True := kx)); (refine kept_cut qs os kx ?_ fun _ => ?_; unfold kx; rotate_left; clear_value kx; rotate_right); all_goals have kx := True.intro) | with_reducible apply sendKdl_kept | with_reducible apply count_kept | (with_reducible apply kept_foldl; intro _ _ _))

theorem enterActive_kept (s : State) (q p : Nat) (again : Bool) (hs : Kept qs os s) :
    Kept qs os (enterActive s q p again) := by
  unfold enterActive
  repeat' (first | with_reducible assumption | (first | (intro _ hk; have := hk.queue) | (intro _ _ hk; have := hk.queue) | (intro _ _ _ hk; have := hk.queue); clear this) | intro _ | ((fail_if_success (fail_if_success extract_lets)); extract_lets +onlyGivenNames kx; (fail_if_success (have : True := kx)); (first | (refine kept_cut qs os kx ?_ fun _ => ?_; unfold kx; rotate_left; clear_value kx; rotate_right) | (refine kept_cut qs os kx.1 ?_ fun _ => ?_; unfold kx; rotate_left; clear_value kx; rotate_right) | (first | have := (kx : State → _) | have := (kx : Twin) | have := (kx : Mem) | have := (kx : Hu) | have := (kx : Sec); clear this) | clear_value kx); all_goals have kx := True.intro) | with_reducible apply setLinkState_kept | with_reducible apply modPort_kept | with_reducible apply kdlPump_kept | with_reducible apply kdlReplay_kept | with_reducible apply kept_ite | split | refine kept_upd ?_ rfl rfl rfl rfl rfl rfl rfl rfl rfl rfl rfl rfl)

theorem enterRetrain_kept (s : State) (q p : Nat) (hs : Kept qs os s) :
    Kept qs os (enterRetrain s q p) := by
  unfold enterRetrain
  repeat' (first | with_reducible assumption | ((fail_if_success (fail_if_success extract_lets)); extract_lets +onlyGivenNames kx; (fail_if_success (have : True := kx)); (first | (refine kept_cut qs os kx ?_ fun _ => ?_; unfold kx; rotate_left; clear_value kx; rotate_right) | clear_value kx); all_goals have kx := True.intro) | with_reducible apply count_kept | with_reducible apply modKP_kept | with_reducible apply portLeaves_kept | with_reducible apply setLinkState_kept | with_reducible apply kept_ite)

theorem trainSet_kept (s : State) (q p : Nat) (ts2 : Bool) (hs : Kept qs os s) :
    Kept qs os (trainSet s q p ts2) := by
  unfold trainSet
  repeat' (first | with_reducible assumption | ((fail_if_success (fail_if_success extract_lets)); extract_lets +onlyGivenNames kx; (fail_if_success (have : True := kx)); (first | (refine kept_cut qs os kx ?_ fun _ => ?_; unfold kx; rotate_left; clear_value kx; rotate_right) | (refine kept_cut qs os kx.1 ?_ fun _ => ?_; unfold kx; rotate_left; clear_value kx; rotate_right) | (first | have := (kx : State → _) | have := (kx : Twin) | have := (kx : Mem) | have := (kx : Hu) | have := (kx : Sec); clear this) | clear_value kx); all_goals have kx := True.intro) | with_reducible apply sendSet_kept | with_reducible apply setLinkState_kept | with_reducible apply setPort_kept | with_reducible apply enterActive_kept | with_reducible apply kept_ite | split | refine kept_upd ?_ rfl rfl rfl rfl rfl rfl rfl rfl rfl rfl rfl rfl)

theorem ackUpTo_kept (s : State) (q p : Nat) (seq : BitVec 12) (hs : Kept qs os s) :
    Kept qs os (ackUpTo s q p seq).1 := by
  unfold ackUpTo
  repeat' (first | with_reducible assumption | ((fail_if_success (fail_if_success extract_lets)); extract_lets +onlyGivenNames kx; (fail_if_success (have : True := kx)); clear_value kx; all_goals have kx := True.intro) | with_reducible apply modKP_kept | with_reducible apply kept_ite_fst)

theorem replayAgain_kept (s : State) (q p : Nat) (progress : Bool) (hs : Kept qs os s) :
    Kept qs os (replayAgain s q p progress) := by
  unfold replayAgain
  repeat' (first | with_reducible assumption | ((fail_if_success (fail_if_success extract_lets)); extract_lets +onlyGivenNames kx; (fail_if_success (have : True := kx)); (first | (refine kept_cut qs os kx ?_ fun _ => ?_; unfold kx; rotate_left; clear_value kx; rotate_right) | clear_value kx); all_goals have kx := True.intro) | with_reducible apply kdlReplay_kept | with_reducible apply modKP_kept | with_reducible apply enterRetrain_kept | with_reducible apply kept_ite)

theorem kdlData_kept (s : State) (q p : Nat) (f : KdlFrame) (hs : Kept qs os s) :
    Kept qs os (kdlData s q p f) := by
  unfold kdlData
  repeat' (first | with_reducible assumption | ((fail_if_success (fail_if_success extract_lets)); extract_lets +onlyGivenNames kx; (fail_if_success (have : True := kx)); clear_value kx; all_goals have kx := True.intro) | with_reducible apply setOp_kept | with_reducible apply kept_ite | split)

theorem kdlStatus_kept (s : State) (q p : Nat) (f : KdlFrame) (hs : Kept qs os s) :
    Kept qs os (kdlStatus s q p f) := by
  unfold kdlStatus
  repeat' (first | with_reducible assumption | ((fail_if_success (fail_if_success extract_lets)); extract_lets +onlyGivenNames kx; (fail_if_success (have : True := kx)); (first | (refine kept_cut qs os kx ?_ fun _ => ?_; unfold kx; rotate_left; clear_value kx; rotate_right) | (refine kept_cut qs os kx.1 ?_ fun _ => ?_; unfold kx; rotate_left; clear_value kx; rotate_right) | (first | have := (kx : State → _) | have := (kx : Twin) | have := (kx : Mem) | have := (kx : Hu) | have := (kx : Sec); clear this) | clear_value kx); all_goals have kx := True.intro) | with_reducible apply count_kept | with_reducible apply setOp_kept | with_reducible apply stage_kept | with_reducible apply retryQueued_kept | with_reducible apply finishOp_kept | with_reducible apply kept_ite | with_reducible refine stagedKept_of_ok (by assumption) ?_ | with_reducible refine stagedKept_of_lost (by assumption) ?_ | split | refine kept_upd ?_ rfl rfl rfl rfl rfl rfl rfl rfl rfl rfl rfl rfl)

theorem kdlAttn_kept (s : State) (q p : Nat) (f : KdlFrame) (hs : Kept qs os s) :
    Kept qs os (kdlAttn s q p f) := by
  unfold kdlAttn
  repeat' (first | with_reducible assumption | (first | (intro _ hk; have := hk.queue) | (intro _ _ hk; have := hk.queue) | (intro _ _ _ hk; have := hk.queue); clear this) | intro _ | with_reducible apply attend_kept | with_reducible apply count_kept | split)

theorem giveCredit_kept (s : State) (q p : Nat) (f : KdlFrame) (hs : Kept qs os s) :
    Kept qs os (giveCredit s q p f) := by
  unfold giveCredit
  repeat' (first | with_reducible assumption | ((fail_if_success (fail_if_success extract_lets)); extract_lets +onlyGivenNames kx; (fail_if_success (have : True := kx)); (first | (refine kept_cut qs os kx ?_ fun _ => ?_; unfold kx; rotate_left; clear_value kx; rotate_right) | clear_value kx); all_goals have kx := True.intro) | with_reducible apply modKP_kept | with_reducible apply sendKdl_kept)

theorem kdlSeq_kept (s : State) (q p : Nat) (f : KdlFrame) (act : State → State) (hs : Kept qs os s) (hact : ∀ (x0 : State), Kept qs os x0 → Kept qs os (act x0)) :
    Kept qs os (kdlSeq s q p f act) := by
  unfold kdlSeq
  repeat' (first | with_reducible assumption | ((fail_if_success (fail_if_success extract_lets)); extract_lets +onlyGivenNames kx; (fail_if_success (have : True := kx)); (first | (refine kept_cut qs os kx ?_ fun _ => ?_; unfold kx; rotate_left; clear_value kx; rotate_right) | clear_value kx); all_goals have kx := True.intro) | with_reducible apply count_kept | with_reducible apply modKP_kept | with_reducible apply giveCredit_kept | with_reducible apply sendAck_kept | with_reducible apply sendNak_kept | apply hact | with_reducible apply kept_ite)

theorem kdlUndefined_kept (s : State) (q p : Nat) (hs : Kept qs os s) :
    Kept qs os (kdlUndefined s q p) := by
  unfold kdlUndefined
  repeat' (first | with_reducible assumption | ((fail_if_success (fail_if_success extract_lets)); extract_lets +onlyGivenNames kx; (fail_if_success (have : True := kx)); (refine kept_cut qs os kx ?_ fun _ => ?_; unfold kx; rotate_left; clear_value kx; rotate_right); all_goals have kx := True.intro) | with_reducible apply count_kept | with_reducible apply sendNak_kept | with_reducible apply kept_ite)

theorem initRx_kept (s : State) (q p : Nat) (f : KdlFrame) (hs : Kept qs os s) :
    Kept qs os (initRx s q p f) := by
  unfold initRx
  repeat' (first | with_reducible assumption | (first | (intro _ hk; have := hk.queue) | (intro _ _ hk; have := hk.queue) | (intro _ _ _ hk; have := hk.queue); clear this) | intro _ | with_reducible apply modKP_kept | with_reducible apply kept_ite | split | refine kept_upd ?_ rfl rfl rfl rfl rfl rfl rfl rfl rfl rfl rfl rfl)

theorem kdlRx_kept (s : State) (q p : Nat) (f : KdlFrame) (hs : Kept qs os s) :
    Kept qs os (kdlRx s q p f) := by
  unfold kdlRx
  repeat' (first | with_reducible assumption | (first | (intro _ hk; have := hk.queue) | (intro _ _ hk; have := hk.queue) | (intro _ _ _ hk; have := hk.queue); clear this) | intro _ | ((fail_if_success (fail_if_success extract_lets)); extract_lets +onlyGivenNames kx; (fail_if_success (have : True := kx)); (first | (refine kept_cut qs os kx ?_ fun _ => ?_; unfold kx; rotate_left; clear_value kx; rotate_right) | (refine kept_cut qs os kx.1 ?_ fun _ => ?_; unfold kx; rotate_left; clear_value kx; rotate_right) | (first | have := (kx : State → _) | have := (kx : Twin) | have := (kx : Mem) | have := (kx : Hu) | have := (kx : Sec); clear this) | clear_value kx); all_goals have kx := True.intro) | with_reducible apply sendNak_kept | with_reducible apply count_kept | with_reducible apply kdlUndefined_kept | with_reducible apply initRx_kept | with_reducible apply kdlSeq_kept | with_reducible apply kdlData_kept | with_reducible apply kdlStatus_kept | with_reducible apply kdlAttn_kept | with_reducible apply kdlPump_kept | with_reducible apply ackUpTo_kept | with_reducible apply replayAgain_kept | with_reducible apply modKP_kept | with_reducible apply kept_ite | with_reducible apply kept_ite_fst | with_reducible refine kept_of_pair (by assumption) ?_ | split | refine kept_upd ?_ rfl rfl rfl rfl rfl rfl rfl rfl rfl rfl rfl rfl)

theorem kdlOfType_kept (s : State) (q p : Nat) (t : Byte) (f : KdlFrame) (hs : Kept qs os s) :
    Kept qs os (kdlOfType s q p t f) := by
  unfold kdlOfType
  repeat' (first | with_reducible assumption | with_reducible apply kdlRx_kept | with_reducible apply kept_ite)

end Sys2Proof.Machine
end

