-- ==== Sys2Proof/Laws/KeptTwin.lean ====
section
/-!
SUPPORT. Every function of Machine/Twin.lean keeps a sound state, the queue and what was sent.
-/

namespace Sys2Proof.Machine

variable {qs : List Instr} {os : List Out}

theorem setTwinState_kept (s : State) (st : BitVec 4) (hs : Kept qs os s) (h : st.toNat ≤ 7) : Kept qs os (setTwinState s st) := by
  unfold setTwinState
  refine kept_ite hs (logEvent_kept _ _ _ _ _ _ (pulse_kept _ _ ?_))
  exact ⟨hs.dram, hs.loc, hs.tcm, hs.host, h, hs.before, hs.link, hs.bus, hs.level, hs.asked, hs.queue, hs.sent⟩

theorem saveTwin_kept (s : State) (hs : Kept qs os s) :
    Kept qs os (saveTwin s) := by
  unfold saveTwin
  repeat' (first | with_reducible assumption | refine kept_upd ?_ rfl rfl rfl rfl rfl rfl rfl rfl rfl rfl rfl rfl)

theorem raiseNext_kept (s : State) (n : Nat) (hs : Kept qs os s) :
    Kept qs os (raiseNext s n) := by
  unfold raiseNext
  repeat' (first | with_reducible assumption | ((fail_if_success (fail_if_success extract_lets)); extract_lets +onlyGivenNames kx; (fail_if_success (have : True := kx)); (first | (refine kept_cut qs os kx ?_ fun _ => ?_; unfold kx; rotate_left; clear_value kx; rotate_right) | clear_value kx); all_goals have kx := True.intro) | with_reducible apply kept_ite | refine kept_upd ?_ rfl rfl rfl rfl rfl rfl rfl rfl rfl rfl rfl rfl)

theorem sendHello_kept (s : State) (hs : Kept qs os s) :
    Kept qs os (sendHello s) := by
  unfold sendHello
  repeat' (first | with_reducible assumption | ((fail_if_success (fail_if_success extract_lets)); extract_lets +onlyGivenNames kx; (fail_if_success (have : True := kx)); (first | (have := (kx : Twin); clear this) | clear_value kx); all_goals have kx := True.intro) | with_reducible apply twinSend_kept | refine kept_upd ?_ rfl rfl rfl rfl rfl rfl rfl rfl rfl rfl rfl rfl)

theorem joinFail_kept (s : State) (cause : BitVec 4) (hs : Kept qs os s) :
    Kept qs os (joinFail s cause) := by
  unfold joinFail
  repeat' (first | with_reducible assumption | ((fail_if_success (fail_if_success extract_lets)); extract_lets +onlyGivenNames kx; (fail_if_success (have : True := kx)); (first | (refine kept_cut qs os kx ?_ fun _ => ?_; unfold kx; rotate_left; clear_value kx; rotate_right) | (have := (kx : Twin); clear this)); all_goals have kx := True.intro) | with_reducible apply pulse_kept | with_reducible apply setTwinState_kept | refine kept_upd ?_ rfl rfl rfl rfl rfl rfl rfl rfl rfl rfl rfl rfl | exact Kept.before (qs := qs) (os := os) (by assumption))

theorem helloRx_kept (s : State) (b : List Byte) (hs : Kept qs os s) :
    Kept qs os (helloRx s b) := by
  unfold helloRx
  repeat' (first | with_reducible assumption | ((fail_if_success (fail_if_success extract_lets)); extract_lets +onlyGivenNames kx; (fail_if_success (have : True := kx)); (first | (refine kept_cut qs os kx ?_ fun _ => ?_; unfold kx; rotate_left; clear_value kx; rotate_right) | (have := (kx : Twin); clear this)); all_goals have kx := True.intro) | with_reducible apply sendHello_kept | with_reducible apply joinFail_kept | with_reducible apply twinSend_kept | with_reducible apply kept_ite | split | refine kept_upd ?_ rfl rfl rfl rfl rfl rfl rfl rfl rfl rfl rfl rfl)

theorem joinEnter_kept (s : State) (b : List Byte) (hs : Kept qs os s) :
    Kept qs os (joinEnter s b) := by
  unfold joinEnter
  repeat' (first | with_reducible assumption | ((fail_if_success (fail_if_success extract_lets)); extract_lets +onlyGivenNames kx; (fail_if_success (have : True := kx)); (first | (refine kept_cut qs os kx ?_ fun _ => ?_; unfold kx; rotate_left; clear_value kx; rotate_right) | (have := (kx : Twin); clear this) | clear_value kx); all_goals have kx := True.intro) | with_reducible apply joinFail_kept | with_reducible apply saveTwin_kept | with_reducible apply setTwinState_kept | with_reducible apply raiseNext_kept | with_reducible apply kept_ite | split | refine kept_upd ?_ rfl rfl rfl rfl rfl rfl rfl rfl rfl rfl rfl rfl | exact Nat.le_of_ble_eq_true rfl)

theorem authRx_kept (s : State) (a : List Byte) (hs : Kept qs os s) :
    Kept qs os (authRx s a) := by
  unfold authRx
  repeat' (first | with_reducible assumption | ((fail_if_success (fail_if_success extract_lets)); extract_lets +onlyGivenNames kx; (fail_if_success (have : True := kx)); clear_value kx; all_goals have kx := True.intro) | with_reducible apply joinFail_kept | with_reducible apply joinEnter_kept | with_reducible apply kept_ite | split)

theorem copyLines_kept (s : State) (l : List Nat) (hs : Kept qs os s) :
    Kept qs os (copyLines s l) := by
  unfold copyLines
  repeat' (first | with_reducible assumption | (first | (intro _ hk; have := hk.queue) | (intro _ _ hk; have := hk.queue) | (intro _ _ _ hk; have := hk.queue); clear this) | intro _ | with_reducible apply twinSend_kept | (with_reducible apply kept_foldl; intro _ _ _) | refine kept_upd ?_ rfl rfl rfl rfl rfl rfl rfl rfl rfl rfl rfl rfl)

theorem startCopy_kept (s : State) (hs : Kept qs os s) :
    Kept qs os (startCopy s) := by
  unfold startCopy
  repeat' (first | with_reducible assumption | ((fail_if_success (fail_if_success extract_lets)); extract_lets +onlyGivenNames kx; (fail_if_success (have : True := kx)); (first | (refine kept_cut qs os kx ?_ fun _ => ?_; unfold kx; rotate_left; clear_value kx; rotate_right) | (have := (kx : Twin); clear this) | clear_value kx); all_goals have kx := True.intro) | with_reducible apply copyLines_kept | with_reducible apply kept_ite | refine kept_upd ?_ rfl rfl rfl rfl rfl rfl rfl rfl rfl rfl rfl rfl)

theorem proposeAt_kept (s : State) (action : Byte) (t : Dword) (hs : Kept qs os s) :
    Kept qs os (proposeAt s action t) := by
  unfold proposeAt
  repeat' (first | with_reducible assumption | ((fail_if_success (fail_if_success extract_lets)); extract_lets +onlyGivenNames kx; (fail_if_success (have : True := kx)); (first | (refine kept_cut qs os kx ?_ fun _ => ?_; unfold kx; rotate_left; clear_value kx; rotate_right) | (have := (kx : Twin); clear this)); all_goals have kx := True.intro) | with_reducible apply twinSend_kept | with_reducible apply kept_ite | refine kept_upd ?_ rfl rfl rfl rfl rfl rfl rfl rfl rfl rfl rfl rfl)

theorem propose_kept (s : State) (action : Byte) (hs : Kept qs os s) :
    Kept qs os (propose s action) := by
  unfold propose
  repeat' (first | with_reducible assumption | with_reducible apply proposeAt_kept)

theorem commitAll_kept (s : State) (hs : Kept qs os s) :
    Kept qs os (commitAll s) := by
  unfold commitAll
  repeat' (first | with_reducible assumption | with_reducible apply commit_kept | (with_reducible apply kept_foldl; intro _ _ _))

theorem freeShadow_kept (s : State) (hs : Kept qs os s) :
    Kept qs os (freeShadow s) := by
  unfold freeShadow
  repeat' (first | with_reducible assumption | refine kept_upd ?_ rfl rfl rfl rfl rfl rfl rfl rfl rfl rfl rfl rfl)

theorem unpairDone_kept (s : State) (hs : Kept qs os s) :
    Kept qs os (unpairDone s) := by
  unfold unpairDone
  repeat' (first | with_reducible assumption | with_reducible apply resetMaster_kept | with_reducible apply setTwinState_kept | with_reducible apply freeShadow_kept | with_reducible apply kept_ite | refine kept_upd ?_ rfl rfl rfl rfl rfl rfl rfl rfl rfl rfl rfl rfl | exact Nat.le_of_ble_eq_true rfl)

theorem enterPaired_kept (s : State) (hs : Kept qs os s) :
    Kept qs os (enterPaired s) := by
  unfold enterPaired
  repeat' (first | with_reducible assumption | ((fail_if_success (fail_if_success extract_lets)); extract_lets +onlyGivenNames kx; (fail_if_success (have : True := kx)); (first | (refine kept_cut qs os kx ?_ fun _ => ?_; unfold kx; rotate_left; clear_value kx; rotate_right) | (refine kept_cut qs os kx.1 ?_ fun _ => ?_; unfold kx; rotate_left; clear_value kx; rotate_right) | (first | have := (kx : State → _) | have := (kx : Twin) | have := (kx : Mem) | have := (kx : Hu) | have := (kx : Sec); clear this) | clear_value kx); all_goals have kx := True.intro) | with_reducible apply pulse_kept | with_reducible apply saveTwin_kept | with_reducible apply setTwinState_kept | with_reducible apply kept_ite | split | refine kept_upd ?_ rfl rfl rfl rfl rfl rfl rfl rfl rfl rfl rfl rfl | exact Nat.le_of_ble_eq_true rfl | exact Kept.before (qs := qs) (os := os) (by assumption))

theorem handOver_kept (s : State) (hs : Kept qs os s) :
    Kept qs os (handOver s) := by
  unfold handOver
  repeat' (first | with_reducible assumption | ((fail_if_success (fail_if_success extract_lets)); extract_lets +onlyGivenNames kx; (fail_if_success (have : True := kx)); (first | (refine kept_cut qs os kx ?_ fun _ => ?_; unfold kx; rotate_left; clear_value kx; rotate_right) | (have := (kx : Twin); clear this)); all_goals have kx := True.intro) | with_reducible apply pulse_kept | with_reducible apply saveTwin_kept | with_reducible apply kept_ite | refine kept_upd ?_ rfl rfl rfl rfl rfl rfl rfl rfl rfl rfl rfl rfl)

theorem startTest_kept (s : State) (hs : Kept qs os s) :
    Kept qs os (startTest s) := by
  unfold startTest
  repeat' (first | with_reducible assumption | split | refine kept_upd ?_ rfl rfl rfl rfl rfl rfl rfl rfl rfl rfl rfl rfl)

theorem launchAct_kept (s : State) (action : Byte) (hs : Kept qs os s) :
    Kept qs os (launchAct s action) := by
  unfold launchAct
  repeat' (first | with_reducible assumption | with_reducible apply enterPaired_kept | with_reducible apply unpairDone_kept | with_reducible apply startTest_kept | with_reducible apply handOver_kept | with_reducible apply kept_ite | split | refine kept_upd ?_ rfl rfl rfl rfl rfl rfl rfl rfl rfl rfl rfl rfl)

theorem dropLaunch_kept (s : State) (action : Byte) (hs : Kept qs os s) :
    Kept qs os (dropLaunch s action) := by
  unfold dropLaunch
  repeat' (first | with_reducible assumption | refine kept_upd ?_ rfl rfl rfl rfl rfl rfl rfl rfl rfl rfl rfl rfl)

theorem launchRx_kept (s : State) (action : Byte) (t : Dword) (hs : Kept qs os s) :
    Kept qs os (launchRx s action t) := by
  unfold launchRx
  repeat' (first | with_reducible assumption | ((fail_if_success (fail_if_success extract_lets)); extract_lets +onlyGivenNames kx; (fail_if_success (have : True := kx)); (first | (refine kept_cut qs os kx ?_ fun _ => ?_; unfold kx; rotate_left; clear_value kx; rotate_right) | (have := (kx : Twin); clear this) | clear_value kx); all_goals have kx := True.intro) | with_reducible apply setTwinState_kept | with_reducible apply twinSend_kept | with_reducible apply kept_ite | refine kept_upd ?_ rfl rfl rfl rfl rfl rfl rfl rfl rfl rfl rfl rfl | exact Nat.le_of_ble_eq_true rfl)

theorem launchAgreed_kept (s : State) (action : Byte) (hs : Kept qs os s) :
    Kept qs os (launchAgreed s action) := by
  unfold launchAgreed
  repeat' (first | with_reducible assumption | with_reducible apply finishHeld_kept | with_reducible apply kept_ite)

theorem launchAckRx_kept (s : State) (t : Dword) (ok : Bool) (hs : Kept qs os s) :
    Kept qs os (launchAckRx s t ok) := by
  unfold launchAckRx
  repeat' (first | with_reducible assumption | ((fail_if_success (fail_if_success extract_lets)); extract_lets +onlyGivenNames kx; (fail_if_success (have : True := kx)); (first | (refine kept_cut qs os kx ?_ fun _ => ?_; unfold kx; rotate_left; clear_value kx; rotate_right) | (have := (kx : Twin); clear this) | clear_value kx); all_goals have kx := True.intro) | with_reducible apply pulse_kept | with_reducible apply dropLaunch_kept | with_reducible apply finishHeld_kept | with_reducible apply launchAct_kept | with_reducible apply twinCount_kept | with_reducible apply launchAgreed_kept | with_reducible apply kept_ite | split | refine kept_upd ?_ rfl rfl rfl rfl rfl rfl rfl rfl rfl rfl rfl rfl)

theorem setAligned_kept (s : State) (on : Bool) (hs : Kept qs os s) :
    Kept qs os (setAligned s on) := by
  unfold setAligned
  repeat' (first | with_reducible assumption | ((fail_if_success (fail_if_success extract_lets)); extract_lets +onlyGivenNames kx; (fail_if_success (have : True := kx)); (first | (refine kept_cut qs os kx ?_ fun _ => ?_; unfold kx; rotate_left; clear_value kx; rotate_right) | (have := (kx : Twin); clear this)); all_goals have kx := True.intro) | with_reducible apply pulse_kept | with_reducible apply twinCount_kept | with_reducible apply kept_ite | refine kept_upd ?_ rfl rfl rfl rfl rfl rfl rfl rfl rfl rfl rfl rfl)

theorem measure_kept (s : State) (theta : Int) (delta : Nat) (hs : Kept qs os s) :
    Kept qs os (measure s theta delta) := by
  unfold measure
  repeat' (first | with_reducible assumption | ((fail_if_success (fail_if_success extract_lets)); extract_lets +onlyGivenNames kx; (fail_if_success (have : True := kx)); (have := (kx : Twin); clear this); all_goals have kx := True.intro) | with_reducible apply setAligned_kept | with_reducible apply kept_ite | split | refine kept_upd ?_ rfl rfl rfl rfl rfl rfl rfl rfl rfl rfl rfl rfl)

theorem joinStep_kept (s : State) (theta : Int) (hs : Kept qs os s) :
    Kept qs os (joinStep s theta) := by
  unfold joinStep
  repeat' (first | with_reducible assumption | ((fail_if_success (fail_if_success extract_lets)); extract_lets +onlyGivenNames kx; (fail_if_success (have : True := kx)); (first | (refine kept_cut qs os kx ?_ fun _ => ?_; unfold kx; rotate_left; clear_value kx; rotate_right) | (have := (kx : Twin); clear this) | clear_value kx); all_goals have kx := True.intro) | with_reducible apply kept_ite | refine kept_upd ?_ rfl rfl rfl rfl rfl rfl rfl rfl rfl rfl rfl rfl)

theorem heartbeatRx_kept (s : State) (param : Dword) (b : List Byte) (hs : Kept qs os s) :
    Kept qs os (heartbeatRx s param b) := by
  unfold heartbeatRx
  repeat' (first | with_reducible assumption | ((fail_if_success (fail_if_success extract_lets)); extract_lets +onlyGivenNames kx; (fail_if_success (have : True := kx)); (first | (refine kept_cut qs os kx ?_ fun _ => ?_; unfold kx; rotate_left; clear_value kx; rotate_right) | (have := (kx : Twin); clear this) | clear_value kx); all_goals have kx := True.intro) | with_reducible apply joinStep_kept | with_reducible apply measure_kept | with_reducible apply startCopy_kept | with_reducible apply kept_ite | refine kept_upd ?_ rfl rfl rfl rfl rfl rfl rfl rfl rfl rfl rfl rfl)

theorem heartbeatTx_kept (s : State) (hs : Kept qs os s) :
    Kept qs os (heartbeatTx s) := by
  unfold heartbeatTx
  repeat' (first | with_reducible assumption | with_reducible apply twinSend_kept)

theorem enterFenced_kept (s : State) (hs : Kept qs os s) :
    Kept qs os (enterFenced s) := by
  unfold enterFenced
  repeat' (first | with_reducible assumption | (first | (intro _ hk; have := hk.queue) | (intro _ _ hk; have := hk.queue) | (intro _ _ _ hk; have := hk.queue); clear this) | intro _ | ((fail_if_success (fail_if_success extract_lets)); extract_lets +onlyGivenNames kx; (fail_if_success (have : True := kx)); (first | (refine kept_cut qs os kx ?_ fun _ => ?_; unfold kx; rotate_left; clear_value kx; rotate_right) | (refine kept_cut qs os kx.1 ?_ fun _ => ?_; unfold kx; rotate_left; clear_value kx; rotate_right) | (first | have := (kx : State → _) | have := (kx : Twin) | have := (kx : Mem) | have := (kx : Hu) | have := (kx : Sec); clear this) | clear_value kx); all_goals have kx := True.intro) | with_reducible apply pulse_kept | with_reducible apply setTwinState_kept | with_reducible apply kept_ite | split | refine kept_upd ?_ rfl rfl rfl rfl rfl rfl rfl rfl rfl rfl rfl rfl | exact Nat.le_of_ble_eq_true rfl | exact Kept.before (qs := qs) (os := os) (by assumption))

theorem obeyFenceIn_kept (s : State) (hs : Kept qs os s) :
    Kept qs os (obeyFenceIn s) := by
  unfold obeyFenceIn
  repeat' (first | with_reducible assumption | with_reducible apply enterFenced_kept | with_reducible apply kept_ite)

theorem fenceComplete_kept (s : State) (hs : Kept qs os s) :
    Kept qs os (fenceComplete s) := by
  unfold fenceComplete
  repeat' (first | with_reducible assumption | ((fail_if_success (fail_if_success extract_lets)); extract_lets +onlyGivenNames kx; (fail_if_success (have : True := kx)); (first | (refine kept_cut qs os kx ?_ fun _ => ?_; unfold kx; rotate_left; clear_value kx; rotate_right) | (have := (kx : Twin); clear this)); all_goals have kx := True.intro) | with_reducible apply pulse_kept | with_reducible apply commitAll_kept | with_reducible apply setTwinState_kept | refine kept_upd ?_ rfl rfl rfl rfl rfl rfl rfl rfl rfl rfl rfl rfl | exact Nat.le_of_ble_eq_true rfl)

theorem fenceFails_kept (s : State) (hs : Kept qs os s) :
    Kept qs os (fenceFails s) := by
  unfold fenceFails
  repeat' (first | with_reducible assumption | with_reducible apply pulse_kept | refine kept_upd ?_ rfl rfl rfl rfl rfl rfl rfl rfl rfl rfl rfl rfl)

theorem pinFence_kept (s : State) (hs : Kept qs os s) :
    Kept qs os (pinFence s) := by
  unfold pinFence
  repeat' (first | with_reducible assumption | refine kept_upd ?_ rfl rfl rfl rfl rfl rfl rfl rfl rfl rfl rfl rfl)

theorem linkFence_kept (s : State) (thenPins : Bool) (hs : Kept qs os s) :
    Kept qs os (linkFence s thenPins) := by
  unfold linkFence
  repeat' (first | with_reducible assumption | with_reducible apply twinSend_kept | split | refine kept_upd ?_ rfl rfl rfl rfl rfl rfl rfl rfl rfl rfl rfl rfl)

theorem startFence_kept (s : State) (mode : Nat) (hs : Kept qs os s) :
    Kept qs os (startFence s mode) := by
  unfold startFence
  repeat' (first | with_reducible assumption | with_reducible apply pinFence_kept | with_reducible apply linkFence_kept | with_reducible apply kept_ite)

theorem declareLoss_kept (s : State) (hs : Kept qs os s) :
    Kept qs os (declareLoss s) := by
  unfold declareLoss
  repeat' (first | with_reducible assumption | ((fail_if_success (fail_if_success extract_lets)); extract_lets +onlyGivenNames kx; (fail_if_success (have : True := kx)); (first | (refine kept_cut qs os kx ?_ fun _ => ?_; unfold kx; rotate_left; clear_value kx; rotate_right) | (have := (kx : Twin); clear this) | clear_value kx); all_goals have kx := True.intro) | with_reducible apply joinFail_kept | with_reducible apply setTwinState_kept | with_reducible apply resetMaster_kept | with_reducible apply twinCount_kept | with_reducible apply pulse_kept | with_reducible apply startFence_kept | with_reducible apply kept_ite | refine kept_upd ?_ rfl rfl rfl rfl rfl rfl rfl rfl rfl rfl rfl rfl | exact Nat.le_of_ble_eq_true rfl)

theorem fenceStop_kept (s : State) (hs : Kept qs os s) :
    Kept qs os (fenceStop s) := by
  unfold fenceStop
  repeat' (first | with_reducible assumption | ((fail_if_success (fail_if_success extract_lets)); extract_lets +onlyGivenNames kx; (fail_if_success (have : True := kx)); (first | (refine kept_cut qs os kx ?_ fun _ => ?_; unfold kx; rotate_left; clear_value kx; rotate_right) | (have := (kx : Twin); clear this)); all_goals have kx := True.intro) | with_reducible apply enterFenced_kept | with_reducible apply twinSend_kept | refine kept_upd ?_ rfl rfl rfl rfl rfl rfl rfl rfl rfl rfl rfl rfl)

theorem storeRecord_kept (s : State) (c : NClause) (hs : Kept qs os s) :
    Kept qs os (storeRecord s c) := by
  unfold storeRecord
  repeat' (first | with_reducible assumption | ((fail_if_success (fail_if_success extract_lets)); extract_lets +onlyGivenNames kx; (fail_if_success (have : True := kx)); (first | (refine kept_cut qs os kx ?_ fun _ => ?_; unfold kx; rotate_left; clear_value kx; rotate_right) | (refine kept_cut qs os kx.1 ?_ fun _ => ?_; unfold kx; rotate_left; clear_value kx; rotate_right) | (first | have := (kx : State → _) | have := (kx : Twin) | have := (kx : Mem) | have := (kx : Hu) | have := (kx : Sec); clear this) | clear_value kx); all_goals have kx := True.intro) | with_reducible apply writeDram_kept | refine kept_upd ?_ rfl rfl rfl rfl rfl rfl rfl rfl rfl rfl rfl rfl)

theorem ackMirror_kept (s : State) (hs : Kept qs os s) :
    Kept qs os (ackMirror s) := by
  unfold ackMirror
  repeat' (first | with_reducible assumption | with_reducible apply twinSend_kept)

theorem takeShadow_kept (y0 : Nat) (y1 : State) (hy1 : Kept qs os y1) :
    Kept qs os (takeShadow y0 y1) := by
  induction y0 generalizing y1 hy1 with
  | zero =>
    rw [takeShadow]
    repeat' (first | with_reducible assumption | ((fail_if_success (fail_if_success extract_lets)); extract_lets +onlyGivenNames kx; (fail_if_success (have : True := kx)); (first | (refine kept_cut qs os kx ?_ fun _ => ?_; unfold kx; rotate_left; clear_value kx; rotate_right) | (refine kept_cut qs os kx.1 ?_ fun _ => ?_; unfold kx; rotate_left; clear_value kx; rotate_right) | (first | have := (kx : State → _) | have := (kx : Twin) | have := (kx : Mem) | have := (kx : Hu) | have := (kx : Sec); clear this) | clear_value kx); all_goals have kx := True.intro) | with_reducible apply storeRecord_kept | with_reducible apply ackMirror_kept | with_reducible apply kept_ite | split | refine kept_upd ?_ rfl rfl rfl rfl rfl rfl rfl rfl rfl rfl rfl rfl)
  | succ n ih =>
    rw [takeShadow]
    repeat' (first | with_reducible assumption | with_reducible apply ih | ((fail_if_success (fail_if_success extract_lets)); extract_lets +onlyGivenNames kx; (fail_if_success (have : True := kx)); (first | (refine kept_cut qs os kx ?_ fun _ => ?_; unfold kx; rotate_left; clear_value kx; rotate_right) | (refine kept_cut qs os kx.1 ?_ fun _ => ?_; unfold kx; rotate_left; clear_value kx; rotate_right) | (first | have := (kx : State → _) | have := (kx : Twin) | have := (kx : Mem) | have := (kx : Hu) | have := (kx : Sec); clear this) | clear_value kx); all_goals have kx := True.intro) | with_reducible apply storeRecord_kept | with_reducible apply ackMirror_kept | with_reducible apply kept_ite | split | refine kept_upd ?_ rfl rfl rfl rfl rfl rfl rfl rfl rfl rfl rfl rfl)

theorem mirrorRx_kept (s : State) (b : List Byte) (hs : Kept qs os s) :
    Kept qs os (mirrorRx s b) := by
  unfold mirrorRx
  repeat' (first | with_reducible assumption | ((fail_if_success (fail_if_success extract_lets)); extract_lets +onlyGivenNames kx; (fail_if_success (have : True := kx)); (first | (refine kept_cut qs os kx ?_ fun _ => ?_; unfold kx; rotate_left; clear_value kx; rotate_right) | (refine kept_cut qs os kx.1 ?_ fun _ => ?_; unfold kx; rotate_left; clear_value kx; rotate_right) | (first | have := (kx : State → _) | have := (kx : Twin) | have := (kx : Mem) | have := (kx : Hu) | have := (kx : Sec); clear this) | clear_value kx); all_goals have kx := True.intro) | with_reducible apply ackMirror_kept | with_reducible apply takeShadow_kept | with_reducible apply kept_ite | split | refine kept_upd ?_ rfl rfl rfl rfl rfl rfl rfl rfl rfl rfl rfl rfl)

theorem mirrorAckRx_kept (s : State) (n : Nat) (hs : Kept qs os s) :
    Kept qs os (mirrorAckRx s n) := by
  unfold mirrorAckRx
  repeat' (first | with_reducible assumption | ((fail_if_success (fail_if_success extract_lets)); extract_lets +onlyGivenNames kx; (fail_if_success (have : True := kx)); (first | (refine kept_cut qs os kx ?_ fun _ => ?_; unfold kx; rotate_left; clear_value kx; rotate_right) | clear_value kx); all_goals have kx := True.intro) | with_reducible apply unpairDone_kept | with_reducible apply commit_kept | (with_reducible apply kept_foldl; intro _ _ _) | refine kept_upd ?_ rfl rfl rfl rfl rfl rfl rfl rfl rfl rfl rfl rfl)

theorem lineRx_kept (s : State) (param : Dword) (b : List Byte) (hs : Kept qs os s) :
    Kept qs os (lineRx s param b) := by
  unfold lineRx
  repeat' (first | with_reducible assumption | ((fail_if_success (fail_if_success extract_lets)); extract_lets +onlyGivenNames kx; (fail_if_success (have : True := kx)); clear_value kx; all_goals have kx := True.intro) | with_reducible apply writeDram_kept | with_reducible apply kept_ite)

theorem applyShadow_kept (s : State) (c : NClause) (hs : Kept qs os s) :
    Kept qs os (applyShadow s c) := by
  unfold applyShadow
  repeat' (first | with_reducible assumption | with_reducible apply writeDram_kept | (with_reducible apply kept_foldl; intro _ _ _) | split)

theorem releasedRx_kept (s : State) (n : Nat) (hs : Kept qs os s) :
    Kept qs os (releasedRx s n) := by
  unfold releasedRx
  repeat' (first | with_reducible assumption | (first | (intro _ hk; have := hk.queue) | (intro _ _ hk; have := hk.queue) | (intro _ _ _ hk; have := hk.queue); clear this) | intro _ | ((fail_if_success (fail_if_success extract_lets)); extract_lets +onlyGivenNames kx; (fail_if_success (have : True := kx)); (first | (refine kept_cut qs os kx ?_ fun _ => ?_; unfold kx; rotate_left; clear_value kx; rotate_right) | (refine kept_cut qs os kx.1 ?_ fun _ => ?_; unfold kx; rotate_left; clear_value kx; rotate_right) | (first | have := (kx : State → _) | have := (kx : Twin) | have := (kx : Mem) | have := (kx : Hu) | have := (kx : Sec); clear this) | clear_value kx); all_goals have kx := True.intro) | with_reducible apply applyShadow_kept | with_reducible apply unpairDone_kept | with_reducible apply takeShadow_kept | (with_reducible apply kept_foldl; intro _ _ _) | refine kept_upd ?_ rfl rfl rfl rfl rfl rfl rfl rfl rfl rfl rfl rfl)

theorem flitReplay_kept (s : State) (hs : Kept qs os s) :
    Kept qs os (flitReplay s) := by
  unfold flitReplay
  repeat' (first | with_reducible assumption | with_reducible apply twinCount_kept | with_reducible apply putFlit_kept | (with_reducible apply kept_foldl; intro _ _ _))

theorem linkLeaves_kept (s : State) (st : BitVec 2) (hs : Kept qs os s) (h : st.toNat ≤ 2) : Kept qs os (linkLeaves s st) := by
  have h : Kept qs os { s with tw := { s.tw with link := st, stalls := 0 } } := kept_link hs rfl rfl rfl rfl rfl rfl rfl rfl rfl rfl rfl h
  exact pulse_kept _ _ (kept_ite (twinCount_kept _ _ h) h)

theorem flitReplayAgain_kept (s : State) (hs : Kept qs os s) :
    Kept qs os (flitReplayAgain s) := by
  unfold flitReplayAgain
  repeat' (first | with_reducible assumption | ((fail_if_success (fail_if_success extract_lets)); extract_lets +onlyGivenNames kx; (fail_if_success (have : True := kx)); (first | (refine kept_cut qs os kx ?_ fun _ => ?_; unfold kx; rotate_left; clear_value kx; rotate_right) | (have := (kx : Twin); clear this) | clear_value kx); all_goals have kx := True.intro) | with_reducible apply flitReplay_kept | with_reducible apply linkLeaves_kept | with_reducible apply kept_ite | refine kept_upd ?_ rfl rfl rfl rfl rfl rfl rfl rfl rfl rfl rfl rfl | exact Nat.le_of_ble_eq_true rfl)

theorem flitNak_kept (s : State) (hs : Kept qs os s) :
    Kept qs os (flitNak s) := by
  unfold flitNak
  repeat' (first | with_reducible assumption | with_reducible apply putFlit_kept | with_reducible apply kept_ite | split | refine kept_upd ?_ rfl rfl rfl rfl rfl rfl rfl rfl rfl rfl rfl rfl)

theorem flitAck_kept (s : State) (seq : BitVec 12) (hs : Kept qs os s) :
    Kept qs os (flitAck s seq).1 := by
  unfold flitAck
  repeat' (first | with_reducible assumption | ((fail_if_success (fail_if_success extract_lets)); extract_lets +onlyGivenNames kx; (fail_if_success (have : True := kx)); (first | (have := (kx : Twin); clear this) | clear_value kx); all_goals have kx := True.intro) | with_reducible apply kept_ite_fst | refine kept_upd ?_ rfl rfl rfl rfl rfl rfl rfl rfl rfl rfl rfl rfl)

theorem flitSeq_kept (s : State) (f : Flit) (hs : Kept qs os s) :
    Kept qs os (flitSeq s f) := by
  unfold flitSeq
  repeat' (first | with_reducible assumption | ((fail_if_success (fail_if_success extract_lets)); extract_lets +onlyGivenNames kx; (fail_if_success (have : True := kx)); (first | (refine kept_cut qs os kx ?_ fun _ => ?_; unfold kx; rotate_left; clear_value kx; rotate_right) | (refine kept_cut qs os kx.1 ?_ fun _ => ?_; unfold kx; rotate_left; clear_value kx; rotate_right) | (first | have := (kx : State → _) | have := (kx : Twin) | have := (kx : Mem) | have := (kx : Hu) | have := (kx : Sec); clear this) | clear_value kx); all_goals have kx := True.intro) | with_reducible apply putFlit_kept | with_reducible apply flitNak_kept | with_reducible apply kept_ite | split | refine kept_upd ?_ rfl rfl rfl rfl rfl rfl rfl rfl rfl rfl rfl rfl)

theorem flitRx_kept (s : State) (f : Flit) (hs : Kept qs os s) :
    Kept qs os (flitRx s f) := by
  unfold flitRx
  repeat' (first | with_reducible assumption | ((fail_if_success (fail_if_success extract_lets)); extract_lets +onlyGivenNames kx; (fail_if_success (have : True := kx)); (first | (refine kept_cut qs os kx ?_ fun _ => ?_; unfold kx; rotate_left; clear_value kx; rotate_right) | (refine kept_cut qs os kx.1 ?_ fun _ => ?_; unfold kx; rotate_left; clear_value kx; rotate_right) | (first | have := (kx : State → _) | have := (kx : Twin) | have := (kx : Mem) | have := (kx : Hu) | have := (kx : Sec); clear this) | clear_value kx); all_goals have kx := True.intro) | with_reducible apply flitNak_kept | with_reducible apply twinCount_kept | with_reducible apply flitAck_kept | with_reducible apply flitReplay_kept | with_reducible apply flitReplayAgain_kept | with_reducible apply twinPump_kept | with_reducible apply flitSeq_kept | with_reducible apply kept_ite | with_reducible apply kept_ite_fst | with_reducible refine kept_of_pair (by assumption) ?_ | split)

theorem linkActive_kept (s : State) (hs : Kept qs os s) :
    Kept qs os (linkActive s) := by
  unfold linkActive
  repeat' (first | with_reducible assumption | ((fail_if_success (fail_if_success extract_lets)); extract_lets +onlyGivenNames kx; (fail_if_success (have : True := kx)); (first | (refine kept_cut qs os kx ?_ fun _ => ?_; unfold kx; rotate_left; clear_value kx; rotate_right) | (have := (kx : Twin); clear this)); all_goals have kx := True.intro) | with_reducible apply pulse_kept | with_reducible apply flitReplay_kept | with_reducible apply sendHello_kept | with_reducible apply twinPump_kept | with_reducible apply kept_ite | refine kept_link ?_ rfl rfl rfl rfl rfl rfl rfl rfl rfl rfl rfl ?_ | exact Nat.le_of_ble_eq_true rfl)

end Sys2Proof.Machine
end

