-- ==== Sys2Proof/Laws/KeptScript.lean ====
section
/-!
SUPPORT. Every function of Machine/Script.lean keeps a sound state, the queue and what was sent.
-/

namespace Sys2Proof.Machine

variable {qs : List Instr} {os : List Out}

theorem done_kept (s : State) (r : Regs) (hs : Kept qs os s) : EffKept qs os (done s r) := ⟨hs, fun _ h => h⟩

theorem countTrap_kept (s : State) (e : Nat) (hs : Kept qs os s) :
    Kept qs os (countTrap s e) := by
  unfold countTrap
  repeat' (first | with_reducible assumption | with_reducible apply rcPulse_kept | refine kept_upd ?_ rfl rfl rfl rfl rfl rfl rfl rfl rfl rfl rfl rfl)

theorem cacheLine_kept (s : State) (e : Nat) (a : Dword) (hs : Kept qs os s) :
    Kept qs os (cacheLine s e a) := by
  unfold cacheLine
  repeat' (first | with_reducible assumption | with_reducible apply kept_ite | refine kept_upd ?_ rfl rfl rfl rfl rfl rfl rfl rfl rfl rfl rfl rfl)

theorem invalidate_kept (s : State) (e : Nat) (hs : Kept qs os s) :
    Kept qs os (invalidate s e) := by
  unfold invalidate
  repeat' (first | with_reducible assumption | refine kept_upd ?_ rfl rfl rfl rfl rfl rfl rfl rfl rfl rfl rfl rfl)

theorem putScript_kept (s : State) (n : Nat) (sc : Script) (hs : Kept qs os s) :
    Kept qs os (putScript s n sc) := by
  unfold putScript
  repeat' (first | with_reducible assumption | with_reducible apply modP_kept)

theorem raise_kept (s : State) (k n : Nat) (sc : Script) (cause : Byte) (v : Word) (hs : Kept qs os s) :
    Kept qs os (raise s k n sc cause v) := by
  unfold raise
  repeat' (first | with_reducible assumption | ((fail_if_success (fail_if_success extract_lets)); extract_lets +onlyGivenNames kx; (fail_if_success (have : True := kx)); (refine kept_cut qs os kx ?_ fun _ => ?_; unfold kx; rotate_left; clear_value kx; rotate_right); all_goals have kx := True.intro) | with_reducible apply putScript_kept | with_reducible apply countTrap_kept | with_reducible apply programCheck_kept | split)

theorem settleEff_kept (k n : Nat) (sc : Script) (e : Eff) (s : State) (he : EffKept qs os e) (hs : Kept qs os s) :
    Kept qs os (settleEff k n sc e s) := by
  cases e with
  | go s r post => exact he.2 _ (putScript_kept _ _ _ he.1)
  | jump s r => exact putScript_kept _ _ _ he
  | trap c v => exact raise_kept _ _ _ _ _ _ hs
  | stall s st post => exact he.2 _ (putScript_kept _ _ _ he.1)
  | stop s => exact he
  | limit d => exact programCheck_kept _ _ _ _ _ _ (putScript_kept _ _ _ hs)

theorem issueEngine_kept (key k : Nat) (w : Word) (legal : Bool) (f : Effect') (s : State)
    (hf : ∀ s x w, Kept qs os s → EffKept qs os (f s x w)) (hs : Kept qs os s) : Kept qs os (issueEngine key k w legal f s) := by
  unfold issueEngine
  dsimp only
  split
  · exact hs
  · refine kept_ite (kept_ite (boundary_kept _ _ _ hs) hs) (kept_ite hs (kept_ite hs ?_))
    have h : ∀ ce, Kept qs os { s with ce := ce } := fun ce => kept_upd hs rfl rfl rfl rfl rfl rfl rfl rfl rfl rfl rfl rfl
    refine kept_ite (raise_kept _ _ _ _ _ _ (h _)) (kept_ite hs (kept_ite ?_ (kept_ite ?_ ?_)))
    · exact raise_kept _ _ _ _ _ _ (cacheLine_kept _ _ _ (h _))
    · exact settleEff_kept _ _ _ _ _ (hf _ _ _ (cacheLine_kept _ _ _ (h _))) (cacheLine_kept _ _ _ (h _))
    · exact putScript_kept _ _ _ (cacheLine_kept _ _ _ (h _))

theorem setCp_kept (s : State) (c : Cp) (hs : Kept qs os s) :
    Kept qs os (setCp s c) := by
  unfold setCp
  repeat' (first | with_reducible assumption | refine kept_upd ?_ rfl rfl rfl rfl rfl rfl rfl rfl rfl rfl rfl rfl)

theorem cpRaise_kept (s : State) (cause : Byte) (v : Word) (hs : Kept qs os s) :
    Kept qs os (cpRaise s cause v) := by
  unfold cpRaise
  repeat' (first | with_reducible assumption | with_reducible apply setCp_kept | with_reducible apply cpFault_kept | split)

theorem settleCp_kept (e : Eff) (s : State) (he : EffKept qs os e) (hs : Kept qs os s) : Kept qs os (settleCp e s) := by
  cases e with
  | go s r post => exact he.2 _ (setCp_kept _ _ he.1)
  | jump s r => exact setCp_kept _ _ he
  | trap c v => exact cpRaise_kept _ _ _ hs
  | stall s st post => exact he.2 _ (setCp_kept _ _ he.1)
  | stop s => exact he
  | limit d => exact hs

theorem issueCp_kept (key : Nat) (w : Word) (legal : Bool) (f : Effect') (s : State)
    (hf : ∀ s x w, Kept qs os s → EffKept qs os (f s x w)) (hs : Kept qs os s) : Kept qs os (issueCp key w legal f s) := by
  unfold issueCp
  dsimp only
  have h : ∀ c, Kept qs os (setCp s c) := fun c => setCp_kept _ _ hs
  refine kept_ite hs (kept_ite hs (kept_ite (cpRaise_kept _ _ _ (h _)) (kept_ite hs (kept_ite (cpRaise_kept _ _ _ (h _)) (kept_ite ?_ ?_)))))
  · exact settleCp_kept _ _ (hf _ _ _ (h _)) (h _)
  · exact setCp_kept _ _ (h _)

theorem issue_kept (key : Nat) (c : Core) (w : Word) (f : Effect') (s : State)
    (hf : ∀ s x w, Kept qs os s → EffKept qs os (f s x w)) (hs : Kept qs os s) : ResKept qs os (issue key c w f s) := by
  cases c with
  | engine k => exact resKept_next (issueEngine_kept _ _ _ _ _ _ hf hs)
  | control => exact resKept_next (issueCp_kept _ _ _ _ _ hf hs)

theorem issuePrefix_kept (key : Nat) (c : Core) (w nxt : Word) (f : Effect') (s : State) (hf : ∀ s x w, Kept qs os s → EffKept qs os (f s x w)) (hs : Kept qs os s) :
    ResKept qs os (issuePrefix key c w nxt f s) := by
  unfold issuePrefix
  repeat' (first | with_reducible assumption | with_reducible apply resKept_next | with_reducible apply resKept_fault | with_reducible apply resKept_ite | split | with_reducible apply issueEngine_kept | with_reducible apply issueCp_kept | apply hf | with_reducible apply kept_ite | split | with_reducible apply effKept_ite | with_reducible apply effKept_go | with_reducible apply effKept_jump | with_reducible apply effKept_stall | with_reducible apply effKept_stop | with_reducible apply effKept_trap | with_reducible apply effKept_limit | unfold id)

theorem effAlu_kept (f : Word → Word → Word) (y0 : State) (y1 : Cx) (y2 : Word) (hy0 : Kept qs os y0) :
    EffKept qs os (effAlu f y0 y1 y2) := by
  unfold effAlu
  repeat' (first | with_reducible assumption | with_reducible apply done_kept)

theorem effUnary_kept (f : Word → Word) (y0 : State) (y1 : Cx) (y2 : Word) (hy0 : Kept qs os y0) :
    EffKept qs os (effUnary f y0 y1 y2) := by
  unfold effUnary
  repeat' (first | with_reducible assumption | with_reducible apply done_kept)

theorem effAluV_kept (f : Word → Word → Word × Bool) (y0 : State) (y1 : Cx) (y2 : Word) (hy0 : Kept qs os y0) :
    EffKept qs os (effAluV f y0 y1 y2) := by
  unfold effAluV
  repeat' (first | with_reducible assumption | ((fail_if_success (fail_if_success extract_lets)); extract_lets +onlyGivenNames kx; (fail_if_success (have : True := kx)); clear_value kx; all_goals have kx := True.intro) | with_reducible apply done_kept)

theorem effImm_kept (f : Word → Word → Word) (y0 : State) (y1 : Cx) (y2 : Word) (hy0 : Kept qs os y0) :
    EffKept qs os (effImm f y0 y1 y2) := by
  unfold effImm
  repeat' (first | with_reducible assumption | with_reducible apply done_kept)

theorem effDiv_kept (signed wantRem : Bool) (y0 : State) (y1 : Cx) (y2 : Word) (hy0 : Kept qs os y0) :
    EffKept qs os (effDiv signed wantRem y0 y1 y2) := by
  unfold effDiv
  repeat' (first | with_reducible assumption | ((fail_if_success (fail_if_success extract_lets)); extract_lets +onlyGivenNames kx; (fail_if_success (have : True := kx)); clear_value kx; all_goals have kx := True.intro) | with_reducible apply effKept_ite | with_reducible apply effKept_trap | with_reducible apply done_kept)

theorem writeData_kept (s : State) (ctl : Bool) (a : Word) (l : List Byte) (hs : Kept qs os s) :
    Kept qs os (writeData s ctl a l) := by
  unfold writeData
  repeat' (first | with_reducible assumption | with_reducible apply writeTcm_kept | with_reducible apply writeLoc_kept | with_reducible apply kept_ite)

theorem effLoad_kept (n : Nat) (conv : List Byte → Word) (y0 : State) (y1 : Cx) (y2 : Word) (hy0 : Kept qs os y0) :
    EffKept qs os (effLoad n conv y0 y1 y2) := by
  unfold effLoad
  repeat' (first | with_reducible assumption | ((fail_if_success (fail_if_success extract_lets)); extract_lets +onlyGivenNames kx; (fail_if_success (have : True := kx)); clear_value kx; all_goals have kx := True.intro) | with_reducible apply effKept_trap | with_reducible apply done_kept | split)

theorem effStore_kept (n : Nat) (y0 : State) (y1 : Cx) (y2 : Word) (hy0 : Kept qs os y0) :
    EffKept qs os (effStore n y0 y1 y2) := by
  unfold effStore
  repeat' (first | with_reducible assumption | ((fail_if_success (fail_if_success extract_lets)); extract_lets +onlyGivenNames kx; (fail_if_success (have : True := kx)); clear_value kx; all_goals have kx := True.intro) | with_reducible apply effKept_trap | with_reducible apply done_kept | with_reducible apply writeData_kept | split)

theorem ctmEff_kept (w a : Word) (r : CtmOut) (f : State → List Byte → Eff) (hr : CtmOutKept qs os r)
    (hf : ∀ s l, Kept qs os s → EffKept qs os (f s l)) : EffKept qs os (ctmEff w a r f) := by
  cases r with
  | ok s l => exact hf _ _ hr
  | waitLine s => exact ⟨hr, fun _ h => h⟩
  | waitEntries s => exact ⟨hr, fun _ h => h⟩
  | lost s => exact hr
  | limit k => trivial
  | ecc => trivial

theorem effCtmLoad_kept (n : Nat) (y0 : State) (y1 : Cx) (y2 : Word) (hy0 : Kept qs os y0) : EffKept qs os (effCtmLoad n y0 y1 y2) := by
  unfold effCtmLoad
  dsimp only
  split
  · trivial
  · refine ctmEff_kept _ _ _ _ ?_ fun _ _ h => done_kept _ _ h
    split
    · exact ctmReadIn_kept _ _ _ _ hy0
    · exact ctmReadOut_kept _ _ _ hy0

theorem effCtmStore_kept (n : Nat) (y0 : State) (y1 : Cx) (y2 : Word) (hy0 : Kept qs os y0) : EffKept qs os (effCtmStore n y0 y1 y2) := by
  unfold effCtmStore
  dsimp only
  split
  · trivial
  · refine ctmEff_kept _ _ _ _ ?_ fun _ _ h => done_kept _ _ h
    split
    · exact ctmWriteIn_kept _ _ _ _ _ _ hy0
    · exact ctmWriteOut_kept _ _ _ hy0

theorem effCrc_kept (n : Nat) (y0 : State) (y1 : Cx) (y2 : Word) (hy0 : Kept qs os y0) :
    EffKept qs os (effCrc n y0 y1 y2) := by
  unfold effCrc
  repeat' (first | with_reducible assumption | ((fail_if_success (fail_if_success extract_lets)); extract_lets +onlyGivenNames kx; (fail_if_success (have : True := kx)); clear_value kx; all_goals have kx := True.intro) | with_reducible apply done_kept)

theorem effCrcM_kept (n : Nat) (y0 : State) (y1 : Cx) (y2 : Word) (hy0 : Kept qs os y0) :
    EffKept qs os (effCrcM n y0 y1 y2) := by
  unfold effCrcM
  repeat' (first | with_reducible assumption | ((fail_if_success (fail_if_success extract_lets)); extract_lets +onlyGivenNames kx; (fail_if_success (have : True := kx)); clear_value kx; all_goals have kx := True.intro) | with_reducible apply effKept_trap | with_reducible apply done_kept | split)

theorem effPrefix_kept (interruptible : Bool) (y0 : State) (y1 : Cx) (y2 : Word) (hy0 : Kept qs os y0) :
    EffKept qs os (effPrefix interruptible y0 y1 y2) := by
  unfold effPrefix
  repeat' (first | with_reducible assumption | with_reducible apply effKept_jump)

end Sys2Proof.Machine
end

