-- ==== Sys2Proof/Laws/KeptScriptRows.lean ====
section
/-!
SUPPORT. Every function of Machine/ScriptRows.lean keeps a sound state, the queue and what was sent.
-/

namespace Sys2Proof.Machine

variable {qs : List Instr} {os : List Out}

theorem effCall_kept (y0 : State) (y1 : Cx) (y2 : Word) (hy0 : Kept qs os y0) :
    EffKept qs os (effCall y0 y1 y2) := by
  unfold effCall
  repeat' (first | with_reducible assumption | with_reducible apply effKept_ite | with_reducible apply effKept_jump | with_reducible apply effKept_trap)

theorem effRet_kept (y0 : State) (y1 : Cx) (y2 : Word) (hy0 : Kept qs os y0) :
    EffKept qs os (effRet y0 y1 y2) := by
  unfold effRet
  repeat' (first | with_reducible assumption | with_reducible apply effKept_jump | with_reducible apply effKept_trap | split)

theorem effLock_kept (y0 : State) (y1 : Cx) (y2 : Word) (hy0 : Kept qs os y0) :
    EffKept qs os (effLock y0 y1 y2) := by
  unfold effLock
  repeat' (first | with_reducible assumption | (first | (intro _ hk; have := hk.queue) | (intro _ _ hk; have := hk.queue) | (intro _ _ _ hk; have := hk.queue); clear this) | ((fail_if_success (fail_if_success extract_lets)); extract_lets +onlyGivenNames kx; (fail_if_success (have : True := kx)); clear_value kx; all_goals have kx := True.intro) | with_reducible apply effKept_ite | with_reducible apply effKept_stall | with_reducible apply effKept_trap | with_reducible apply lockOp_kept | with_reducible apply done_kept | with_reducible refine kept_of_fst (by assumption) ?_ | split | unfold id)

theorem effUnlock_kept (y0 : State) (y1 : Cx) (y2 : Word) (hy0 : Kept qs os y0) :
    EffKept qs os (effUnlock y0 y1 y2) := by
  unfold effUnlock
  repeat' (first | with_reducible assumption | (first | (intro _ hk; have := hk.queue) | (intro _ _ hk; have := hk.queue) | (intro _ _ _ hk; have := hk.queue); clear this) | ((fail_if_success (fail_if_success extract_lets)); extract_lets +onlyGivenNames kx; (fail_if_success (have : True := kx)); clear_value kx; all_goals have kx := True.intro) | with_reducible apply effKept_stall | with_reducible apply effKept_trap | with_reducible apply unlockOp_kept | with_reducible apply done_kept | with_reducible refine kept_of_fst (by assumption) ?_ | split | unfold id)

theorem setTicket_kept (s : State) (x : Cx) (t : Nat) (v : Ticket) (hs : Kept qs os s) :
    Kept qs os (setTicket s x t v) := by
  unfold setTicket
  repeat' (first | with_reducible assumption | with_reducible apply setCp_kept | with_reducible apply modP_kept | with_reducible apply kept_ite)

theorem limitHold_kept (s : State) (x : Cx) (hs : Kept qs os s) :
    Kept qs os (limitHold s x) := by
  unfold limitHold
  repeat' (first | with_reducible assumption | (first | (intro _ hk; have := hk.queue) | (intro _ _ hk; have := hk.queue) | (intro _ _ _ hk; have := hk.queue); clear this) | intro _ | with_reducible apply modP_kept | with_reducible apply saveFrame_kept | with_reducible apply leaveSlot_kept | with_reducible apply kept_ite | split | refine kept_upd ?_ rfl rfl rfl rfl rfl rfl rfl rfl rfl rfl rfl rfl)

theorem acceptReq_kept (s : State) (x : Cx) (w : Word) (q : MReq) (t : Transfer) (tk : Nat) (hs : Kept qs os s) :
    EffKept qs os (acceptReq s x w q t tk) := by
  unfold acceptReq
  repeat' (first | with_reducible assumption | (first | (intro _ hk; have := hk.queue) | (intro _ _ hk; have := hk.queue) | (intro _ _ _ hk; have := hk.queue); clear this) | ((fail_if_success (fail_if_success extract_lets)); extract_lets +onlyGivenNames kx; (fail_if_success (have : True := kx)); clear_value kx; all_goals have kx := True.intro) | with_reducible apply effKept_go | with_reducible apply effKept_stall | with_reducible apply acceptOn_kept | with_reducible apply setTicket_kept | with_reducible apply limitHold_kept | with_reducible refine kept_of_some (by assumption) ?_ | split | unfold id)

theorem movreqWith_kept (base : State → Cx → MReq → BaseGot) (y0 : State) (y1 : Cx) (y2 : Word) (hy0 : Kept qs os y0) :
    EffKept qs os (movreqWith base y0 y1 y2) := by
  unfold movreqWith
  repeat' (first | with_reducible assumption | (first | (intro _ hk; have := hk.queue) | (intro _ _ hk; have := hk.queue) | (intro _ _ _ hk; have := hk.queue); clear this) | ((fail_if_success (fail_if_success extract_lets)); extract_lets +onlyGivenNames kx; (fail_if_success (have : True := kx)); clear_value kx; all_goals have kx := True.intro) | with_reducible apply effKept_stall | with_reducible apply effKept_trap | with_reducible apply acceptReq_kept | with_reducible apply done_kept | with_reducible apply writeData_kept | with_reducible apply setTicket_kept | split | unfold id)

theorem effMovreq_kept (y0 : State) (y1 : Cx) (y2 : Word) (hy0 : Kept qs os y0) :
    EffKept qs os (effMovreq y0 y1 y2) := by
  unfold effMovreq
  repeat' (first | with_reducible assumption | with_reducible apply movreqWith_kept)

theorem effMovwt_kept (y0 : State) (y1 : Cx) (y2 : Word) (hy0 : Kept qs os y0) :
    EffKept qs os (effMovwt y0 y1 y2) := by
  unfold effMovwt
  repeat' (first | with_reducible assumption | (first | (intro _ hk; have := hk.queue) | (intro _ _ hk; have := hk.queue) | (intro _ _ _ hk; have := hk.queue); clear this) | ((fail_if_success (fail_if_success extract_lets)); extract_lets +onlyGivenNames kx; (fail_if_success (have : True := kx)); clear_value kx; all_goals have kx := True.intro) | with_reducible apply effKept_ite | with_reducible apply effKept_stall | with_reducible apply done_kept | with_reducible apply setTicket_kept | split | unfold id)

theorem leaveWaiting_kept (s : State) (n : Nat) (hs : Kept qs os s) :
    Kept qs os (leaveWaiting s n) := by
  unfold leaveWaiting
  repeat' (first | with_reducible assumption | (first | (intro _ hk; have := hk.queue) | (intro _ _ hk; have := hk.queue) | (intro _ _ _ hk; have := hk.queue); clear this) | intro _ | with_reducible apply haltAct_kept | with_reducible apply modP_kept | with_reducible apply saveFrame_kept | with_reducible apply leaveSlot_kept | with_reducible apply kept_ite | split | refine kept_upd ?_ rfl rfl rfl rfl rfl rfl rfl rfl rfl rfl rfl rfl)

theorem effWait_kept (y0 : State) (y1 : Cx) (y2 : Word) (hy0 : Kept qs os y0) :
    EffKept qs os (effWait y0 y1 y2) := by
  unfold effWait
  repeat' (first | with_reducible assumption | (first | (intro _ hk; have := hk.queue) | (intro _ _ hk; have := hk.queue) | (intro _ _ _ hk; have := hk.queue); clear this) | intro _ | ((fail_if_success (fail_if_success extract_lets)); extract_lets +onlyGivenNames kx; (fail_if_success (have : True := kx)); (first | (refine kept_cut qs os kx ?_ fun _ => ?_; unfold kx; rotate_left; clear_value kx; rotate_right) | (refine kept_cut qs os kx.1 ?_ fun _ => ?_; unfold kx; rotate_left; clear_value kx; rotate_right) | (first | have := (kx : State → _) | have := (kx : Twin) | have := (kx : Mem) | have := (kx : Hu) | have := (kx : Sec); clear this) | clear_value kx); all_goals have kx := True.intro) | with_reducible apply effKept_ite | with_reducible apply effKept_go | with_reducible apply effKept_jump | with_reducible apply effKept_stall | with_reducible apply effKept_stop | with_reducible apply effKept_trap | with_reducible apply effKept_limit | with_reducible apply done_kept | with_reducible apply setP_kept | with_reducible apply leaveWaiting_kept | with_reducible apply kept_ite | split | refine kept_upd ?_ rfl rfl rfl rfl rfl rfl rfl rfl rfl rfl rfl rfl)

theorem effSignal_kept (y0 : State) (y1 : Cx) (y2 : Word) (hy0 : Kept qs os y0) :
    EffKept qs os (effSignal y0 y1 y2) := by
  unfold effSignal
  repeat' (first | with_reducible assumption | ((fail_if_success (fail_if_success extract_lets)); extract_lets +onlyGivenNames kx; (fail_if_success (have : True := kx)); clear_value kx; all_goals have kx := True.intro) | with_reducible apply effKept_ite | with_reducible apply effKept_stop | with_reducible apply effKept_trap | with_reducible apply effKept_limit | with_reducible apply done_kept | with_reducible apply applySignal_kept | with_reducible apply stage_kept | with_reducible refine stagedKept_of_ok (by assumption) ?_ | with_reducible refine stagedKept_of_lost (by assumption) ?_ | split)

theorem execScAdd_kept (c : Core) (w : Word) (s : State) (hs : Kept qs os s) :
    ResKept qs os (execScAdd c w s) := by
  unfold execScAdd
  repeat' (first | with_reducible assumption | with_reducible apply issue_kept | with_reducible apply effAluV_kept)

theorem execScSub_kept (c : Core) (w : Word) (s : State) (hs : Kept qs os s) :
    ResKept qs os (execScSub c w s) := by
  unfold execScSub
  repeat' (first | with_reducible assumption | with_reducible apply issue_kept | with_reducible apply effAluV_kept)

theorem execScAnd_kept (c : Core) (w : Word) (s : State) (hs : Kept qs os s) :
    ResKept qs os (execScAnd c w s) := by
  unfold execScAnd
  repeat' (first | with_reducible assumption | with_reducible apply issue_kept | with_reducible apply effAlu_kept)

theorem execScOr_kept (c : Core) (w : Word) (s : State) (hs : Kept qs os s) :
    ResKept qs os (execScOr c w s) := by
  unfold execScOr
  repeat' (first | with_reducible assumption | with_reducible apply issue_kept | with_reducible apply effAlu_kept)

theorem execScXor_kept (c : Core) (w : Word) (s : State) (hs : Kept qs os s) :
    ResKept qs os (execScXor c w s) := by
  unfold execScXor
  repeat' (first | with_reducible assumption | with_reducible apply issue_kept | with_reducible apply effAlu_kept)

theorem execScAndn_kept (c : Core) (w : Word) (s : State) (hs : Kept qs os s) :
    ResKept qs os (execScAndn c w s) := by
  unfold execScAndn
  repeat' (first | with_reducible assumption | (first | (intro _ hk; have := hk.queue) | (intro _ _ hk; have := hk.queue) | (intro _ _ _ hk; have := hk.queue); clear this) | with_reducible apply issue_kept | with_reducible apply effAlu_kept)

theorem execScShl_kept (c : Core) (w : Word) (s : State) (hs : Kept qs os s) :
    ResKept qs os (execScShl c w s) := by
  unfold execScShl
  repeat' (first | with_reducible assumption | with_reducible apply issue_kept | with_reducible apply effAlu_kept)

theorem execScShr_kept (c : Core) (w : Word) (s : State) (hs : Kept qs os s) :
    ResKept qs os (execScShr c w s) := by
  unfold execScShr
  repeat' (first | with_reducible assumption | with_reducible apply issue_kept | with_reducible apply effAlu_kept)

theorem execScSar_kept (c : Core) (w : Word) (s : State) (hs : Kept qs os s) :
    ResKept qs os (execScSar c w s) := by
  unfold execScSar
  repeat' (first | with_reducible assumption | with_reducible apply issue_kept | with_reducible apply effAlu_kept)

theorem execScRol_kept (c : Core) (w : Word) (s : State) (hs : Kept qs os s) :
    ResKept qs os (execScRol c w s) := by
  unfold execScRol
  repeat' (first | with_reducible assumption | with_reducible apply issue_kept | with_reducible apply effAlu_kept)

theorem execScRor_kept (c : Core) (w : Word) (s : State) (hs : Kept qs os s) :
    ResKept qs os (execScRor c w s) := by
  unfold execScRor
  repeat' (first | with_reducible assumption | with_reducible apply issue_kept | with_reducible apply effAlu_kept)

theorem execScMul_kept (c : Core) (w : Word) (s : State) (hs : Kept qs os s) :
    ResKept qs os (execScMul c w s) := by
  unfold execScMul
  repeat' (first | with_reducible assumption | with_reducible apply issue_kept | with_reducible apply effAlu_kept)

theorem execScMulhs_kept (c : Core) (w : Word) (s : State) (hs : Kept qs os s) :
    ResKept qs os (execScMulhs c w s) := by
  unfold execScMulhs
  repeat' (first | with_reducible assumption | with_reducible apply issue_kept | with_reducible apply effAlu_kept)

theorem execScMulhu_kept (c : Core) (w : Word) (s : State) (hs : Kept qs os s) :
    ResKept qs os (execScMulhu c w s) := by
  unfold execScMulhu
  repeat' (first | with_reducible assumption | with_reducible apply issue_kept | with_reducible apply effAlu_kept)

theorem execScDivs_kept (c : Core) (w : Word) (s : State) (hs : Kept qs os s) :
    ResKept qs os (execScDivs c w s) := by
  unfold execScDivs
  repeat' (first | with_reducible assumption | with_reducible apply issue_kept | with_reducible apply effDiv_kept)

theorem execScDivu_kept (c : Core) (w : Word) (s : State) (hs : Kept qs os s) :
    ResKept qs os (execScDivu c w s) := by
  unfold execScDivu
  repeat' (first | with_reducible assumption | with_reducible apply issue_kept | with_reducible apply effDiv_kept)

theorem execScRems_kept (c : Core) (w : Word) (s : State) (hs : Kept qs os s) :
    ResKept qs os (execScRems c w s) := by
  unfold execScRems
  repeat' (first | with_reducible assumption | with_reducible apply issue_kept | with_reducible apply effDiv_kept)

theorem execScRemu_kept (c : Core) (w : Word) (s : State) (hs : Kept qs os s) :
    ResKept qs os (execScRemu c w s) := by
  unfold execScRemu
  repeat' (first | with_reducible assumption | with_reducible apply issue_kept | with_reducible apply effDiv_kept)

theorem execScMin_kept (c : Core) (w : Word) (s : State) (hs : Kept qs os s) :
    ResKept qs os (execScMin c w s) := by
  unfold execScMin
  repeat' (first | with_reducible assumption | with_reducible apply issue_kept | with_reducible apply effAlu_kept)

theorem execScMax_kept (c : Core) (w : Word) (s : State) (hs : Kept qs os s) :
    ResKept qs os (execScMax c w s) := by
  unfold execScMax
  repeat' (first | with_reducible assumption | with_reducible apply issue_kept | with_reducible apply effAlu_kept)

theorem execScMinu_kept (c : Core) (w : Word) (s : State) (hs : Kept qs os s) :
    ResKept qs os (execScMinu c w s) := by
  unfold execScMinu
  repeat' (first | with_reducible assumption | with_reducible apply issue_kept | with_reducible apply effAlu_kept)

theorem execScMaxu_kept (c : Core) (w : Word) (s : State) (hs : Kept qs os s) :
    ResKept qs os (execScMaxu c w s) := by
  unfold execScMaxu
  repeat' (first | with_reducible assumption | with_reducible apply issue_kept | with_reducible apply effAlu_kept)

theorem execScNeg_kept (c : Core) (w : Word) (s : State) (hs : Kept qs os s) :
    ResKept qs os (execScNeg c w s) := by
  unfold execScNeg
  repeat' (first | with_reducible assumption | (first | (intro _ hk; have := hk.queue) | (intro _ _ hk; have := hk.queue) | (intro _ _ _ hk; have := hk.queue); clear this) | with_reducible apply issue_kept | with_reducible apply effAluV_kept)

theorem execScNot_kept (c : Core) (w : Word) (s : State) (hs : Kept qs os s) :
    ResKept qs os (execScNot c w s) := by
  unfold execScNot
  repeat' (first | with_reducible assumption | with_reducible apply issue_kept | with_reducible apply effUnary_kept)

theorem execScBrev_kept (c : Core) (w : Word) (s : State) (hs : Kept qs os s) :
    ResKept qs os (execScBrev c w s) := by
  unfold execScBrev
  repeat' (first | with_reducible assumption | with_reducible apply issue_kept | with_reducible apply effUnary_kept)

theorem execScBrevb_kept (c : Core) (w : Word) (s : State) (hs : Kept qs os s) :
    ResKept qs os (execScBrevb c w s) := by
  unfold execScBrevb
  repeat' (first | with_reducible assumption | with_reducible apply issue_kept | with_reducible apply effUnary_kept)

theorem execScPar8_kept (c : Core) (w : Word) (s : State) (hs : Kept qs os s) :
    ResKept qs os (execScPar8 c w s) := by
  unfold execScPar8
  repeat' (first | with_reducible assumption | with_reducible apply issue_kept | with_reducible apply effUnary_kept)

theorem execScPar32_kept (c : Core) (w : Word) (s : State) (hs : Kept qs os s) :
    ResKept qs os (execScPar32 c w s) := by
  unfold execScPar32
  repeat' (first | with_reducible assumption | with_reducible apply issue_kept | with_reducible apply effUnary_kept)

theorem execScClz_kept (c : Core) (w : Word) (s : State) (hs : Kept qs os s) :
    ResKept qs os (execScClz c w s) := by
  unfold execScClz
  repeat' (first | with_reducible assumption | with_reducible apply issue_kept | with_reducible apply effUnary_kept)

theorem execScPopc_kept (c : Core) (w : Word) (s : State) (hs : Kept qs os s) :
    ResKept qs os (execScPopc c w s) := by
  unfold execScPopc
  repeat' (first | with_reducible assumption | with_reducible apply issue_kept | with_reducible apply effUnary_kept)

theorem execScBswap_kept (c : Core) (w : Word) (s : State) (hs : Kept qs os s) :
    ResKept qs os (execScBswap c w s) := by
  unfold execScBswap
  repeat' (first | with_reducible assumption | with_reducible apply issue_kept | with_reducible apply effUnary_kept)

theorem execScCrcb_kept (c : Core) (w : Word) (s : State) (hs : Kept qs os s) :
    ResKept qs os (execScCrcb c w s) := by
  unfold execScCrcb
  repeat' (first | with_reducible assumption | with_reducible apply issue_kept | with_reducible apply effCrc_kept)

theorem execScCrch_kept (c : Core) (w : Word) (s : State) (hs : Kept qs os s) :
    ResKept qs os (execScCrch c w s) := by
  unfold execScCrch
  repeat' (first | with_reducible assumption | with_reducible apply issue_kept | with_reducible apply effCrc_kept)

theorem execScCrcw_kept (c : Core) (w : Word) (s : State) (hs : Kept qs os s) :
    ResKept qs os (execScCrcw c w s) := by
  unfold execScCrcw
  repeat' (first | with_reducible assumption | with_reducible apply issue_kept | with_reducible apply effCrc_kept)

theorem execScCrcbM_kept (c : Core) (w : Word) (s : State) (hs : Kept qs os s) :
    ResKept qs os (execScCrcbM c w s) := by
  unfold execScCrcbM
  repeat' (first | with_reducible assumption | with_reducible apply issue_kept | with_reducible apply effCrcM_kept)

theorem execScCrchM_kept (c : Core) (w : Word) (s : State) (hs : Kept qs os s) :
    ResKept qs os (execScCrchM c w s) := by
  unfold execScCrchM
  repeat' (first | with_reducible assumption | with_reducible apply issue_kept | with_reducible apply effCrcM_kept)

theorem execScCrcwM_kept (c : Core) (w : Word) (s : State) (hs : Kept qs os s) :
    ResKept qs os (execScCrcwM c w s) := by
  unfold execScCrcwM
  repeat' (first | with_reducible assumption | with_reducible apply issue_kept | with_reducible apply effCrcM_kept)

theorem execScAddi_kept (c : Core) (w : Word) (s : State) (hs : Kept qs os s) :
    ResKept qs os (execScAddi c w s) := by
  unfold execScAddi
  repeat' (first | with_reducible assumption | (first | (intro _ hk; have := hk.queue) | (intro _ _ hk; have := hk.queue) | (intro _ _ _ hk; have := hk.queue); clear this) | ((fail_if_success (fail_if_success extract_lets)); extract_lets +onlyGivenNames kx; (fail_if_success (have : True := kx)); clear_value kx; all_goals have kx := True.intro) | with_reducible apply issue_kept | with_reducible apply effKept_go | unfold id)

theorem execScAndi_kept (c : Core) (w : Word) (s : State) (hs : Kept qs os s) :
    ResKept qs os (execScAndi c w s) := by
  unfold execScAndi
  repeat' (first | with_reducible assumption | with_reducible apply issue_kept | with_reducible apply effImm_kept)

theorem execScOri_kept (c : Core) (w : Word) (s : State) (hs : Kept qs os s) :
    ResKept qs os (execScOri c w s) := by
  unfold execScOri
  repeat' (first | with_reducible assumption | with_reducible apply issue_kept | with_reducible apply effImm_kept)

theorem execScXori_kept (c : Core) (w : Word) (s : State) (hs : Kept qs os s) :
    ResKept qs os (execScXori c w s) := by
  unfold execScXori
  repeat' (first | with_reducible assumption | with_reducible apply issue_kept | with_reducible apply effImm_kept)

theorem execScShli_kept (c : Core) (w : Word) (s : State) (hs : Kept qs os s) :
    ResKept qs os (execScShli c w s) := by
  unfold execScShli
  repeat' (first | with_reducible assumption | with_reducible apply issue_kept | with_reducible apply effImm_kept)

theorem execScShri_kept (c : Core) (w : Word) (s : State) (hs : Kept qs os s) :
    ResKept qs os (execScShri c w s) := by
  unfold execScShri
  repeat' (first | with_reducible assumption | with_reducible apply issue_kept | with_reducible apply effImm_kept)

theorem execScSari_kept (c : Core) (w : Word) (s : State) (hs : Kept qs os s) :
    ResKept qs os (execScSari c w s) := by
  unfold execScSari
  repeat' (first | with_reducible assumption | with_reducible apply issue_kept | with_reducible apply effImm_kept)

theorem execScRori_kept (c : Core) (w : Word) (s : State) (hs : Kept qs os s) :
    ResKept qs os (execScRori c w s) := by
  unfold execScRori
  repeat' (first | with_reducible assumption | with_reducible apply issue_kept | with_reducible apply effImm_kept)

theorem execScMovl_kept (c : Core) (w : Word) (s : State) (hs : Kept qs os s) :
    ResKept qs os (execScMovl c w s) := by
  unfold execScMovl
  repeat' (first | with_reducible assumption | (first | (intro _ hk; have := hk.queue) | (intro _ _ hk; have := hk.queue) | (intro _ _ _ hk; have := hk.queue); clear this) | with_reducible apply issue_kept | with_reducible apply done_kept)

theorem execScMovh_kept (c : Core) (w : Word) (s : State) (hs : Kept qs os s) :
    ResKept qs os (execScMovh c w s) := by
  unfold execScMovh
  repeat' (first | with_reducible assumption | (first | (intro _ hk; have := hk.queue) | (intro _ _ hk; have := hk.queue) | (intro _ _ _ hk; have := hk.queue); clear this) | with_reducible apply issue_kept | with_reducible apply done_kept)

theorem execScLdb_kept (c : Core) (w : Word) (s : State) (hs : Kept qs os s) :
    ResKept qs os (execScLdb c w s) := by
  unfold execScLdb
  repeat' (first | with_reducible assumption | with_reducible apply issue_kept | with_reducible apply effLoad_kept)

theorem execScLdbu_kept (c : Core) (w : Word) (s : State) (hs : Kept qs os s) :
    ResKept qs os (execScLdbu c w s) := by
  unfold execScLdbu
  repeat' (first | with_reducible assumption | with_reducible apply issue_kept | with_reducible apply effLoad_kept)

theorem execScLdh_kept (c : Core) (w : Word) (s : State) (hs : Kept qs os s) :
    ResKept qs os (execScLdh c w s) := by
  unfold execScLdh
  repeat' (first | with_reducible assumption | with_reducible apply issue_kept | with_reducible apply effLoad_kept)

theorem execScLdhu_kept (c : Core) (w : Word) (s : State) (hs : Kept qs os s) :
    ResKept qs os (execScLdhu c w s) := by
  unfold execScLdhu
  repeat' (first | with_reducible assumption | with_reducible apply issue_kept | with_reducible apply effLoad_kept)

theorem execScLdw_kept (c : Core) (w : Word) (s : State) (hs : Kept qs os s) :
    ResKept qs os (execScLdw c w s) := by
  unfold execScLdw
  repeat' (first | with_reducible assumption | with_reducible apply issue_kept | with_reducible apply effLoad_kept)

theorem execScStb_kept (c : Core) (w : Word) (s : State) (hs : Kept qs os s) :
    ResKept qs os (execScStb c w s) := by
  unfold execScStb
  repeat' (first | with_reducible assumption | with_reducible apply issue_kept | with_reducible apply effStore_kept)

theorem execScSth_kept (c : Core) (w : Word) (s : State) (hs : Kept qs os s) :
    ResKept qs os (execScSth c w s) := by
  unfold execScSth
  repeat' (first | with_reducible assumption | with_reducible apply issue_kept | with_reducible apply effStore_kept)

theorem execScStw_kept (c : Core) (w : Word) (s : State) (hs : Kept qs os s) :
    ResKept qs os (execScStw c w s) := by
  unfold execScStw
  repeat' (first | with_reducible assumption | with_reducible apply issue_kept | with_reducible apply effStore_kept)

theorem execScLdcbu_kept (c : Core) (w : Word) (s : State) (hs : Kept qs os s) :
    ResKept qs os (execScLdcbu c w s) := by
  unfold execScLdcbu
  repeat' (first | with_reducible assumption | with_reducible apply issue_kept | with_reducible apply effCtmLoad_kept)

theorem execScLdchu_kept (c : Core) (w : Word) (s : State) (hs : Kept qs os s) :
    ResKept qs os (execScLdchu c w s) := by
  unfold execScLdchu
  repeat' (first | with_reducible assumption | with_reducible apply issue_kept | with_reducible apply effCtmLoad_kept)

theorem execScLdcw_kept (c : Core) (w : Word) (s : State) (hs : Kept qs os s) :
    ResKept qs os (execScLdcw c w s) := by
  unfold execScLdcw
  repeat' (first | with_reducible assumption | with_reducible apply issue_kept | with_reducible apply effCtmLoad_kept)

theorem execScStcb_kept (c : Core) (w : Word) (s : State) (hs : Kept qs os s) :
    ResKept qs os (execScStcb c w s) := by
  unfold execScStcb
  repeat' (first | with_reducible assumption | with_reducible apply issue_kept | with_reducible apply effCtmStore_kept)

theorem execScStch_kept (c : Core) (w : Word) (s : State) (hs : Kept qs os s) :
    ResKept qs os (execScStch c w s) := by
  unfold execScStch
  repeat' (first | with_reducible assumption | with_reducible apply issue_kept | with_reducible apply effCtmStore_kept)

theorem execScStcw_kept (c : Core) (w : Word) (s : State) (hs : Kept qs os s) :
    ResKept qs os (execScStcw c w s) := by
  unfold execScStcw
  repeat' (first | with_reducible assumption | with_reducible apply issue_kept | with_reducible apply effCtmStore_kept)

theorem execScCmp_kept (c : Core) (w : Word) (s : State) (hs : Kept qs os s) :
    ResKept qs os (execScCmp c w s) := by
  unfold execScCmp
  repeat' (first | with_reducible assumption | (first | (intro _ hk; have := hk.queue) | (intro _ _ hk; have := hk.queue) | (intro _ _ _ hk; have := hk.queue); clear this) | with_reducible apply issue_kept | with_reducible apply done_kept)

theorem execScCmpi_kept (c : Core) (w : Word) (s : State) (hs : Kept qs os s) :
    ResKept qs os (execScCmpi c w s) := by
  unfold execScCmpi
  repeat' (first | with_reducible assumption | (first | (intro _ hk; have := hk.queue) | (intro _ _ hk; have := hk.queue) | (intro _ _ _ hk; have := hk.queue); clear this) | with_reducible apply issue_kept | with_reducible apply done_kept)

theorem execScPlog_kept (c : Core) (w : Word) (s : State) (hs : Kept qs os s) :
    ResKept qs os (execScPlog c w s) := by
  unfold execScPlog
  repeat' (first | with_reducible assumption | (first | (intro _ hk; have := hk.queue) | (intro _ _ hk; have := hk.queue) | (intro _ _ _ hk; have := hk.queue); clear this) | with_reducible apply issue_kept | with_reducible apply done_kept)

theorem execScBr_kept (c : Core) (w : Word) (s : State) (hs : Kept qs os s) :
    ResKept qs os (execScBr c w s) := by
  unfold execScBr
  repeat' (first | with_reducible assumption | (first | (intro _ hk; have := hk.queue) | (intro _ _ hk; have := hk.queue) | (intro _ _ _ hk; have := hk.queue); clear this) | with_reducible apply issue_kept | with_reducible apply effKept_jump)

theorem execScCall_kept (c : Core) (w : Word) (s : State) (hs : Kept qs os s) :
    ResKept qs os (execScCall c w s) := by
  unfold execScCall
  repeat' (first | with_reducible assumption | with_reducible apply issue_kept | with_reducible apply effCall_kept)

theorem execScCalll_kept (c : Core) (w : Word) (s : State) (hs : Kept qs os s) :
    ResKept qs os (execScCalll c w s) := by
  unfold execScCalll
  repeat' (first | with_reducible assumption | (first | (intro _ hk; have := hk.queue) | (intro _ _ hk; have := hk.queue) | (intro _ _ _ hk; have := hk.queue); clear this) | with_reducible apply issue_kept | refine kept_upd ?_ rfl rfl rfl rfl rfl rfl rfl rfl rfl rfl rfl rfl)

theorem execScJr_kept (c : Core) (w : Word) (s : State) (hs : Kept qs os s) :
    ResKept qs os (execScJr c w s) := by
  unfold execScJr
  repeat' (first | with_reducible assumption | (first | (intro _ hk; have := hk.queue) | (intro _ _ hk; have := hk.queue) | (intro _ _ _ hk; have := hk.queue); clear this) | ((fail_if_success (fail_if_success extract_lets)); extract_lets +onlyGivenNames kx; (fail_if_success (have : True := kx)); clear_value kx; all_goals have kx := True.intro) | with_reducible apply issue_kept | split | with_reducible apply effKept_jump | with_reducible apply effKept_trap)

theorem execScRet_kept (c : Core) (w : Word) (s : State) (hs : Kept qs os s) :
    ResKept qs os (execScRet c w s) := by
  unfold execScRet
  repeat' (first | with_reducible assumption | with_reducible apply issue_kept | with_reducible apply effRet_kept)

theorem execScRetl_kept (c : Core) (w : Word) (s : State) (hs : Kept qs os s) :
    ResKept qs os (execScRetl c w s) := by
  unfold execScRetl
  repeat' (first | with_reducible assumption | (first | (intro _ hk; have := hk.queue) | (intro _ _ hk; have := hk.queue) | (intro _ _ _ hk; have := hk.queue); clear this) | with_reducible apply issue_kept | with_reducible apply effKept_jump)

theorem execScEnd_kept (c : Core) (w : Word) (s : State) (hs : Kept qs os s) :
    ResKept qs os (execScEnd c w s) := by
  unfold execScEnd
  repeat' (first | with_reducible assumption | (first | (intro _ hk; have := hk.queue) | (intro _ _ hk; have := hk.queue) | (intro _ _ _ hk; have := hk.queue); clear this) | with_reducible apply issue_kept | with_reducible apply resumeEnding_kept | with_reducible apply effKept_stall)

theorem execScTrap_kept (c : Core) (w : Word) (s : State) (hs : Kept qs os s) :
    ResKept qs os (execScTrap c w s) := by
  unfold execScTrap
  repeat' (first | with_reducible assumption | (first | (intro _ hk; have := hk.queue) | (intro _ _ hk; have := hk.queue) | (intro _ _ _ hk; have := hk.queue); clear this) | with_reducible apply issue_kept | with_reducible apply effKept_trap)

theorem execScTret_kept (c : Core) (w : Word) (s : State) (hs : Kept qs os s) :
    ResKept qs os (execScTret c w s) := by
  unfold execScTret
  repeat' (first | with_reducible assumption | (first | (intro _ hk; have := hk.queue) | (intro _ _ hk; have := hk.queue) | (intro _ _ _ hk; have := hk.queue); clear this) | with_reducible apply issue_kept | split | refine kept_upd ?_ rfl rfl rfl rfl rfl rfl rfl rfl rfl rfl rfl rfl)

theorem execScMfs_kept (c : Core) (w : Word) (s : State) (hs : Kept qs os s) :
    ResKept qs os (execScMfs c w s) := by
  unfold execScMfs
  repeat' (first | with_reducible assumption | (first | (intro _ hk; have := hk.queue) | (intro _ _ hk; have := hk.queue) | (intro _ _ _ hk; have := hk.queue); clear this) | with_reducible apply issue_kept | with_reducible apply done_kept)

theorem execScMts_kept (c : Core) (w : Word) (s : State) (hs : Kept qs os s) :
    ResKept qs os (execScMts c w s) := by
  unfold execScMts
  repeat' (first | with_reducible assumption | (first | (intro _ hk; have := hk.queue) | (intro _ _ hk; have := hk.queue) | (intro _ _ _ hk; have := hk.queue); clear this) | with_reducible apply issue_kept | with_reducible apply done_kept)

theorem execScIcinv_kept (c : Core) (w : Word) (s : State) (hs : Kept qs os s) :
    ResKept qs os (execScIcinv c w s) := by
  unfold execScIcinv
  repeat' (first | with_reducible assumption | (first | (intro _ hk; have := hk.queue) | (intro _ _ hk; have := hk.queue) | (intro _ _ _ hk; have := hk.queue); clear this) | with_reducible apply issue_kept | with_reducible apply done_kept | with_reducible apply invalidate_kept)

theorem execScLock_kept (c : Core) (w : Word) (s : State) (hs : Kept qs os s) :
    ResKept qs os (execScLock c w s) := by
  unfold execScLock
  repeat' (first | with_reducible assumption | with_reducible apply issue_kept | with_reducible apply effLock_kept)

theorem execScUnlock_kept (c : Core) (w : Word) (s : State) (hs : Kept qs os s) :
    ResKept qs os (execScUnlock c w s) := by
  unfold execScUnlock
  repeat' (first | with_reducible assumption | with_reducible apply issue_kept | with_reducible apply effUnlock_kept)

theorem execScMovreq_kept (c : Core) (w : Word) (s : State) (hs : Kept qs os s) :
    ResKept qs os (execScMovreq c w s) := by
  unfold execScMovreq
  repeat' (first | with_reducible assumption | with_reducible apply issue_kept | with_reducible apply effMovreq_kept)

theorem execScMovwt_kept (c : Core) (w : Word) (s : State) (hs : Kept qs os s) :
    ResKept qs os (execScMovwt c w s) := by
  unfold execScMovwt
  repeat' (first | with_reducible assumption | with_reducible apply issue_kept | with_reducible apply effMovwt_kept)

theorem execScWaitInstr_kept (c : Core) (w : Word) (s : State) (hs : Kept qs os s) :
    ResKept qs os (execScWaitInstr c w s) := by
  unfold execScWaitInstr
  repeat' (first | with_reducible assumption | with_reducible apply issue_kept | with_reducible apply effWait_kept)

theorem execScSignalInstr_kept (c : Core) (w : Word) (s : State) (hs : Kept qs os s) :
    ResKept qs os (execScSignalInstr c w s) := by
  unfold execScSignalInstr
  repeat' (first | with_reducible assumption | with_reducible apply issue_kept | with_reducible apply effSignal_kept)

theorem execScRep_kept (c : Core) (w nxt : Word) (s : State) (hs : Kept qs os s) :
    ResKept qs os (execScRep c w nxt s) := by
  unfold execScRep
  repeat' (first | with_reducible assumption | with_reducible apply issuePrefix_kept | with_reducible apply effPrefix_kept)

theorem execScRepi_kept (c : Core) (w nxt : Word) (s : State) (hs : Kept qs os s) :
    ResKept qs os (execScRepi c w nxt s) := by
  unfold execScRepi
  repeat' (first | with_reducible assumption | with_reducible apply issuePrefix_kept | with_reducible apply effPrefix_kept)

theorem stalledEff_kept (w : Word) (y0 : State) (y1 : Cx) (y2 : Word) (hy0 : Kept qs os y0) :
    EffKept qs os (stalledEff w y0 y1 y2) := by
  have all {f : Effect'} (h : stalledEff w = f) (hf : EffKept qs os (f y0 y1 y2)) : EffKept qs os (stalledEff w y0 y1 y2) := h ▸ hf
  apply all rfl
  unfold stalledEff
  generalize (opcOf w).toNat = o
  split
  · exact effCtmLoad_kept _ _ _ _ hy0
  · exact effCtmLoad_kept _ _ _ _ hy0
  · exact effCtmLoad_kept _ _ _ _ hy0
  · exact effCtmStore_kept _ _ _ _ hy0
  · exact effCtmStore_kept _ _ _ _ hy0
  · exact effCtmStore_kept _ _ _ _ hy0
  · exact effLock_kept _ _ _ hy0
  · exact effUnlock_kept _ _ _ hy0
  · exact effMovreq_kept _ _ _ hy0

theorem retrySlot_kept (s : State) (k : Nat) (pick : Stall → Option Word) (hs : Kept qs os s) :
    Kept qs os (retrySlot s k pick) := by
  unfold retrySlot
  repeat' (first | with_reducible assumption | ((fail_if_success (fail_if_success extract_lets)); extract_lets +onlyGivenNames kx; (fail_if_success (have : True := kx)); clear_value kx; all_goals have kx := True.intro) | with_reducible apply settleEff_kept | with_reducible apply stalledEff_kept | with_reducible apply kept_ite | split)

theorem retryCp_kept (s : State) (pick : Stall → Option Word) (hs : Kept qs os s) :
    Kept qs os (retryCp s pick) := by
  unfold retryCp
  repeat' (first | with_reducible assumption | ((fail_if_success (fail_if_success extract_lets)); extract_lets +onlyGivenNames kx; (fail_if_success (have : True := kx)); (first | (refine kept_cut qs os kx ?_ fun _ => ?_; unfold kx; rotate_left; clear_value kx; rotate_right) | clear_value kx); all_goals have kx := True.intro) | with_reducible apply setCp_kept | with_reducible apply settleCp_kept | with_reducible apply stalledEff_kept | split)

theorem execCtmCommittedWaitEnd_kept (c : Core) (s : State) (hs : Kept qs os s) :
    ResKept qs os (execCtmCommittedWaitEnd c s) := by
  unfold execCtmCommittedWaitEnd
  repeat' (first | with_reducible assumption | with_reducible apply resKept_next | with_reducible apply retrySlot_kept | with_reducible apply retryCp_kept | split)

theorem retryIssue_kept (s : State) (k : Nat) (hs : Kept qs os s) :
    Kept qs os (retryIssue s k) := by
  unfold retryIssue
  repeat' (first | with_reducible assumption | with_reducible apply boundary_kept | with_reducible apply startData_kept | with_reducible apply retrySlot_kept | with_reducible apply kept_ite | split)

theorem execMoverIssueStallEnd_kept (c : Core) (s : State) (hs : Kept qs os s) :
    ResKept qs os (execMoverIssueStallEnd c s) := by
  unfold execMoverIssueStallEnd
  repeat' (first | with_reducible assumption | with_reducible apply resKept_next | with_reducible apply retryIssue_kept | with_reducible apply retryCp_kept | split)

theorem retryEntries_kept (s : State) (hs : Kept qs os s) :
    Kept qs os (retryEntries s) := by
  unfold retryEntries
  repeat' (first | with_reducible assumption | ((fail_if_success (fail_if_success extract_lets)); extract_lets +onlyGivenNames kx; (fail_if_success (have : True := kx)); clear_value kx; all_goals have kx := True.intro) | with_reducible apply retryCp_kept | with_reducible apply retrySlot_kept | (with_reducible apply kept_foldl; intro _ _ _))

theorem execDoomEntriesReturned_kept (prn : PrnNum) (s : State) (hs : Kept qs os s) :
    ResKept qs os (execDoomEntriesReturned prn s) := by
  unfold execDoomEntriesReturned
  repeat' (first | with_reducible assumption | with_reducible apply resKept_next | with_reducible apply resKept_fault | with_reducible apply resKept_ite | split | with_reducible apply retryEntries_kept | with_reducible apply modClause_kept | (first | (intro _ hk; have := hk.queue) | (intro _ _ hk; have := hk.queue) | (intro _ _ _ hk; have := hk.queue); clear this) | intro _ | with_reducible apply kept_ite | split | refine kept_upd ?_ rfl rfl rfl rfl rfl rfl rfl rfl rfl rfl rfl rfl)

theorem budgetOut_kept (s : State) (n : Nat) (hs : Kept qs os s) :
    Kept qs os (budgetOut s n) := by
  unfold budgetOut
  repeat' (first | with_reducible assumption | ((fail_if_success (fail_if_success extract_lets)); extract_lets +onlyGivenNames kx; (fail_if_success (have : True := kx)); (first | (refine kept_cut qs os kx ?_ fun _ => ?_; unfold kx; rotate_left; clear_value kx; rotate_right) | (refine kept_cut qs os kx.1 ?_ fun _ => ?_; unfold kx; rotate_left; clear_value kx; rotate_right) | (first | have := (kx : State → _) | have := (kx : Twin) | have := (kx : Mem) | have := (kx : Hu) | have := (kx : Sec); clear this) | clear_value kx); all_goals have kx := True.intro) | with_reducible apply enqueue_kept | with_reducible apply setP_kept | with_reducible apply saveFrame_kept | with_reducible apply leaveSlot_kept | with_reducible apply kept_ite | split | refine kept_upd ?_ rfl rfl rfl rfl rfl rfl rfl rfl rfl rfl rfl rfl)

theorem execBudgetEnd_kept (slot : BitVec 9) (s : State) (hs : Kept qs os s) :
    ResKept qs os (execBudgetEnd slot s) := by
  unfold execBudgetEnd
  repeat' (first | with_reducible assumption | with_reducible apply resKept_next | with_reducible apply resKept_ite | with_reducible apply budgetOut_kept | split)

theorem execCeIcinv_kept (n : BitVec 5) (s : State) (hs : Kept qs os s) :
    ResKept qs os (execCeIcinv n s) := by
  unfold execCeIcinv
  repeat' (first | with_reducible assumption | with_reducible apply resKept_next | with_reducible apply invalidate_kept)

end Sys2Proof.Machine
end

