-- ==== Sys2Proof/Laws/KeptControl.lean ====
section
/-!
SUPPORT. Every function of Machine/Control.lean keeps a sound state, the queue and what was sent.
-/

namespace Sys2Proof.Machine

variable {qs : List Instr} {os : List Out}

theorem execCpMfc_kept (w : Word) (s : State) (hs : Kept qs os s) :
    ResKept qs os (execCpMfc w s) := by
  unfold execCpMfc
  repeat' (first | with_reducible assumption | (first | (intro _ hk; have := hk.queue) | (intro _ _ hk; have := hk.queue) | (intro _ _ _ hk; have := hk.queue); clear this) | with_reducible apply resKept_next | with_reducible apply issueCp_kept | with_reducible apply done_kept)

theorem execCpMtc_kept (w : Word) (s : State) (hs : Kept qs os s) :
    ResKept qs os (execCpMtc w s) := by
  unfold execCpMtc
  repeat' (first | with_reducible assumption | (first | (intro _ hk; have := hk.queue) | (intro _ _ hk; have := hk.queue) | (intro _ _ _ hk; have := hk.queue); clear this) | with_reducible apply resKept_next | with_reducible apply issueCp_kept | with_reducible apply done_kept | with_reducible apply setCp_kept)

theorem execCpWfi_kept (w : Word) (s : State) (hs : Kept qs os s) :
    ResKept qs os (execCpWfi w s) := by
  unfold execCpWfi
  repeat' (first | with_reducible assumption | (first | (intro _ hk; have := hk.queue) | (intro _ _ hk; have := hk.queue) | (intro _ _ _ hk; have := hk.queue); clear this) | with_reducible apply resKept_next | with_reducible apply issueCp_kept | with_reducible apply done_kept | with_reducible apply setCp_kept)

theorem execCpFence_kept (w : Word) (s : State) (hs : Kept qs os s) :
    ResKept qs os (execCpFence w s) := by
  unfold execCpFence
  repeat' (first | with_reducible assumption | (first | (intro _ hk; have := hk.queue) | (intro _ _ hk; have := hk.queue) | (intro _ _ _ hk; have := hk.queue); clear this) | with_reducible apply resKept_next | with_reducible apply issueCp_kept | with_reducible apply done_kept)

theorem execCpIret_kept (w : Word) (s : State) (hs : Kept qs os s) :
    ResKept qs os (execCpIret w s) := by
  unfold execCpIret
  repeat' (first | with_reducible assumption | (first | (intro _ hk; have := hk.queue) | (intro _ _ hk; have := hk.queue) | (intro _ _ _ hk; have := hk.queue); clear this) | ((fail_if_success (fail_if_success extract_lets)); extract_lets +onlyGivenNames kx; (fail_if_success (have : True := kx)); clear_value kx; all_goals have kx := True.intro) | with_reducible apply resKept_next | with_reducible apply issueCp_kept | with_reducible apply setCp_kept | with_reducible apply effKept_jump)

theorem execInterruptEntry_kept (s : State) (hs : Kept qs os s) :
    ResKept qs os (execInterruptEntry s) := by
  unfold execInterruptEntry
  repeat' (first | with_reducible assumption | ((fail_if_success (fail_if_success extract_lets)); extract_lets +onlyGivenNames kx; (fail_if_success (have : True := kx)); clear_value kx; all_goals have kx := True.intro) | with_reducible apply resKept_next | with_reducible apply setCp_kept | with_reducible apply kept_ite)

theorem clearPend_kept (s : State) (v : Word) (hs : Kept qs os s) :
    Kept qs os (clearPend s v) := by
  unfold clearPend
  repeat' (first | with_reducible assumption | with_reducible apply kept_ite | refine kept_upd ?_ rfl rfl rfl rfl rfl rfl rfl rfl rfl rfl rfl rfl)

theorem claimNormal_kept (s : State) (hs : Kept qs os s) :
    Kept qs os (claimNormal s).2 := by
  unfold claimNormal
  repeat' (first | with_reducible assumption | ((fail_if_success (fail_if_success extract_lets)); extract_lets +onlyGivenNames kx; (fail_if_success (have : True := kx)); clear_value kx; all_goals have kx := True.intro) | with_reducible apply icEval_kept | with_reducible apply clearPend_kept | refine kept_upd ?_ rfl rfl rfl rfl rfl rfl rfl rfl rfl rfl rfl rfl)

theorem claimFast_kept (s : State) (hs : Kept qs os s) :
    Kept qs os (claimFast s).2 := by
  unfold claimFast
  repeat' (first | with_reducible assumption | ((fail_if_success (fail_if_success extract_lets)); extract_lets +onlyGivenNames kx; (fail_if_success (have : True := kx)); clear_value kx; all_goals have kx := True.intro) | with_reducible apply icEval_kept | with_reducible apply clearPend_kept | refine kept_upd ?_ rfl rfl rfl rfl rfl rfl rfl rfl rfl rfl rfl rfl)

theorem completeNormal_kept (s : State) (v : Word) (hs : Kept qs os s) :
    Kept qs os (completeNormal s v) := by
  unfold completeNormal
  repeat' (first | with_reducible assumption | with_reducible apply icEval_kept | with_reducible apply reject_kept | with_reducible apply kept_ite | refine kept_upd ?_ rfl rfl rfl rfl rfl rfl rfl rfl rfl rfl rfl rfl)

theorem completeFast_kept (s : State) (v : Word) (hs : Kept qs os s) :
    Kept qs os (completeFast s v) := by
  unfold completeFast
  repeat' (first | with_reducible assumption | with_reducible apply icEval_kept | with_reducible apply reject_kept | with_reducible apply kept_ite | refine kept_upd ?_ rfl rfl rfl rfl rfl rfl rfl rfl rfl rfl rfl rfl)

theorem execIcClaimN_kept (who : Master) (s : State) (hs : Kept qs os s) :
    ResKept qs os (execIcClaimN who s) := by
  unfold execIcClaimN
  repeat' (first | with_reducible assumption | ((fail_if_success (fail_if_success extract_lets)); extract_lets +onlyGivenNames kx; (fail_if_success (have : True := kx)); (refine kept_cut qs os kx.2 ?_ fun _ => ?_; unfold kx; rotate_left; clear_value kx; rotate_right); all_goals have kx := True.intro) | with_reducible apply resKept_next | with_reducible apply claimNormal_kept | with_reducible apply emit_kept | with_reducible apply kept_ite)

theorem execIcClaimF_kept (who : Master) (s : State) (hs : Kept qs os s) :
    ResKept qs os (execIcClaimF who s) := by
  unfold execIcClaimF
  repeat' (first | with_reducible assumption | ((fail_if_success (fail_if_success extract_lets)); extract_lets +onlyGivenNames kx; (fail_if_success (have : True := kx)); (refine kept_cut qs os kx.2 ?_ fun _ => ?_; unfold kx; rotate_left; clear_value kx; rotate_right); all_goals have kx := True.intro) | with_reducible apply resKept_next | with_reducible apply claimFast_kept | with_reducible apply emit_kept | with_reducible apply kept_ite)

theorem execIcCompleteN_kept (who : Master) (v : Word) (s : State) (hs : Kept qs os s) :
    ResKept qs os (execIcCompleteN who v s) := by
  unfold execIcCompleteN
  repeat' (first | with_reducible assumption | with_reducible apply resKept_next | with_reducible apply completeNormal_kept | with_reducible apply reject_kept | with_reducible apply kept_ite)

theorem execIcCompleteF_kept (who : Master) (v : Word) (s : State) (hs : Kept qs os s) :
    ResKept qs os (execIcCompleteF who v s) := by
  unfold execIcCompleteF
  repeat' (first | with_reducible assumption | with_reducible apply resKept_next | with_reducible apply completeFast_kept | with_reducible apply reject_kept | with_reducible apply kept_ite)

end Sys2Proof.Machine
end

