-- ==== Sys2Proof/Laws/KeptFaults.lean ====
section
/-!
SUPPORT. Every function of Machine/Faults.lean keeps a sound state, the queue and what was sent.
-/

namespace Sys2Proof.Machine

variable {qs : List Instr} {os : List Out}

theorem zeroRow_canon {t : Tab Byte} (a : Nat) (h : tabCanon emptyByte t) : tabCanon emptyByte (zeroRow t a) := by
  unfold zeroRow
  exact putBytes_canon _ _ h

theorem capture_kept (s : State) (code unit : Nat) (addr : Dword) (multi : Bool) (hs : Kept qs os s) :
    Kept qs os (capture s code unit addr multi) := by
  unfold capture
  repeat' (first | with_reducible assumption | ((fail_if_success (fail_if_success extract_lets)); extract_lets +onlyGivenNames kx; (fail_if_success (have : True := kx)); clear_value kx; all_goals have kx := True.intro) | with_reducible apply kept_ite | refine kept_upd ?_ rfl rfl rfl rfl rfl rfl rfl rfl rfl rfl rfl rfl)

theorem noteUe_kept (s : State) (code unit : Nat) (addr : Dword) (multi : Bool) (hs : Kept qs os s) :
    Kept qs os (noteUe s code unit addr multi) := by
  unfold noteUe
  repeat' (first | with_reducible assumption | ((fail_if_success (fail_if_success extract_lets)); extract_lets +onlyGivenNames kx; (fail_if_success (have : True := kx)); (first | (refine kept_cut qs os kx ?_ fun _ => ?_; unfold kx; rotate_left; clear_value kx; rotate_right) | clear_value kx); all_goals have kx := True.intro) | with_reducible apply rcPulse_kept | with_reducible apply capture_kept | with_reducible apply pulse_kept | with_reducible apply logEvent_kept | refine kept_upd ?_ rfl rfl rfl rfl rfl rfl rfl rfl rfl rfl rfl rfl)

theorem evalStranded_kept (s : State) (hs : Kept qs os s) :
    Kept qs os (evalStranded s) := by
  unfold evalStranded
  repeat' (first | with_reducible assumption | ((fail_if_success (fail_if_success extract_lets)); extract_lets +onlyGivenNames kx; (fail_if_success (have : True := kx)); clear_value kx; all_goals have kx := True.intro) | with_reducible apply pulse_kept | (with_reducible apply kept_foldl; intro _ _ _) | refine kept_upd ?_ rfl rfl rfl rfl rfl rfl rfl rfl rfl rfl rfl rfl)

theorem logFence_kept (s : State) (code unit : Nat) (source : Nat) (hs : Kept qs os s) :
    Kept qs os (logFence s code unit source) := by
  unfold logFence
  repeat' (first | with_reducible assumption | with_reducible apply pulse_kept | with_reducible apply logEvent_kept)

theorem fencePron_kept (code : Nat) (s : State) (n : Nat) (hs : Kept qs os s) :
    Kept qs os (fencePron code s n) := by
  unfold fencePron
  repeat' (first | with_reducible assumption | ((fail_if_success (fail_if_success extract_lets)); extract_lets +onlyGivenNames kx; (fail_if_success (have : True := kx)); (refine kept_cut qs os kx ?_ fun _ => ?_; unfold kx; rotate_left; clear_value kx; rotate_right); all_goals have kx := True.intro) | with_reducible apply doom_kept | with_reducible apply modP_kept | with_reducible apply kept_ite | split)

theorem fenceSlotPron_kept (code : Nat) (s : State) (k : Nat) (hs : Kept qs os s) :
    Kept qs os (fenceSlotPron code s k) := by
  unfold fenceSlotPron
  repeat' (first | with_reducible assumption | with_reducible apply fencePron_kept | with_reducible apply breakLocks_kept | split)

theorem fenceSlot_kept (s : State) (k : Nat) (hs : Kept qs os s) :
    Kept qs os (fenceSlot s k) := by
  unfold fenceSlot
  repeat' (first | with_reducible assumption | ((fail_if_success (fail_if_success extract_lets)); extract_lets +onlyGivenNames kx; (fail_if_success (have : True := kx)); (first | (refine kept_cut qs os kx ?_ fun _ => ?_; unfold kx; rotate_left; clear_value kx; rotate_right) | clear_value kx); all_goals have kx := True.intro) | with_reducible apply logFence_kept | with_reducible apply fenceSlotPron_kept | with_reducible apply kept_ite | refine kept_upd ?_ rfl rfl rfl rfl rfl rfl rfl rfl rfl rfl rfl rfl)

theorem fenceEngine_kept (code : Nat) (s : State) (e : Nat) (hs : Kept qs os s) :
    Kept qs os (fenceEngine code s e) := by
  unfold fenceEngine
  repeat' (first | with_reducible assumption | ((fail_if_success (fail_if_success extract_lets)); extract_lets +onlyGivenNames kx; (fail_if_success (have : True := kx)); (first | (refine kept_cut qs os kx ?_ fun _ => ?_; unfold kx; rotate_left; clear_value kx; rotate_right) | clear_value kx); all_goals have kx := True.intro) | with_reducible apply fenceSlotPron_kept | with_reducible apply evalStranded_kept | with_reducible apply resetMaster_kept | with_reducible apply logFence_kept | (with_reducible apply kept_foldl; intro _ _ _) | with_reducible apply kept_ite | refine kept_upd ?_ rfl rfl rfl rfl rfl rfl rfl rfl rfl rfl rfl rfl)

theorem moverFenced_kept (s : State) (n : Nat) (hs : Kept qs os s) :
    Kept qs os (moverFenced s n) := by
  unfold moverFenced
  repeat' (first | with_reducible assumption | ((fail_if_success (fail_if_success extract_lets)); extract_lets +onlyGivenNames kx; (fail_if_success (have : True := kx)); (first | (refine kept_cut qs os kx ?_ fun _ => ?_; unfold kx; rotate_left; clear_value kx; rotate_right) | (refine kept_cut qs os kx.1 ?_ fun _ => ?_; unfold kx; rotate_left; clear_value kx; rotate_right) | (first | have := (kx : State → _) | have := (kx : Twin) | have := (kx : Mem) | have := (kx : Hu) | have := (kx : Sec); clear this) | clear_value kx); all_goals have kx := True.intro) | with_reducible apply resetWaits_kept | with_reducible apply fencePron_kept | with_reducible apply boundary_kept | with_reducible apply resumeEnding_kept | with_reducible apply releaseHold_kept | with_reducible apply kept_ite | split)

theorem fenceLame_kept (s : State) (hs : Kept qs os s) :
    Kept qs os (fenceLame s) := by
  unfold fenceLame
  repeat' (first | with_reducible assumption | with_reducible apply fenceEngine_kept | (with_reducible apply kept_foldl; intro _ _ _) | with_reducible apply kept_ite)

theorem fenceMover_kept (s : State) (m : Nat) (hs : Kept qs os s) :
    Kept qs os (fenceMover s m) := by
  unfold fenceMover
  repeat' (first | with_reducible assumption | with_reducible apply cancelMover_kept | with_reducible apply modMv_kept | with_reducible apply fenceLame_kept | with_reducible apply logFence_kept | with_reducible apply moverFenced_kept | (with_reducible apply kept_foldl; intro _ _ _) | with_reducible apply kept_ite)

theorem fenceQuad_kept (s : State) (q : Nat) (hs : Kept qs os s) :
    Kept qs os (fenceQuad s q) := by
  unfold fenceQuad
  repeat' (first | with_reducible assumption | ((fail_if_success (fail_if_success extract_lets)); extract_lets +onlyGivenNames kx; (fail_if_success (have : True := kx)); (first | (refine kept_cut qs os kx ?_ fun _ => ?_; unfold kx; rotate_left; clear_value kx; rotate_right) | clear_value kx); all_goals have kx := True.intro) | with_reducible apply quadDown_kept | with_reducible apply logFence_kept | with_reducible apply kept_ite | refine kept_upd ?_ rfl rfl rfl rfl rfl rfl rfl rfl rfl rfl rfl rfl)

theorem emptySet_kept (s : State) (e : Nat × List Way) (hs : Kept qs os s) :
    Kept qs os (emptySet s e) := by
  unfold emptySet
  repeat' (first | with_reducible assumption | ((fail_if_success (fail_if_success extract_lets)); extract_lets +onlyGivenNames kx; (fail_if_success (have : True := kx)); (first | (refine kept_cut qs os kx ?_ fun _ => ?_; unfold kx; rotate_left; clear_value kx; rotate_right) | clear_value kx); all_goals have kx := True.intro) | (with_reducible apply kept_foldl; intro _ _ _) | refine kept_upd ?_ rfl rfl rfl rfl rfl rfl rfl rfl rfl rfl rfl rfl)

theorem fenceBank_kept (s : State) (b : Nat) (hs : Kept qs os s) :
    Kept qs os (fenceBank s b) := by
  unfold fenceBank
  repeat' (first | with_reducible assumption | ((fail_if_success (fail_if_success extract_lets)); extract_lets +onlyGivenNames kx; (fail_if_success (have : True := kx)); (first | (refine kept_cut qs os kx ?_ fun _ => ?_; unfold kx; rotate_left; clear_value kx; rotate_right) | clear_value kx); all_goals have kx := True.intro) | with_reducible apply emptySet_kept | with_reducible apply logFence_kept | (with_reducible apply kept_foldl; intro _ _ _) | with_reducible apply kept_ite | refine kept_upd ?_ rfl rfl rfl rfl rfl rfl rfl rfl rfl rfl rfl rfl)

theorem fenceStaging_kept (s : State) (hs : Kept qs os s) :
    Kept qs os (fenceStaging s) := by
  unfold fenceStaging
  repeat' (first | with_reducible assumption | ((fail_if_success (fail_if_success extract_lets)); extract_lets +onlyGivenNames kx; (fail_if_success (have : True := kx)); (first | (refine kept_cut qs os kx ?_ fun _ => ?_; unfold kx; rotate_left; clear_value kx; rotate_right) | clear_value kx); all_goals have kx := True.intro) | with_reducible apply doom_kept | with_reducible apply logFence_kept | (with_reducible apply kept_foldl; intro _ _ _) | with_reducible apply kept_ite | refine kept_upd ?_ rfl rfl rfl rfl rfl rfl rfl rfl rfl rfl rfl rfl)

theorem spareRow_kept (s : State) (code unit loc : Nat) (hs : Kept qs os s) : Kept qs os (spareRow s code unit loc) := by
  unfold spareRow
  split
  · refine kept_mem hs ?_ ?_ ?_ ?_ <;> dsimp only
    · exact hs.dram
    · exact hs.loc
    · exact zeroRow_canon _ hs.tcm
    · exact hs.host
  · refine kept_mem hs ?_ ?_ ?_ ?_ <;> dsimp only
    · exact hs.dram
    · exact zeroRow_canon _ hs.loc
    · exact hs.tcm
    · exact hs.host
  · exact kept_upd hs rfl rfl rfl rfl rfl rfl rfl rfl rfl rfl rfl rfl
  · exact hs

theorem spend_kept (s : State) (code unit : Nat) (hs : Kept qs os s) :
    Kept qs os (spend s code unit) := by
  unfold spend
  repeat' (first | with_reducible assumption | ((fail_if_success (fail_if_success extract_lets)); extract_lets +onlyGivenNames kx; (fail_if_success (have : True := kx)); (first | (refine kept_cut qs os kx ?_ fun _ => ?_; unfold kx; rotate_left; clear_value kx; rotate_right) | clear_value kx); all_goals have kx := True.intro) | with_reducible apply fenceEngine_kept | with_reducible apply fenceBank_kept | with_reducible apply fenceStaging_kept | with_reducible apply kept_ite | split | refine kept_upd ?_ rfl rfl rfl rfl rfl rfl rfl rfl rfl rfl rfl rfl)

theorem listRetired_kept (s : State) (r : Retired) (hs : Kept qs os s) :
    Kept qs os (listRetired s r) := by
  unfold listRetired
  repeat' (first | with_reducible assumption | ((fail_if_success (fail_if_success extract_lets)); extract_lets +onlyGivenNames kx; (fail_if_success (have : True := kx)); clear_value kx; all_goals have kx := True.intro) | with_reducible apply kept_ite | refine kept_upd ?_ rfl rfl rfl rfl rfl rfl rfl rfl rfl rfl rfl rfl)

theorem retire_kept (s : State) (code unit loc : Nat) (hs : Kept qs os s) :
    Kept qs os (retire s code unit loc) := by
  unfold retire
  repeat' (first | with_reducible assumption | ((fail_if_success (fail_if_success extract_lets)); extract_lets +onlyGivenNames kx; (fail_if_success (have : True := kx)); (first | (refine kept_cut qs os kx ?_ fun _ => ?_; unfold kx; rotate_left; clear_value kx; rotate_right) | clear_value kx); all_goals have kx := True.intro) | with_reducible apply listRetired_kept | with_reducible apply spareRow_kept | with_reducible apply rcPulse_kept | with_reducible apply logEvent_kept | with_reducible apply spend_kept | with_reducible apply pulse_kept | with_reducible apply kept_ite | refine kept_upd ?_ rfl rfl rfl rfl rfl rfl rfl rfl rfl rfl rfl rfl)

theorem emptyKey_kept (s : State) (n : Nat) (hs : Kept qs os s) :
    Kept qs os (emptyKey s n) := by
  unfold emptyKey
  repeat' (first | with_reducible assumption | refine kept_upd ?_ rfl rfl rfl rfl rfl rfl rfl rfl rfl rfl rfl rfl)

theorem doomDirectory_kept (s : State) (hs : Kept qs os s) :
    Kept qs os (doomDirectory s) := by
  unfold doomDirectory
  repeat' (first | with_reducible assumption | with_reducible apply doom_kept | (with_reducible apply kept_foldl; intro _ _ _))

theorem poisonLine_kept (s : State) (l : Nat) (hs : Kept qs os s) :
    Kept qs os (poisonLine s l) := by
  unfold poisonLine
  repeat' (first | with_reducible assumption | ((fail_if_success (fail_if_success extract_lets)); extract_lets +onlyGivenNames kx; (fail_if_success (have : True := kx)); (first | (refine kept_cut qs os kx ?_ fun _ => ?_; unfold kx; rotate_left; clear_value kx; rotate_right) | (refine kept_cut qs os kx.1 ?_ fun _ => ?_; unfold kx; rotate_left; clear_value kx; rotate_right) | (first | have := (kx : State → _) | have := (kx : Twin) | have := (kx : Mem) | have := (kx : Hu) | have := (kx : Sec); clear this) | clear_value kx); all_goals have kx := True.intro) | with_reducible apply pulse_kept | with_reducible apply kept_ite | split | refine kept_upd ?_ rfl rfl rfl rfl rfl rfl rfl rfl rfl rfl rfl rfl)

theorem stagedLost_kept (s : State) (n : Nat) (hs : Kept qs os s) :
    Kept qs os (stagedLost s n) := by
  unfold stagedLost
  repeat' (first | with_reducible assumption | with_reducible apply stopCondition_kept | split)

theorem committedLost_kept (s : State) (number i : Nat) (hs : Kept qs os s) :
    Kept qs os (committedLost s number i) := by
  unfold committedLost
  repeat' (first | with_reducible assumption | with_reducible apply modNum_kept)

theorem dropTrack_kept (s : State) (code unit loc : Nat) (hs : Kept qs os s) :
    Kept qs os (dropTrack s code unit loc) := by
  unfold dropTrack
  repeat' (first | with_reducible assumption | refine kept_upd ?_ rfl rfl rfl rfl rfl rfl rfl rfl rfl rfl rfl rfl)

theorem newTrack_kept (s : State) (code unit loc : Nat) (hs : Kept qs os s) :
    Kept qs os (newTrack s code unit loc) := by
  unfold newTrack
  repeat' (first | with_reducible assumption | ((fail_if_success (fail_if_success extract_lets)); extract_lets +onlyGivenNames kx; (fail_if_success (have : True := kx)); clear_value kx; all_goals have kx := True.intro) | with_reducible apply kept_ite | split | refine kept_upd ?_ rfl rfl rfl rfl rfl rfl rfl rfl rfl rfl rfl rfl)

theorem track_kept (s : State) (code unit loc : Nat) (hs : Kept qs os s) :
    Kept qs os (track s code unit loc) := by
  unfold track
  repeat' (first | with_reducible assumption | ((fail_if_success (fail_if_success extract_lets)); extract_lets +onlyGivenNames kx; (fail_if_success (have : True := kx)); (first | (refine kept_cut qs os kx ?_ fun _ => ?_; unfold kx; rotate_left; clear_value kx; rotate_right) | clear_value kx); all_goals have kx := True.intro) | with_reducible apply logEvent_kept | with_reducible apply newTrack_kept | with_reducible apply retire_kept | with_reducible apply dropTrack_kept | with_reducible apply kept_ite | split | refine kept_upd ?_ rfl rfl rfl rfl rfl rfl rfl rfl rfl rfl rfl rfl)

theorem fenceUnit_kept (s : State) (kind n : Nat) (hs : Kept qs os s) :
    Kept qs os (fenceUnit s kind n) := by
  unfold fenceUnit
  repeat' (first | with_reducible assumption | with_reducible apply fenceSlot_kept | with_reducible apply fenceEngine_kept | with_reducible apply fenceMover_kept | with_reducible apply fenceQuad_kept | with_reducible apply fenceBank_kept | split)

theorem fenceBy_kept (s : State) (kind n : Nat) (hs : Kept qs os s) :
    Kept qs os (fenceBy s kind n) := by
  unfold fenceBy
  repeat' (first | with_reducible assumption | with_reducible apply fenceUnit_kept | with_reducible apply reject_kept | with_reducible apply kept_ite)

theorem fltFence_kept (s : State) (v : Word) (hs : Kept qs os s) :
    Kept qs os (fltFence s v) := by
  unfold fltFence
  repeat' (first | with_reducible assumption | with_reducible apply fenceBy_kept)

theorem retireBy_kept (s : State) (code unit loc : Nat) (hs : Kept qs os s) :
    Kept qs os (retireBy s code unit loc) := by
  unfold retireBy
  repeat' (first | with_reducible assumption | with_reducible apply fenceSlot_kept | with_reducible apply retire_kept | with_reducible apply emptyKey_kept | split)

theorem fltRetire_kept (s : State) (v : Word) (hs : Kept qs os s) :
    Kept qs os (fltRetire s v) := by
  unfold fltRetire
  repeat' (first | with_reducible assumption | ((fail_if_success (fail_if_success extract_lets)); extract_lets +onlyGivenNames kx; (fail_if_success (have : True := kx)); clear_value kx; all_goals have kx := True.intro) | with_reducible apply retireBy_kept | with_reducible apply reject_kept | with_reducible apply kept_ite)

end Sys2Proof.Machine
end

