-- ==== Sys2Proof/Laws/KeptFaultRows.lean ====
section
/-!
SUPPORT. Every function of Machine/FaultRows.lean keeps a sound state, the queue and what was sent.
-/

namespace Sys2Proof.Machine

variable {qs : List Instr} {os : List Out}

theorem accessTraps_kept (s : State) (k : Nat) (cause : Byte) (v : Regs → Word) (hs : Kept qs os s) :
    Kept qs os (accessTraps s k cause v) := by
  unfold accessTraps
  repeat' (first | with_reducible assumption | with_reducible apply raise_kept | with_reducible apply kept_ite | split | refine kept_upd ?_ rfl rfl rfl rfl rfl rfl rfl rfl rfl rfl rfl rfl)

theorem ccwMeets_kept (s : State) (k : Nat) (inside : Bool) (hs : Kept qs os s) :
    Kept qs os (ccwMeets s k inside) := by
  unfold ccwMeets
  repeat' (first | with_reducible assumption | ((fail_if_success (fail_if_success extract_lets)); extract_lets +onlyGivenNames kx; (fail_if_success (have : True := kx)); (first | (refine kept_cut qs os kx ?_ fun _ => ?_; unfold kx; rotate_left; clear_value kx; rotate_right) | (refine kept_cut qs os kx.1 ?_ fun _ => ?_; unfold kx; rotate_left; clear_value kx; rotate_right) | (first | have := (kx : State → _) | have := (kx : Twin) | have := (kx : Mem) | have := (kx : Hu) | have := (kx : Sec); clear this) | clear_value kx); all_goals have kx := True.intro) | with_reducible apply stopCondition_kept | with_reducible apply count_kept | with_reducible apply kept_ite | split)

theorem userMeets_kept (s : State) (a : Nat) (multi : Bool) (y0 : ErrUser) (hs : Kept qs os s) :
    Kept qs os (userMeets s a multi y0) := by
  unfold userMeets
  repeat' (first | with_reducible assumption | (first | (intro _ hk; have := hk.queue) | (intro _ _ hk; have := hk.queue) | (intro _ _ _ hk; have := hk.queue); clear this) | with_reducible apply accessTraps_kept | with_reducible apply ccwMeets_kept | with_reducible apply issueEngine_kept | with_reducible apply movreqWith_kept | with_reducible apply issueCp_kept | with_reducible apply moverCheck_kept | with_reducible apply transferStops_kept | with_reducible apply kept_ite | split)

theorem fetchMeets_kept (s : State) (e : Nat) (slot : Option (BitVec 9)) (hs : Kept qs os s) :
    Kept qs os (fetchMeets s e slot) := by
  unfold fetchMeets
  repeat' (first | with_reducible assumption | ((fail_if_success (fail_if_success extract_lets)); extract_lets +onlyGivenNames kx; (fail_if_success (have : True := kx)); (first | (refine kept_cut qs os kx ?_ fun _ => ?_; unfold kx; rotate_left; clear_value kx; rotate_right) | clear_value kx); all_goals have kx := True.intro) | with_reducible apply accessTraps_kept | split | refine kept_upd ?_ rfl rfl rfl rfl rfl rfl rfl rfl rfl rfl rfl rfl)

theorem ueTail_kept (s : State) (code unit loc : Nat) (addr : Dword) (multi : Bool) (hs : Kept qs os s) :
    Kept qs os (ueTail s code unit loc addr multi) := by
  unfold ueTail
  repeat' (first | with_reducible assumption | with_reducible apply retire_kept | with_reducible apply dropTrack_kept | with_reducible apply noteUe_kept)

theorem ueNote_kept (s : State) (code unit loc : Nat) (addr : Dword) (multi : Bool) (hs : Kept qs os s) :
    Kept qs os (ueNote s code unit loc addr multi) := by
  unfold ueNote
  repeat' (first | with_reducible assumption | with_reducible apply dropTrack_kept | with_reducible apply noteUe_kept)

theorem execUncorrectableError_kept (site : ErrSite) (multi : Bool) (s : State) (hs : Kept qs os s) :
    ResKept qs os (execUncorrectableError site multi s) := by
  unfold execUncorrectableError
  repeat' (first | with_reducible assumption | with_reducible apply resKept_next | with_reducible apply resKept_fault | with_reducible apply resKept_ite | ((fail_if_success (fail_if_success extract_lets)); extract_lets +onlyGivenNames kx; (fail_if_success (have : True := kx)); (first | (refine kept_cut qs os kx ?_ fun _ => ?_; unfold kx; rotate_left; clear_value kx; rotate_right) | (refine kept_cut qs os kx.1 ?_ fun _ => ?_; unfold kx; rotate_left; clear_value kx; rotate_right) | (first | have := (kx : State → _) | have := (kx : Twin) | have := (kx : Mem) | have := (kx : Hu) | have := (kx : Sec); clear this) | clear_value kx); all_goals have kx := True.intro) | with_reducible apply ueTail_kept | with_reducible apply cpFault_kept | with_reducible apply userMeets_kept | with_reducible apply fetchMeets_kept | with_reducible apply ueNote_kept | with_reducible apply fenceSlot_kept | with_reducible apply cachePut_kept | with_reducible apply recordLost_kept | with_reducible apply cacheTake_kept | with_reducible apply stagedLost_kept | with_reducible apply committedLost_kept | with_reducible apply doomDirectory_kept | with_reducible apply delLock_kept | with_reducible apply emptyKey_kept | with_reducible apply fenceMover_kept | with_reducible apply fenceQuad_kept | with_reducible apply poisonLine_kept | with_reducible apply kept_ite | split)

theorem execCorrectedError_kept (code : BitVec 4) (unit : BitVec 9) (loc : BitVec 32) (s : State) (hs : Kept qs os s) :
    ResKept qs os (execCorrectedError code unit loc s) := by
  unfold execCorrectedError
  repeat' (first | with_reducible assumption | with_reducible apply resKept_next | with_reducible apply resKept_fault | with_reducible apply resKept_ite | ((fail_if_success (fail_if_success extract_lets)); extract_lets +onlyGivenNames kx; (fail_if_success (have : True := kx)); (first | (refine kept_cut qs os kx ?_ fun _ => ?_; unfold kx; rotate_left; clear_value kx; rotate_right) | (refine kept_cut qs os kx.1 ?_ fun _ => ?_; unfold kx; rotate_left; clear_value kx; rotate_right) | (first | have := (kx : State → _) | have := (kx : Twin) | have := (kx : Mem) | have := (kx : Hu) | have := (kx : Sec); clear this) | clear_value kx); all_goals have kx := True.intro) | with_reducible apply rcPulse_kept | with_reducible apply track_kept | with_reducible apply kept_ite | split | refine kept_upd ?_ rfl rfl rfl rfl rfl rfl rfl rfl rfl rfl rfl rfl)

theorem failCounted_kept (s : State) (used : Bool) (hs : Kept qs os s) :
    Kept qs os (failCounted s used) := by
  unfold failCounted
  repeat' (first | with_reducible assumption | with_reducible apply ignoreCopy_kept | with_reducible apply kept_ite)

theorem execPersistentCopyCrcFailure_kept (rec : StoreRec) (copyB : Bool) (s : State) (hs : Kept qs os s) :
    ResKept qs os (execPersistentCopyCrcFailure rec copyB s) := by
  unfold execPersistentCopyCrcFailure
  repeat' (first | with_reducible assumption | with_reducible apply resKept_next | with_reducible apply resKept_fault | with_reducible apply resKept_ite | with_reducible apply failCounted_kept | with_reducible apply retire_kept | with_reducible apply lcRepair_kept | with_reducible apply kept_ite | split | refine kept_upd ?_ rfl rfl rfl rfl rfl rfl rfl rfl rfl rfl rfl rfl)

theorem execFenceSlot_kept (n : BitVec 9) (s : State) (hs : Kept qs os s) :
    ResKept qs os (execFenceSlot n s) := by
  unfold execFenceSlot
  repeat' (first | with_reducible assumption | with_reducible apply resKept_next | with_reducible apply fenceBy_kept)

theorem execFenceEngine_kept (n : BitVec 9) (s : State) (hs : Kept qs os s) :
    ResKept qs os (execFenceEngine n s) := by
  unfold execFenceEngine
  repeat' (first | with_reducible assumption | with_reducible apply resKept_next | with_reducible apply fenceBy_kept)

theorem execFenceMover_kept (n : BitVec 9) (s : State) (hs : Kept qs os s) :
    ResKept qs os (execFenceMover n s) := by
  unfold execFenceMover
  repeat' (first | with_reducible assumption | with_reducible apply resKept_next | with_reducible apply fenceBy_kept)

theorem execFenceQuad_kept (n : BitVec 9) (s : State) (hs : Kept qs os s) :
    ResKept qs os (execFenceQuad n s) := by
  unfold execFenceQuad
  repeat' (first | with_reducible assumption | with_reducible apply resKept_next | with_reducible apply fenceBy_kept)

theorem execFenceCacheBank_kept (n : BitVec 9) (s : State) (hs : Kept qs os s) :
    ResKept qs os (execFenceCacheBank n s) := by
  unfold execFenceCacheBank
  repeat' (first | with_reducible assumption | with_reducible apply resKept_next | with_reducible apply fenceBy_kept)

theorem execFltRetire_kept (v : Word) (s : State) (hs : Kept qs os s) :
    ResKept qs os (execFltRetire v s) := by
  unfold execFltRetire
  repeat' (first | with_reducible assumption | with_reducible apply resKept_next | with_reducible apply fltRetire_kept)

theorem execLogFlush_kept (s : State) (hs : Kept qs os s) :
    ResKept qs os (execLogFlush s) := by
  unfold execLogFlush
  repeat' (first | with_reducible assumption | with_reducible apply resKept_next | with_reducible apply logFlush_kept | with_reducible apply kept_ite)

end Sys2Proof.Machine
end

