-- ==== Sys2Proof/Laws/KeptHoldup.lean ====
section
/-!
SUPPORT. Every function of Machine/Holdup.lean keeps a sound state, the queue and what was sent.
-/

namespace Sys2Proof.Machine

variable {qs : List Instr} {os : List Out}

theorem evalHoldup_kept (s : State) (hs : Kept qs os s) :
    Kept qs os (evalHoldup s) := by
  unfold evalHoldup
  repeat' (first | with_reducible assumption | ((fail_if_success (fail_if_success extract_lets)); extract_lets +onlyGivenNames kx; (fail_if_success (have : True := kx)); (first | (have := (kx : Hu); clear this) | clear_value kx); all_goals have kx := True.intro) | with_reducible apply pulse_kept | with_reducible apply kept_ite | refine kept_upd ?_ rfl rfl rfl rfl rfl rfl rfl rfl rfl rfl rfl rfl)

theorem setHu_kept (s : State) (h : Hu) (hs : Kept qs os s) (hg : h.gate.toNat ≤ 2) : Kept qs os (setHu s h) :=
  ⟨hs.dram, hs.loc, hs.tcm, hs.host, hs.twin, hs.before, hs.link, hg, hs.level, hs.asked, hs.queue, hs.sent⟩

theorem execHuStatusFrame_kept (good : Bool) (hv vcap : BitVec 12) (s : State) (hs : Kept qs os s) :
    ResKept qs os (execHuStatusFrame good hv vcap s) := by
  unfold execHuStatusFrame
  repeat' (first | with_reducible assumption | ((fail_if_success (fail_if_success extract_lets)); extract_lets +onlyGivenNames kx; (fail_if_success (have : True := kx)); (first | (refine kept_cut qs os kx ?_ fun _ => ?_; unfold kx; rotate_left; clear_value kx; rotate_right) | (have := (kx : Hu); clear this) | clear_value kx); all_goals have kx := True.intro) | with_reducible apply resKept_next | with_reducible apply pulse_kept | with_reducible apply setHu_kept | with_reducible apply evalHoldup_kept | with_reducible apply kept_ite | exact Kept.bus (qs := qs) (os := os) (by assumption))

theorem execChargerTimeout_kept (s : State) (hs : Kept qs os s) :
    ResKept qs os (execChargerTimeout s) := by
  unfold execChargerTimeout
  repeat' (first | with_reducible assumption | with_reducible apply resKept_next | with_reducible apply pulse_kept | with_reducible apply setHu_kept | with_reducible apply kept_ite | exact Kept.bus (qs := qs) (os := os) (by assumption))

theorem startCheck_kept (s : State) (hs : Kept qs os s) :
    Kept qs os (startCheck s) := by
  unfold startCheck
  repeat' (first | with_reducible assumption | with_reducible apply setHu_kept | with_reducible apply kept_ite | exact Nat.le_of_ble_eq_true rfl)

theorem stopCharge_kept (s : State) (hs : Kept qs os s) :
    Kept qs os (stopCharge s) := by
  unfold stopCharge
  repeat' (first | with_reducible assumption | with_reducible apply setHu_kept | with_reducible apply kept_ite | exact Kept.bus (qs := qs) (os := os) (by assumption))

theorem resumeCharge_kept (s : State) (hs : Kept qs os s) :
    Kept qs os (resumeCharge s) := by
  unfold resumeCharge
  repeat' (first | with_reducible assumption | with_reducible apply setHu_kept | with_reducible apply kept_ite | exact Kept.bus (qs := qs) (os := os) (by assumption))

theorem huRequest_kept (s : State) (code : Nat) (hs : Kept qs os s) :
    Kept qs os (huRequest s code) := by
  unfold huRequest
  repeat' (first | with_reducible assumption | with_reducible apply startCheck_kept | with_reducible apply stopCharge_kept | with_reducible apply resumeCharge_kept | with_reducible apply reject_kept | split)

theorem execCapacitanceCheckTimer_kept (s : State) (hs : Kept qs os s) :
    ResKept qs os (execCapacitanceCheckTimer s) := by
  unfold execCapacitanceCheckTimer
  repeat' (first | with_reducible assumption | with_reducible apply resKept_next | with_reducible apply startCheck_kept | with_reducible apply kept_ite)

theorem execCapacitanceCheckRequest_kept (s : State) (hs : Kept qs os s) :
    ResKept qs os (execCapacitanceCheckRequest s) := by
  unfold execCapacitanceCheckRequest
  repeat' (first | with_reducible assumption | with_reducible apply resKept_next | with_reducible apply startCheck_kept)

theorem execChargeStop_kept (s : State) (hs : Kept qs os s) :
    ResKept qs os (execChargeStop s) := by
  unfold execChargeStop
  repeat' (first | with_reducible assumption | with_reducible apply resKept_next | with_reducible apply stopCharge_kept)

theorem execChargeResume_kept (s : State) (hs : Kept qs os s) :
    ResKept qs os (execChargeResume s) := by
  unfold execChargeResume
  repeat' (first | with_reducible assumption | with_reducible apply resKept_next | with_reducible apply resumeCharge_kept)

theorem endCheck_kept (s : State) (hs : Kept qs os s) :
    Kept qs os (endCheck s) := by
  unfold endCheck
  repeat' (first | with_reducible assumption | ((fail_if_success (fail_if_success extract_lets)); extract_lets +onlyGivenNames kx; (fail_if_success (have : True := kx)); (first | (refine kept_cut qs os kx ?_ fun _ => ?_; unfold kx; rotate_left; clear_value kx; rotate_right) | (have := (kx : Hu); clear this)); all_goals have kx := True.intro) | with_reducible apply pulse_kept | with_reducible apply setHu_kept | with_reducible apply evalHoldup_kept | with_reducible apply kept_ite | exact Nat.le_of_ble_eq_true rfl)

theorem execCapacitanceCheckDone_kept (fall : BitVec 12) (us : BitVec 32) (s : State) (hs : Kept qs os s) :
    ResKept qs os (execCapacitanceCheckDone fall us s) := by
  unfold execCapacitanceCheckDone
  repeat' (first | with_reducible assumption | with_reducible apply resKept_next | with_reducible apply endCheck_kept | with_reducible apply setHu_kept | with_reducible apply kept_ite | exact Kept.bus (qs := qs) (os := os) (by assumption))

theorem execHoldupDieStart_kept (s : State) (hs : Kept qs os s) :
    ResKept qs os (execHoldupDieStart s) := by
  unfold execHoldupDieStart
  repeat' (first | with_reducible assumption | with_reducible apply resKept_next | with_reducible apply evalHoldup_kept | with_reducible apply setHu_kept | with_reducible apply kept_ite | exact Nat.le_of_ble_eq_true rfl)

theorem execHoldupDieStop_kept (s : State) (hs : Kept qs os s) :
    ResKept qs os (execHoldupDieStop s) := by
  unfold execHoldupDieStop
  repeat' (first | with_reducible assumption | with_reducible apply resKept_next | with_reducible apply setHu_kept | exact Nat.le_of_ble_eq_true rfl)

theorem execHvOkSettled_kept (s : State) (hs : Kept qs os s) :
    ResKept qs os (execHvOkSettled s) := by
  unfold execHvOkSettled
  repeat' (first | with_reducible assumption | with_reducible apply resKept_next | with_reducible apply setHu_kept | with_reducible apply kept_ite | exact Nat.le_of_ble_eq_true rfl)

theorem dieDeclares_kept (s : State) (hs : Kept qs os s) :
    Kept qs os (dieDeclares s) := by
  unfold dieDeclares
  repeat' (first | with_reducible assumption | with_reducible apply setHu_kept | with_reducible apply kept_ite | exact Nat.le_of_ble_eq_true rfl)

theorem execPowerFailDeclared_kept (s : State) (hs : Kept qs os s) :
    ResKept qs os (execPowerFailDeclared s) := by
  unfold execPowerFailDeclared
  repeat' (first | with_reducible assumption | with_reducible apply resKept_next | with_reducible apply dieDeclares_kept)

theorem execHvOvervoltage_kept (s : State) (hs : Kept qs os s) :
    ResKept qs os (execHvOvervoltage s) := by
  unfold execHvOvervoltage
  repeat' (first | with_reducible assumption | with_reducible apply resKept_next | with_reducible apply dieDeclares_kept | with_reducible apply pulse_kept | with_reducible apply kept_ite)

theorem holdInReset_kept (s : State) (hs : Kept qs os s) :
    Kept qs os (holdInReset s) := by
  unfold holdInReset
  repeat' (first | with_reducible assumption | refine kept_upd ?_ rfl rfl rfl rfl rfl rfl rfl rfl rfl rfl rfl rfl)

theorem logicFails_kept (s : State) (hs : Kept qs os s) :
    Kept qs os (logicFails s) := by
  unfold logicFails
  repeat' (first | with_reducible assumption | with_reducible apply startDrain_kept | with_reducible apply holdInReset_kept | with_reducible apply shedHost_kept | with_reducible apply shed_kept | with_reducible apply kept_ite)

theorem execFailLineEdge_kept (s : State) (hs : Kept qs os s) :
    ResKept qs os (execFailLineEdge s) := by
  unfold execFailLineEdge
  repeat' (first | with_reducible assumption | with_reducible apply resKept_next | with_reducible apply logicFails_kept | with_reducible apply kept_ite)

theorem execIsolatedLinkLoss_kept (s : State) (hs : Kept qs os s) :
    ResKept qs os (execIsolatedLinkLoss s) := by
  unfold execIsolatedLinkLoss
  repeat' (first | with_reducible assumption | with_reducible apply resKept_next | with_reducible apply logicFails_kept | with_reducible apply evalHoldup_kept | with_reducible apply setHu_kept | with_reducible apply kept_ite | exact Kept.bus (qs := qs) (os := os) (by assumption))

end Sys2Proof.Machine
end

