-- ==== Sys2Proof/Laws/KeptPower.lean ====
section
/-!
SUPPORT. Every function of Machine/Power.lean keeps a sound state, the queue and what was sent.
-/

namespace Sys2Proof.Machine

variable {qs : List Instr} {os : List Out}

theorem copyCells_canon (l : Tab Byte) (t : Tab Byte) (base : Nat) (h : tabCanon emptyByte t) : tabCanon emptyByte (copyCells t base l) := by
  induction l generalizing t with
  | nil => exact h
  | cons e l ih => exact ih _ (tset_canon _ _ _ h)

theorem cellsFrom_canon (t : Tab Byte) (a n : Nat) (h : tabCanon emptyByte t) : tabCanon emptyByte (cellsFrom t a n) := by
  unfold cellsFrom
  refine ⟨List.pairwise_map.mpr ?_, fun e he => ?_⟩
  · refine ((h.1.filter _).and (List.pairwise_of_forall_mem_list fun x hx y hy => (⟨hx, hy⟩ : x ∈ _ ∧ y ∈ _))).imp ?_
    rintro x y ⟨hlt, hx, hy⟩
    simp only [List.mem_filter, Bool.and_eq_true, decide_eq_true_eq] at hx hy
    show x.1 - a < y.1 - a
    omega
  · obtain ⟨x, hx, rfl⟩ := List.mem_map.mp he
    exact h.2 x (List.mem_filter.mp hx).1

theorem withPins_kept (s : State) (f : State → State) (hs : Kept qs os s) (hf : ∀ (x0 : State), Kept qs os x0 → Kept qs os (f x0)) :
    Kept qs os (withPins s f) := by
  unfold withPins
  repeat' (first | with_reducible assumption | (first | (intro _ hk; have := hk.queue) | (intro _ _ hk; have := hk.queue) | (intro _ _ _ hk; have := hk.queue); clear this) | intro _ | ((fail_if_success (fail_if_success extract_lets)); extract_lets +onlyGivenNames kx; (fail_if_success (have : True := kx)); (first | (refine kept_cut qs os kx ?_ fun _ => ?_; unfold kx; rotate_left; clear_value kx; rotate_right) | (refine kept_cut qs os kx.1 ?_ fun _ => ?_; unfold kx; rotate_left; clear_value kx; rotate_right) | (first | have := (kx : State → _) | have := (kx : Twin) | have := (kx : Mem) | have := (kx : Hu) | have := (kx : Sec); clear this) | clear_value kx); all_goals have kx := True.intro) | with_reducible apply occur_kept | with_reducible apply raiseInputs_kept | apply hf | (with_reducible apply kept_foldl; intro _ _ _))

theorem gpioOutWrite_kept (s : State) (v : BitVec 16) (hs : Kept qs os s) :
    Kept qs os (gpioOutWrite s v) := by
  unfold gpioOutWrite
  repeat' (first | with_reducible assumption | (first | (intro _ hk; have := hk.queue) | (intro _ _ hk; have := hk.queue) | (intro _ _ _ hk; have := hk.queue); clear this) | with_reducible apply withPins_kept | refine kept_upd ?_ rfl rfl rfl rfl rfl rfl rfl rfl rfl rfl rfl rfl)

theorem gpioDirWrite_kept (s : State) (v : BitVec 16) (hs : Kept qs os s) :
    Kept qs os (gpioDirWrite s v) := by
  unfold gpioDirWrite
  repeat' (first | with_reducible assumption | (first | (intro _ hk; have := hk.queue) | (intro _ _ hk; have := hk.queue) | (intro _ _ _ hk; have := hk.queue); clear this) | with_reducible apply withPins_kept | refine kept_upd ?_ rfl rfl rfl rfl rfl rfl rfl rfl rfl rfl rfl rfl)

theorem gpioAct_kept (s : State) (pin op : Nat) (hs : Kept qs os s) :
    Kept qs os (gpioAct s pin op) := by
  unfold gpioAct
  dsimp only
  repeat' (first | with_reducible assumption | (first | (intro _ hk; have := hk.queue) | (intro _ _ hk; have := hk.queue) | (intro _ _ _ hk; have := hk.queue); clear this) | with_reducible apply withPins_kept | with_reducible apply kept_ite | split | refine kept_upd ?_ rfl rfl rfl rfl rfl rfl rfl rfl rfl rfl rfl rfl)

theorem pulsesTick_kept (s : State) (hs : Kept qs os s) :
    Kept qs os (pulsesTick s) := by
  unfold pulsesTick
  repeat' (first | with_reducible assumption | (first | (intro _ hk; have := hk.queue) | (intro _ _ hk; have := hk.queue) | (intro _ _ _ hk; have := hk.queue); clear this) | ((fail_if_success (fail_if_success extract_lets)); extract_lets +onlyGivenNames kx; (fail_if_success (have : True := kx)); (first | (refine kept_cut qs os kx ?_ fun _ => ?_; unfold kx; rotate_left; clear_value kx; rotate_right) | clear_value kx); all_goals have kx := True.intro) | with_reducible apply withPins_kept | (with_reducible apply kept_foldl; intro _ _ _) | with_reducible apply kept_ite | refine kept_upd ?_ rfl rfl rfl rfl rfl rfl rfl rfl rfl rfl rfl rfl)

theorem setCj_kept (s : State) (n : Nat) (c : Cj) (hs : Kept qs os s) :
    Kept qs os (setCj s n c) := by
  unfold setCj
  repeat' (first | with_reducible assumption | refine kept_upd ?_ rfl rfl rfl rfl rfl rfl rfl rfl rfl rfl rfl rfl)

theorem modCj_kept (s : State) (n : Nat) (f : Cj → Cj) (hs : Kept qs os s) :
    Kept qs os (modCj s n f) := by
  unfold modCj
  repeat' (first | with_reducible assumption | with_reducible apply setCj_kept)

theorem discardAct_kept (s : State) (hs : Kept qs os s) :
    Kept qs os (discardAct s) := by
  unfold discardAct
  repeat' (first | with_reducible assumption | refine kept_upd ?_ rfl rfl rfl rfl rfl rfl rfl rfl rfl rfl rfl rfl)

theorem pronAct_kept (s : State) (n : Nat) (w : Word) (hs : Kept qs os s) :
    Kept qs os (pronAct s n w) := by
  unfold pronAct
  repeat' (first | with_reducible assumption | (first | (intro _ hk; have := hk.queue) | (intro _ _ hk; have := hk.queue) | (intro _ _ _ hk; have := hk.queue); clear this) | intro _ | ((fail_if_success (fail_if_success extract_lets)); extract_lets +onlyGivenNames kx; (fail_if_success (have : True := kx)); (first | (refine kept_cut qs os kx ?_ fun _ => ?_; unfold kx; rotate_left; clear_value kx; rotate_right) | (refine kept_cut qs os kx.1 ?_ fun _ => ?_; unfold kx; rotate_left; clear_value kx; rotate_right) | (first | have := (kx : State → _) | have := (kx : Twin) | have := (kx : Mem) | have := (kx : Hu) | have := (kx : Sec); clear this) | clear_value kx); all_goals have kx := True.intro) | with_reducible apply waitEvent_kept | with_reducible apply modCj_kept | with_reducible apply discardAct_kept | with_reducible apply startOp_kept | with_reducible apply countIgnored_kept | with_reducible apply kept_ite | with_reducible apply kept_ite_fst | with_reducible refine kept_of_pair (by assumption) ?_ | split | refine kept_upd ?_ rfl rfl rfl rfl rfl rfl rfl rfl rfl rfl rfl rfl)

theorem deferAct_kept (s : State) (n : Nat) (w : Word) (hs : Kept qs os s) :
    Kept qs os (deferAct s n w) := by
  unfold deferAct
  repeat' (first | with_reducible assumption | with_reducible apply kept_ite | refine kept_upd ?_ rfl rfl rfl rfl rfl rfl rfl rfl rfl rfl rfl rfl)

theorem captureAct_kept (s : State) (k : Nat) (hs : Kept qs os s) :
    Kept qs os (captureAct s k) := by
  unfold captureAct
  repeat' (first | with_reducible assumption | ((fail_if_success (fail_if_success extract_lets)); extract_lets +onlyGivenNames kx; (fail_if_success (have : True := kx)); clear_value kx; all_goals have kx := True.intro) | refine kept_upd ?_ rfl rfl rfl rfl rfl rfl rfl rfl rfl rfl rfl rfl)

theorem wordActs_kept (fn : Master) (s : State) (w : Word) (hs : Kept qs os s) :
    Kept qs os (wordActs fn s w) := by
  unfold wordActs
  repeat' (first | with_reducible assumption | with_reducible apply countIgnored_kept | with_reducible apply doorbellWord_kept | with_reducible apply kept_ite)

theorem expireWait_kept (s : State) (n : Nat) (hs : Kept qs os s) :
    Kept qs os (expireWait s n) := by
  unfold expireWait
  repeat' (first | with_reducible assumption | ((fail_if_success (fail_if_success extract_lets)); extract_lets +onlyGivenNames kx; (fail_if_success (have : True := kx)); clear_value kx; all_goals have kx := True.intro) | with_reducible apply endWait_kept | with_reducible apply reachTick_kept | split)

theorem holdAct_kept (s : State) (h : HeldAct) (hs : Kept qs os s) :
    Kept qs os (holdAct s h) := by
  unfold holdAct
  repeat' (first | with_reducible assumption | refine kept_upd ?_ rfl rfl rfl rfl rfl rfl rfl rfl rfl rfl rfl rfl)

theorem writeBank_kept (s : State) (l : List (Nat × VKey)) (hs : Kept qs os s) :
    Kept qs os (writeBank s l) := by
  unfold writeBank
  repeat' (first | with_reducible assumption | refine kept_upd ?_ rfl rfl rfl rfl rfl rfl rfl rfl rfl rfl rfl rfl)

theorem unsealKeys_kept (s : State) (hs : Kept qs os s) :
    Kept qs os (unsealKeys s) := by
  unfold unsealKeys
  repeat' (first | with_reducible assumption | ((fail_if_success (fail_if_success extract_lets)); extract_lets +onlyGivenNames kx; (fail_if_success (have : True := kx)); (first | (have := (kx : Sec); clear this) | clear_value kx); all_goals have kx := True.intro) | with_reducible apply kept_ite | refine kept_upd ?_ rfl rfl rfl rfl rfl rfl rfl rfl rfl rfl rfl rfl)

theorem flushCache_kept (s : State) (hs : Kept qs os s) :
    Kept qs os (flushCache s) := by
  unfold flushCache
  repeat' (first | with_reducible assumption | ((fail_if_success (fail_if_success extract_lets)); extract_lets +onlyGivenNames kx; (fail_if_success (have : True := kx)); (first | (refine kept_cut qs os kx ?_ fun _ => ?_; unfold kx; rotate_left; clear_value kx; rotate_right) | clear_value kx); all_goals have kx := True.intro) | (with_reducible apply kept_foldl; intro _ _ _) | refine kept_upd ?_ rfl rfl rfl rfl rfl rfl rfl rfl rfl rfl rfl rfl)

theorem enterLow_kept (s : State) (hs : Kept qs os s) :
    Kept qs os (enterLow s) := by
  unfold enterLow
  repeat' (first | with_reducible assumption | ((fail_if_success (fail_if_success extract_lets)); extract_lets +onlyGivenNames kx; (fail_if_success (have : True := kx)); (first | (refine kept_cut qs os kx ?_ fun _ => ?_; unfold kx; rotate_left; clear_value kx; rotate_right) | (have := (kx : Twin); clear this)); all_goals have kx := True.intro) | with_reducible apply quadsDown_kept | with_reducible apply pulse_kept | with_reducible apply kept_ite | refine kept_link ?_ rfl rfl rfl rfl rfl rfl rfl rfl rfl rfl rfl ?_ | exact Nat.le_of_ble_eq_true rfl)

theorem powerDown_kept (s : State) (hs : Kept qs os s) :
    Kept qs os (powerDown s) := by
  unfold powerDown
  repeat' (first | with_reducible assumption | refine kept_upd ?_ rfl rfl rfl rfl rfl rfl rfl rfl rfl rfl rfl rfl)

theorem enterStandby_kept (s : State) (hs : Kept qs os s) :
    Kept qs os (enterStandby s) := by
  unfold enterStandby
  repeat' (first | with_reducible assumption | ((fail_if_success (fail_if_success extract_lets)); extract_lets +onlyGivenNames kx; (fail_if_success (have : True := kx)); (first | (refine kept_cut qs os kx ?_ fun _ => ?_; unfold kx; rotate_left; clear_value kx; rotate_right) | (refine kept_cut qs os kx.1 ?_ fun _ => ?_; unfold kx; rotate_left; clear_value kx; rotate_right) | (first | have := (kx : State → _) | have := (kx : Twin) | have := (kx : Mem) | have := (kx : Hu) | have := (kx : Sec); clear this) | clear_value kx); all_goals have kx := True.intro) | with_reducible apply enterLow_kept | refine kept_upd ?_ rfl rfl rfl rfl rfl rfl rfl rfl rfl rfl rfl rfl)

theorem commitStandby_kept (s : State) (hs : Kept qs os s) :
    Kept qs os (commitStandby s) := by
  unfold commitStandby
  repeat' (first | with_reducible assumption | ((fail_if_success (fail_if_success extract_lets)); extract_lets +onlyGivenNames kx; (fail_if_success (have : True := kx)); (first | (refine kept_cut qs os kx ?_ fun _ => ?_; unfold kx; rotate_left; clear_value kx; rotate_right) | (refine kept_cut qs os kx.1 ?_ fun _ => ?_; unfold kx; rotate_left; clear_value kx; rotate_right) | (first | have := (kx : State → _) | have := (kx : Twin) | have := (kx : Mem) | have := (kx : Hu) | have := (kx : Sec); clear this) | clear_value kx); all_goals have kx := True.intro) | with_reducible apply powerDown_kept | refine kept_upd ?_ rfl rfl rfl rfl rfl rfl rfl rfl rfl rfl rfl rfl)

theorem writeImage_kept (s : State) (hs : Kept qs os s) : Kept qs os (writeImage s) := by
  unfold writeImage
  extract_lets a d m s1 l
  have hd : tabCanon emptyByte d := copyCells_canon _ _ _ (copyCells_canon _ _ _ (filter_canon _ hs.dram))
  have h1 : Kept qs os s1 := kept_mem hs hd hs.loc hs.tcm hs.host
  exact writeDram_kept _ _ _ (kept_upd h1 rfl rfl rfl rfl rfl rfl rfl rfl rfl rfl rfl rfl)

theorem readImage_kept (s : State) (hs : Kept qs os s) : Kept qs os (readImage s) := by
  unfold readImage
  exact kept_mem hs hs.dram (cellsFrom_canon _ _ _ hs.dram) (cellsFrom_canon _ _ _ hs.dram) hs.host

theorem enterDeep_kept (s : State) (hs : Kept qs os s) :
    Kept qs os (enterDeep s) := by
  unfold enterDeep
  repeat' (first | with_reducible assumption | ((fail_if_success (fail_if_success extract_lets)); extract_lets +onlyGivenNames kx; (fail_if_success (have : True := kx)); (first | (refine kept_cut qs os kx ?_ fun _ => ?_; unfold kx; rotate_left; clear_value kx; rotate_right) | (refine kept_cut qs os kx.1 ?_ fun _ => ?_; unfold kx; rotate_left; clear_value kx; rotate_right) | (first | have := (kx : State → _) | have := (kx : Twin) | have := (kx : Mem) | have := (kx : Hu) | have := (kx : Sec); clear this) | clear_value kx); all_goals have kx := True.intro) | with_reducible apply writeImage_kept | with_reducible apply flushCache_kept | with_reducible apply enterLow_kept | with_reducible apply writeBank_kept | with_reducible apply kept_ite | split | refine kept_upd ?_ rfl rfl rfl rfl rfl rfl rfl rfl rfl rfl rfl rfl)

theorem commitDeep_kept (s : State) (hs : Kept qs os s) :
    Kept qs os (commitDeep s) := by
  unfold commitDeep
  repeat' (first | with_reducible assumption | ((fail_if_success (fail_if_success extract_lets)); extract_lets +onlyGivenNames kx; (fail_if_success (have : True := kx)); (first | (refine kept_cut qs os kx ?_ fun _ => ?_; unfold kx; rotate_left; clear_value kx; rotate_right) | clear_value kx); all_goals have kx := True.intro) | with_reducible apply powerDown_kept | refine kept_upd ?_ rfl rfl rfl rfl rfl rfl rfl rfl rfl rfl rfl rfl)

theorem applyHeld_kept (s : State) (hs : Kept qs os s) :
    Kept qs os (applyHeld s) := by
  unfold applyHeld
  repeat' (first | with_reducible assumption | ((fail_if_success (fail_if_success extract_lets)); extract_lets +onlyGivenNames kx; (fail_if_success (have : True := kx)); (first | (refine kept_cut qs os kx ?_ fun _ => ?_; unfold kx; rotate_left; clear_value kx; rotate_right) | clear_value kx); all_goals have kx := True.intro) | with_reducible apply pronAct_kept | with_reducible apply wordActs_kept | with_reducible apply expireWait_kept | (with_reducible apply kept_foldl; intro _ _ _) | split | refine kept_upd ?_ rfl rfl rfl rfl rfl rfl rfl rfl rfl rfl rfl rfl)

theorem abandonSleep_kept (s : State) (why : Nat) (hs : Kept qs os s) :
    Kept qs os (abandonSleep s why) := by
  unfold abandonSleep
  repeat' (first | with_reducible assumption | ((fail_if_success (fail_if_success extract_lets)); extract_lets +onlyGivenNames kx; (fail_if_success (have : True := kx)); (first | (refine kept_cut qs os kx ?_ fun _ => ?_; unfold kx; rotate_left; clear_value kx; rotate_right) | (refine kept_cut qs os kx.1 ?_ fun _ => ?_; unfold kx; rotate_left; clear_value kx; rotate_right) | (first | have := (kx : State → _) | have := (kx : Twin) | have := (kx : Mem) | have := (kx : Hu) | have := (kx : Sec); clear this) | clear_value kx); all_goals have kx := True.intro) | with_reducible apply writeBank_kept | with_reducible apply obeyFenceIn_kept | with_reducible apply quadsStart_kept | with_reducible apply applyHeld_kept | with_reducible apply pulse_kept | with_reducible apply finishHeld_kept | with_reducible apply kept_ite | split | refine kept_upd ?_ rfl rfl rfl rfl rfl rfl rfl rfl rfl rfl rfl rfl)

theorem wake_kept (s : State) (hs : Kept qs os s) :
    Kept qs os (wake s) := by
  unfold wake
  repeat' (first | with_reducible assumption | ((fail_if_success (fail_if_success extract_lets)); extract_lets +onlyGivenNames kx; (fail_if_success (have : True := kx)); (first | (refine kept_cut qs os kx ?_ fun _ => ?_; unfold kx; rotate_left; clear_value kx; rotate_right) | (refine kept_cut qs os kx.1 ?_ fun _ => ?_; unfold kx; rotate_left; clear_value kx; rotate_right) | (first | have := (kx : State → _) | have := (kx : Twin) | have := (kx : Mem) | have := (kx : Hu) | have := (kx : Sec); clear this) | clear_value kx); all_goals have kx := True.intro) | with_reducible apply unsealKeys_kept | with_reducible apply readImage_kept | with_reducible apply obeyFenceIn_kept | with_reducible apply quadsStart_kept | with_reducible apply pulse_kept | with_reducible apply applyHeld_kept | with_reducible apply finishHeld_kept | with_reducible apply kept_ite | split | refine kept_upd ?_ rfl rfl rfl rfl rfl rfl rfl rfl rfl rfl rfl rfl)

theorem wakeSource_kept (s : State) (bit : Nat) (hs : Kept qs os s) :
    Kept qs os (wakeSource s bit) := by
  unfold wakeSource
  repeat' (first | with_reducible assumption | ((fail_if_success (fail_if_success extract_lets)); extract_lets +onlyGivenNames kx; (fail_if_success (have : True := kx)); (first | (refine kept_cut qs os kx ?_ fun _ => ?_; unfold kx; rotate_left; clear_value kx; rotate_right) | clear_value kx); all_goals have kx := True.intro) | with_reducible apply abandonSleep_kept | with_reducible apply wake_kept | with_reducible apply kept_ite | split | refine kept_upd ?_ rfl rfl rfl rfl rfl rfl rfl rfl rfl rfl rfl rfl)

theorem sleepSource_kept (s : State) (bit : Nat) (hs : Kept qs os s) :
    Kept qs os (sleepSource s bit) := by
  unfold sleepSource
  repeat' (first | with_reducible assumption | with_reducible apply wakeSource_kept | with_reducible apply kept_ite | split)

theorem cjDeliver_kept (s : State) (n : Nat) (c : Cj) (hs : Kept qs os s) :
    Kept qs os (cjDeliver s n c) := by
  unfold cjDeliver
  repeat' (first | with_reducible assumption | (first | (intro _ hk; have := hk.queue) | (intro _ _ hk; have := hk.queue) | (intro _ _ _ hk; have := hk.queue); clear this) | intro _ | ((fail_if_success (fail_if_success extract_lets)); extract_lets +onlyGivenNames kx; (fail_if_success (have : True := kx)); (first | (refine kept_cut qs os kx ?_ fun _ => ?_; unfold kx; rotate_left; clear_value kx; rotate_right) | (refine kept_cut qs os kx.1 ?_ fun _ => ?_; unfold kx; rotate_left; clear_value kx; rotate_right) | (first | have := (kx : State → _) | have := (kx : Twin) | have := (kx : Mem) | have := (kx : Hu) | have := (kx : Sec); clear this) | clear_value kx); all_goals have kx := True.intro) | with_reducible apply setCj_kept | refine kept_upd ?_ rfl rfl rfl rfl rfl rfl rfl rfl rfl rfl rfl rfl)

theorem cjEdge_kept (s : State) (n : Nat) (hs : Kept qs os s) :
    Kept qs os (cjEdge s n) := by
  unfold cjEdge
  repeat' (first | with_reducible assumption | ((fail_if_success (fail_if_success extract_lets)); extract_lets +onlyGivenNames kx; (fail_if_success (have : True := kx)); (first | (refine kept_cut qs os kx ?_ fun _ => ?_; unfold kx; rotate_left; clear_value kx; rotate_right) | (refine kept_cut qs os kx.1 ?_ fun _ => ?_; unfold kx; rotate_left; clear_value kx; rotate_right) | (first | have := (kx : State → _) | have := (kx : Twin) | have := (kx : Mem) | have := (kx : Hu) | have := (kx : Sec); clear this) | clear_value kx); all_goals have kx := True.intro) | with_reducible apply rcPulse_kept | with_reducible apply setCj_kept | with_reducible apply cjDeliver_kept | with_reducible apply kept_ite | split | refine kept_upd ?_ rfl rfl rfl rfl rfl rfl rfl rfl rfl rfl rfl rfl)

theorem applyAct_kept (s : State) (n : Nat) (w : Word) (hs : Kept qs os s) :
    Kept qs os (applyAct s n w) := by
  unfold applyAct
  repeat' (first | with_reducible assumption | with_reducible apply deferAct_kept | with_reducible apply pronAct_kept | with_reducible apply captureAct_kept | with_reducible apply wakeSource_kept | with_reducible apply gpioAct_kept | with_reducible apply huRequest_kept | with_reducible apply kept_ite | split | refine kept_upd ?_ rfl rfl rfl rfl rfl rfl rfl rfl rfl rfl rfl rfl)

theorem mbxPostWake_kept (s : State) (m : Nat) (hs : Kept qs os s) :
    Kept qs os (mbxPostWake s m) := by
  unfold mbxPostWake
  repeat' (first | with_reducible assumption | ((fail_if_success (fail_if_success extract_lets)); extract_lets +onlyGivenNames kx; (fail_if_success (have : True := kx)); (first | (refine kept_cut qs os kx ?_ fun _ => ?_; unfold kx; rotate_left; clear_value kx; rotate_right) | (refine kept_cut qs os kx.1 ?_ fun _ => ?_; unfold kx; rotate_left; clear_value kx; rotate_right) | (first | have := (kx : State → _) | have := (kx : Twin) | have := (kx : Mem) | have := (kx : Hu) | have := (kx : Sec); clear this) | clear_value kx); all_goals have kx := True.intro) | with_reducible apply mbxPostOp_kept | with_reducible apply wakeSource_kept | with_reducible apply kept_ite | split)

end Sys2Proof.Machine
end

