-- ==== Sys2Proof/Laws/KeptHostRegs.lean ====
section
/-!
SUPPORT. Every function of Machine/HostRegs.lean keeps a sound state, the queue and what was sent.
-/

namespace Sys2Proof.Machine

variable {qs : List Instr} {os : List Out}

theorem fetchPackets_kept (m : Master) (y0 : Nat) (y1 : State) (hy1 : Kept qs os y1) :
    Kept qs os (fetchPackets m y0 y1) := by
  induction y0 generalizing m y1 hy1 with
  | zero =>
    rw [fetchPackets]
    repeat' (with_reducible assumption)
  | succ n ih =>
    rw [fetchPackets]
    repeat' (first | with_reducible assumption | with_reducible apply ih | ((fail_if_success (fail_if_success extract_lets)); extract_lets +onlyGivenNames kx; (fail_if_success (have : True := kx)); clear_value kx; all_goals have kx := True.intro) | with_reducible apply setFunc_kept | with_reducible apply kept_ite | split)

theorem pumpAdmin_kept (s : State) (m : Master) (hs : Kept qs os s) :
    Kept qs os (pumpAdmin s m) := by
  unfold pumpAdmin
  repeat' (first | with_reducible assumption | with_reducible apply fetchPackets_kept)

theorem hfSqLo_kept (s : State) (m : Master) (v : Word) (hs : Kept qs os s) :
    Kept qs os (hfSqLo s m v) := by
  unfold hfSqLo
  repeat' (first | with_reducible assumption | ((fail_if_success (fail_if_success extract_lets)); extract_lets +onlyGivenNames kx; (fail_if_success (have : True := kx)); clear_value kx; all_goals have kx := True.intro) | with_reducible apply rejectHf_kept | with_reducible apply setFunc_kept | with_reducible apply kept_ite)

theorem hfRqLo_kept (s : State) (m : Master) (v : Word) (hs : Kept qs os s) :
    Kept qs os (hfRqLo s m v) := by
  unfold hfRqLo
  repeat' (first | with_reducible assumption | ((fail_if_success (fail_if_success extract_lets)); extract_lets +onlyGivenNames kx; (fail_if_success (have : True := kx)); clear_value kx; all_goals have kx := True.intro) | with_reducible apply rejectHf_kept | with_reducible apply setFunc_kept | with_reducible apply kept_ite)

theorem hfSqHi_kept (s : State) (m : Master) (v : Word) (hs : Kept qs os s) :
    Kept qs os (hfSqHi s m v) := by
  unfold hfSqHi
  repeat' (first | with_reducible assumption | ((fail_if_success (fail_if_success extract_lets)); extract_lets +onlyGivenNames kx; (fail_if_success (have : True := kx)); clear_value kx; all_goals have kx := True.intro) | with_reducible apply rejectHf_kept | with_reducible apply setFunc_kept | with_reducible apply kept_ite)

theorem hfRqHi_kept (s : State) (m : Master) (v : Word) (hs : Kept qs os s) :
    Kept qs os (hfRqHi s m v) := by
  unfold hfRqHi
  repeat' (first | with_reducible assumption | ((fail_if_success (fail_if_success extract_lets)); extract_lets +onlyGivenNames kx; (fail_if_success (have : True := kx)); clear_value kx; all_goals have kx := True.intro) | with_reducible apply rejectHf_kept | with_reducible apply setFunc_kept | with_reducible apply kept_ite)

theorem admStop_kept (s : State) (m : Master) (hs : Kept qs os s) :
    Kept qs os (admStop s m) := by
  unfold admStop
  repeat' (first | with_reducible assumption | (first | (intro _ hk; have := hk.queue) | (intro _ _ hk; have := hk.queue) | (intro _ _ _ hk; have := hk.queue); clear this) | intro _ | ((fail_if_success (fail_if_success extract_lets)); extract_lets +onlyGivenNames kx; (fail_if_success (have : True := kx)); (first | (refine kept_cut qs os kx ?_ fun _ => ?_; unfold kx; rotate_left; clear_value kx; rotate_right) | (refine kept_cut qs os kx.1 ?_ fun _ => ?_; unfold kx; rotate_left; clear_value kx; rotate_right) | (first | have := (kx : State → _) | have := (kx : Twin) | have := (kx : Mem) | have := (kx : Hu) | have := (kx : Sec); clear this) | clear_value kx); all_goals have kx := True.intro) | with_reducible apply setFunc_kept | with_reducible apply settleReady_kept | refine kept_upd ?_ rfl rfl rfl rfl rfl rfl rfl rfl rfl rfl rfl rfl)

theorem dropReplies_kept (s : State) (m : Master) (hs : Kept qs os s) :
    Kept qs os (dropReplies s m) := by
  unfold dropReplies
  repeat' (first | with_reducible assumption | (first | (intro _ hk; have := hk.queue) | (intro _ _ hk; have := hk.queue) | (intro _ _ _ hk; have := hk.queue); clear this) | intro _ | refine kept_upd ?_ rfl rfl rfl rfl rfl rfl rfl rfl rfl rfl rfl rfl)

theorem hfCfg_kept (s : State) (m : Master) (v : Word) (hs : Kept qs os s) :
    Kept qs os (hfCfg s m v) := by
  unfold hfCfg
  repeat' (first | with_reducible assumption | ((fail_if_success (fail_if_success extract_lets)); extract_lets +onlyGivenNames kx; (fail_if_success (have : True := kx)); (first | (refine kept_cut qs os kx ?_ fun _ => ?_; unfold kx; rotate_left; clear_value kx; rotate_right) | (refine kept_cut qs os kx.1 ?_ fun _ => ?_; unfold kx; rotate_left; clear_value kx; rotate_right) | (first | have := (kx : State → _) | have := (kx : Twin) | have := (kx : Mem) | have := (kx : Hu) | have := (kx : Sec); clear this) | clear_value kx); all_goals have kx := True.intro) | with_reducible apply dropReplies_kept | with_reducible apply setFunc_kept | with_reducible apply admStop_kept | with_reducible apply rejectHf_kept | with_reducible apply kept_ite | split | refine kept_upd ?_ rfl rfl rfl rfl rfl rfl rfl rfl rfl rfl rfl rfl)

theorem hfTail_kept (s : State) (m : Master) (v : Word) (hs : Kept qs os s) :
    Kept qs os (hfTail s m v) := by
  unfold hfTail
  repeat' (first | with_reducible assumption | ((fail_if_success (fail_if_success extract_lets)); extract_lets +onlyGivenNames kx; (fail_if_success (have : True := kx)); clear_value kx; all_goals have kx := True.intro) | with_reducible apply rejectHf_kept | with_reducible apply pumpAdmin_kept | with_reducible apply pulse_kept | with_reducible apply setFunc_kept | with_reducible apply kept_ite)

theorem hfRqHead_kept (s : State) (m : Master) (v : Word) (hs : Kept qs os s) :
    Kept qs os (hfRqHead s m v) := by
  unfold hfRqHead
  repeat' (first | with_reducible assumption | ((fail_if_success (fail_if_success extract_lets)); extract_lets +onlyGivenNames kx; (fail_if_success (have : True := kx)); clear_value kx; all_goals have kx := True.intro) | with_reducible apply rejectHf_kept | with_reducible apply flushReplies_kept | with_reducible apply setFunc_kept | with_reducible apply kept_ite)

theorem hfSqHead_kept (s : State) (m : Master) (n : Nat) (v : Word) (hs : Kept qs os s) :
    Kept qs os (hfSqHead s m n v) := by
  unfold hfSqHead
  repeat' (first | with_reducible assumption | ((fail_if_success (fail_if_success extract_lets)); extract_lets +onlyGivenNames kx; (fail_if_success (have : True := kx)); clear_value kx; all_goals have kx := True.intro) | with_reducible apply rejectHf_kept | with_reducible apply drainQueue_kept | with_reducible apply setSq_kept | with_reducible apply kept_ite | split)

theorem hfMod_kept (s : State) (m : Master) (n : Nat) (v : Word) (hs : Kept qs os s) :
    Kept qs os (hfMod s m n v) := by
  unfold hfMod
  repeat' (first | with_reducible assumption | ((fail_if_success (fail_if_success extract_lets)); extract_lets +onlyGivenNames kx; (fail_if_success (have : True := kx)); (first | (refine kept_cut qs os kx ?_ fun _ => ?_; unfold kx; rotate_left; clear_value kx; rotate_right) | clear_value kx); all_goals have kx := True.intro) | with_reducible apply rejectHf_kept | with_reducible apply evalVec_kept | with_reducible apply setVec_kept | with_reducible apply kept_ite)

theorem modTimer_kept (s : State) (m : Master) (n : Nat) (hs : Kept qs os s) :
    Kept qs os (modTimer s m n) := by
  unfold modTimer
  repeat' (first | with_reducible assumption | ((fail_if_success (fail_if_success extract_lets)); extract_lets +onlyGivenNames kx; (fail_if_success (have : True := kx)); clear_value kx; all_goals have kx := True.intro) | with_reducible apply fallDue_kept | with_reducible apply kept_ite)

theorem sendPba_kept (s : State) (m : Master) (n : Nat) (hs : Kept qs os s) :
    Kept qs os (sendPba s m n) := by
  unfold sendPba
  repeat' (first | with_reducible assumption | ((fail_if_success (fail_if_success extract_lets)); extract_lets +onlyGivenNames kx; (fail_if_success (have : True := kx)); (first | (refine kept_cut qs os kx ?_ fun _ => ?_; unfold kx; rotate_left; clear_value kx; rotate_right) | (refine kept_cut qs os kx.1 ?_ fun _ => ?_; unfold kx; rotate_left; clear_value kx; rotate_right) | (first | have := (kx : State → _) | have := (kx : Twin) | have := (kx : Mem) | have := (kx : Hu) | have := (kx : Sec); clear this) | clear_value kx); all_goals have kx := True.intro) | with_reducible apply sendMsg_kept | with_reducible apply kept_ite | split)

theorem msixWrite_kept (s : State) (m : Master) (n k : Nat) (v : Word) (hs : Kept qs os s) :
    Kept qs os (msixWrite s m n k v) := by
  unfold msixWrite
  repeat' (first | with_reducible assumption | ((fail_if_success (fail_if_success extract_lets)); extract_lets +onlyGivenNames kx; (fail_if_success (have : True := kx)); clear_value kx; all_goals have kx := True.intro) | with_reducible apply setVec_kept | with_reducible apply sendPba_kept | split)

theorem resumeFn_kept (s : State) (m : Master) (hs : Kept qs os s) :
    Kept qs os (resumeFn s m) := by
  unfold resumeFn
  repeat' (first | with_reducible assumption | ((fail_if_success (fail_if_success extract_lets)); extract_lets +onlyGivenNames kx; (fail_if_success (have : True := kx)); (first | (refine kept_cut qs os kx ?_ fun _ => ?_; unfold kx; rotate_left; clear_value kx; rotate_right) | clear_value kx); all_goals have kx := True.intro) | with_reducible apply drainQueue_kept | with_reducible apply pumpAdmin_kept | with_reducible apply flushReplies_kept | (with_reducible apply kept_foldl; intro _ _ _))

theorem sendPending_kept (m : Master) (s : State) (n : Nat) (hs : Kept qs os s) :
    Kept qs os (sendPending m s n) := by
  unfold sendPending
  repeat' (first | with_reducible assumption | ((fail_if_success (fail_if_success extract_lets)); extract_lets +onlyGivenNames kx; (fail_if_success (have : True := kx)); (first | (refine kept_cut qs os kx ?_ fun _ => ?_; unfold kx; rotate_left; clear_value kx; rotate_right) | (refine kept_cut qs os kx.1 ?_ fun _ => ?_; unfold kx; rotate_left; clear_value kx; rotate_right) | (first | have := (kx : State → _) | have := (kx : Twin) | have := (kx : Mem) | have := (kx : Hu) | have := (kx : Sec); clear this) | clear_value kx); all_goals have kx := True.intro) | with_reducible apply setVec_kept | with_reducible apply sendMsg_kept | with_reducible apply kept_ite | split | refine kept_upd ?_ rfl rfl rfl rfl rfl rfl rfl rfl rfl rfl rfl rfl)

theorem sendAllPending_kept (s : State) (pf : Master) (hs : Kept qs os s) :
    Kept qs os (sendAllPending s pf) := by
  unfold sendAllPending
  repeat' (first | with_reducible assumption | with_reducible apply sendPending_kept | (with_reducible apply kept_foldl; intro _ _ _))

theorem d3Entry_kept (s : State) (pf : Master) (hs : Kept qs os s) :
    Kept qs os (d3Entry s pf) := by
  unfold d3Entry
  repeat' (first | with_reducible assumption | ((fail_if_success (fail_if_success extract_lets)); extract_lets +onlyGivenNames kx; (fail_if_success (have : True := kx)); (refine kept_cut qs os kx ?_ fun _ => ?_; unfold kx; rotate_left; clear_value kx; rotate_right); all_goals have kx := True.intro) | with_reducible apply modFunc_kept | with_reducible apply sendAllPending_kept | with_reducible apply pulse_kept | with_reducible apply kept_ite)

theorem d0Entry_kept (s : State) (pf : Master) (hs : Kept qs os s) :
    Kept qs os (d0Entry s pf) := by
  unfold d0Entry
  repeat' (first | with_reducible assumption | (first | (intro _ hk; have := hk.queue) | (intro _ _ hk; have := hk.queue) | (intro _ _ _ hk; have := hk.queue); clear this) | intro _ | ((fail_if_success (fail_if_success extract_lets)); extract_lets +onlyGivenNames kx; (fail_if_success (have : True := kx)); (first | (refine kept_cut qs os kx ?_ fun _ => ?_; unfold kx; rotate_left; clear_value kx; rotate_right) | (refine kept_cut qs os kx.1 ?_ fun _ => ?_; unfold kx; rotate_left; clear_value kx; rotate_right) | (first | have := (kx : State → _) | have := (kx : Twin) | have := (kx : Mem) | have := (kx : Hu) | have := (kx : Sec); clear this) | clear_value kx); all_goals have kx := True.intro) | with_reducible apply modFunc_kept | with_reducible apply sendPba_kept | with_reducible apply sendAllPending_kept | with_reducible apply resumeFn_kept | with_reducible apply pulse_kept | (with_reducible apply kept_foldl; intro _ _ _) | with_reducible apply kept_ite | split | refine kept_upd ?_ rfl rfl rfl rfl rfl rfl rfl rfl rfl rfl rfl rfl)

theorem busMasterOn_kept (s : State) (m : Master) (hs : Kept qs os s) :
    Kept qs os (busMasterOn s m) := by
  unfold busMasterOn
  repeat' (first | with_reducible assumption | ((fail_if_success (fail_if_success extract_lets)); extract_lets +onlyGivenNames kx; (fail_if_success (have : True := kx)); (refine kept_cut qs os kx ?_ fun _ => ?_; unfold kx; rotate_left; clear_value kx; rotate_right); all_goals have kx := True.intro) | with_reducible apply sendPba_kept | with_reducible apply evalVec_kept | with_reducible apply resumeFn_kept | (with_reducible apply kept_foldl; intro _ _ _))

end Sys2Proof.Machine
end

