-- ==== Sys2Proof/Laws/KeptReset.lean ====
section
/-!
SUPPORT. Every function of Machine/Reset.lean keeps a sound state, the queue and what was sent.
-/

namespace Sys2Proof.Machine

variable {qs : List Instr} {os : List Out}

theorem coldReset_kept (s : State) (k : ResetKind) (hs : Kept qs os s) : Kept qs os (coldReset s k) :=
  ⟨hs.dram, nil_canon, nil_canon, hs.host, Nat.zero_le _, Nat.zero_le _, Nat.zero_le _, hs.bus, Nat.zero_le _, (fun _ e => nomatch e), hs.queue, hs.sent⟩

theorem warmReset_kept (s : State) (k : ResetKind) (hs : Kept qs os s) : Kept qs os (warmReset s k) := by
  unfold warmReset
  refine resetMaster_kept _ _ ?_
  exact ⟨hs.dram, nil_canon, nil_canon, hs.host, Nat.zero_le _, Nat.zero_le _, Nat.zero_le _, hs.bus, hs.level, (fun _ e => nomatch e), hs.queue, hs.sent⟩

theorem wipeDram_kept (s : State) (hs : Kept qs os s) : Kept qs os (wipeDram s) :=
  ⟨nil_canon, hs.loc, hs.tcm, hs.host, hs.twin, hs.before, hs.link, hs.bus, hs.level, hs.asked, hs.queue, hs.sent⟩

theorem repairRow_kept (s : State) (r : Retired) (hs : Kept qs os s) :
    Kept qs os (repairRow s r) := by
  unfold repairRow
  repeat' (first | with_reducible assumption | with_reducible apply pulse_kept | with_reducible apply kept_ite | refine kept_upd ?_ rfl rfl rfl rfl rfl rfl rfl rfl rfl rfl rfl rfl)

theorem bootDram_kept (s : State) (hs : Kept qs os s) :
    Kept qs os (bootDram s) := by
  unfold bootDram
  repeat' (first | with_reducible assumption | ((fail_if_success (fail_if_success extract_lets)); extract_lets +onlyGivenNames kx; (fail_if_success (have : True := kx)); (first | (refine kept_cut qs os kx ?_ fun _ => ?_; unfold kx; rotate_left; clear_value kx; rotate_right) | clear_value kx); all_goals have kx := True.intro) | with_reducible apply repairRow_kept | with_reducible apply wipeDram_kept | (with_reducible apply kept_foldl; intro _ _ _) | with_reducible apply kept_ite | refine kept_upd ?_ rfl rfl rfl rfl rfl rfl rfl rfl rfl rfl rfl rfl)

theorem wipeAll_kept (s : State) (hs : Kept qs os s) :
    Kept qs os (wipeAll s) := by
  unfold wipeAll
  repeat' (first | with_reducible assumption | with_reducible apply wipeDram_kept | refine kept_upd ?_ rfl rfl rfl rfl rfl rfl rfl rfl rfl rfl rfl rfl)

theorem bootRecord_kept (s : State) (hs : Kept qs os s) :
    Kept qs os (bootRecord s) := by
  unfold bootRecord
  repeat' (first | with_reducible assumption | ((fail_if_success (fail_if_success extract_lets)); extract_lets +onlyGivenNames kx; (fail_if_success (have : True := kx)); (first | (refine kept_cut qs os kx ?_ fun _ => ?_; unfold kx; rotate_left; clear_value kx; rotate_right) | (have := (kx : Sec); clear this) | clear_value kx); all_goals have kx := True.intro) | with_reducible apply lcRepair_kept | with_reducible apply wipeAll_kept | with_reducible apply lcWrite_kept | with_reducible apply kept_ite | refine kept_upd ?_ rfl rfl rfl rfl rfl rfl rfl rfl rfl rfl rfl rfl)

theorem bootScan_kept (s : State) (hs : Kept qs os s) :
    Kept qs os (bootScan s) := by
  unfold bootScan
  repeat' (first | with_reducible assumption | ((fail_if_success (fail_if_success extract_lets)); extract_lets +onlyGivenNames kx; (fail_if_success (have : True := kx)); (first | (refine kept_cut qs os kx ?_ fun _ => ?_; unfold kx; rotate_left; clear_value kx; rotate_right) | (refine kept_cut qs os kx.1 ?_ fun _ => ?_; unfold kx; rotate_left; clear_value kx; rotate_right) | (first | have := (kx : State → _) | have := (kx : Twin) | have := (kx : Mem) | have := (kx : Hu) | have := (kx : Sec); clear this) | clear_value kx); all_goals have kx := True.intro) | with_reducible apply ignoreCopies_kept)

theorem bootReserve_kept (s : State) (hs : Kept qs os s) :
    Kept qs os (bootReserve s) := by
  unfold bootReserve
  repeat' (first | with_reducible assumption | ((fail_if_success (fail_if_success extract_lets)); extract_lets +onlyGivenNames kx; (fail_if_success (have : True := kx)); clear_value kx; all_goals have kx := True.intro) | refine kept_upd ?_ rfl rfl rfl rfl rfl rfl rfl rfl rfl rfl rfl rfl)

theorem bootSave_kept (s : State) (hs : Kept qs os s) :
    Kept qs os (bootSave s) := by
  unfold bootSave
  repeat' (first | with_reducible assumption | (first | (intro _ hk; have := hk.queue) | (intro _ _ hk; have := hk.queue) | (intro _ _ _ hk; have := hk.queue); clear this) | intro _ | ((fail_if_success (fail_if_success extract_lets)); extract_lets +onlyGivenNames kx; (fail_if_success (have : True := kx)); (first | (refine kept_cut qs os kx ?_ fun _ => ?_; unfold kx; rotate_left; clear_value kx; rotate_right) | (refine kept_cut qs os kx.1 ?_ fun _ => ?_; unfold kx; rotate_left; clear_value kx; rotate_right) | (first | have := (kx : State → _) | have := (kx : Twin) | have := (kx : Mem) | have := (kx : Hu) | have := (kx : Sec); clear this) | clear_value kx); all_goals have kx := True.intro) | with_reducible apply powerOn_kept | with_reducible apply kept_ite | split | refine kept_upd ?_ rfl rfl rfl rfl rfl rfl rfl rfl rfl rfl rfl rfl)

theorem bootSteps_kept (s : State) (hs : Kept qs os s) :
    Kept qs os (bootSteps s) := by
  unfold bootSteps
  repeat' (first | with_reducible assumption | ((fail_if_success (fail_if_success extract_lets)); extract_lets +onlyGivenNames kx; (fail_if_success (have : True := kx)); (first | (refine kept_cut qs os kx ?_ fun _ => ?_; unfold kx; rotate_left; clear_value kx; rotate_right) | clear_value kx); all_goals have kx := True.intro) | with_reducible apply bootReserve_kept | with_reducible apply bootScan_kept | with_reducible apply bootRecord_kept | with_reducible apply bootDram_kept | with_reducible apply bootSave_kept | with_reducible apply logEvent_kept | with_reducible apply setTwinState_kept | with_reducible apply kept_ite | refine kept_upd ?_ rfl rfl rfl rfl rfl rfl rfl rfl rfl rfl rfl rfl | exact Nat.le_of_ble_eq_true rfl)

theorem bootRun_kept (s : State) (hs : Kept qs os s) :
    Kept qs os (bootRun s) := by
  unfold bootRun
  repeat' (first | with_reducible assumption | with_reducible apply bootSteps_kept | with_reducible apply kept_ite)

theorem finishReset_kept (s : State) (k : ResetKind) (hs : Kept qs os s) :
    Kept qs os (finishReset s k) := by
  unfold finishReset
  repeat' (first | with_reducible assumption | with_reducible apply bootRun_kept | with_reducible apply coldReset_kept | with_reducible apply warmReset_kept | with_reducible apply kept_ite)

theorem takeReset_kept (s : State) (k : ResetKind) (cause : Byte) (hs : Kept qs os s) :
    Kept qs os (takeReset s k cause) := by
  unfold takeReset
  repeat' (first | with_reducible assumption | with_reducible apply startDrain_kept | with_reducible apply finishReset_kept | with_reducible apply kept_ite | refine kept_upd ?_ rfl rfl rfl rfl rfl rfl rfl rfl rfl rfl rfl rfl)

theorem powerOn_kept (s : State) (hs : Kept qs os s) :
    Kept qs os (powerOn s) := by
  unfold powerOn
  repeat' (first | with_reducible assumption | with_reducible apply finishReset_kept)

theorem busReturns_kept (s : State) (hs : Kept qs os s) :
    Kept qs os (busReturns s) := by
  unfold busReturns
  repeat' (first | with_reducible assumption | with_reducible apply powerOn_kept | with_reducible apply setHu_kept | exact Nat.le_of_ble_eq_true rfl)

theorem drainDone_kept (s : State) (hs : Kept qs os s) :
    Kept qs os (drainDone s) := by
  unfold drainDone
  repeat' (first | with_reducible assumption | ((fail_if_success (fail_if_success extract_lets)); extract_lets +onlyGivenNames kx; (fail_if_success (have : True := kx)); (first | (refine kept_cut qs os kx ?_ fun _ => ?_; unfold kx; rotate_left; clear_value kx; rotate_right) | clear_value kx); all_goals have kx := True.intro) | with_reducible apply putSave_kept | with_reducible apply logFlush_kept | with_reducible apply logEvent_kept | with_reducible apply busReturns_kept | with_reducible apply finishReset_kept | with_reducible apply kept_ite | split | refine kept_upd ?_ rfl rfl rfl rfl rfl rfl rfl rfl rfl rfl rfl rfl)

theorem romServes_kept (s : State) (hs : Kept qs os s) :
    Kept qs os (romServes s) := by
  unfold romServes
  repeat' (first | with_reducible assumption | refine kept_upd ?_ rfl rfl rfl rfl rfl rfl rfl rfl rfl rfl rfl rfl)

theorem startImage_kept (s : State) (i : Image) (hs : Kept qs os s) : Kept qs os (startImage s i) := by
  have h := unsealKeys_kept s hs
  exact ⟨h.dram, h.loc, putBytes_canon _ _ nil_canon, h.host, h.twin, h.before, h.link, h.bus, h.level, h.asked, h.queue, h.sent⟩

theorem bootImage_kept (s : State) (a b : Image) (hs : Kept qs os s) :
    Kept qs os (bootImage s a b) := by
  unfold bootImage
  repeat' (first | with_reducible assumption | ((fail_if_success (fail_if_success extract_lets)); extract_lets +onlyGivenNames kx; (fail_if_success (have : True := kx)); (first | (refine kept_cut qs os kx ?_ fun _ => ?_; unfold kx; rotate_left; clear_value kx; rotate_right) | (have := (kx : Sec); clear this) | clear_value kx); all_goals have kx := True.intro) | with_reducible apply romServes_kept | with_reducible apply pulse_kept | with_reducible apply lcWrite_kept | with_reducible apply startImage_kept | with_reducible apply kept_ite | refine kept_upd ?_ rfl rfl rfl rfl rfl rfl rfl rfl rfl rfl rfl rfl)

theorem fwInterrupts_kept (s : State) (hs : Kept qs os s) :
    Kept qs os (fwInterrupts s) := by
  unfold fwInterrupts
  repeat' (first | with_reducible assumption | with_reducible apply icEval_kept | refine kept_upd ?_ rfl rfl rfl rfl rfl rfl rfl rfl rfl rfl rfl rfl)

theorem fwArbiters_kept (s : State) (hs : Kept qs os s) :
    Kept qs os (fwArbiters s) := by
  unfold fwArbiters
  repeat' (first | with_reducible assumption | with_reducible apply setArb_kept | (with_reducible apply kept_foldl; intro _ _ _))

theorem fwBoard_kept (s : State) (hs : Kept qs os s) :
    Kept qs os (fwBoard s) := by
  unfold fwBoard
  repeat' (first | with_reducible assumption | with_reducible apply evalHoldup_kept | with_reducible apply setHu_kept | split | exact Kept.bus (qs := qs) (os := os) (by assumption))

theorem fwTwin_kept (s : State) (hs : Kept qs os s) :
    Kept qs os (fwTwin s) := by
  unfold fwTwin
  repeat' (first | with_reducible assumption | split | refine kept_upd ?_ rfl rfl rfl rfl rfl rfl rfl rfl rfl rfl rfl rfl)

theorem fwRetirements_kept (s : State) (hs : Kept qs os s) :
    Kept qs os (fwRetirements s) := by
  unfold fwRetirements
  repeat' (first | with_reducible assumption | with_reducible apply retireBy_kept | (with_reducible apply kept_foldl; intro _ _ _))

theorem heldWrite_kept (s : State) (r : Nat) (e : Nat × Nat × Word) (hs : Kept qs os s) :
    Kept qs os (heldWrite s r e) := by
  unfold heldWrite
  repeat' (first | with_reducible assumption | ((fail_if_success (fail_if_success extract_lets)); extract_lets +onlyGivenNames kx; (fail_if_success (have : True := kx)); clear_value kx; all_goals have kx := True.intro) | with_reducible apply hfSqLo_kept | with_reducible apply hfSqHi_kept | with_reducible apply hfRqLo_kept | with_reducible apply hfRqHi_kept | with_reducible apply hfCfg_kept | with_reducible apply kept_ite | split)

theorem applyHeldAdm_kept (s : State) (hs : Kept qs os s) :
    Kept qs os (applyHeldAdm s) := by
  unfold applyHeldAdm
  repeat' (first | with_reducible assumption | ((fail_if_success (fail_if_success extract_lets)); extract_lets +onlyGivenNames kx; (fail_if_success (have : True := kx)); (first | (refine kept_cut qs os kx ?_ fun _ => ?_; unfold kx; rotate_left; clear_value kx; rotate_right) | clear_value kx); all_goals have kx := True.intro) | with_reducible apply heldWrite_kept | (with_reducible apply kept_foldl; intro _ _ _) | refine kept_upd ?_ rfl rfl rfl rfl rfl rfl rfl rfl rfl rfl rfl rfl)

theorem firmwareStarts_kept (s : State) (hs : Kept qs os s) :
    Kept qs os (firmwareStarts s) := by
  unfold firmwareStarts
  repeat' (first | with_reducible assumption | ((fail_if_success (fail_if_success extract_lets)); extract_lets +onlyGivenNames kx; (fail_if_success (have : True := kx)); (first | (refine kept_cut qs os kx ?_ fun _ => ?_; unfold kx; rotate_left; clear_value kx; rotate_right) | clear_value kx); all_goals have kx := True.intro) | with_reducible apply fwRetirements_kept | with_reducible apply fwTwin_kept | with_reducible apply fwBoard_kept | with_reducible apply fwArbiters_kept | with_reducible apply fwInterrupts_kept | with_reducible apply pulse_kept | with_reducible apply applyHeld_kept | with_reducible apply quadsStart_kept | with_reducible apply applyHeldAdm_kept | with_reducible apply kept_ite | refine kept_upd ?_ rfl rfl rfl rfl rfl rfl rfl rfl rfl rfl rfl rfl)

theorem dropEffects_kept (s : State) (fs : List Master) (hs : Kept qs os s) :
    Kept qs os (dropEffects s fs) := by
  unfold dropEffects
  repeat' (first | with_reducible assumption | (first | (intro _ hk; have := hk.queue) | (intro _ _ hk; have := hk.queue) | (intro _ _ _ hk; have := hk.queue); clear this) | intro _ | ((fail_if_success (fail_if_success extract_lets)); extract_lets +onlyGivenNames kx; (fail_if_success (have : True := kx)); (first | (refine kept_cut qs os kx ?_ fun _ => ?_; unfold kx; rotate_left; clear_value kx; rotate_right) | (refine kept_cut qs os kx.1 ?_ fun _ => ?_; unfold kx; rotate_left; clear_value kx; rotate_right) | (first | have := (kx : State → _) | have := (kx : Twin) | have := (kx : Mem) | have := (kx : Hu) | have := (kx : Sec); clear this) | clear_value kx); all_goals have kx := True.intro) | with_reducible apply done_kept | with_reducible apply finishReissue_kept | with_reducible apply clauseReleased_kept | (with_reducible apply kept_foldl; intro _ _ _) | with_reducible apply kept_ite | split | refine kept_upd ?_ rfl rfl rfl rfl rfl rfl rfl rfl rfl rfl rfl rfl)

theorem flrPron_kept (s : State) (n : Nat) (hs : Kept qs os s) :
    Kept qs os (flrPron s n) := by
  unfold flrPron
  repeat' (first | with_reducible assumption | with_reducible apply resetPron_kept | with_reducible apply modP_kept)

theorem flrFunc_kept (s : State) (m : Master) (hs : Kept qs os s) :
    Kept qs os (flrFunc s m) := by
  unfold flrFunc
  repeat' (first | with_reducible assumption | ((fail_if_success (fail_if_success extract_lets)); extract_lets +onlyGivenNames kx; (fail_if_success (have : True := kx)); (first | (refine kept_cut qs os kx ?_ fun _ => ?_; unfold kx; rotate_left; clear_value kx; rotate_right) | clear_value kx); all_goals have kx := True.intro) | with_reducible apply setFunc_kept | with_reducible apply resetMaster_kept | refine kept_upd ?_ rfl rfl rfl rfl rfl rfl rfl rfl rfl rfl rfl rfl)

theorem flr_kept (s : State) (m : Master) (hs : Kept qs os s) :
    Kept qs os (flr s m) := by
  unfold flr
  repeat' (first | with_reducible assumption | (first | (intro _ hk; have := hk.queue) | (intro _ _ hk; have := hk.queue) | (intro _ _ _ hk; have := hk.queue); clear this) | intro _ | ((fail_if_success (fail_if_success extract_lets)); extract_lets +onlyGivenNames kx; (fail_if_success (have : True := kx)); (first | (refine kept_cut qs os kx ?_ fun _ => ?_; unfold kx; rotate_left; clear_value kx; rotate_right) | (refine kept_cut qs os kx.1 ?_ fun _ => ?_; unfold kx; rotate_left; clear_value kx; rotate_right) | (first | have := (kx : State → _) | have := (kx : Twin) | have := (kx : Mem) | have := (kx : Hu) | have := (kx : Sec); clear this) | clear_value kx); all_goals have kx := True.intro) | with_reducible apply flrPron_kept | with_reducible apply flrFunc_kept | with_reducible apply dropEffects_kept | (with_reducible apply kept_foldl; intro _ _ _) | refine kept_upd ?_ rfl rfl rfl rfl rfl rfl rfl rfl rfl rfl rfl rfl)

theorem linkFalls_kept (s : State) (b : Bool) (hs : Kept qs os s) :
    Kept qs os (linkFalls s b) := by
  unfold linkFalls
  repeat' (first | with_reducible assumption | ((fail_if_success (fail_if_success extract_lets)); extract_lets +onlyGivenNames kx; (fail_if_success (have : True := kx)); (first | (refine kept_cut qs os kx ?_ fun _ => ?_; unfold kx; rotate_left; clear_value kx; rotate_right) | clear_value kx); all_goals have kx := True.intro) | with_reducible apply pulse_kept | with_reducible apply kept_ite | refine kept_upd ?_ rfl rfl rfl rfl rfl rfl rfl rfl rfl rfl rfl rfl)

theorem clearEngine_kept (s : State) (e : Nat) (hs : Kept qs os s) : Kept qs os (clearEngine s e) :=
  ⟨hs.dram, filter_canon _ hs.loc, hs.tcm, hs.host, hs.twin, hs.before, hs.link, hs.bus, hs.level, hs.asked, hs.queue, hs.sent⟩

theorem engineReset_kept (s : State) (e : Nat) (hs : Kept qs os s) :
    Kept qs os (engineReset s e) := by
  unfold engineReset
  repeat' (first | with_reducible assumption | ((fail_if_success (fail_if_success extract_lets)); extract_lets +onlyGivenNames kx; (fail_if_success (have : True := kx)); (first | (refine kept_cut qs os kx ?_ fun _ => ?_; unfold kx; rotate_left; clear_value kx; rotate_right) | clear_value kx); all_goals have kx := True.intro) | with_reducible apply clearEngine_kept | with_reducible apply resetPron_kept | with_reducible apply resetMaster_kept | (with_reducible apply kept_foldl; intro _ _ _))

end Sys2Proof.Machine
end

