-- ==== Sys2Proof/Laws/KeptSecurity.lean ====
section
/-!
SUPPORT. Every function of Machine/Security.lean keeps a sound state, the queue and what was sent.
-/

namespace Sys2Proof.Machine

variable {qs : List Instr} {os : List Out}

theorem setWidth_level {level : Byte} (h : level.toNat ≤ 2) : (level.setWidth 2).toNat ≤ 2 := by
  rw [BitVec.toNat_setWidth]
  omega

theorem refuse_kept (s : State) (st : Half) (hs : Kept qs os s) :
    AnsKept qs os (refuse s st) := by
  unfold refuse
  repeat' (first | with_reducible assumption | with_reducible apply ansKept_no)

theorem badField_kept (s : State) (f : Byte) (hs : Kept qs os s) :
    AnsKept qs os (badField s f) := by
  unfold badField
  repeat' (first | with_reducible assumption | with_reducible apply ansKept_no)

theorem hostError_kept (s : State) (d : Byte) (hs : Kept qs os s) :
    AnsKept qs os (hostError s d) := by
  unfold hostError
  repeat' (first | with_reducible assumption | with_reducible apply ansKept_no)

theorem authFail_kept (s : State) (hs : Kept qs os s) :
    Kept qs os (authFail s) := by
  unfold authFail
  repeat' (first | with_reducible assumption | ((fail_if_success (fail_if_success extract_lets)); extract_lets +onlyGivenNames kx; (fail_if_success (have : True := kx)); (first | (refine kept_cut qs os kx ?_ fun _ => ?_; unfold kx; rotate_left; clear_value kx; rotate_right) | (have := (kx : Sec); clear this)); all_goals have kx := True.intro) | with_reducible apply pulse_kept | with_reducible apply kept_ite | split | refine kept_upd ?_ rfl rfl rfl rfl rfl rfl rfl rfl rfl rfl rfl rfl)

theorem newNonce_kept (s : State) (hs : Kept qs os s) :
    Kept qs os (newNonce s) := by
  unfold newNonce
  repeat' (first | with_reducible assumption | refine kept_upd ?_ rfl rfl rfl rfl rfl rfl rfl rfl rfl rfl rfl rfl)

theorem dropNonce_kept (s : State) (hs : Kept qs os s) :
    Kept qs os (dropNonce s) := by
  unfold dropNonce
  repeat' (first | with_reducible assumption | refine kept_upd ?_ rfl rfl rfl rfl rfl rfl rfl rfl rfl rfl rfl rfl)

theorem transition_kept (s : State) (r : LcRec) (hs : Kept qs os s) :
    Kept qs os (transition s r) := by
  unfold transition
  repeat' (first | with_reducible assumption | ((fail_if_success (fail_if_success extract_lets)); extract_lets +onlyGivenNames kx; (fail_if_success (have : True := kx)); (first | (refine kept_cut qs os kx ?_ fun _ => ?_; unfold kx; rotate_left; clear_value kx; rotate_right) | (first | have := (kx : Twin) | have := (kx : Sec); clear this) | clear_value kx); all_goals have kx := True.intro) | with_reducible apply shedHost_kept | with_reducible apply shed_kept | with_reducible apply dropNonce_kept | with_reducible apply pulse_kept | with_reducible apply lcWrite_kept | with_reducible apply coldReset_kept | with_reducible apply wipeAll_kept | with_reducible apply bootRun_kept | refine kept_upd ?_ rfl rfl rfl rfl rfl rfl rfl rfl rfl rfl rfl rfl)

theorem startBank_kept (s : State) (l : List (Nat × VKey)) (hs : Kept qs os s) :
    Kept qs os (startBank s l) := by
  unfold startBank
  repeat' (first | with_reducible assumption | refine kept_upd ?_ rfl rfl rfl rfl rfl rfl rfl rfl rfl rfl rfl rfl)

theorem bankWritten_kept (s : State) (hs : Kept qs os s) :
    Kept qs os (bankWritten s) := by
  unfold bankWritten
  repeat' (first | with_reducible assumption | ((fail_if_success (fail_if_success extract_lets)); extract_lets +onlyGivenNames kx; (fail_if_success (have : True := kx)); (first | (refine kept_cut qs os kx ?_ fun _ => ?_; unfold kx; rotate_left; clear_value kx; rotate_right) | (have := (kx : Sec); clear this) | clear_value kx); all_goals have kx := True.intro) | with_reducible apply writeBank_kept | with_reducible apply finishHeld_kept | split | refine kept_upd ?_ rfl rfl rfl rfl rfl rfl rfl rfl rfl rfl rfl rfl)

theorem importKey_kept (s : State) (i : Nat) (use : Half) (k : BitVec 256) (hs : Kept qs os s) :
    Kept qs os (importKey s i use k) := by
  unfold importKey
  repeat' (first | with_reducible assumption | ((fail_if_success (fail_if_success extract_lets)); extract_lets +onlyGivenNames kx; (fail_if_success (have : True := kx)); (first | (refine kept_cut qs os kx ?_ fun _ => ?_; unfold kx; rotate_left; clear_value kx; rotate_right) | (have := (kx : Sec); clear this)); all_goals have kx := True.intro) | with_reducible apply pulse_kept | with_reducible apply startBank_kept | refine kept_upd ?_ rfl rfl rfl rfl rfl rfl rfl rfl rfl rfl rfl rfl)

theorem keyImport_kept (s : State) (i len iova : Nat) (hs : Kept qs os s) :
    AnsKept qs os (keyImport s i len iova) := by
  unfold keyImport
  repeat' (first | with_reducible assumption | ((fail_if_success (fail_if_success extract_lets)); extract_lets +onlyGivenNames kx; (fail_if_success (have : True := kx)); clear_value kx; all_goals have kx := True.intro) | with_reducible apply ansKept_held | with_reducible apply ansKept_ite | with_reducible apply badField_kept | with_reducible apply hostError_kept | with_reducible apply refuse_kept | with_reducible apply authFail_kept | with_reducible apply importKey_kept | split)

theorem keyErase_kept (s : State) (i : Nat) (hs : Kept qs os s) :
    AnsKept qs os (keyErase s i) := by
  unfold keyErase
  repeat' (first | with_reducible assumption | ((fail_if_success (fail_if_success extract_lets)); extract_lets +onlyGivenNames kx; (fail_if_success (have : True := kx)); clear_value kx; all_goals have kx := True.intro) | with_reducible apply ansKept_held | with_reducible apply ansKept_ite | with_reducible apply badField_kept | with_reducible apply refuse_kept | with_reducible apply pulse_kept | with_reducible apply startBank_kept | with_reducible apply emptyKey_kept)

theorem keyInfo_kept (s : State) (i : Nat) (hs : Kept qs os s) :
    AnsKept qs os (keyInfo s i) := by
  unfold keyInfo
  repeat' (first | with_reducible assumption | with_reducible apply ansKept_done | with_reducible apply ansKept_ite | with_reducible apply badField_kept | split)

theorem setLevel_kept (s : State) (n : BitVec 2) (hs : Kept qs os s) (hn : n.toNat ≤ 2) : Kept qs os (setLevel s n) := by
  unfold setLevel
  refine kept_ite hs ?_
  extract_lets s' t
  have h : Kept qs os t := pulse_kept _ _ (kept_sec hs hn hs.asked)
  have h2 : Kept qs os { t with sec := { t.sec with vault := [], unsealOff := true } } := kept_sec h h.level h.asked
  exact kept_ite (resetMaster_kept _ _ (kept_ite h2 h)) (kept_ite h2 h)

theorem answer_kept (s : State) (status : Byte) (data : List Byte) (hs : Kept qs os s) :
    Kept qs os (answer s status data) := by
  unfold answer
  repeat' (first | with_reducible assumption | refine kept_upd ?_ rfl rfl rfl rfl rfl rfl rfl rfl rfl rfl rfl rfl)

theorem challengeOp_kept (s : State) (level : Byte) (hs : Kept qs os s) : Kept qs os (challengeOp s level) := by
  unfold challengeOp
  refine kept_ite (answer_kept _ _ _ hs) ?_
  split
  · exact answer_kept _ _ _ hs
  · rename_i h
    refine kept_ite (answer_kept _ _ _ hs) (answer_kept _ _ _ ?_)
    refine ⟨hs.dram, hs.loc, hs.tcm, hs.host, hs.twin, hs.before, hs.link, hs.bus, hs.level, fun x e => ?_, hs.queue, hs.sent⟩
    have hx : level = x.2 := congrArg Prod.snd (Option.some.inj e)
    have : level = 1 ∨ level = 2 := by
      by_cases h1 : level = 1
      · exact .inl h1
      · by_cases h2 : level = 2
        · exact .inr h2
        · exact absurd (by simpa using h) fun k : ¬level = 1#8 → level = 2#8 => h2 (k h1)
    rcases this with h1 | h1 <;> rw [← hx, h1] <;> exact Nat.le_of_ble_eq_true rfl

theorem unlockDbg_kept (s : State) (key sig : List Byte) (hs : Kept qs os s) : Kept qs os (unlockDbg s key sig) := by
  unfold unlockDbg
  refine kept_ite (answer_kept _ _ _ hs) (kept_ite (answer_kept _ _ _ hs) ?_)
  split
  · exact answer_kept _ _ _ hs
  · rename_i n level e
    have h : Kept qs os { s with sec := { s.sec with chal := none } } := kept_sec hs hs.level fun _ e => nomatch e
    exact kept_ite (answer_kept _ _ _ (authFail_kept _ h))
      (answer_kept _ _ _ (setLevel_kept _ _ h (setWidth_level (hs.asked _ e))))

theorem relockOp_kept (s : State) (level : Byte) (hs : Kept qs os s) : Kept qs os (relockOp s level) := by
  unfold relockOp
  split
  · rename_i h
    exact answer_kept _ _ _ (setLevel_kept _ _ hs (setWidth_level (by have := hs.level; omega)))
  · exact answer_kept _ _ _ hs

theorem setTap_kept (s : State) (t : Tap) (hs : Kept qs os s) :
    Kept qs os (setTap s t) := by
  unfold setTap
  repeat' (first | with_reducible assumption | refine kept_upd ?_ rfl rfl rfl rfl rfl rfl rfl rfl rfl rfl rfl rfl)

theorem selectIr_kept (s : State) (ir : Byte) (hs : Kept qs os s) :
    Kept qs os (selectIr s ir) := by
  unfold selectIr
  repeat' (first | with_reducible assumption | with_reducible apply setTap_kept)

theorem boundaryIr_kept (s : State) (ir : Byte) (hs : Kept qs os s) :
    Kept qs os (boundaryIr s ir) := by
  unfold boundaryIr
  repeat' (first | with_reducible assumption | with_reducible apply setTap_kept | with_reducible apply selectIr_kept | with_reducible apply kept_ite)

theorem spoilStore_kept (s : State) (o : Nat) (hs : Kept qs os s) :
    Kept qs os (spoilStore s o) := by
  unfold spoilStore
  repeat' (first | with_reducible assumption | ((fail_if_success (fail_if_success extract_lets)); extract_lets +onlyGivenNames kx; (fail_if_success (have : True := kx)); (first | (refine kept_cut qs os kx ?_ fun _ => ?_; unfold kx; rotate_left; clear_value kx; rotate_right) | (refine kept_cut qs os kx.1 ?_ fun _ => ?_; unfold kx; rotate_left; clear_value kx; rotate_right) | (first | have := (kx : State → _) | have := (kx : Twin) | have := (kx : Mem) | have := (kx : Hu) | have := (kx : Sec); clear this) | clear_value kx); all_goals have kx := True.intro) | with_reducible apply retire_kept | with_reducible apply kept_ite | split | refine kept_upd ?_ rfl rfl rfl rfl rfl rfl rfl rfl rfl rfl rfl rfl)

theorem storeWrite_kept (s : State) (o : Nat) (l : List Byte) (hs : Kept qs os s) :
    Kept qs os (storeWrite s o l) := by
  unfold storeWrite
  repeat' (first | with_reducible assumption | ((fail_if_success (fail_if_success extract_lets)); extract_lets +onlyGivenNames kx; (fail_if_success (have : True := kx)); (first | (refine kept_cut qs os kx ?_ fun _ => ?_; unfold kx; rotate_left; clear_value kx; rotate_right) | clear_value kx); all_goals have kx := True.intro) | with_reducible apply spoilStore_kept | (with_reducible apply kept_foldl; intro _ _ _) | refine kept_upd ?_ rfl rfl rfl rfl rfl rfl rfl rfl rfl rfl rfl rfl)

theorem readMemOp_kept (s : State) (a : Dword) (n : Nat) (hs : Kept qs os s) :
    Kept qs os (readMemOp s a n) := by
  unfold readMemOp
  repeat' (first | with_reducible assumption | with_reducible apply answer_kept | with_reducible apply kept_ite | refine kept_upd ?_ rfl rfl rfl rfl rfl rfl rfl rfl rfl rfl rfl rfl)

theorem writeMemOp_kept (s : State) (a : Dword) (n : Nat) (l : List Byte) (hs : Kept qs os s) :
    Kept qs os (writeMemOp s a n l) := by
  unfold writeMemOp
  repeat' (first | with_reducible assumption | ((fail_if_success (fail_if_success extract_lets)); extract_lets +onlyGivenNames kx; (fail_if_success (have : True := kx)); (first | (refine kept_cut qs os kx ?_ fun _ => ?_; unfold kx; rotate_left; clear_value kx; rotate_right) | clear_value kx); all_goals have kx := True.intro) | with_reducible apply answer_kept | with_reducible apply writeDram_kept | with_reducible apply writeLoc_kept | with_reducible apply writeTcm_kept | with_reducible apply storeWrite_kept | with_reducible apply kept_ite | split)

theorem traceReadOp_kept (s : State) (o : Nat) (hs : Kept qs os s) :
    Kept qs os (traceReadOp s o) := by
  unfold traceReadOp
  repeat' (first | with_reducible assumption | with_reducible apply answer_kept | with_reducible apply kept_ite)

end Sys2Proof.Machine
end

