-- ==== Sys2Proof/Laws/KeptRegRead.lean ====
section
/-!
SUPPORT. Every function of Machine/RegRead.lean keeps a sound state, the queue and what was sent.
-/

namespace Sys2Proof.Machine

variable {qs : List Instr} {os : List Out}

theorem ro_kept (s : State) (n : Nat) (hs : Kept qs os s) :
    Kept qs os (ro s n).2 := by
  unfold ro
  repeat' (with_reducible assumption)

theorem lo_kept (s : State) (hiOff : Nat) (n : Nat) (hs : Kept qs os s) :
    Kept qs os (lo s hiOff n).2 := by
  unfold lo
  repeat' (first | with_reducible assumption | refine kept_upd ?_ rfl rfl rfl rfl rfl rfl rfl rfl rfl rfl rfl rfl)

theorem hi_kept (s : State) (off : Nat) (hs : Kept qs os s) :
    Kept qs os (hi s off).2 := by
  unfold hi
  repeat' (with_reducible assumption)

theorem rc_kept (s : State) (dbg : Bool) (n : Nat) (clear : State → State) (hs : Kept qs os s) (hclear : ∀ (x0 : State), Kept qs os x0 → Kept qs os (clear x0)) :
    Kept qs os (rc s dbg n clear).2 := by
  unfold rc
  repeat' (first | with_reducible assumption | apply hclear | with_reducible apply kept_ite)

theorem readDev_kept (s : State) (o : Nat) (hs : Kept qs os s) :
    Kept qs os (readDev s o).2 := by
  unfold readDev
  repeat' (first | with_reducible assumption | with_reducible apply lo_kept | with_reducible apply hi_kept | with_reducible apply ro_kept | split)

theorem readSched_kept (s : State) (dbg : Bool) (o : Nat) (hs : Kept qs os s) :
    Kept qs os (readSched s dbg o).2 := by
  unfold readSched
  repeat' (first | with_reducible assumption | (first | (intro _ hk; have := hk.queue) | (intro _ _ hk; have := hk.queue) | (intro _ _ _ hk; have := hk.queue); clear this) | with_reducible apply ro_kept | with_reducible apply lo_kept | with_reducible apply hi_kept | with_reducible apply rc_kept | split | refine kept_upd ?_ rfl rfl rfl rfl rfl rfl rfl rfl rfl rfl rfl rfl)

theorem readCls_kept (s : State) (dbg : Bool) (o : Nat) (hs : Kept qs os s) :
    Kept qs os (readCls s dbg o).2 := by
  unfold readCls
  repeat' (first | with_reducible assumption | (first | (intro _ hk; have := hk.queue) | (intro _ _ hk; have := hk.queue) | (intro _ _ _ hk; have := hk.queue); clear this) | ((fail_if_success (fail_if_success extract_lets)); extract_lets +onlyGivenNames kx; (fail_if_success (have : True := kx)); clear_value kx; all_goals have kx := True.intro) | with_reducible apply ro_kept | with_reducible apply lo_kept | with_reducible apply hi_kept | with_reducible apply rc_kept | with_reducible apply kept_ite_snd | split | refine kept_upd ?_ rfl rfl rfl rfl rfl rfl rfl rfl rfl rfl rfl rfl)

theorem readFs_kept (s : State) (dbg : Bool) (o : Nat) (hs : Kept qs os s) :
    Kept qs os (readFs s dbg o).2 := by
  unfold readFs
  repeat' (first | with_reducible assumption | (first | (intro _ hk; have := hk.queue) | (intro _ _ hk; have := hk.queue) | (intro _ _ _ hk; have := hk.queue); clear this) | with_reducible apply ro_kept | with_reducible apply lo_kept | with_reducible apply hi_kept | with_reducible apply rc_kept | split | refine kept_upd ?_ rfl rfl rfl rfl rfl rfl rfl rfl rfl rfl rfl rfl)

theorem readHp_kept (s : State) (o : Nat) (hs : Kept qs os s) :
    Kept qs os (readHp s o).2 := by
  unfold readHp
  repeat' (first | with_reducible assumption | with_reducible apply ro_kept | with_reducible apply kept_ite_snd)

theorem readMv_kept (s : State) (dbg : Bool) (o : Nat) (hs : Kept qs os s) :
    Kept qs os (readMv s dbg o).2 := by
  unfold readMv
  repeat' (first | with_reducible assumption | (first | (intro _ hk; have := hk.queue) | (intro _ _ hk; have := hk.queue) | (intro _ _ _ hk; have := hk.queue); clear this) | ((fail_if_success (fail_if_success extract_lets)); extract_lets +onlyGivenNames kx; (fail_if_success (have : True := kx)); clear_value kx; all_goals have kx := True.intro) | with_reducible apply ro_kept | with_reducible apply lo_kept | with_reducible apply hi_kept | with_reducible apply rc_kept | with_reducible apply modMv_kept | with_reducible apply kept_ite_snd | split)

theorem readXf_kept (s : State) (o : Nat) (hs : Kept qs os s) :
    Kept qs os (readXf s o).2 := by
  unfold readXf
  repeat' (first | with_reducible assumption | ((fail_if_success (fail_if_success extract_lets)); extract_lets +onlyGivenNames kx; (fail_if_success (have : True := kx)); clear_value kx; all_goals have kx := True.intro) | with_reducible apply ro_kept | with_reducible apply kept_ite_snd | split)

theorem readArb_kept (s : State) (dbg : Bool) (o : Nat) (hs : Kept qs os s) :
    Kept qs os (readArb s dbg o).2 := by
  unfold readArb
  repeat' (first | with_reducible assumption | (first | (intro _ hk; have := hk.queue) | (intro _ _ hk; have := hk.queue) | (intro _ _ _ hk; have := hk.queue); clear this) | ((fail_if_success (fail_if_success extract_lets)); extract_lets +onlyGivenNames kx; (fail_if_success (have : True := kx)); clear_value kx; all_goals have kx := True.intro) | with_reducible apply ro_kept | with_reducible apply rc_kept | with_reducible apply setArb_kept | with_reducible apply kept_ite_snd | split)

theorem readCe_kept (s : State) (dbg : Bool) (o : Nat) (hs : Kept qs os s) :
    Kept qs os (readCe s dbg o).2 := by
  unfold readCe
  repeat' (first | with_reducible assumption | (first | (intro _ hk; have := hk.queue) | (intro _ _ hk; have := hk.queue) | (intro _ _ _ hk; have := hk.queue); clear this) | ((fail_if_success (fail_if_success extract_lets)); extract_lets +onlyGivenNames kx; (fail_if_success (have : True := kx)); clear_value kx; all_goals have kx := True.intro) | with_reducible apply ro_kept | with_reducible apply rc_kept | with_reducible apply kept_ite_snd | refine kept_upd ?_ rfl rfl rfl rfl rfl rfl rfl rfl rfl rfl rfl rfl)

theorem readCtr_kept (s : State) (dbg : Bool) (q p i : Nat) (high : Bool) (off : Nat) (hs : Kept qs os s) :
    Kept qs os (readCtr s dbg q p i high off).2 := by
  unfold readCtr
  dsimp only
  repeat' (first | with_reducible assumption | ((fail_if_success (fail_if_success extract_lets)); extract_lets +onlyGivenNames kx; (fail_if_success (have : True := kx)); (first | (refine kept_cut qs os kx ?_ fun _ => ?_; unfold kx; rotate_left; clear_value kx; rotate_right) | (refine kept_cut qs os kx.1 ?_ fun _ => ?_; unfold kx; rotate_left; clear_value kx; rotate_right) | (refine kept_cut qs os kx.2 ?_ fun _ => ?_; unfold kx; rotate_left; clear_value kx; rotate_right) | (first | have := (kx : State → _) | have := (kx : Twin) | have := (kx : Mem) | have := (kx : Hu) | have := (kx : Sec); clear this) | clear_value kx); all_goals have kx := True.intro) | with_reducible apply setPort_kept | with_reducible apply hi_kept | with_reducible apply ro_kept | with_reducible apply lo_kept | with_reducible apply kept_ite | with_reducible apply kept_ite_snd | with_reducible refine kept_of_pair2 (by assumption) ?_ | split | refine kept_upd ?_ rfl rfl rfl rfl rfl rfl rfl rfl rfl rfl rfl rfl)

theorem readQ_kept (s : State) (dbg : Bool) (o : Nat) (hs : Kept qs os s) :
    Kept qs os (readQ s dbg o).2 := by
  unfold readQ
  repeat' (first | with_reducible assumption | ((fail_if_success (fail_if_success extract_lets)); extract_lets +onlyGivenNames kx; (fail_if_success (have : True := kx)); clear_value kx; all_goals have kx := True.intro) | with_reducible apply ro_kept | with_reducible apply readCtr_kept | with_reducible apply kept_ite_snd | split)

theorem readEcl_kept (s : State) (o : Nat) (hs : Kept qs os s) :
    Kept qs os (readEcl s o).2 := by
  unfold readEcl
  repeat' (first | with_reducible assumption | with_reducible apply ro_kept | with_reducible apply kept_ite_snd)

theorem readIc_kept (s : State) (o : Nat) (hs : Kept qs os s) :
    Kept qs os (readIc s o).2 := by
  unfold readIc
  repeat' (first | with_reducible assumption | ((fail_if_success (fail_if_success extract_lets)); extract_lets +onlyGivenNames kx; (fail_if_success (have : True := kx)); clear_value kx; all_goals have kx := True.intro) | with_reducible apply ro_kept | with_reducible apply claimNormal_kept | with_reducible apply claimFast_kept | with_reducible apply kept_ite_snd | split)

theorem readCap_kept (s : State) (dbg : Bool) (k r off : Nat) (hs : Kept qs os s) :
    Kept qs os (readCap s dbg k r off).2 := by
  unfold readCap
  repeat' (first | with_reducible assumption | (first | (intro _ hk; have := hk.queue) | (intro _ _ hk; have := hk.queue) | (intro _ _ _ hk; have := hk.queue); clear this) | ((fail_if_success (fail_if_success extract_lets)); extract_lets +onlyGivenNames kx; (fail_if_success (have : True := kx)); clear_value kx; all_goals have kx := True.intro) | with_reducible apply lo_kept | with_reducible apply hi_kept | with_reducible apply rc_kept | with_reducible apply ro_kept | split | refine kept_upd ?_ rfl rfl rfl rfl rfl rfl rfl rfl rfl rfl rfl rfl)

theorem readEvt_kept (s : State) (who : Master) (dbg : Bool) (o : Nat) (hs : Kept qs os s) :
    Kept qs os (readEvt s who dbg o).2 := by
  unfold readEvt
  repeat' (first | with_reducible assumption | (first | (intro _ hk; have := hk.queue) | (intro _ _ hk; have := hk.queue) | (intro _ _ _ hk; have := hk.queue); clear this) | with_reducible apply ro_kept | with_reducible apply readCap_kept | with_reducible apply readIc_kept | with_reducible apply rc_kept | with_reducible apply kept_ite_snd | split | refine kept_upd ?_ rfl rfl rfl rfl rfl rfl rfl rfl rfl rfl rfl rfl)

theorem readTwin_kept (s : State) (dbg : Bool) (o : Nat) (hs : Kept qs os s) :
    Kept qs os (readTwin s dbg o).2 := by
  unfold readTwin
  repeat' (first | with_reducible assumption | (first | (intro _ hk; have := hk.queue) | (intro _ _ hk; have := hk.queue) | (intro _ _ _ hk; have := hk.queue); clear this) | ((fail_if_success (fail_if_success extract_lets)); extract_lets +onlyGivenNames kx; (fail_if_success (have : True := kx)); (first | (have := (kx : Twin); clear this) | clear_value kx); all_goals have kx := True.intro) | with_reducible apply ro_kept | with_reducible apply rc_kept | with_reducible apply lo_kept | with_reducible apply hi_kept | with_reducible apply kept_ite_snd | split | refine kept_upd ?_ rfl rfl rfl rfl rfl rfl rfl rfl rfl rfl rfl rfl)

theorem readPwr_kept (s : State) (dbg : Bool) (o : Nat) (hs : Kept qs os s) :
    Kept qs os (readPwr s dbg o).2 := by
  unfold readPwr
  repeat' (first | with_reducible assumption | (first | (intro _ hk; have := hk.queue) | (intro _ _ hk; have := hk.queue) | (intro _ _ _ hk; have := hk.queue); clear this) | with_reducible apply ro_kept | with_reducible apply rc_kept | split | refine kept_upd ?_ rfl rfl rfl rfl rfl rfl rfl rfl rfl rfl rfl rfl)

theorem readSec_kept (s : State) (o : Nat) (hs : Kept qs os s) :
    Kept qs os (readSec s o).2 := by
  unfold readSec
  repeat' (first | with_reducible assumption | with_reducible apply ro_kept | with_reducible apply kept_ite_snd | split)

theorem readFlt_kept (s : State) (dbg : Bool) (o : Nat) (hs : Kept qs os s) :
    Kept qs os (readFlt s dbg o).2 := by
  unfold readFlt
  repeat' (first | with_reducible assumption | (first | (intro _ hk; have := hk.queue) | (intro _ _ hk; have := hk.queue) | (intro _ _ _ hk; have := hk.queue); clear this) | ((fail_if_success (fail_if_success extract_lets)); extract_lets +onlyGivenNames kx; (fail_if_success (have : True := kx)); clear_value kx; all_goals have kx := True.intro) | with_reducible apply ro_kept | with_reducible apply lo_kept | with_reducible apply hi_kept | with_reducible apply rc_kept | with_reducible apply kept_ite_snd | split | refine kept_upd ?_ rfl rfl rfl rfl rfl rfl rfl rfl rfl rfl rfl rfl)

theorem readRst_kept (s : State) (dbg : Bool) (o : Nat) (hs : Kept qs os s) :
    Kept qs os (readRst s dbg o).2 := by
  unfold readRst
  repeat' (first | with_reducible assumption | (first | (intro _ hk; have := hk.queue) | (intro _ _ hk; have := hk.queue) | (intro _ _ _ hk; have := hk.queue); clear this) | ((fail_if_success (fail_if_success extract_lets)); extract_lets +onlyGivenNames kx; (fail_if_success (have : True := kx)); clear_value kx; all_goals have kx := True.intro) | with_reducible apply ro_kept | with_reducible apply rc_kept | split | refine kept_upd ?_ rfl rfl rfl rfl rfl rfl rfl rfl rfl rfl rfl rfl)

theorem regRead_kept (s : State) (who : Master) (off : Nat) (hs : Kept qs os s) :
    Kept qs os (regRead s who off).2 := by
  unfold regRead
  repeat' (first | with_reducible assumption | ((fail_if_success (fail_if_success extract_lets)); extract_lets +onlyGivenNames kx; (fail_if_success (have : True := kx)); clear_value kx; all_goals have kx := True.intro) | with_reducible apply ro_kept | with_reducible apply readDev_kept | with_reducible apply readSched_kept | with_reducible apply readCls_kept | with_reducible apply readFs_kept | with_reducible apply readHp_kept | with_reducible apply readMv_kept | with_reducible apply readXf_kept | with_reducible apply readArb_kept | with_reducible apply readCe_kept | with_reducible apply readQ_kept | with_reducible apply readEcl_kept | with_reducible apply readEvt_kept | with_reducible apply readTwin_kept | with_reducible apply readPwr_kept | with_reducible apply readSec_kept | with_reducible apply readFlt_kept | with_reducible apply readRst_kept | with_reducible apply kept_ite_snd)

end Sys2Proof.Machine
end

