-- ==== Sys2Proof/Laws/KeptTwinRows.lean ====
section
/-!
SUPPORT. Every function of Machine/TwinRows.lean keeps a sound state, the queue and what was sent.
-/

namespace Sys2Proof.Machine

variable {qs : List Instr} {os : List Out}

theorem onLink_kept (s : State) (f : State → State) (hs : Kept qs os s) (hf : ∀ (x0 : State), Kept qs os x0 → Kept qs os (f x0)) :
    ResKept qs os (onLink s f) := by
  unfold onLink
  repeat' (first | with_reducible assumption | with_reducible apply resKept_next | apply hf | with_reducible apply kept_ite)

theorem execTwHello_kept (body : List Byte) (s : State) (hs : Kept qs os s) :
    ResKept qs os (execTwHello body s) := by
  unfold execTwHello
  repeat' (first | with_reducible assumption | (first | (intro _ hk; have := hk.queue) | (intro _ _ hk; have := hk.queue) | (intro _ _ _ hk; have := hk.queue); clear this) | with_reducible apply onLink_kept | with_reducible apply helloRx_kept)

theorem execTwAuth_kept (body : List Byte) (s : State) (hs : Kept qs os s) :
    ResKept qs os (execTwAuth body s) := by
  unfold execTwAuth
  repeat' (first | with_reducible assumption | (first | (intro _ hk; have := hk.queue) | (intro _ _ hk; have := hk.queue) | (intro _ _ _ hk; have := hk.queue); clear this) | with_reducible apply onLink_kept | with_reducible apply authRx_kept)

theorem execTwJoinLinkTimeout_kept (s : State) (hs : Kept qs os s) :
    ResKept qs os (execTwJoinLinkTimeout s) := by
  unfold execTwJoinLinkTimeout
  repeat' (first | with_reducible assumption | with_reducible apply resKept_next | with_reducible apply joinFail_kept | with_reducible apply kept_ite)

theorem execTwJoinAlignTimeout_kept (s : State) (hs : Kept qs os s) :
    ResKept qs os (execTwJoinAlignTimeout s) := by
  unfold execTwJoinAlignTimeout
  repeat' (first | with_reducible assumption | with_reducible apply resKept_next | with_reducible apply joinFail_kept | with_reducible apply kept_ite)

theorem sendMirrors_kept (s : State) (hs : Kept qs os s) :
    Kept qs os (sendMirrors s) := by
  unfold sendMirrors
  repeat' (first | with_reducible assumption | (first | (intro _ hk; have := hk.queue) | (intro _ _ hk; have := hk.queue) | (intro _ _ _ hk; have := hk.queue); clear this) | intro _ | ((fail_if_success (fail_if_success extract_lets)); extract_lets +onlyGivenNames kx; (fail_if_success (have : True := kx)); (first | (refine kept_cut qs os kx ?_ fun _ => ?_; unfold kx; rotate_left; clear_value kx; rotate_right) | (refine kept_cut qs os kx.1 ?_ fun _ => ?_; unfold kx; rotate_left; clear_value kx; rotate_right) | (first | have := (kx : State → _) | have := (kx : Twin) | have := (kx : Mem) | have := (kx : Hu) | have := (kx : Sec); clear this) | clear_value kx); all_goals have kx := True.intro) | with_reducible apply twinSend_kept | with_reducible apply propose_kept | (with_reducible apply kept_foldl; intro _ _ _) | with_reducible apply kept_ite | split | refine kept_upd ?_ rfl rfl rfl rfl rfl rfl rfl rfl rfl rfl rfl rfl)

theorem execRegionCopySent_kept (s : State) (hs : Kept qs os s) :
    ResKept qs os (execRegionCopySent s) := by
  unfold execRegionCopySent
  repeat' (first | with_reducible assumption | with_reducible apply resKept_next | with_reducible apply sendMirrors_kept | with_reducible apply propose_kept | with_reducible apply kept_ite | refine kept_upd ?_ rfl rfl rfl rfl rfl rfl rfl rfl rfl rfl rfl rfl)

theorem execTwHeartbeat_kept (param : Dword) (body : List Byte) (s : State) (hs : Kept qs os s) :
    ResKept qs os (execTwHeartbeat param body s) := by
  unfold execTwHeartbeat
  repeat' (first | with_reducible assumption | (first | (intro _ hk; have := hk.queue) | (intro _ _ hk; have := hk.queue) | (intro _ _ _ hk; have := hk.queue); clear this) | with_reducible apply onLink_kept | with_reducible apply heartbeatRx_kept)

theorem execTwHeartbeatSend_kept (s : State) (hs : Kept qs os s) :
    ResKept qs os (execTwHeartbeatSend s) := by
  unfold execTwHeartbeatSend
  repeat' (first | with_reducible assumption | (first | (intro _ hk; have := hk.queue) | (intro _ _ hk; have := hk.queue) | (intro _ _ _ hk; have := hk.queue); clear this) | with_reducible apply onLink_kept | with_reducible apply heartbeatTx_kept)

theorem execTwAlignmentTimeout_kept (s : State) (hs : Kept qs os s) :
    ResKept qs os (execTwAlignmentTimeout s) := by
  unfold execTwAlignmentTimeout
  repeat' (first | with_reducible assumption | with_reducible apply resKept_next | with_reducible apply setAligned_kept | refine kept_upd ?_ rfl rfl rfl rfl rfl rfl rfl rfl rfl rfl rfl rfl)

theorem execTwLaunch_kept (param : Dword) (body : List Byte) (s : State) (hs : Kept qs os s) :
    ResKept qs os (execTwLaunch param body s) := by
  unfold execTwLaunch
  repeat' (first | with_reducible assumption | (first | (intro _ hk; have := hk.queue) | (intro _ _ hk; have := hk.queue) | (intro _ _ _ hk; have := hk.queue); clear this) | with_reducible apply onLink_kept | with_reducible apply launchRx_kept)

theorem execTwLaunchAck_kept (param : Dword) (body : List Byte) (s : State) (hs : Kept qs os s) :
    ResKept qs os (execTwLaunchAck param body s) := by
  unfold execTwLaunchAck
  repeat' (first | with_reducible assumption | (first | (intro _ hk; have := hk.queue) | (intro _ _ hk; have := hk.queue) | (intro _ _ _ hk; have := hk.queue); clear this) | with_reducible apply onLink_kept | with_reducible apply launchAckRx_kept)

theorem execTwLaunchTick_kept (action : Byte) (s : State) (hs : Kept qs os s) :
    ResKept qs os (execTwLaunchTick action s) := by
  unfold execTwLaunchTick
  repeat' (first | with_reducible assumption | ((fail_if_success (fail_if_success extract_lets)); extract_lets +onlyGivenNames kx; (fail_if_success (have : True := kx)); (refine kept_cut qs os kx ?_ fun _ => ?_; unfold kx; rotate_left; clear_value kx; rotate_right); all_goals have kx := True.intro) | with_reducible apply resKept_next | with_reducible apply reachTick_kept | with_reducible apply launchAct_kept | with_reducible apply dropLaunch_kept | with_reducible apply kept_ite | split)

theorem execTwLaunchRetry_kept (action : Byte) (s : State) (hs : Kept qs os s) :
    ResKept qs os (execTwLaunchRetry action s) := by
  unfold execTwLaunchRetry
  repeat' (first | with_reducible assumption | with_reducible apply resKept_next | with_reducible apply propose_kept | with_reducible apply kept_ite)

theorem execTwMirror_kept (param : Dword) (body : List Byte) (s : State) (hs : Kept qs os s) :
    ResKept qs os (execTwMirror param body s) := by
  unfold execTwMirror
  repeat' (first | with_reducible assumption | with_reducible apply resKept_next | with_reducible apply resKept_fault | with_reducible apply resKept_ite | with_reducible apply onLink_kept | with_reducible apply mirrorRx_kept | (first | (intro _ hk; have := hk.queue) | (intro _ _ hk; have := hk.queue) | (intro _ _ _ hk; have := hk.queue); clear this) | intro _ | with_reducible apply kept_ite | split)

theorem execTwMirrorAck_kept (param : Dword) (s : State) (hs : Kept qs os s) :
    ResKept qs os (execTwMirrorAck param s) := by
  unfold execTwMirrorAck
  repeat' (first | with_reducible assumption | with_reducible apply resKept_next | with_reducible apply resKept_fault | with_reducible apply resKept_ite | with_reducible apply onLink_kept | with_reducible apply mirrorAckRx_kept | (first | (intro _ hk; have := hk.queue) | (intro _ _ hk; have := hk.queue) | (intro _ _ _ hk; have := hk.queue); clear this) | intro _ | with_reducible apply kept_ite | split)

theorem execTwReleased_kept (param : Dword) (s : State) (hs : Kept qs os s) :
    ResKept qs os (execTwReleased param s) := by
  unfold execTwReleased
  repeat' (first | with_reducible assumption | (first | (intro _ hk; have := hk.queue) | (intro _ _ hk; have := hk.queue) | (intro _ _ _ hk; have := hk.queue); clear this) | with_reducible apply onLink_kept | with_reducible apply releasedRx_kept)

theorem execTwCtmCopy_kept (param : Dword) (body : List Byte) (s : State) (hs : Kept qs os s) :
    ResKept qs os (execTwCtmCopy param body s) := by
  unfold execTwCtmCopy
  repeat' (first | with_reducible assumption | (first | (intro _ hk; have := hk.queue) | (intro _ _ hk; have := hk.queue) | (intro _ _ _ hk; have := hk.queue); clear this) | with_reducible apply onLink_kept | with_reducible apply lineRx_kept | with_reducible apply kept_ite)

theorem execTwCtmWrite_kept (param : Dword) (body : List Byte) (s : State) (hs : Kept qs os s) :
    ResKept qs os (execTwCtmWrite param body s) := by
  unfold execTwCtmWrite
  repeat' (first | with_reducible assumption | (first | (intro _ hk; have := hk.queue) | (intro _ _ hk; have := hk.queue) | (intro _ _ _ hk; have := hk.queue); clear this) | with_reducible apply onLink_kept | with_reducible apply lineRx_kept | with_reducible apply kept_ite)

theorem execTwRegResp_kept (param : Dword) (body : List Byte) (s : State) (hs : Kept qs os s) :
    ResKept qs os (execTwRegResp param body s) := by
  unfold execTwRegResp
  repeat' (first | with_reducible assumption | (first | (intro _ hk; have := hk.queue) | (intro _ _ hk; have := hk.queue) | (intro _ _ _ hk; have := hk.queue); clear this) | with_reducible apply onLink_kept | refine kept_upd ?_ rfl rfl rfl rfl rfl rfl rfl rfl rfl rfl rfl rfl)

theorem twinPost_kept (s : State) (m : Nat) (body : List Byte) (hs : Kept qs os s) :
    Kept qs os (twinPost s m body) := by
  unfold twinPost
  repeat' (first | with_reducible assumption | ((fail_if_success (fail_if_success extract_lets)); extract_lets +onlyGivenNames kx; (fail_if_success (have : True := kx)); clear_value kx; all_goals have kx := True.intro) | with_reducible apply mbxPostOp_kept | with_reducible apply setMbx_kept | with_reducible apply reject_kept | with_reducible apply kept_ite)

theorem execTwMailbox_kept (param : Dword) (body : List Byte) (s : State) (hs : Kept qs os s) :
    ResKept qs os (execTwMailbox param body s) := by
  unfold execTwMailbox
  repeat' (first | with_reducible assumption | with_reducible apply resKept_next | with_reducible apply resKept_fault | with_reducible apply resKept_ite | ((fail_if_success (fail_if_success extract_lets)); extract_lets +onlyGivenNames kx; (fail_if_success (have : True := kx)); (first | (refine kept_cut qs os kx ?_ fun _ => ?_; unfold kx; rotate_left; clear_value kx; rotate_right) | (refine kept_cut qs os kx.1 ?_ fun _ => ?_; unfold kx; rotate_left; clear_value kx; rotate_right) | (first | have := (kx : State → _) | have := (kx : Twin) | have := (kx : Mem) | have := (kx : Hu) | have := (kx : Sec); clear this) | clear_value kx); all_goals have kx := True.intro) | with_reducible apply onLink_kept | with_reducible apply twinPost_kept | with_reducible apply mbxAckOp_kept | with_reducible apply reject_kept | (first | (intro _ hk; have := hk.queue) | (intro _ _ hk; have := hk.queue) | (intro _ _ _ hk; have := hk.queue); clear this) | intro _ | with_reducible apply kept_ite | split)

theorem execTwTwinLoss_kept (s : State) (hs : Kept qs os s) :
    ResKept qs os (execTwTwinLoss s) := by
  unfold execTwTwinLoss
  repeat' (first | with_reducible assumption | with_reducible apply resKept_next | with_reducible apply declareLoss_kept)

theorem execTwFenceMsg_kept (param : Dword) (s : State) (hs : Kept qs os s) :
    ResKept qs os (execTwFenceMsg param s) := by
  unfold execTwFenceMsg
  repeat' (first | with_reducible assumption | (first | (intro _ hk; have := hk.queue) | (intro _ _ hk; have := hk.queue) | (intro _ _ _ hk; have := hk.queue); clear this) | with_reducible apply onLink_kept | with_reducible apply fenceStop_kept | with_reducible apply kept_ite | refine kept_upd ?_ rfl rfl rfl rfl rfl rfl rfl rfl rfl rfl rfl rfl)

theorem execFenceTick_kept (s : State) (hs : Kept qs os s) :
    ResKept qs os (execFenceTick s) := by
  unfold execFenceTick
  repeat' (first | with_reducible assumption | with_reducible apply resKept_next | with_reducible apply resKept_fault | with_reducible apply resKept_ite | with_reducible apply fenceStop_kept | with_reducible apply reachTick_kept | with_reducible apply kept_ite | split)

theorem execTwFenceAck_kept (_param : Dword) (s : State) (hs : Kept qs os s) :
    ResKept qs os (execTwFenceAck _param s) := by
  unfold execTwFenceAck
  repeat' (first | with_reducible assumption | (first | (intro _ hk; have := hk.queue) | (intro _ _ hk; have := hk.queue) | (intro _ _ _ hk; have := hk.queue); clear this) | with_reducible apply onLink_kept | with_reducible apply fenceComplete_kept | with_reducible apply kept_ite)

theorem execTwPinFenceComplete_kept (s : State) (hs : Kept qs os s) :
    ResKept qs os (execTwPinFenceComplete s) := by
  unfold execTwPinFenceComplete
  repeat' (first | with_reducible assumption | with_reducible apply resKept_next | with_reducible apply fenceComplete_kept | with_reducible apply kept_ite)

theorem execTwLinkFenceTimeout_kept (s : State) (hs : Kept qs os s) :
    ResKept qs os (execTwLinkFenceTimeout s) := by
  unfold execTwLinkFenceTimeout
  repeat' (first | with_reducible assumption | with_reducible apply resKept_next | with_reducible apply fenceFails_kept | with_reducible apply pinFence_kept | with_reducible apply kept_ite)

theorem seeFenceIn_kept (s : State) (held : Bool) (hs : Kept qs os s) :
    Kept qs os (seeFenceIn s held) := by
  unfold seeFenceIn
  repeat' (first | with_reducible assumption | ((fail_if_success (fail_if_success extract_lets)); extract_lets +onlyGivenNames kx; (fail_if_success (have : True := kx)); (first | (refine kept_cut qs os kx ?_ fun _ => ?_; unfold kx; rotate_left; clear_value kx; rotate_right) | (have := (kx : Twin); clear this)); all_goals have kx := True.intro) | with_reducible apply obeyFenceIn_kept | with_reducible apply kept_ite | refine kept_upd ?_ rfl rfl rfl rfl rfl rfl rfl rfl rfl rfl rfl rfl)

theorem execTwFenceInAssert_kept (ns : BitVec 32) (held : Bool) (s : State) (hs : Kept qs os s) :
    ResKept qs os (execTwFenceInAssert ns held s) := by
  unfold execTwFenceInAssert
  repeat' (first | with_reducible assumption | with_reducible apply resKept_next | with_reducible apply resKept_fault | with_reducible apply resKept_ite | with_reducible apply seeFenceIn_kept)

theorem execTwMalidFlitRx_kept (f : Flit) (s : State) (hs : Kept qs os s) :
    ResKept qs os (execTwMalidFlitRx f s) := by
  unfold execTwMalidFlitRx
  repeat' (first | with_reducible assumption | with_reducible apply resKept_next | with_reducible apply flitRx_kept)

theorem execTwMalidReplayTimeout_kept (s : State) (hs : Kept qs os s) :
    ResKept qs os (execTwMalidReplayTimeout s) := by
  unfold execTwMalidReplayTimeout
  repeat' (first | with_reducible assumption | (first | (intro _ hk; have := hk.queue) | (intro _ _ hk; have := hk.queue) | (intro _ _ _ hk; have := hk.queue); clear this) | with_reducible apply onLink_kept | with_reducible apply flitReplayAgain_kept | with_reducible apply kept_ite)

theorem execTwMalidUndefMessage_kept (type : Byte) (bulk : Bool) (s : State) (hs : Kept qs os s) :
    ResKept qs os (execTwMalidUndefMessage type bulk s) := by
  unfold execTwMalidUndefMessage
  repeat' (first | with_reducible assumption | (first | (intro _ hk; have := hk.queue) | (intro _ _ hk; have := hk.queue) | (intro _ _ _ hk; have := hk.queue); clear this) | with_reducible apply onLink_kept | with_reducible apply twinCount_kept | with_reducible apply kept_ite)

theorem execTwMalidTrainTimeout_kept (s : State) (hs : Kept qs os s) :
    ResKept qs os (execTwMalidTrainTimeout s) := by
  unfold execTwMalidTrainTimeout
  repeat' (first | with_reducible assumption | with_reducible apply resKept_next | with_reducible apply kept_ite | refine kept_link ?_ rfl rfl rfl rfl rfl rfl rfl rfl rfl rfl rfl ?_ | exact Nat.le_of_ble_eq_true rfl)

theorem execMalidRetryDelay_kept (s : State) (hs : Kept qs os s) :
    ResKept qs os (execMalidRetryDelay s) := by
  unfold execMalidRetryDelay
  repeat' (first | with_reducible assumption | with_reducible apply resKept_next | with_reducible apply resKept_fault | with_reducible apply resKept_ite | with_reducible apply kept_ite | split | refine kept_upd ?_ rfl rfl rfl rfl rfl rfl rfl rfl rfl rfl rfl rfl | refine kept_link ?_ rfl rfl rfl rfl rfl rfl rfl rfl rfl rfl rfl ?_ | exact Nat.le_of_ble_eq_true rfl)

theorem execMalidLinkActive_kept (s : State) (hs : Kept qs os s) :
    ResKept qs os (execMalidLinkActive s) := by
  unfold execMalidLinkActive
  repeat' (first | with_reducible assumption | with_reducible apply resKept_next | with_reducible apply linkActive_kept | with_reducible apply kept_ite)

end Sys2Proof.Machine
end

