-- ==== Sys2Proof/Laws/KeptRegWrite.lean ====
section
/-!
SUPPORT. Every function of Machine/RegWrite.lean keeps a sound state, the queue and what was sent.
-/

namespace Sys2Proof.Machine

variable {qs : List Instr} {os : List Out}

theorem got_kept (r : Res) (s : State) (hr : ResKept qs os r) (hs : Kept qs os s) : Kept qs os (got r s) := by
  cases r with
  | next t => exact hr _ rfl
  | fault f => exact hs
  | refused f => exact hs

theorem rejectIf_kept (b : Bool) (s : State) (blk : Nat) (hs : Kept qs os s) :
    Kept qs os (rejectIf b s blk) := by
  unfold rejectIf
  repeat' (first | with_reducible assumption | with_reducible apply reject_kept | with_reducible apply kept_ite)

theorem writeDev_kept (s : State) (o : Nat) (v : Word) (hs : Kept qs os s) :
    Kept qs os (writeDev s o v) := by
  unfold writeDev
  repeat' (first | with_reducible assumption | with_reducible apply kept_ite | refine kept_upd ?_ rfl rfl rfl rfl rfl rfl rfl rfl rfl rfl rfl rfl)

theorem writeSched_kept (s : State) (o : Nat) (v : Word) (hs : Kept qs os s) :
    Kept qs os (writeSched s o v) := by
  unfold writeSched
  repeat' (first | with_reducible assumption | with_reducible apply reject_kept | with_reducible apply kept_ite | split | refine kept_upd ?_ rfl rfl rfl rfl rfl rfl rfl rfl rfl rfl rfl rfl)

theorem writeCls_kept (s : State) (o : Nat) (v : Word) (hs : Kept qs os s) :
    Kept qs os (writeCls s o v) := by
  unfold writeCls
  repeat' (first | with_reducible assumption | with_reducible apply kept_ite | refine kept_upd ?_ rfl rfl rfl rfl rfl rfl rfl rfl rfl rfl rfl rfl)

theorem writeFs_kept (s : State) (o : Nat) (v : Word) (hs : Kept qs os s) :
    Kept qs os (writeFs s o v) := by
  unfold writeFs
  repeat' (first | with_reducible assumption | with_reducible apply kept_ite | refine kept_upd ?_ rfl rfl rfl rfl rfl rfl rfl rfl rfl rfl rfl rfl)

theorem writeMvCtl_kept (s : State) (m : BitVec 3) (v : Word) (hs : Kept qs os s) :
    Kept qs os (writeMvCtl s m v) := by
  unfold writeMvCtl
  repeat' (first | with_reducible assumption | with_reducible apply got_kept | with_reducible apply execMvReinit_kept | with_reducible apply execResumeHeld_kept | with_reducible apply execMvClose_kept | with_reducible apply reject_kept | split)

theorem writeMap_kept (s : State) (k : Nat) (v : Word) (hs : Kept qs os s) :
    Kept qs os (writeMap s k v) := by
  unfold writeMap
  repeat' (first | with_reducible assumption | ((fail_if_success (fail_if_success extract_lets)); extract_lets +onlyGivenNames kx; (fail_if_success (have : True := kx)); clear_value kx; all_goals have kx := True.intro) | (with_reducible apply kept_foldl; intro _ _ _) | refine kept_upd ?_ rfl rfl rfl rfl rfl rfl rfl rfl rfl rfl rfl rfl)

theorem writeMv_kept (s : State) (o : Nat) (v : Word) (hs : Kept qs os s) :
    Kept qs os (writeMv s o v) := by
  unfold writeMv
  repeat' (first | with_reducible assumption | with_reducible apply writeMvCtl_kept | with_reducible apply fenceLame_kept | with_reducible apply writeMap_kept | with_reducible apply reject_kept | with_reducible apply got_kept | with_reducible apply execMvHoldClear_kept | with_reducible apply kept_ite | split | refine kept_upd ?_ rfl rfl rfl rfl rfl rfl rfl rfl rfl rfl rfl rfl)

theorem setProf_kept (s : State) (n : Nat) (p : Profile) (hs : Kept qs os s) :
    Kept qs os (setProf s n p) := by
  unfold setProf
  repeat' (first | with_reducible assumption | refine kept_upd ?_ rfl rfl rfl rfl rfl rfl rfl rfl rfl rfl rfl rfl)

theorem writeXf_kept (s : State) (o : Nat) (v : Word) (hs : Kept qs os s) :
    Kept qs os (writeXf s o v) := by
  unfold writeXf
  repeat' (first | with_reducible assumption | ((fail_if_success (fail_if_success extract_lets)); extract_lets +onlyGivenNames kx; (fail_if_success (have : True := kx)); clear_value kx; all_goals have kx := True.intro) | with_reducible apply rejectIf_kept | with_reducible apply setProf_kept | with_reducible apply reject_kept | with_reducible apply kept_ite | split)

theorem writeArbCfg_kept (s : State) (a : Nat) (v : Word) (hs : Kept qs os s) :
    Kept qs os (writeArbCfg s a v) := by
  unfold writeArbCfg
  repeat' (first | with_reducible assumption | ((fail_if_success (fail_if_success extract_lets)); extract_lets +onlyGivenNames kx; (fail_if_success (have : True := kx)); clear_value kx; all_goals have kx := True.intro) | with_reducible apply rejectIf_kept | with_reducible apply setArb_kept)

theorem writeArb_kept (s : State) (o : Nat) (v : Word) (hs : Kept qs os s) :
    Kept qs os (writeArb s o v) := by
  unfold writeArb
  repeat' (first | with_reducible assumption | ((fail_if_success (fail_if_success extract_lets)); extract_lets +onlyGivenNames kx; (fail_if_success (have : True := kx)); clear_value kx; all_goals have kx := True.intro) | with_reducible apply writeArbCfg_kept | with_reducible apply got_kept | with_reducible apply execArbSwap_kept | with_reducible apply setArb_kept | with_reducible apply kept_ite | split)

theorem writeCe_kept (s : State) (o : Nat) (v : Word) (hs : Kept qs os s) :
    Kept qs os (writeCe s o v) := by
  unfold writeCe
  repeat' (first | with_reducible assumption | with_reducible apply setSlot_kept | with_reducible apply invalidate_kept | with_reducible apply kept_ite)

theorem writeTiming_kept (s : State) (q : Nat) (v : Word) (hs : Kept qs os s) :
    Kept qs os (writeTiming s q v) := by
  unfold writeTiming
  repeat' (first | with_reducible assumption | ((fail_if_success (fail_if_success extract_lets)); extract_lets +onlyGivenNames kx; (fail_if_success (have : True := kx)); clear_value kx; all_goals have kx := True.intro) | with_reducible apply rejectIf_kept | with_reducible apply setQ_kept)

theorem writeEcfg_kept (s : State) (q : Nat) (v : Word) (hs : Kept qs os s) :
    Kept qs os (writeEcfg s q v) := by
  unfold writeEcfg
  repeat' (first | with_reducible assumption | ((fail_if_success (fail_if_success extract_lets)); extract_lets +onlyGivenNames kx; (fail_if_success (have : True := kx)); clear_value kx; all_goals have kx := True.intro) | with_reducible apply rejectIf_kept | with_reducible apply setQ_kept)

theorem writeBuckets_kept (s : State) (q p : Nat) (v : Word) (hs : Kept qs os s) :
    Kept qs os (writeBuckets s q p v) := by
  unfold writeBuckets
  repeat' (first | with_reducible assumption | ((fail_if_success (fail_if_success extract_lets)); extract_lets +onlyGivenNames kx; (fail_if_success (have : True := kx)); clear_value kx; all_goals have kx := True.intro) | with_reducible apply rejectIf_kept | with_reducible apply modEP_kept)

theorem writeQ_kept (s : State) (o : Nat) (v : Word) (hs : Kept qs os s) :
    Kept qs os (writeQ s o v) := by
  unfold writeQ
  repeat' (first | with_reducible assumption | ((fail_if_success (fail_if_success extract_lets)); extract_lets +onlyGivenNames kx; (fail_if_success (have : True := kx)); clear_value kx; all_goals have kx := True.intro) | with_reducible apply writeBuckets_kept | with_reducible apply quadCfgWrite_kept | with_reducible apply writeTiming_kept | with_reducible apply writeEcfg_kept | with_reducible apply kept_ite | split)

theorem writeEcl_kept (s : State) (o : Nat) (v : Word) (hs : Kept qs os s) :
    Kept qs os (writeEcl s o v) := by
  unfold writeEcl
  repeat' (first | with_reducible assumption | ((fail_if_success (fail_if_success extract_lets)); extract_lets +onlyGivenNames kx; (fail_if_success (have : True := kx)); clear_value kx; all_goals have kx := True.intro) | with_reducible apply rejectIf_kept | with_reducible apply kept_ite | split | refine kept_upd ?_ rfl rfl rfl rfl rfl rfl rfl rfl rfl rfl rfl rfl)

theorem writeOwner_kept (s : State) (n : Nat) (v : Word) (hs : Kept qs os s) :
    Kept qs os (writeOwner s n v) := by
  unfold writeOwner
  repeat' (first | with_reducible assumption | ((fail_if_success (fail_if_success extract_lets)); extract_lets +onlyGivenNames kx; (fail_if_success (have : True := kx)); clear_value kx; all_goals have kx := True.intro) | with_reducible apply rejectIf_kept | with_reducible apply setCj_kept)

theorem writeCjCtl_kept (s : State) (n : Nat) (v : Word) (hs : Kept qs os s) :
    Kept qs os (writeCjCtl s n v) := by
  unfold writeCjCtl
  repeat' (first | with_reducible assumption | ((fail_if_success (fail_if_success extract_lets)); extract_lets +onlyGivenNames kx; (fail_if_success (have : True := kx)); clear_value kx; all_goals have kx := True.intro) | with_reducible apply rejectIf_kept | with_reducible apply setCj_kept)

theorem selectSources_kept (s : State) (n : Nat) (c : Cj) (hs : Kept qs os s) :
    Kept qs os (selectSources s n c) := by
  unfold selectSources
  repeat' (first | with_reducible assumption | ((fail_if_success (fail_if_success extract_lets)); extract_lets +onlyGivenNames kx; (fail_if_success (have : True := kx)); (first | (refine kept_cut qs os kx ?_ fun _ => ?_; unfold kx; rotate_left; clear_value kx; rotate_right) | (refine kept_cut qs os kx.1 ?_ fun _ => ?_; unfold kx; rotate_left; clear_value kx; rotate_right) | (first | have := (kx : State → _) | have := (kx : Twin) | have := (kx : Mem) | have := (kx : Hu) | have := (kx : Sec); clear this) | clear_value kx); all_goals have kx := True.intro) | with_reducible apply setCj_kept | with_reducible apply kept_ite | split | refine kept_upd ?_ rfl rfl rfl rfl rfl rfl rfl rfl rfl rfl rfl rfl)

theorem writeCj_kept (s : State) (who : Master) (n r : Nat) (v : Word) (hs : Kept qs os s) :
    Kept qs os (writeCj s who n r v) := by
  unfold writeCj
  repeat' (first | with_reducible assumption | ((fail_if_success (fail_if_success extract_lets)); extract_lets +onlyGivenNames kx; (fail_if_success (have : True := kx)); (first | (refine kept_cut qs os kx ?_ fun _ => ?_; unfold kx; rotate_left; clear_value kx; rotate_right) | (refine kept_cut qs os kx.1 ?_ fun _ => ?_; unfold kx; rotate_left; clear_value kx; rotate_right) | (first | have := (kx : State → _) | have := (kx : Twin) | have := (kx : Mem) | have := (kx : Hu) | have := (kx : Sec); clear this) | clear_value kx); all_goals have kx := True.intro) | with_reducible apply writeOwner_kept | with_reducible apply reject_kept | with_reducible apply setCj_kept | with_reducible apply writeCjCtl_kept | with_reducible apply selectSources_kept | with_reducible apply kept_ite | split | refine kept_upd ?_ rfl rfl rfl rfl rfl rfl rfl rfl rfl rfl rfl rfl)

theorem writeGroups_kept (s : State) (who : Master) (v : Word) (hs : Kept qs os s) :
    Kept qs os (writeGroups s who v) := by
  unfold writeGroups
  repeat' (first | with_reducible assumption | ((fail_if_success (fail_if_success extract_lets)); extract_lets +onlyGivenNames kx; (fail_if_success (have : True := kx)); (first | (refine kept_cut qs os kx ?_ fun _ => ?_; unfold kx; rotate_left; clear_value kx; rotate_right) | (refine kept_cut qs os kx.1 ?_ fun _ => ?_; unfold kx; rotate_left; clear_value kx; rotate_right) | (first | have := (kx : State → _) | have := (kx : Twin) | have := (kx : Mem) | have := (kx : Hu) | have := (kx : Sec); clear this) | clear_value kx); all_goals have kx := True.intro) | with_reducible apply rejectIf_kept | with_reducible apply kept_ite | split | refine kept_upd ?_ rfl rfl rfl rfl rfl rfl rfl rfl rfl rfl rfl rfl)

theorem writeIc_kept (s : State) (o : Nat) (v : Word) (hs : Kept qs os s) :
    Kept qs os (writeIc s o v) := by
  unfold writeIc
  repeat' (first | with_reducible assumption | ((fail_if_success (fail_if_success extract_lets)); extract_lets +onlyGivenNames kx; (fail_if_success (have : True := kx)); clear_value kx; all_goals have kx := True.intro) | with_reducible apply icEval_kept | with_reducible apply completeNormal_kept | with_reducible apply completeFast_kept | with_reducible apply kept_ite | split | refine kept_upd ?_ rfl rfl rfl rfl rfl rfl rfl rfl rfl rfl rfl rfl)

theorem mbxBindOp_kept (s : State) (m : Nat) (a b : Master) (valid : Bool) (hs : Kept qs os s) :
    Kept qs os (mbxBindOp s m a b valid) := by
  unfold mbxBindOp
  repeat' (first | with_reducible assumption | with_reducible apply setMbx_kept)

theorem writeBind_kept (s : State) (who : Master) (m : Nat) (v : Word) (hs : Kept qs os s) :
    Kept qs os (writeBind s who m v) := by
  unfold writeBind
  repeat' (first | with_reducible assumption | ((fail_if_success (fail_if_success extract_lets)); extract_lets +onlyGivenNames kx; (fail_if_success (have : True := kx)); clear_value kx; all_goals have kx := True.intro) | with_reducible apply reject_kept | with_reducible apply mbxBindOp_kept | with_reducible apply kept_ite)

theorem writeMbxCtl_kept (s : State) (who : Master) (m : Nat) (v : Word) (bad : State → State) (hs : Kept qs os s) (hbad : ∀ (x0 : State), Kept qs os x0 → Kept qs os (bad x0)) :
    Kept qs os (writeMbxCtl s who m v bad) := by
  unfold writeMbxCtl
  repeat' (first | with_reducible assumption | ((fail_if_success (fail_if_success extract_lets)); extract_lets +onlyGivenNames kx; (fail_if_success (have : True := kx)); clear_value kx; all_goals have kx := True.intro) | with_reducible apply mbxPostWake_kept | with_reducible apply mbxAckOp_kept | apply hbad | with_reducible apply kept_ite | split)

theorem writeMbx_kept (s : State) (who : Master) (m r : Nat) (v : Word) (bad : State → State) (hs : Kept qs os s) (hbad : ∀ (x0 : State), Kept qs os x0 → Kept qs os (bad x0)) :
    Kept qs os (writeMbx s who m r v bad) := by
  unfold writeMbx
  repeat' (first | with_reducible assumption | (first | (intro _ hk; have := hk.queue) | (intro _ _ hk; have := hk.queue) | (intro _ _ _ hk; have := hk.queue); clear this) | intro _ | ((fail_if_success (fail_if_success extract_lets)); extract_lets +onlyGivenNames kx; (fail_if_success (have : True := kx)); (first | (refine kept_cut qs os kx ?_ fun _ => ?_; unfold kx; rotate_left; clear_value kx; rotate_right) | (refine kept_cut qs os kx.1 ?_ fun _ => ?_; unfold kx; rotate_left; clear_value kx; rotate_right) | (first | have := (kx : State → _) | have := (kx : Twin) | have := (kx : Mem) | have := (kx : Hu) | have := (kx : Sec); clear this) | clear_value kx); all_goals have kx := True.intro) | with_reducible apply setMbx_kept | with_reducible apply writeMbxCtl_kept | apply hbad | with_reducible apply kept_ite | split | refine kept_upd ?_ rfl rfl rfl rfl rfl rfl rfl rfl rfl rfl rfl rfl)

theorem writeEvt_kept (s : State) (who : Master) (o : Nat) (v : Word) (hs : Kept qs os s) :
    Kept qs os (writeEvt s who o v) := by
  unfold writeEvt
  repeat' (first | with_reducible assumption | (first | (intro _ hk; have := hk.queue) | (intro _ _ hk; have := hk.queue) | (intro _ _ _ hk; have := hk.queue); clear this) | with_reducible apply writeCj_kept | with_reducible apply writeIc_kept | with_reducible apply reject_kept | with_reducible apply writeBind_kept | with_reducible apply writeMbx_kept | with_reducible apply writeGroups_kept | with_reducible apply kept_ite | split | refine kept_upd ?_ rfl rfl rfl rfl rfl rfl rfl rfl rfl rfl rfl rfl)

theorem noteTwin_kept (s : State) (hs : Kept qs os s) :
    Kept qs os (noteTwin s) := by
  unfold noteTwin
  repeat' (first | with_reducible assumption | with_reducible apply saveTwin_kept | with_reducible apply kept_ite)

theorem setTw_kept (s : State) (t : Twin) (hs : Kept qs os s) (h1 : t.state = s.tw.state) (h2 : t.before = s.tw.before)
    (h3 : t.link = s.tw.link) : Kept qs os (setTw s t) :=
  ⟨hs.dram, hs.loc, hs.tcm, hs.host, h1 ▸ hs.twin, h2 ▸ hs.before, h3 ▸ hs.link, hs.bus, hs.level, hs.asked, hs.queue, hs.sent⟩

theorem writeTwinCfg_kept (s : State) (v : Word) (hs : Kept qs os s) :
    Kept qs os (writeTwinCfg s v) := by
  unfold writeTwinCfg
  repeat' (first | with_reducible assumption | ((fail_if_success (fail_if_success extract_lets)); extract_lets +onlyGivenNames kx; (fail_if_success (have : True := kx)); (first | (refine kept_cut qs os kx ?_ fun _ => ?_; unfold kx; rotate_left; clear_value kx; rotate_right) | (have := (kx : Twin); clear this) | clear_value kx); all_goals have kx := True.intro) | with_reducible apply setTw_kept | with_reducible apply noteTwin_kept | with_reducible apply rejectIf_kept | split | rfl)

theorem writeSplit_kept (s : State) (v : Word) (hs : Kept qs os s) :
    Kept qs os (writeSplit s v) := by
  unfold writeSplit
  repeat' (first | with_reducible assumption | ((fail_if_success (fail_if_success extract_lets)); extract_lets +onlyGivenNames kx; (fail_if_success (have : True := kx)); (first | (have := (kx : Twin); clear this) | clear_value kx); all_goals have kx := True.intro) | with_reducible apply reject_kept | with_reducible apply noteTwin_kept | with_reducible apply setTw_kept | with_reducible apply kept_ite | rfl)

theorem writeShadow_kept (s : State) (v : Word) (hs : Kept qs os s) :
    Kept qs os (writeShadow s v) := by
  unfold writeShadow
  repeat' (first | with_reducible assumption | ((fail_if_success (fail_if_success extract_lets)); extract_lets +onlyGivenNames kx; (fail_if_success (have : True := kx)); (first | (refine kept_cut qs os kx ?_ fun _ => ?_; unfold kx; rotate_left; clear_value kx; rotate_right) | (have := (kx : Twin); clear this) | clear_value kx); all_goals have kx := True.intro) | with_reducible apply setTw_kept | with_reducible apply noteTwin_kept | with_reducible apply rejectIf_kept | split | rfl)

theorem handback_kept (s : State) (hs : Kept qs os s) :
    Kept qs os (handback s) := by
  unfold handback
  repeat' (first | with_reducible assumption | with_reducible apply reject_kept | with_reducible apply copyLines_kept | with_reducible apply kept_ite | refine kept_upd ?_ rfl rfl rfl rfl rfl rfl rfl rfl rfl rfl rfl rfl)

theorem writeTwin_kept (s : State) (o : Nat) (v : Word) (hs : Kept qs os s) :
    Kept qs os (writeTwin s o v) := by
  unfold writeTwin
  repeat' (first | with_reducible assumption | ((fail_if_success (fail_if_success extract_lets)); extract_lets +onlyGivenNames kx; (fail_if_success (have : True := kx)); (first | (have := (kx : Twin); clear this) | clear_value kx); all_goals have kx := True.intro) | with_reducible apply noteTwin_kept | with_reducible apply setTw_kept | with_reducible apply writeTwinCfg_kept | with_reducible apply writeSplit_kept | with_reducible apply writeShadow_kept | with_reducible apply handback_kept | with_reducible apply kept_ite | split | rfl)

theorem noteBoard_kept (s : State) (hs : Kept qs os s) :
    Kept qs os (noteBoard s) := by
  unfold noteBoard
  repeat' (first | with_reducible assumption | ((fail_if_success (fail_if_success extract_lets)); extract_lets +onlyGivenNames kx; (fail_if_success (have : True := kx)); (first | (refine kept_cut qs os kx ?_ fun _ => ?_; unfold kx; rotate_left; clear_value kx; rotate_right) | clear_value kx); all_goals have kx := True.intro) | with_reducible apply evalHoldup_kept | with_reducible apply kept_ite | refine kept_upd ?_ rfl rfl rfl rfl rfl rfl rfl rfl rfl rfl rfl rfl)

theorem writeSleepCfg_kept (s : State) (v : Word) (hs : Kept qs os s) :
    Kept qs os (writeSleepCfg s v) := by
  unfold writeSleepCfg
  repeat' (first | with_reducible assumption | ((fail_if_success (fail_if_success extract_lets)); extract_lets +onlyGivenNames kx; (fail_if_success (have : True := kx)); (first | (refine kept_cut qs os kx ?_ fun _ => ?_; unfold kx; rotate_left; clear_value kx; rotate_right) | clear_value kx); all_goals have kx := True.intro) | with_reducible apply reject_kept | with_reducible apply rejectIf_kept | with_reducible apply kept_ite | split | refine kept_upd ?_ rfl rfl rfl rfl rfl rfl rfl rfl rfl rfl rfl rfl)

theorem writeHu0_kept (s : State) (v : Word) (hs : Kept qs os s) :
    Kept qs os (writeHu0 s v) := by
  unfold writeHu0
  repeat' (first | with_reducible assumption | ((fail_if_success (fail_if_success extract_lets)); extract_lets +onlyGivenNames kx; (fail_if_success (have : True := kx)); (first | (have := (kx : Hu); clear this) | clear_value kx); all_goals have kx := True.intro) | with_reducible apply noteBoard_kept | with_reducible apply rejectIf_kept | with_reducible apply setHu_kept | exact Kept.bus (qs := qs) (os := os) (by assumption))

theorem writeHu1_kept (s : State) (v : Word) (hs : Kept qs os s) :
    Kept qs os (writeHu1 s v) := by
  unfold writeHu1
  repeat' (first | with_reducible assumption | ((fail_if_success (fail_if_success extract_lets)); extract_lets +onlyGivenNames kx; (fail_if_success (have : True := kx)); (first | (refine kept_cut qs os kx ?_ fun _ => ?_; unfold kx; rotate_left; clear_value kx; rotate_right) | (refine kept_cut qs os kx.1 ?_ fun _ => ?_; unfold kx; rotate_left; clear_value kx; rotate_right) | (first | have := (kx : State → _) | have := (kx : Twin) | have := (kx : Mem) | have := (kx : Hu) | have := (kx : Sec); clear this) | clear_value kx); all_goals have kx := True.intro) | with_reducible apply noteBoard_kept | with_reducible apply rejectIf_kept | with_reducible apply setHu_kept | with_reducible apply kept_ite | split | refine kept_upd ?_ rfl rfl rfl rfl rfl rfl rfl rfl rfl rfl rfl rfl | exact Nat.le_of_ble_eq_true rfl | exact Kept.bus (qs := qs) (os := os) (by assumption))

theorem writePwr_kept (s : State) (o : Nat) (v : Word) (hs : Kept qs os s) :
    Kept qs os (writePwr s o v) := by
  unfold writePwr
  repeat' (first | with_reducible assumption | with_reducible apply writeSleepCfg_kept | with_reducible apply writeHu0_kept | with_reducible apply writeHu1_kept | with_reducible apply noteBoard_kept | with_reducible apply setHu_kept | with_reducible apply huRequest_kept | with_reducible apply gpioDirWrite_kept | with_reducible apply gpioOutWrite_kept | split | refine kept_upd ?_ rfl rfl rfl rfl rfl rfl rfl rfl rfl rfl rfl rfl | exact Kept.bus (qs := qs) (os := os) (by assumption))

theorem writeSec_kept (s : State) (o : Nat) (v : Word) (hs : Kept qs os s) :
    Kept qs os (writeSec s o v) := by
  unfold writeSec
  repeat' (first | with_reducible assumption | with_reducible apply newNonce_kept | with_reducible apply kept_ite)

theorem writeFlt_kept (s : State) (o : Nat) (v : Word) (hs : Kept qs os s) :
    Kept qs os (writeFlt s o v) := by
  unfold writeFlt
  repeat' (first | with_reducible assumption | ((fail_if_success (fail_if_success extract_lets)); extract_lets +onlyGivenNames kx; (fail_if_success (have : True := kx)); clear_value kx; all_goals have kx := True.intro) | with_reducible apply reject_kept | with_reducible apply fltFence_kept | with_reducible apply fltRetire_kept | with_reducible apply kept_ite | split | refine kept_upd ?_ rfl rfl rfl rfl rfl rfl rfl rfl rfl rfl rfl rfl)

theorem wdogWrite_kept (s : State) (who : Master) (v : Word) (hs : Kept qs os s) :
    Kept qs os (wdogWrite s who v) := by
  unfold wdogWrite
  repeat' (first | with_reducible assumption | with_reducible apply reject_kept | with_reducible apply kept_ite | refine kept_upd ?_ rfl rfl rfl rfl rfl rfl rfl rfl rfl rfl rfl rfl)

theorem kickWrite_kept (s : State) (who : Master) (v : Word) (hs : Kept qs os s) :
    Kept qs os (kickWrite s who v) := by
  unfold kickWrite
  repeat' (first | with_reducible assumption | with_reducible apply reject_kept | with_reducible apply kept_ite)

theorem engineWrite_kept (s : State) (who : Master) (v : Word) (hs : Kept qs os s) :
    Kept qs os (engineWrite s who v) := by
  unfold engineWrite
  repeat' (first | with_reducible assumption | with_reducible apply engineReset_kept | with_reducible apply reject_kept | with_reducible apply kept_ite)

theorem writeRst_kept (s : State) (who : Master) (o : Nat) (v : Word) (hs : Kept qs os s) :
    Kept qs os (writeRst s who o v) := by
  unfold writeRst
  repeat' (first | with_reducible assumption | with_reducible apply wdogWrite_kept | with_reducible apply kickWrite_kept | with_reducible apply engineWrite_kept | split)

theorem regWrite_kept (s : State) (who : Master) (off : Nat) (v : Word) (hs : Kept qs os s) :
    Kept qs os (regWrite s who off v) := by
  unfold regWrite
  repeat' (first | with_reducible assumption | with_reducible apply writeDev_kept | with_reducible apply writeSched_kept | with_reducible apply writeCls_kept | with_reducible apply writeFs_kept | with_reducible apply writeMv_kept | with_reducible apply writeXf_kept | with_reducible apply writeArb_kept | with_reducible apply writeCe_kept | with_reducible apply writeQ_kept | with_reducible apply writeEcl_kept | with_reducible apply writeEvt_kept | with_reducible apply writeTwin_kept | with_reducible apply writePwr_kept | with_reducible apply writeSec_kept | with_reducible apply writeFlt_kept | with_reducible apply writeRst_kept | with_reducible apply kept_ite)

end Sys2Proof.Machine
end

