-- ==== Sys2Proof/Laws/KeptHostAccess.lean ====
section
/-!
SUPPORT. Every function of Machine/HostAccess.lean keeps a sound state, the queue and what was sent.
-/

namespace Sys2Proof.Machine

variable {qs : List Instr} {os : List Out}

theorem hfWrite_kept (s : State) (m : Master) (o : Nat) (v : Word) (hs : Kept qs os s) :
    Kept qs os (hfWrite s m o v) := by
  unfold hfWrite
  repeat' (first | with_reducible assumption | (first | (intro _ hk; have := hk.queue) | (intro _ _ hk; have := hk.queue) | (intro _ _ _ hk; have := hk.queue); clear this) | with_reducible apply writeMbx_kept | with_reducible apply rejectHf_kept | with_reducible apply hfMod_kept | with_reducible apply hfSqHead_kept | with_reducible apply msixWrite_kept | with_reducible apply hfSqLo_kept | with_reducible apply hfSqHi_kept | with_reducible apply hfRqLo_kept | with_reducible apply hfRqHi_kept | with_reducible apply hfCfg_kept | with_reducible apply hfTail_kept | with_reducible apply hfRqHead_kept | with_reducible apply modFunc_kept | with_reducible apply kept_ite | split)

theorem holdAdm_kept (s : State) (m : Master) (r : Nat) (v : Word) (hs : Kept qs os s) :
    Kept qs os (holdAdm s m r v) := by
  unfold holdAdm
  repeat' (first | with_reducible assumption | refine kept_upd ?_ rfl rfl rfl rfl rfl rfl rfl rfl rfl rfl rfl rfl)

theorem earlyRead_kept (s : State) (m : Master) (off : Nat) (hs : Kept qs os s) :
    Kept qs os (earlyRead s m off).2 := by
  unfold earlyRead
  repeat' (first | with_reducible assumption | with_reducible apply ro_kept | with_reducible apply regRead_kept | with_reducible apply kept_ite_snd | split)

theorem earlyWrite_kept (s : State) (m : Master) (off : Nat) (v : Word) (hs : Kept qs os s) :
    Kept qs os (earlyWrite s m off v) := by
  unfold earlyWrite
  repeat' (first | with_reducible assumption | with_reducible apply hfWrite_kept | with_reducible apply holdAdm_kept | with_reducible apply regWrite_kept | with_reducible apply kept_ite | split)

theorem bar0Read_kept (s : State) (m : Master) (off : Nat) (hs : Kept qs os s) :
    Kept qs os (bar0Read s m off).2 := by
  unfold bar0Read
  repeat' (first | with_reducible assumption | with_reducible apply earlyRead_kept | with_reducible apply regRead_kept | with_reducible apply kept_ite_snd | split)

theorem bar0Write_kept (s : State) (m : Master) (off : Nat) (v : Word) (hs : Kept qs os s) :
    Kept qs os (bar0Write s m off v) := by
  unfold bar0Write
  repeat' (first | with_reducible assumption | ((fail_if_success (fail_if_success extract_lets)); extract_lets +onlyGivenNames kx; (fail_if_success (have : True := kx)); (refine kept_cut qs os kx ?_ fun _ => ?_; unfold kx; rotate_left; clear_value kx; rotate_right); all_goals have kx := True.intro) | with_reducible apply earlyWrite_kept | with_reducible apply hfWrite_kept | with_reducible apply regWrite_kept | with_reducible apply sleepSource_kept | with_reducible apply kept_ite | split)

theorem unsupported_kept (s : State) (m : Master) (hs : Kept qs os s) :
    Kept qs os (unsupported s m) := by
  unfold unsupported
  repeat' (first | with_reducible assumption | with_reducible apply emit_kept)

theorem bar0Reads_kept (s : State) (m : Master) (off : Nat) (y0 : Nat) (hs : Kept qs os s) :
    Kept qs os (bar0Reads s m off y0).1 := by
  induction y0 generalizing s m off hs with
  | zero =>
    rw [bar0Reads]
    repeat' (with_reducible assumption)
  | succ n ih =>
    rw [bar0Reads]
    repeat' (first | with_reducible assumption | with_reducible apply ih | with_reducible apply bar0Read_kept)

theorem bar0Writes_kept (s : State) (m : Master) (off : Nat) (y0 : List Word) (hs : Kept qs os s) :
    Kept qs os (bar0Writes s m off y0) := by
  induction y0 generalizing s m off hs with
  | nil =>
    rw [bar0Writes]
    repeat' (with_reducible assumption)
  | cons x l ih =>
    rw [bar0Writes]
    repeat' (first | with_reducible assumption | with_reducible apply ih | with_reducible apply bar0Write_kept)

theorem bar0Op_kept (s : State) (m : Master) (a : BarAccess) (hs : Kept qs os s) :
    Kept qs os (bar0Op s m a) := by
  unfold bar0Op
  repeat' (first | with_reducible assumption | ((fail_if_success (fail_if_success extract_lets)); extract_lets +onlyGivenNames kx; (fail_if_success (have : True := kx)); (first | (refine kept_cut qs os kx.1 ?_ fun _ => ?_; unfold kx; rotate_left; clear_value kx; rotate_right) | clear_value kx); all_goals have kx := True.intro) | with_reducible apply unsupported_kept | with_reducible apply bar0Writes_kept | with_reducible apply bar0Reads_kept | with_reducible apply emit_kept | with_reducible apply kept_ite)

theorem bar2Op_kept (s : State) (m : Master) (a : BarAccess) (hs : Kept qs os s) :
    Kept qs os (bar2Op s m a) := by
  unfold bar2Op
  repeat' (first | with_reducible assumption | ((fail_if_success (fail_if_success extract_lets)); extract_lets +onlyGivenNames kx; (fail_if_success (have : True := kx)); clear_value kx; all_goals have kx := True.intro) | with_reducible apply unsupported_kept | with_reducible apply writeDram_kept | with_reducible apply emit_kept | with_reducible apply kept_ite)

theorem dbWriteBad_kept (s : State) (hs : Kept qs os s) :
    Kept qs os (dbWriteBad s) := by
  unfold dbWriteBad
  repeat' (first | with_reducible assumption | with_reducible apply rcPulse_kept | refine kept_upd ?_ rfl rfl rfl rfl rfl rfl rfl rfl rfl rfl rfl rfl)

theorem dbWord_kept (m : Master) (s : State) (w : Word) (hs : Kept qs os s) :
    Kept qs os (dbWord m s w) := by
  unfold dbWord
  repeat' (first | with_reducible assumption | with_reducible apply wordActs_kept | with_reducible apply holdAct_kept | with_reducible apply kept_ite)

theorem doorbellOp_kept (s : State) (m : Master) (off : Nat) (l : List Byte) (hs : Kept qs os s) :
    Kept qs os (doorbellOp s m off l) := by
  unfold doorbellOp
  repeat' (first | with_reducible assumption | with_reducible apply sleepSource_kept | with_reducible apply dbWriteBad_kept | with_reducible apply dbWord_kept | (with_reducible apply kept_foldl; intro _ _ _) | with_reducible apply kept_ite)

theorem setLinkOf_kept (s : State) (m : Master) (f : HLink → HLink) (hs : Kept qs os s) :
    Kept qs os (setLinkOf s m f) := by
  unfold setLinkOf
  repeat' (first | with_reducible assumption | with_reducible apply kept_ite | refine kept_upd ?_ rfl rfl rfl rfl rfl rfl rfl rfl rfl rfl rfl rfl)

theorem vfEnableWrite_kept (s : State) (pf : Master) (on : Bool) (hs : Kept qs os s) :
    Kept qs os (vfEnableWrite s pf on) := by
  unfold vfEnableWrite
  repeat' (first | with_reducible assumption | (first | (intro _ hk; have := hk.queue) | (intro _ _ hk; have := hk.queue) | (intro _ _ _ hk; have := hk.queue); clear this) | intro _ | ((fail_if_success (fail_if_success extract_lets)); extract_lets +onlyGivenNames kx; (fail_if_success (have : True := kx)); (first | (refine kept_cut qs os kx ?_ fun _ => ?_; unfold kx; rotate_left; clear_value kx; rotate_right) | (refine kept_cut qs os kx.1 ?_ fun _ => ?_; unfold kx; rotate_left; clear_value kx; rotate_right) | (first | have := (kx : State → _) | have := (kx : Twin) | have := (kx : Mem) | have := (kx : Hu) | have := (kx : Sec); clear this) | clear_value kx); all_goals have kx := True.intro) | with_reducible apply modFunc_kept | with_reducible apply pulse_kept | with_reducible apply flr_kept | (with_reducible apply kept_foldl; intro _ _ _) | with_reducible apply kept_ite | split | refine kept_upd ?_ rfl rfl rfl rfl rfl rfl rfl rfl rfl rfl rfl rfl)

theorem configOp_kept (s : State) (m : Master) (w : CfgWrite) (hs : Kept qs os s) :
    Kept qs os (configOp s m w) := by
  unfold configOp
  repeat' (first | with_reducible assumption | (first | (intro _ hk; have := hk.queue) | (intro _ _ hk; have := hk.queue) | (intro _ _ _ hk; have := hk.queue); clear this) | intro _ | ((fail_if_success (fail_if_success extract_lets)); extract_lets +onlyGivenNames kx; (fail_if_success (have : True := kx)); (first | (refine kept_cut qs os kx ?_ fun _ => ?_; unfold kx; rotate_left; clear_value kx; rotate_right) | (refine kept_cut qs os kx.1 ?_ fun _ => ?_; unfold kx; rotate_left; clear_value kx; rotate_right) | (first | have := (kx : State → _) | have := (kx : Twin) | have := (kx : Mem) | have := (kx : Hu) | have := (kx : Sec); clear this) | clear_value kx); all_goals have kx := True.intro) | with_reducible apply modFunc_kept | with_reducible apply busMasterOn_kept | with_reducible apply sendPba_kept | with_reducible apply vfEnableWrite_kept | with_reducible apply setLinkOf_kept | (with_reducible apply kept_foldl; intro _ _ _) | with_reducible apply kept_ite | split | refine kept_upd ?_ rfl rfl rfl rfl rfl rfl rfl rfl rfl rfl rfl rfl)

theorem cfgDone_kept (s : State) (m : Master) (hs : Kept qs os s) :
    Kept qs os (cfgDone s m) := by
  unfold cfgDone
  repeat' (first | with_reducible assumption | with_reducible apply emit_kept)

theorem hostDoes_kept (m : Master) (r : HostReq) (s : State) (hs : Kept qs os s) :
    Kept qs os (hostDoes m r s) := by
  unfold hostDoes
  repeat' (first | with_reducible assumption | with_reducible apply bar0Op_kept | with_reducible apply bar2Op_kept | with_reducible apply doorbellOp_kept | with_reducible apply cfgDone_kept | with_reducible apply d3Entry_kept | with_reducible apply d0Entry_kept | with_reducible apply configOp_kept | with_reducible apply flr_kept | with_reducible apply pulse_kept | with_reducible apply kept_ite | split)

theorem afterWake_kept (s : State) (hs : Kept qs os s) :
    Kept qs os (afterWake s) := by
  unfold afterWake
  repeat' (first | with_reducible assumption | ((fail_if_success (fail_if_success extract_lets)); extract_lets +onlyGivenNames kx; (fail_if_success (have : True := kx)); clear_value kx; all_goals have kx := True.intro) | with_reducible apply hostDoes_kept | (with_reducible apply kept_foldl; intro _ _ _) | with_reducible apply kept_ite | split | refine kept_upd ?_ rfl rfl rfl rfl rfl rfl rfl rfl rfl rfl rfl rfl)

theorem hostRequest_kept (s0 : State) (m : Master) (r : HostReq) (hs0 : Kept qs os s0) :
    Kept qs os (hostRequest s0 m r) := by
  unfold hostRequest
  repeat' (first | with_reducible assumption | ((fail_if_success (fail_if_success extract_lets)); extract_lets +onlyGivenNames kx; (fail_if_success (have : True := kx)); (first | (refine kept_cut qs os kx ?_ fun _ => ?_; unfold kx; rotate_left; clear_value kx; rotate_right) | (refine kept_cut qs os kx.1 ?_ fun _ => ?_; unfold kx; rotate_left; clear_value kx; rotate_right) | (first | have := (kx : State → _) | have := (kx : Twin) | have := (kx : Mem) | have := (kx : Hu) | have := (kx : Sec); clear this) | clear_value kx); all_goals have kx := True.intro) | with_reducible apply exitL1_kept | with_reducible apply afterWake_kept | with_reducible apply sleepSource_kept | with_reducible apply holdAct_kept | with_reducible apply hostDoes_kept | with_reducible apply kept_ite | split)

end Sys2Proof.Machine
end

