-- ==== Sys2Proof/Laws/KeptAdmin.lean ====
section
/-!
SUPPORT. Every function of Machine/Admin.lean keeps a sound state, the queue and what was sent.
-/

namespace Sys2Proof.Machine

variable {qs : List Instr} {os : List Out}

theorem takePacket_kept (s : State) (fn : Master) (hs : Kept qs os s) :
    Kept qs os (takePacket s fn) := by
  unfold takePacket
  repeat' (first | with_reducible assumption | (first | (intro _ hk; have := hk.queue) | (intro _ _ hk; have := hk.queue) | (intro _ _ _ hk; have := hk.queue); clear this) | intro _ | with_reducible apply modFunc_kept | refine kept_upd ?_ rfl rfl rfl rfl rfl rfl rfl rfl rfl rfl rfl rfl)

theorem firstChecks_kept (s : State) (fn : Master) (p : Packet) (named : List (Nat × Nat)) (f : State → Ans) (hs : Kept qs os s) (hf : ∀ (x0 : State), Kept qs os x0 → AnsKept qs os (f x0)) :
    AnsKept qs os (firstChecks s fn p named f) := by
  unfold firstChecks
  repeat' (first | with_reducible assumption | ((fail_if_success (fail_if_success extract_lets)); extract_lets +onlyGivenNames kx; (fail_if_success (have : True := kx)); clear_value kx; all_goals have kx := True.intro) | with_reducible apply ansKept_ite | with_reducible apply refuse_kept | with_reducible apply badField_kept | apply hf | split)

theorem answerCmd_kept (fn : Master) (p : Packet) (y0 : Ans) (hy0 : AnsKept qs os y0) :
    Kept qs os (answerCmd fn p y0) := by
  unfold answerCmd
  repeat' (first | with_reducible apply reply_kept | (first | exact hy0 | exact hr) | split)

theorem adm_kept (op : Nat) (named : List (Nat × Nat)) (f : State → Ans) (fn : Master) (p : Packet) (s : State) (hf : ∀ (x0 : State), Kept qs os x0 → AnsKept qs os (f x0)) (hs : Kept qs os s) :
    Kept qs os (adm op named f fn p s) := by
  unfold adm
  repeat' (first | with_reducible assumption | with_reducible apply answerCmd_kept | with_reducible apply firstChecks_kept | with_reducible apply takePacket_kept | with_reducible apply kept_ite)

theorem configured_kept (s : State) (f : Unit → Ans) (hs : Kept qs os s) (hf : ∀ (x0 : Unit), AnsKept qs os (f x0)) :
    AnsKept qs os (configured s f) := by
  unfold configured
  repeat' (first | with_reducible assumption | with_reducible apply ansKept_ite | with_reducible apply refuse_kept | apply hf)

theorem hostPut_kept (s : State) (a : Nat) (l : List Byte) (r : BitVec 192) (hs : Kept qs os s) :
    AnsKept qs os (hostPut s a l r) := by
  unfold hostPut
  repeat' (first | with_reducible assumption | with_reducible apply ansKept_done | with_reducible apply hostError_kept | with_reducible apply writeHostRaw_kept | split)

theorem cmdIdentify_kept (fn : Master) (s : State) (hs : Kept qs os s) :
    AnsKept qs os (cmdIdentify fn s) := by
  unfold cmdIdentify
  repeat' (first | with_reducible assumption | ((fail_if_success (fail_if_success extract_lets)); extract_lets +onlyGivenNames kx; (fail_if_success (have : True := kx)); clear_value kx; all_goals have kx := True.intro) | with_reducible apply ansKept_done)

theorem clearTable_kept (s : State) (hs : Kept qs os s) : Kept qs os (clearTable s) :=
  ⟨filter_canon _ hs.dram, hs.loc, hs.tcm, hs.host, hs.twin, hs.before, hs.link, hs.bus, hs.level, hs.asked, hs.queue, hs.sent⟩

theorem cmdConfigure_kept (p : Packet) (s : State) (hs : Kept qs os s) :
    AnsKept qs os (cmdConfigure p s) := by
  unfold cmdConfigure
  repeat' (first | with_reducible assumption | ((fail_if_success (fail_if_success extract_lets)); extract_lets +onlyGivenNames kx; (fail_if_success (have : True := kx)); clear_value kx; all_goals have kx := True.intro) | with_reducible apply ansKept_done | with_reducible apply ansKept_ite | with_reducible apply badField_kept | with_reducible apply refuse_kept | with_reducible apply clearTable_kept | refine kept_upd ?_ rfl rfl rfl rfl rfl rfl rfl rfl rfl rfl rfl rfl)

theorem cmdResetDevice_kept (fn : Master) (p : Packet) (s : State) (hs : Kept qs os s) :
    AnsKept qs os (cmdResetDevice fn p s) := by
  unfold cmdResetDevice
  repeat' (first | with_reducible assumption | with_reducible apply ansKept_held | with_reducible apply ansKept_ite | with_reducible apply takeReset_kept | with_reducible apply reply_kept | with_reducible apply badField_kept)

theorem cmdSleep_kept (fn : Master) (p : Packet) (s : State) (hs : Kept qs os s) :
    AnsKept qs os (cmdSleep fn p s) := by
  unfold cmdSleep
  repeat' (first | with_reducible assumption | ((fail_if_success (fail_if_success extract_lets)); extract_lets +onlyGivenNames kx; (fail_if_success (have : True := kx)); (first | (refine kept_cut qs os kx ?_ fun _ => ?_; unfold kx; rotate_left; clear_value kx; rotate_right) | (refine kept_cut qs os kx.1 ?_ fun _ => ?_; unfold kx; rotate_left; clear_value kx; rotate_right) | (first | have := (kx : State → _) | have := (kx : Twin) | have := (kx : Mem) | have := (kx : Hu) | have := (kx : Sec); clear this) | clear_value kx); all_goals have kx := True.intro) | with_reducible apply ansKept_done | with_reducible apply ansKept_held | with_reducible apply ansKept_no | with_reducible apply ansKept_ite | with_reducible apply badField_kept | with_reducible apply refuse_kept | with_reducible apply hold_kept | with_reducible apply enterStandby_kept | with_reducible apply enterDeep_kept | with_reducible apply kept_ite | with_reducible refine kept_of_done (by assumption) ?_ | with_reducible refine kept_of_held (by assumption) ?_ | with_reducible refine kept_of_no (by assumption) ?_ | split | refine kept_upd ?_ rfl rfl rfl rfl rfl rfl rfl rfl rfl rfl rfl rfl)

theorem cmdVfConfig_kept (fn : Master) (p : Packet) (s : State) (hs : Kept qs os s) :
    AnsKept qs os (cmdVfConfig fn p s) := by
  unfold cmdVfConfig
  repeat' (first | with_reducible assumption | ((fail_if_success (fail_if_success extract_lets)); extract_lets +onlyGivenNames kx; (fail_if_success (have : True := kx)); clear_value kx; all_goals have kx := True.intro) | with_reducible apply ansKept_done | with_reducible apply ansKept_ite | with_reducible apply badField_kept | with_reducible apply refuse_kept | with_reducible apply modFunc_kept)

theorem cmdQuadConfig_kept (p : Packet) (s : State) (hs : Kept qs os s) :
    AnsKept qs os (cmdQuadConfig p s) := by
  unfold cmdQuadConfig
  repeat' (first | with_reducible assumption | ((fail_if_success (fail_if_success extract_lets)); extract_lets +onlyGivenNames kx; (fail_if_success (have : True := kx)); clear_value kx; all_goals have kx := True.intro) | with_reducible apply ansKept_done | with_reducible apply ansKept_ite | with_reducible apply badField_kept | with_reducible apply refuse_kept | with_reducible apply quadCfgWrite_kept)

theorem onPort_kept (p : Packet) (profile : Nat) (bad : Option Byte) (s : State) (f : Nat → Nat → Ans) (hs : Kept qs os s) (hf : ∀ (x0 : Nat) (x1 : Nat), AnsKept qs os (f x0 x1)) :
    AnsKept qs os (onPort p profile bad s f) := by
  unfold onPort
  repeat' (first | with_reducible assumption | ((fail_if_success (fail_if_success extract_lets)); extract_lets +onlyGivenNames kx; (fail_if_success (have : True := kx)); clear_value kx; all_goals have kx := True.intro) | with_reducible apply ansKept_ite | with_reducible apply badField_kept | with_reducible apply refuse_kept | apply hf | split)

theorem cmdPortRegion_kept (p : Packet) (s : State) (hs : Kept qs os s) :
    AnsKept qs os (cmdPortRegion p s) := by
  unfold cmdPortRegion
  repeat' (first | with_reducible assumption | (first | (intro _ hk; have := hk.queue) | (intro _ _ hk; have := hk.queue) | (intro _ _ _ hk; have := hk.queue); clear this) | intro _ | ((fail_if_success (fail_if_success extract_lets)); extract_lets +onlyGivenNames kx; (fail_if_success (have : True := kx)); (first | (refine kept_cut qs os kx ?_ fun _ => ?_; unfold kx; rotate_left; clear_value kx; rotate_right) | (refine kept_cut qs os kx.1 ?_ fun _ => ?_; unfold kx; rotate_left; clear_value kx; rotate_right) | (first | have := (kx : State → _) | have := (kx : Twin) | have := (kx : Mem) | have := (kx : Hu) | have := (kx : Sec); clear this) | clear_value kx); all_goals have kx := True.intro) | with_reducible apply ansKept_done | with_reducible apply ansKept_held | with_reducible apply ansKept_no | with_reducible apply ansKept_ite | with_reducible apply onPort_kept | with_reducible apply configured_kept | with_reducible apply refuse_kept | with_reducible apply modPP_kept | with_reducible apply done_kept | with_reducible apply adminStart_kept | with_reducible apply kept_ite | with_reducible refine kept_of_done (by assumption) ?_ | with_reducible refine kept_of_held (by assumption) ?_ | with_reducible refine kept_of_no (by assumption) ?_ | split | refine kept_upd ?_ rfl rfl rfl rfl rfl rfl rfl rfl rfl rfl rfl rfl)

theorem portReady_kept (s : State) (q n : Nat) (f : DeviceInfo → Ans) (hs : Kept qs os s) (hf : ∀ (x0 : DeviceInfo), AnsKept qs os (f x0)) :
    AnsKept qs os (portReady s q n f) := by
  unfold portReady
  repeat' (first | with_reducible assumption | intro _ | ((fail_if_success (fail_if_success extract_lets)); extract_lets +onlyGivenNames kx; (fail_if_success (have : True := kx)); clear_value kx; all_goals have kx := True.intro) | with_reducible apply ansKept_ite | with_reducible apply configured_kept | with_reducible apply refuse_kept | apply hf | split)

theorem pairCommands_kept (s : State) (q p : Nat) (old new : List (Nat × NvPair)) (hs : Kept qs os s) :
    Kept qs os (pairCommands s q p old new) := by
  unfold pairCommands
  repeat' (first | with_reducible assumption | (first | (intro _ hk; have := hk.queue) | (intro _ _ hk; have := hk.queue) | (intro _ _ _ hk; have := hk.queue); clear this) | intro _ | ((fail_if_success (fail_if_success extract_lets)); extract_lets +onlyGivenNames kx; (fail_if_success (have : True := kx)); (first | (refine kept_cut qs os kx ?_ fun _ => ?_; unfold kx; rotate_left; clear_value kx; rotate_right) | (refine kept_cut qs os kx.1 ?_ fun _ => ?_; unfold kx; rotate_left; clear_value kx; rotate_right) | (first | have := (kx : State → _) | have := (kx : Twin) | have := (kx : Mem) | have := (kx : Hu) | have := (kx : Sec); clear this) | clear_value kx); all_goals have kx := True.intro) | with_reducible apply fwAdmin_kept | (with_reducible apply kept_foldl; intro _ _ _))

theorem cmdNvmeQueues_kept (p : Packet) (s : State) (hs : Kept qs os s) :
    AnsKept qs os (cmdNvmeQueues p s) := by
  unfold cmdNvmeQueues
  repeat' (first | with_reducible assumption | (first | (intro _ hk; have := hk.queue) | (intro _ _ hk; have := hk.queue) | (intro _ _ _ hk; have := hk.queue); clear this) | intro _ | ((fail_if_success (fail_if_success extract_lets)); extract_lets +onlyGivenNames kx; (fail_if_success (have : True := kx)); (first | (refine kept_cut qs os kx ?_ fun _ => ?_; unfold kx; rotate_left; clear_value kx; rotate_right) | (refine kept_cut qs os kx.1 ?_ fun _ => ?_; unfold kx; rotate_left; clear_value kx; rotate_right) | (first | have := (kx : State → _) | have := (kx : Twin) | have := (kx : Mem) | have := (kx : Hu) | have := (kx : Sec); clear this) | clear_value kx); all_goals have kx := True.intro) | with_reducible apply ansKept_done | with_reducible apply ansKept_held | with_reducible apply ansKept_no | with_reducible apply ansKept_ite | with_reducible apply onPort_kept | with_reducible apply portReady_kept | with_reducible apply refuse_kept | with_reducible apply modPP_kept | with_reducible apply clearPair_kept | with_reducible apply done_kept | with_reducible apply pairCommands_kept | (with_reducible apply kept_foldl; intro _ _ _) | with_reducible apply kept_ite | with_reducible refine kept_of_done (by assumption) ?_ | with_reducible refine kept_of_held (by assumption) ?_ | with_reducible refine kept_of_no (by assumption) ?_ | split | refine kept_upd ?_ rfl rfl rfl rfl rfl rfl rfl rfl rfl rfl rfl rfl)

theorem cmdNsAdd_kept (p : Packet) (s : State) (hs : Kept qs os s) :
    AnsKept qs os (cmdNsAdd p s) := by
  unfold cmdNsAdd
  repeat' (first | with_reducible assumption | (first | (intro _ hk; have := hk.queue) | (intro _ _ hk; have := hk.queue) | (intro _ _ _ hk; have := hk.queue); clear this) | intro _ | ((fail_if_success (fail_if_success extract_lets)); extract_lets +onlyGivenNames kx; (fail_if_success (have : True := kx)); (first | (refine kept_cut qs os kx ?_ fun _ => ?_; unfold kx; rotate_left; clear_value kx; rotate_right) | (refine kept_cut qs os kx.1 ?_ fun _ => ?_; unfold kx; rotate_left; clear_value kx; rotate_right) | (first | have := (kx : State → _) | have := (kx : Twin) | have := (kx : Mem) | have := (kx : Hu) | have := (kx : Sec); clear this) | clear_value kx); all_goals have kx := True.intro) | with_reducible apply ansKept_done | with_reducible apply ansKept_held | with_reducible apply ansKept_no | with_reducible apply ansKept_ite | with_reducible apply onPort_kept | with_reducible apply refuse_kept | with_reducible apply badField_kept | with_reducible apply portReady_kept | with_reducible apply done_kept | with_reducible apply fwAdmin_kept | with_reducible apply modPP_kept | with_reducible apply kept_ite | with_reducible refine kept_of_done (by assumption) ?_ | with_reducible refine kept_of_held (by assumption) ?_ | with_reducible refine kept_of_no (by assumption) ?_ | split | refine kept_upd ?_ rfl rfl rfl rfl rfl rfl rfl rfl rfl rfl rfl rfl)

theorem cmdNsRemove_kept (p : Packet) (s : State) (hs : Kept qs os s) :
    AnsKept qs os (cmdNsRemove p s) := by
  unfold cmdNsRemove
  repeat' (first | with_reducible assumption | intro _ | ((fail_if_success (fail_if_success extract_lets)); extract_lets +onlyGivenNames kx; (fail_if_success (have : True := kx)); clear_value kx; all_goals have kx := True.intro) | with_reducible apply ansKept_done | with_reducible apply ansKept_ite | with_reducible apply onPort_kept | with_reducible apply refuse_kept | with_reducible apply modPP_kept)

theorem cmdRingSet_kept (p : Packet) (s : State) (hs : Kept qs os s) :
    AnsKept qs os (cmdRingSet p s) := by
  unfold cmdRingSet
  repeat' (first | with_reducible assumption | (first | (intro _ hk; have := hk.queue) | (intro _ _ hk; have := hk.queue) | (intro _ _ _ hk; have := hk.queue); clear this) | intro _ | ((fail_if_success (fail_if_success extract_lets)); extract_lets +onlyGivenNames kx; (fail_if_success (have : True := kx)); (first | (refine kept_cut qs os kx ?_ fun _ => ?_; unfold kx; rotate_left; clear_value kx; rotate_right) | (refine kept_cut qs os kx.1 ?_ fun _ => ?_; unfold kx; rotate_left; clear_value kx; rotate_right) | (first | have := (kx : State → _) | have := (kx : Twin) | have := (kx : Mem) | have := (kx : Hu) | have := (kx : Sec); clear this) | clear_value kx); all_goals have kx := True.intro) | with_reducible apply ansKept_done | with_reducible apply ansKept_held | with_reducible apply ansKept_no | with_reducible apply ansKept_ite | with_reducible apply onPort_kept | with_reducible apply portReady_kept | with_reducible apply refuse_kept | with_reducible apply done_kept | with_reducible apply modPP_kept | with_reducible apply clearRing_kept | with_reducible apply kept_ite | with_reducible refine kept_of_done (by assumption) ?_ | with_reducible refine kept_of_held (by assumption) ?_ | with_reducible refine kept_of_no (by assumption) ?_ | split | refine kept_upd ?_ rfl rfl rfl rfl rfl rfl rfl rfl rfl rfl rfl rfl)

theorem cmdRingClear_kept (p : Packet) (s : State) (hs : Kept qs os s) :
    AnsKept qs os (cmdRingClear p s) := by
  unfold cmdRingClear
  repeat' (first | with_reducible assumption | intro _ | ((fail_if_success (fail_if_success extract_lets)); extract_lets +onlyGivenNames kx; (fail_if_success (have : True := kx)); clear_value kx; all_goals have kx := True.intro) | with_reducible apply ansKept_done | with_reducible apply ansKept_ite | with_reducible apply onPort_kept | with_reducible apply refuse_kept | with_reducible apply modPP_kept)

theorem cmdEthUnicast_kept (p : Packet) (s : State) (hs : Kept qs os s) :
    AnsKept qs os (cmdEthUnicast p s) := by
  unfold cmdEthUnicast
  repeat' (first | with_reducible assumption | intro _ | ((fail_if_success (fail_if_success extract_lets)); extract_lets +onlyGivenNames kx; (fail_if_success (have : True := kx)); clear_value kx; all_goals have kx := True.intro) | with_reducible apply ansKept_done | with_reducible apply onPort_kept | with_reducible apply modEP_kept)

theorem cmdEthMulticast_kept (p : Packet) (s : State) (hs : Kept qs os s) :
    AnsKept qs os (cmdEthMulticast p s) := by
  unfold cmdEthMulticast
  repeat' (first | with_reducible assumption | intro _ | ((fail_if_success (fail_if_success extract_lets)); extract_lets +onlyGivenNames kx; (fail_if_success (have : True := kx)); clear_value kx; all_goals have kx := True.intro) | with_reducible apply ansKept_done | with_reducible apply onPort_kept | with_reducible apply modEP_kept)

theorem cmdFlowAdd_kept (p : Packet) (s : State) (hs : Kept qs os s) :
    AnsKept qs os (cmdFlowAdd p s) := by
  unfold cmdFlowAdd
  repeat' (first | with_reducible assumption | (first | (intro _ hk; have := hk.queue) | (intro _ _ hk; have := hk.queue) | (intro _ _ _ hk; have := hk.queue); clear this) | intro _ | ((fail_if_success (fail_if_success extract_lets)); extract_lets +onlyGivenNames kx; (fail_if_success (have : True := kx)); (first | (refine kept_cut qs os kx ?_ fun _ => ?_; unfold kx; rotate_left; clear_value kx; rotate_right) | (refine kept_cut qs os kx.1 ?_ fun _ => ?_; unfold kx; rotate_left; clear_value kx; rotate_right) | (first | have := (kx : State → _) | have := (kx : Twin) | have := (kx : Mem) | have := (kx : Hu) | have := (kx : Sec); clear this) | clear_value kx); all_goals have kx := True.intro) | with_reducible apply ansKept_done | with_reducible apply ansKept_held | with_reducible apply ansKept_no | with_reducible apply ansKept_ite | with_reducible apply badField_kept | with_reducible apply refuse_kept | with_reducible apply done_kept | with_reducible apply writeDram_kept | with_reducible apply kept_ite | with_reducible refine kept_of_done (by assumption) ?_ | with_reducible refine kept_of_held (by assumption) ?_ | with_reducible refine kept_of_no (by assumption) ?_ | split)

theorem cmdFlowDelete_kept (p : Packet) (s : State) (hs : Kept qs os s) :
    AnsKept qs os (cmdFlowDelete p s) := by
  unfold cmdFlowDelete
  repeat' (first | with_reducible assumption | ((fail_if_success (fail_if_success extract_lets)); extract_lets +onlyGivenNames kx; (fail_if_success (have : True := kx)); clear_value kx; all_goals have kx := True.intro) | with_reducible apply ansKept_done | with_reducible apply ansKept_ite | with_reducible apply badField_kept | with_reducible apply refuse_kept | with_reducible apply writeDram_kept)

theorem cmdBucketSet_kept (p : Packet) (s : State) (hs : Kept qs os s) :
    AnsKept qs os (cmdBucketSet p s) := by
  unfold cmdBucketSet
  repeat' (first | with_reducible assumption | intro _ | ((fail_if_success (fail_if_success extract_lets)); extract_lets +onlyGivenNames kx; (fail_if_success (have : True := kx)); clear_value kx; all_goals have kx := True.intro) | with_reducible apply ansKept_done | with_reducible apply ansKept_ite | with_reducible apply onPort_kept | with_reducible apply refuse_kept | with_reducible apply writeDram_kept)

end Sys2Proof.Machine
end

