-- ==== Sys2Proof/Laws/KeptAdminPron.lean ====
section
/-!
SUPPORT. Every function of Machine/AdminPron.lean keeps a sound state, the queue and what was sent.
-/

namespace Sys2Proof.Machine

variable {qs : List Instr} {os : List Out}

theorem onPron_kept (fn : Master) (p : Packet) (bad : Option Byte) (s : State) (f : Nat → Ans) (hs : Kept qs os s) (hf : ∀ (x0 : Nat), AnsKept qs os (f x0)) :
    AnsKept qs os (onPron fn p bad s f) := by
  unfold onPron
  repeat' (first | with_reducible assumption | intro _ | ((fail_if_success (fail_if_success extract_lets)); extract_lets +onlyGivenNames kx; (fail_if_success (have : True := kx)); clear_value kx; all_goals have kx := True.intro) | with_reducible apply ansKept_ite | with_reducible apply refuse_kept | with_reducible apply badField_kept | with_reducible apply configured_kept | apply hf | split)

theorem bindImage_kept (fn : Master) (n : Nat) (x : RecImage) (s : State) (hs : Kept qs os s) :
    AnsKept qs os (bindImage fn n x s) := by
  unfold bindImage
  repeat' (first | with_reducible assumption | with_reducible apply ansKept_done | with_reducible apply ansKept_held | with_reducible apply ansKept_no | with_reducible apply ansKept_ite | with_reducible apply badField_kept | with_reducible apply refuse_kept | with_reducible apply done_kept | with_reducible apply evalStranded_kept | with_reducible apply setP_kept | with_reducible apply kept_ite | with_reducible refine kept_of_done (by assumption) ?_ | with_reducible refine kept_of_held (by assumption) ?_ | with_reducible refine kept_of_no (by assumption) ?_ | split)

theorem cmdBind_kept (fn : Master) (p : Packet) (s : State) (hs : Kept qs os s) :
    AnsKept qs os (cmdBind fn p s) := by
  unfold cmdBind
  repeat' (first | with_reducible assumption | ((fail_if_success (fail_if_success extract_lets)); extract_lets +onlyGivenNames kx; (fail_if_success (have : True := kx)); clear_value kx; all_goals have kx := True.intro) | with_reducible apply ansKept_ite | with_reducible apply refuse_kept | with_reducible apply badField_kept | with_reducible apply hostError_kept | with_reducible apply bindImage_kept | split)

theorem cmdUnbind_kept (fn : Master) (p : Packet) (s : State) (hs : Kept qs os s) :
    AnsKept qs os (cmdUnbind fn p s) := by
  unfold cmdUnbind
  repeat' (first | with_reducible assumption | intro _ | ((fail_if_success (fail_if_success extract_lets)); extract_lets +onlyGivenNames kx; (fail_if_success (have : True := kx)); clear_value kx; all_goals have kx := True.intro) | with_reducible apply ansKept_held | with_reducible apply ansKept_ite | with_reducible apply onPron_kept | with_reducible apply refuse_kept | with_reducible apply evalStranded_kept | with_reducible apply finishUnbind_kept | with_reducible apply becomeUnbound_kept | with_reducible apply hold_kept)

theorem cmdModify_kept (fn : Master) (p : Packet) (s : State) (hs : Kept qs os s) :
    AnsKept qs os (cmdModify fn p s) := by
  unfold cmdModify
  repeat' (first | with_reducible assumption | intro _ | ((fail_if_success (fail_if_success extract_lets)); extract_lets +onlyGivenNames kx; (fail_if_success (have : True := kx)); (first | (refine kept_cut qs os kx ?_ fun _ => ?_; unfold kx; rotate_left; clear_value kx; rotate_right) | clear_value kx); all_goals have kx := True.intro) | with_reducible apply ansKept_done | with_reducible apply ansKept_ite | with_reducible apply onPron_kept | with_reducible apply refuse_kept | with_reducible apply setP_kept | with_reducible apply evalStranded_kept | with_reducible apply enqueue_kept | with_reducible apply kept_ite)

theorem unlessIgnored_kept (s : State) (r : State × Bool) (hs : Kept qs os s) (hr : Kept qs os r.1) :
    AnsKept qs os (unlessIgnored s r) := by
  unfold unlessIgnored
  repeat' (first | with_reducible assumption | with_reducible apply ansKept_done | with_reducible apply ansKept_ite | with_reducible apply refuse_kept)

theorem cmdStart_kept (fn : Master) (p : Packet) (s : State) (hs : Kept qs os s) :
    AnsKept qs os (cmdStart fn p s) := by
  unfold cmdStart
  repeat' (first | with_reducible assumption | intro _ | with_reducible apply onPron_kept | with_reducible apply unlessIgnored_kept | with_reducible apply startOp_kept)

theorem cmdHalt_kept (fn : Master) (p : Packet) (s : State) (hs : Kept qs os s) :
    AnsKept qs os (cmdHalt fn p s) := by
  unfold cmdHalt
  repeat' (first | with_reducible assumption | intro _ | ((fail_if_success (fail_if_success extract_lets)); extract_lets +onlyGivenNames kx; (fail_if_success (have : True := kx)); (refine kept_cut qs os kx.1 ?_ fun _ => ?_; unfold kx; rotate_left; clear_value kx; rotate_right); all_goals have kx := True.intro) | with_reducible apply ansKept_done | with_reducible apply ansKept_held | with_reducible apply onPron_kept | with_reducible apply haltOp_kept | with_reducible apply refuse_kept | with_reducible apply hold_kept | split)

theorem cmdResume_kept (fn : Master) (p : Packet) (s : State) (hs : Kept qs os s) :
    AnsKept qs os (cmdResume fn p s) := by
  unfold cmdResume
  repeat' (first | with_reducible assumption | intro _ | with_reducible apply onPron_kept | with_reducible apply unlessIgnored_kept | with_reducible apply resumeOp_kept)

theorem cmdClear_kept (fn : Master) (p : Packet) (s : State) (hs : Kept qs os s) :
    AnsKept qs os (cmdClear fn p s) := by
  unfold cmdClear
  repeat' (first | with_reducible assumption | (first | (intro _ hk; have := hk.queue) | (intro _ _ hk; have := hk.queue) | (intro _ _ _ hk; have := hk.queue); clear this) | intro _ | ((fail_if_success (fail_if_success extract_lets)); extract_lets +onlyGivenNames kx; (fail_if_success (have : True := kx)); (first | (refine kept_cut qs os kx ?_ fun _ => ?_; unfold kx; rotate_left; clear_value kx; rotate_right) | (refine kept_cut qs os kx.1 ?_ fun _ => ?_; unfold kx; rotate_left; clear_value kx; rotate_right) | (first | have := (kx : State → _) | have := (kx : Twin) | have := (kx : Mem) | have := (kx : Hu) | have := (kx : Sec); clear this) | clear_value kx); all_goals have kx := True.intro) | with_reducible apply ansKept_done | with_reducible apply ansKept_held | with_reducible apply ansKept_no | with_reducible apply ansKept_ite | with_reducible apply onPron_kept | with_reducible apply refuse_kept | with_reducible apply done_kept | with_reducible apply startAt_kept | with_reducible apply setP_kept | with_reducible apply kept_ite | with_reducible refine kept_of_done (by assumption) ?_ | with_reducible refine kept_of_held (by assumption) ?_ | with_reducible refine kept_of_no (by assumption) ?_ | split | refine kept_upd ?_ rfl rfl rfl rfl rfl rfl rfl rfl rfl rfl rfl rfl)

theorem cmdPronounReset_kept (fn : Master) (p : Packet) (s : State) (hs : Kept qs os s) :
    AnsKept qs os (cmdPronounReset fn p s) := by
  unfold cmdPronounReset
  repeat' (first | with_reducible assumption | intro _ | with_reducible apply ansKept_held | with_reducible apply ansKept_ite | with_reducible apply onPron_kept | with_reducible apply refuse_kept | with_reducible apply resetPron_kept | with_reducible apply hold_kept)

theorem cmdQuery_kept (fn : Master) (p : Packet) (s : State) (hs : Kept qs os s) :
    AnsKept qs os (cmdQuery fn p s) := by
  unfold cmdQuery
  repeat' (first | with_reducible assumption | intro _ | ((fail_if_success (fail_if_success extract_lets)); extract_lets +onlyGivenNames kx; (fail_if_success (have : True := kx)); (refine kept_cut qs os kx ?_ fun _ => ?_; unfold kx; rotate_left; clear_value kx; rotate_right); all_goals have kx := True.intro) | with_reducible apply onPron_kept | with_reducible apply recordLost_kept | with_reducible apply hostPut_kept | with_reducible apply kept_ite)

theorem saveFails_kept (s : State) (hs : Kept qs os s) :
    AnsKept qs os (saveFails s) := by
  unfold saveFails
  repeat' (first | with_reducible assumption | with_reducible apply hostError_kept | refine kept_upd ?_ rfl rfl rfl rfl rfl rfl rfl rfl rfl rfl rfl rfl)

theorem clauseConflict_kept (s : State) (c : NClause) (hs : Kept qs os s) :
    AnsKept qs os (clauseConflict s c) := by
  unfold clauseConflict
  repeat' (first | with_reducible assumption | with_reducible apply ansKept_no)

theorem postLost_kept (r : State × Nat) (e : Nat × Dword) (hr : Kept qs os r.1) :
    Kept qs os (postLost r e).1 := by
  unfold postLost
  repeat' (first | with_reducible assumption | ((fail_if_success (fail_if_success extract_lets)); extract_lets +onlyGivenNames kx; (fail_if_success (have : True := kx)); (first | (refine kept_cut qs os kx ?_ fun _ => ?_; unfold kx; rotate_left; clear_value kx; rotate_right) | clear_value kx); all_goals have kx := True.intro) | with_reducible apply postDirect_kept | with_reducible apply rcPulse_kept | with_reducible apply kept_ite_fst | refine kept_upd ?_ rfl rfl rfl rfl rfl rfl rfl rfl rfl rfl rfl rfl)

theorem loadClauses_kept (s : State) (l : List NClause) (hs : Kept qs os s) :
    Kept qs os (loadClauses s l) := by
  unfold loadClauses
  repeat' (first | with_reducible assumption | ((fail_if_success (fail_if_success extract_lets)); extract_lets +onlyGivenNames kx; (fail_if_success (have : True := kx)); clear_value kx; all_goals have kx := True.intro) | with_reducible apply watermarkPulse_kept | refine kept_upd ?_ rfl rfl rfl rfl rfl rfl rfl rfl rfl rfl rfl rfl)

theorem cmdReplay_kept (fn : Master) (p : Packet) (s : State) (hs : Kept qs os s) : AnsKept qs os (cmdReplay fn p s) := by
  unfold cmdReplay
  refine configured_kept _ _ hs fun _ => ?_
  split
  · exact refuse_kept _ _ hs
  · refine ansKept_ite (refuse_kept _ _ hs) (ansKept_ite (saveFails_kept _ hs) (ansKept_ite (refuse_kept _ _ hs) ?_))
    extract_lets keep r s1 s2
    split
    · exact clauseConflict_kept _ _ hs
    · have h : Kept qs os r.1 := kept_foldl_fst (fun _ _ h => postLost_kept _ _ h) hs
      have h : Kept qs os s2 := hold_kept _ _ _ _ (loadClauses_kept _ _ h)
      exact finishReissue_kept _ (kept_upd h rfl rfl rfl rfl rfl rfl rfl rfl rfl rfl rfl rfl)

theorem cmdExportSaved_kept (p : Packet) (s : State) (hs : Kept qs os s) :
    AnsKept qs os (cmdExportSaved p s) := by
  unfold cmdExportSaved
  repeat' (first | with_reducible assumption | ((fail_if_success (fail_if_success extract_lets)); extract_lets +onlyGivenNames kx; (fail_if_success (have : True := kx)); clear_value kx; all_goals have kx := True.intro) | with_reducible apply ansKept_no | with_reducible apply ansKept_ite | with_reducible apply badField_kept | with_reducible apply refuse_kept | with_reducible apply saveFails_kept | with_reducible apply hostPut_kept | split)

theorem cmdDiscardSaved_kept (s : State) (hs : Kept qs os s) :
    AnsKept qs os (cmdDiscardSaved s) := by
  unfold cmdDiscardSaved
  repeat' (first | with_reducible assumption | with_reducible apply ansKept_done | with_reducible apply ansKept_ite | with_reducible apply refuse_kept | with_reducible apply consumeSave_kept)

theorem cmdClauseTune_kept (p : Packet) (s : State) (hs : Kept qs os s) :
    AnsKept qs os (cmdClauseTune p s) := by
  unfold cmdClauseTune
  repeat' (first | with_reducible assumption | intro _ | ((fail_if_success (fail_if_success extract_lets)); extract_lets +onlyGivenNames kx; (fail_if_success (have : True := kx)); clear_value kx; all_goals have kx := True.intro) | with_reducible apply ansKept_done | with_reducible apply ansKept_ite | with_reducible apply badField_kept | with_reducible apply configured_kept | refine kept_upd ?_ rfl rfl rfl rfl rfl rfl rfl rfl rfl rfl rfl rfl)

theorem cmdSqCreate_kept (fn : Master) (p : Packet) (s : State) (hs : Kept qs os s) :
    AnsKept qs os (cmdSqCreate fn p s) := by
  unfold cmdSqCreate
  repeat' (first | with_reducible assumption | ((fail_if_success (fail_if_success extract_lets)); extract_lets +onlyGivenNames kx; (fail_if_success (have : True := kx)); (first | (refine kept_cut qs os kx ?_ fun _ => ?_; unfold kx; rotate_left; clear_value kx; rotate_right) | (refine kept_cut qs os kx.1 ?_ fun _ => ?_; unfold kx; rotate_left; clear_value kx; rotate_right) | (first | have := (kx : State → _) | have := (kx : Twin) | have := (kx : Mem) | have := (kx : Hu) | have := (kx : Sec); clear this) | clear_value kx); all_goals have kx := True.intro) | with_reducible apply ansKept_done | with_reducible apply ansKept_held | with_reducible apply ansKept_no | with_reducible apply ansKept_ite | with_reducible apply refuse_kept | with_reducible apply badField_kept | with_reducible apply done_kept | with_reducible apply setSq_kept | with_reducible apply kept_ite | with_reducible refine kept_of_done (by assumption) ?_ | with_reducible refine kept_of_held (by assumption) ?_ | with_reducible refine kept_of_no (by assumption) ?_ | split | refine kept_upd ?_ rfl rfl rfl rfl rfl rfl rfl rfl rfl rfl rfl rfl)

theorem onSq_kept (fn : Master) (p : Packet) (s : State) (f : Nat → SQueue → Ans) (hs : Kept qs os s) (hf : ∀ (x0 : Nat) (x1 : SQueue), AnsKept qs os (f x0 x1)) :
    AnsKept qs os (onSq fn p s f) := by
  unfold onSq
  repeat' (first | with_reducible assumption | ((fail_if_success (fail_if_success extract_lets)); extract_lets +onlyGivenNames kx; (fail_if_success (have : True := kx)); clear_value kx; all_goals have kx := True.intro) | with_reducible apply ansKept_ite | with_reducible apply refuse_kept | with_reducible apply badField_kept | apply hf | split)

theorem cmdSqDelete_kept (fn : Master) (p : Packet) (s : State) (hs : Kept qs os s) :
    AnsKept qs os (cmdSqDelete fn p s) := by
  unfold cmdSqDelete
  repeat' (first | with_reducible assumption | intro _ | with_reducible apply ansKept_done | with_reducible apply ansKept_ite | with_reducible apply onSq_kept | with_reducible apply refuse_kept | refine kept_upd ?_ rfl rfl rfl rfl rfl rfl rfl rfl rfl rfl rfl rfl)

theorem cmdSqQuery_kept (fn : Master) (p : Packet) (s : State) (hs : Kept qs os s) :
    AnsKept qs os (cmdSqQuery fn p s) := by
  unfold cmdSqQuery
  repeat' (first | with_reducible assumption | intro _ | with_reducible apply ansKept_done | with_reducible apply onSq_kept)

theorem cmdEventRoute_kept (fn : Master) (p : Packet) (s : State) (hs : Kept qs os s) :
    AnsKept qs os (cmdEventRoute fn p s) := by
  unfold cmdEventRoute
  repeat' (first | with_reducible assumption | (first | (intro _ hk; have := hk.queue) | (intro _ _ hk; have := hk.queue) | (intro _ _ _ hk; have := hk.queue); clear this) | intro _ | ((fail_if_success (fail_if_success extract_lets)); extract_lets +onlyGivenNames kx; (fail_if_success (have : True := kx)); (first | (refine kept_cut qs os kx ?_ fun _ => ?_; unfold kx; rotate_left; clear_value kx; rotate_right) | (refine kept_cut qs os kx.1 ?_ fun _ => ?_; unfold kx; rotate_left; clear_value kx; rotate_right) | (first | have := (kx : State → _) | have := (kx : Twin) | have := (kx : Mem) | have := (kx : Hu) | have := (kx : Sec); clear this) | clear_value kx); all_goals have kx := True.intro) | with_reducible apply ansKept_done | with_reducible apply ansKept_held | with_reducible apply ansKept_no | with_reducible apply ansKept_ite | with_reducible apply refuse_kept | with_reducible apply badField_kept | with_reducible apply done_kept | with_reducible apply kept_ite | with_reducible refine kept_of_done (by assumption) ?_ | with_reducible refine kept_of_held (by assumption) ?_ | with_reducible refine kept_of_no (by assumption) ?_ | split | refine kept_upd ?_ rfl rfl rfl rfl rfl rfl rfl rfl rfl rfl rfl rfl)

theorem cmdMbxBind_kept (p : Packet) (s : State) (hs : Kept qs os s) :
    AnsKept qs os (cmdMbxBind p s) := by
  unfold cmdMbxBind
  repeat' (first | with_reducible assumption | ((fail_if_success (fail_if_success extract_lets)); extract_lets +onlyGivenNames kx; (fail_if_success (have : True := kx)); clear_value kx; all_goals have kx := True.intro) | with_reducible apply ansKept_done | with_reducible apply ansKept_ite | with_reducible apply badField_kept | with_reducible apply refuse_kept | with_reducible apply mbxBindOp_kept)

end Sys2Proof.Machine
end

