-- ==== Sys2Proof/Laws/KeptAdminTwin.lean ====
section
/-!
SUPPORT. Every function of Machine/AdminTwin.lean keeps a sound state, the queue and what was sent.
-/

namespace Sys2Proof.Machine

variable {qs : List Instr} {os : List Out}

theorem lcCheck_ans (s : State) (goal len iova : Nat) (hs : Kept qs os s) : AnsKept qs os (lcCheck s goal len iova).1 := by
  unfold lcCheck
  extract_lets st blankOut
  split
  · exact badField_kept _ _ hs
  · split
    · exact hostError_kept _ _ hs
    · split
      · exact badField_kept _ _ hs
      · extract_lets a
        split
        · exact refuse_kept _ _ hs
        · split
          · exact refuse_kept _ _ (authFail_kept _ (dropNonce_kept _ hs))
          · split
            · exact refuse_kept _ _ hs
            · exact ansKept_done hs

theorem bankHeld_kept (fn : Master) (p : Packet) (y0 : Ans) (hy0 : AnsKept qs os y0) :
    AnsKept qs os (bankHeld fn p y0) := by
  unfold bankHeld
  repeat' (first | with_reducible assumption | with_reducible apply ansKept_held | with_reducible apply hold_kept | (first | exact hy0 | exact hr) | split)

theorem cmdKeyImport_kept (fn : Master) (p : Packet) (s : State) (hs : Kept qs os s) :
    AnsKept qs os (cmdKeyImport fn p s) := by
  unfold cmdKeyImport
  repeat' (first | with_reducible assumption | with_reducible apply ansKept_ite | with_reducible apply badField_kept | with_reducible apply bankHeld_kept | with_reducible apply keyImport_kept)

theorem cmdKeyErase_kept (fn : Master) (p : Packet) (s : State) (hs : Kept qs os s) :
    AnsKept qs os (cmdKeyErase fn p s) := by
  unfold cmdKeyErase
  repeat' (first | with_reducible assumption | with_reducible apply bankHeld_kept | with_reducible apply keyErase_kept)

theorem cmdKeyInfo_kept (p : Packet) (s : State) (hs : Kept qs os s) :
    AnsKept qs os (cmdKeyInfo p s) := by
  unfold cmdKeyInfo
  repeat' (first | with_reducible assumption | with_reducible apply keyInfo_kept)

theorem cmdLifecycle_kept (fn : Master) (p : Packet) (s : State) (hs : Kept qs os s) :
    AnsKept qs os (cmdLifecycle fn p s) := by
  unfold cmdLifecycle
  refine ansKept_ite (badField_kept _ _ hs) ?_
  have h := lcCheck_ans s (pkF p 8 1) (pkF p 24 2) (pkIova p) hs
  split
  · rename_i e; rw [e] at h; exact h
  · exact ansKept_held (transition_kept _ _ (reply_kept _ _ _ _ _ _ hs))

theorem startLinking_kept (s : State) (join : Bool) (hs : Kept qs os s) : Kept qs os (startLinking s join) := by
  unfold startLinking
  extract_lets t0 t1 t2 s1
  have h : Kept qs os { s with tw := t2 } := by
    have h1 : t2.state = s.tw.state := by unfold t2; split <;> rfl
    have h2 : t2.before = s.tw.state := by unfold t2; split <;> rfl
    have h3 : t2.link.toNat ≤ 2 := by
      unfold t2
      split
      · exact hs.link
      · exact Nat.le_of_ble_eq_true rfl
    exact ⟨hs.dram, hs.loc, hs.tcm, hs.host, h1 ▸ hs.twin, h2 ▸ hs.twin, h3, hs.bus, hs.level, hs.asked, hs.queue, hs.sent⟩
  have h : Kept qs os s1 := setTwinState_kept _ 1 h (Nat.le_of_ble_eq_true rfl)
  exact kept_ite (sendHello_kept _ h) h

theorem cmdTwinPair_kept (p : Packet) (s : State) (hs : Kept qs os s) :
    AnsKept qs os (cmdTwinPair p s) := by
  unfold cmdTwinPair
  refine configured_kept _ _ hs fun _ => ?_
  generalize shadowFits s 1 = b
  generalize mayPair s = c
  cases c
  · exact refuse_kept _ _ hs
  · cases b
    · exact refuse_kept _ _ hs
    · exact startLinking_kept _ _ hs

theorem cmdTwinUnpair_kept (fn : Master) (p : Packet) (s : State) (hs : Kept qs os s) :
    AnsKept qs os (cmdTwinUnpair fn p s) := by
  unfold cmdTwinUnpair
  repeat' (first | with_reducible assumption | with_reducible apply ansKept_done | with_reducible apply ansKept_held | with_reducible apply ansKept_no | with_reducible apply ansKept_ite | with_reducible apply propose_kept | with_reducible apply setTwinState_kept | with_reducible apply hold_kept | with_reducible apply done_kept | with_reducible apply resetMaster_kept | with_reducible apply refuse_kept | with_reducible apply kept_ite | with_reducible refine kept_of_done (by assumption) ?_ | with_reducible refine kept_of_held (by assumption) ?_ | with_reducible refine kept_of_no (by assumption) ?_ | split | exact Nat.le_of_ble_eq_true rfl | exact Kept.before (qs := qs) (os := os) (by assumption))

theorem cmdTwinFence_kept (p : Packet) (s : State) (hs : Kept qs os s) :
    AnsKept qs os (cmdTwinFence p s) := by
  unfold cmdTwinFence
  repeat' (first | with_reducible assumption | ((fail_if_success (fail_if_success extract_lets)); extract_lets +onlyGivenNames kx; (fail_if_success (have : True := kx)); clear_value kx; all_goals have kx := True.intro) | with_reducible apply ansKept_done | with_reducible apply ansKept_ite | with_reducible apply badField_kept | with_reducible apply refuse_kept | with_reducible apply startFence_kept)

theorem cmdTwinTakeover_kept (s : State) (hs : Kept qs os s) :
    AnsKept qs os (cmdTwinTakeover s) := by
  unfold cmdTwinTakeover
  repeat' (first | with_reducible assumption | intro _ | ((fail_if_success (fail_if_success extract_lets)); extract_lets +onlyGivenNames kx; (fail_if_success (have : True := kx)); (first | (refine kept_cut qs os kx ?_ fun _ => ?_; unfold kx; rotate_left; clear_value kx; rotate_right) | (have := (kx : Twin); clear this) | clear_value kx); all_goals have kx := True.intro) | with_reducible apply ansKept_done | with_reducible apply ansKept_ite | with_reducible apply configured_kept | with_reducible apply refuse_kept | with_reducible apply clauseConflict_kept | with_reducible apply saveTwin_kept | with_reducible apply raiseNext_kept | with_reducible apply finishReissue_kept | with_reducible apply loadClauses_kept | split | refine kept_upd ?_ rfl rfl rfl rfl rfl rfl rfl rfl rfl rfl rfl rfl)

theorem cmdTwinStatus_kept (s : State) (hs : Kept qs os s) :
    AnsKept qs os (cmdTwinStatus s) := by
  unfold cmdTwinStatus
  repeat' (first | with_reducible assumption | with_reducible apply ansKept_done)

theorem testLeaves_kept (s : State) (t : Nat) (hs : Kept qs os s) : Kept qs os (testLeaves s t) := by
  unfold testLeaves
  split
  · exact ⟨hs.dram, nil_canon, hs.tcm, hs.host, hs.twin, hs.before, hs.link, hs.bus, hs.level, hs.asked, hs.queue, hs.sent⟩
  · exact kept_upd (flushCache_kept _ hs) rfl rfl rfl rfl rfl rfl rfl rfl rfl rfl rfl rfl
  · exact hs

theorem testFails_kept (s : State) (t : Nat) (unit : Word) (hs : Kept qs os s) :
    Kept qs os (testFails s t unit) := by
  unfold testFails
  repeat' (first | with_reducible assumption | ((fail_if_success (fail_if_success extract_lets)); extract_lets +onlyGivenNames kx; (fail_if_success (have : True := kx)); (first | (refine kept_cut qs os kx ?_ fun _ => ?_; unfold kx; rotate_left; clear_value kx; rotate_right) | (refine kept_cut qs os kx.1 ?_ fun _ => ?_; unfold kx; rotate_left; clear_value kx; rotate_right) | (first | have := (kx : State → _) | have := (kx : Twin) | have := (kx : Mem) | have := (kx : Hu) | have := (kx : Sec); clear this) | clear_value kx); all_goals have kx := True.intro) | with_reducible apply ueNote_kept | with_reducible apply cpFault_kept | with_reducible apply fenceEngine_kept | with_reducible apply fenceBank_kept | with_reducible apply fenceStaging_kept | with_reducible apply doomDirectory_kept | with_reducible apply fenceMover_kept | with_reducible apply poisonLine_kept | split)

theorem runTests_kept (mask : Nat) (fails : List (BitVec 4 × Word)) (s : State) (hs : Kept qs os s) :
    Kept qs os (runTests mask fails s) := by
  unfold runTests
  repeat' (first | with_reducible assumption | with_reducible apply testFails_kept | with_reducible apply testLeaves_kept | (with_reducible apply kept_foldl; intro _ _ _) | with_reducible apply kept_ite)

theorem cmdSelfTest_kept (p : Packet) (fails : List (BitVec 4 × Word)) (s : State) (hs : Kept qs os s) :
    AnsKept qs os (cmdSelfTest p fails s) := by
  unfold cmdSelfTest
  repeat' (first | with_reducible assumption | ((fail_if_success (fail_if_success extract_lets)); extract_lets +onlyGivenNames kx; (fail_if_success (have : True := kx)); clear_value kx; all_goals have kx := True.intro) | with_reducible apply ansKept_done | with_reducible apply ansKept_held | with_reducible apply ansKept_ite | with_reducible apply badField_kept | with_reducible apply refuse_kept | with_reducible apply testFails_kept | with_reducible apply runTests_kept)

theorem cmdLinkTest_kept (fn : Master) (p : Packet) (s : State) (hs : Kept qs os s) :
    AnsKept qs os (cmdLinkTest fn p s) := by
  unfold cmdLinkTest
  repeat' (first | with_reducible assumption | ((fail_if_success (fail_if_success extract_lets)); extract_lets +onlyGivenNames kx; (fail_if_success (have : True := kx)); (first | (refine kept_cut qs os kx ?_ fun _ => ?_; unfold kx; rotate_left; clear_value kx; rotate_right) | clear_value kx); all_goals have kx := True.intro) | with_reducible apply ansKept_held | with_reducible apply ansKept_ite | with_reducible apply badField_kept | with_reducible apply refuse_kept | with_reducible apply hold_kept | with_reducible apply proposeAt_kept | with_reducible apply kept_ite | refine kept_upd ?_ rfl rfl rfl rfl rfl rfl rfl rfl rfl rfl rfl rfl)

theorem cmdLogRead_kept (p : Packet) (s : State) (hs : Kept qs os s) :
    AnsKept qs os (cmdLogRead p s) := by
  unfold cmdLogRead
  repeat' (first | with_reducible assumption | ((fail_if_success (fail_if_success extract_lets)); extract_lets +onlyGivenNames kx; (fail_if_success (have : True := kx)); clear_value kx; all_goals have kx := True.intro) | with_reducible apply ansKept_ite | with_reducible apply badField_kept | with_reducible apply hostPut_kept)

end Sys2Proof.Machine
end

