-- ==== Sys2Proof/Laws/KeptAdminRows.lean ====
section
/-!
SUPPORT. Every function of Machine/AdminRows.lean keeps a sound state, the queue and what was sent.
-/

namespace Sys2Proof.Machine

variable {qs : List Instr} {os : List Out}

theorem execAdmIdentify_kept (fn : Master) (pkt : Packet) (s : State) (hs : Kept qs os s) :
    ResKept qs os (execAdmIdentify fn pkt s) := by
  unfold execAdmIdentify
  repeat' (first | with_reducible assumption | with_reducible apply resKept_next | (first | (intro _ hk; have := hk.queue) | (intro _ _ hk; have := hk.queue) | (intro _ _ _ hk; have := hk.queue); clear this) | with_reducible apply adm_kept | with_reducible apply cmdIdentify_kept)

theorem execAdmConfigure_kept (fn : Master) (pkt : Packet) (s : State) (hs : Kept qs os s) :
    ResKept qs os (execAdmConfigure fn pkt s) := by
  unfold execAdmConfigure
  repeat' (first | with_reducible assumption | with_reducible apply resKept_next | (first | (intro _ hk; have := hk.queue) | (intro _ _ hk; have := hk.queue) | (intro _ _ _ hk; have := hk.queue); clear this) | with_reducible apply adm_kept | with_reducible apply cmdConfigure_kept)

theorem execAdmResetDevice_kept (fn : Master) (pkt : Packet) (s : State) (hs : Kept qs os s) :
    ResKept qs os (execAdmResetDevice fn pkt s) := by
  unfold execAdmResetDevice
  repeat' (first | with_reducible assumption | with_reducible apply resKept_next | (first | (intro _ hk; have := hk.queue) | (intro _ _ hk; have := hk.queue) | (intro _ _ _ hk; have := hk.queue); clear this) | with_reducible apply adm_kept | with_reducible apply cmdResetDevice_kept)

theorem execAdmSleep_kept (fn : Master) (pkt : Packet) (s : State) (hs : Kept qs os s) :
    ResKept qs os (execAdmSleep fn pkt s) := by
  unfold execAdmSleep
  repeat' (first | with_reducible assumption | with_reducible apply resKept_next | (first | (intro _ hk; have := hk.queue) | (intro _ _ hk; have := hk.queue) | (intro _ _ _ hk; have := hk.queue); clear this) | with_reducible apply adm_kept | with_reducible apply cmdSleep_kept)

theorem execAdmVfConfig_kept (fn : Master) (pkt : Packet) (s : State) (hs : Kept qs os s) :
    ResKept qs os (execAdmVfConfig fn pkt s) := by
  unfold execAdmVfConfig
  repeat' (first | with_reducible assumption | with_reducible apply resKept_next | (first | (intro _ hk; have := hk.queue) | (intro _ _ hk; have := hk.queue) | (intro _ _ _ hk; have := hk.queue); clear this) | with_reducible apply adm_kept | with_reducible apply cmdVfConfig_kept)

theorem execAdmQuadConfig_kept (fn : Master) (pkt : Packet) (s : State) (hs : Kept qs os s) :
    ResKept qs os (execAdmQuadConfig fn pkt s) := by
  unfold execAdmQuadConfig
  repeat' (first | with_reducible assumption | with_reducible apply resKept_next | (first | (intro _ hk; have := hk.queue) | (intro _ _ hk; have := hk.queue) | (intro _ _ _ hk; have := hk.queue); clear this) | with_reducible apply adm_kept | with_reducible apply cmdQuadConfig_kept)

theorem execAdmPortRegion_kept (fn : Master) (pkt : Packet) (s : State) (hs : Kept qs os s) :
    ResKept qs os (execAdmPortRegion fn pkt s) := by
  unfold execAdmPortRegion
  repeat' (first | with_reducible assumption | with_reducible apply resKept_next | (first | (intro _ hk; have := hk.queue) | (intro _ _ hk; have := hk.queue) | (intro _ _ _ hk; have := hk.queue); clear this) | with_reducible apply adm_kept | with_reducible apply cmdPortRegion_kept)

theorem execAdmNvmeQueues_kept (fn : Master) (pkt : Packet) (s : State) (hs : Kept qs os s) :
    ResKept qs os (execAdmNvmeQueues fn pkt s) := by
  unfold execAdmNvmeQueues
  repeat' (first | with_reducible assumption | with_reducible apply resKept_next | (first | (intro _ hk; have := hk.queue) | (intro _ _ hk; have := hk.queue) | (intro _ _ _ hk; have := hk.queue); clear this) | with_reducible apply adm_kept | with_reducible apply cmdNvmeQueues_kept)

theorem execAdmNsAdd_kept (fn : Master) (pkt : Packet) (s : State) (hs : Kept qs os s) :
    ResKept qs os (execAdmNsAdd fn pkt s) := by
  unfold execAdmNsAdd
  repeat' (first | with_reducible assumption | with_reducible apply resKept_next | (first | (intro _ hk; have := hk.queue) | (intro _ _ hk; have := hk.queue) | (intro _ _ _ hk; have := hk.queue); clear this) | with_reducible apply adm_kept | with_reducible apply cmdNsAdd_kept)

theorem execAdmNsRemove_kept (fn : Master) (pkt : Packet) (s : State) (hs : Kept qs os s) :
    ResKept qs os (execAdmNsRemove fn pkt s) := by
  unfold execAdmNsRemove
  repeat' (first | with_reducible assumption | with_reducible apply resKept_next | (first | (intro _ hk; have := hk.queue) | (intro _ _ hk; have := hk.queue) | (intro _ _ _ hk; have := hk.queue); clear this) | with_reducible apply adm_kept | with_reducible apply cmdNsRemove_kept)

theorem execAdmRingSet_kept (fn : Master) (pkt : Packet) (s : State) (hs : Kept qs os s) :
    ResKept qs os (execAdmRingSet fn pkt s) := by
  unfold execAdmRingSet
  repeat' (first | with_reducible assumption | with_reducible apply resKept_next | (first | (intro _ hk; have := hk.queue) | (intro _ _ hk; have := hk.queue) | (intro _ _ _ hk; have := hk.queue); clear this) | with_reducible apply adm_kept | with_reducible apply cmdRingSet_kept)

theorem execAdmRingClear_kept (fn : Master) (pkt : Packet) (s : State) (hs : Kept qs os s) :
    ResKept qs os (execAdmRingClear fn pkt s) := by
  unfold execAdmRingClear
  repeat' (first | with_reducible assumption | with_reducible apply resKept_next | (first | (intro _ hk; have := hk.queue) | (intro _ _ hk; have := hk.queue) | (intro _ _ _ hk; have := hk.queue); clear this) | with_reducible apply adm_kept | with_reducible apply cmdRingClear_kept)

theorem execAdmEthUnicast_kept (fn : Master) (pkt : Packet) (s : State) (hs : Kept qs os s) :
    ResKept qs os (execAdmEthUnicast fn pkt s) := by
  unfold execAdmEthUnicast
  repeat' (first | with_reducible assumption | with_reducible apply resKept_next | (first | (intro _ hk; have := hk.queue) | (intro _ _ hk; have := hk.queue) | (intro _ _ _ hk; have := hk.queue); clear this) | with_reducible apply adm_kept | with_reducible apply cmdEthUnicast_kept)

theorem execAdmEthMulticast_kept (fn : Master) (pkt : Packet) (s : State) (hs : Kept qs os s) :
    ResKept qs os (execAdmEthMulticast fn pkt s) := by
  unfold execAdmEthMulticast
  repeat' (first | with_reducible assumption | with_reducible apply resKept_next | (first | (intro _ hk; have := hk.queue) | (intro _ _ hk; have := hk.queue) | (intro _ _ _ hk; have := hk.queue); clear this) | with_reducible apply adm_kept | with_reducible apply cmdEthMulticast_kept)

theorem execAdmFlowAdd_kept (fn : Master) (pkt : Packet) (s : State) (hs : Kept qs os s) :
    ResKept qs os (execAdmFlowAdd fn pkt s) := by
  unfold execAdmFlowAdd
  repeat' (first | with_reducible assumption | with_reducible apply resKept_next | (first | (intro _ hk; have := hk.queue) | (intro _ _ hk; have := hk.queue) | (intro _ _ _ hk; have := hk.queue); clear this) | with_reducible apply adm_kept | with_reducible apply cmdFlowAdd_kept)

theorem execAdmFlowDelete_kept (fn : Master) (pkt : Packet) (s : State) (hs : Kept qs os s) :
    ResKept qs os (execAdmFlowDelete fn pkt s) := by
  unfold execAdmFlowDelete
  repeat' (first | with_reducible assumption | with_reducible apply resKept_next | (first | (intro _ hk; have := hk.queue) | (intro _ _ hk; have := hk.queue) | (intro _ _ _ hk; have := hk.queue); clear this) | with_reducible apply adm_kept | with_reducible apply cmdFlowDelete_kept)

theorem execAdmBucketSet_kept (fn : Master) (pkt : Packet) (s : State) (hs : Kept qs os s) :
    ResKept qs os (execAdmBucketSet fn pkt s) := by
  unfold execAdmBucketSet
  repeat' (first | with_reducible assumption | with_reducible apply resKept_next | (first | (intro _ hk; have := hk.queue) | (intro _ _ hk; have := hk.queue) | (intro _ _ _ hk; have := hk.queue); clear this) | with_reducible apply adm_kept | with_reducible apply cmdBucketSet_kept)

theorem execAdmBind_kept (fn : Master) (pkt : Packet) (s : State) (hs : Kept qs os s) :
    ResKept qs os (execAdmBind fn pkt s) := by
  unfold execAdmBind
  repeat' (first | with_reducible assumption | with_reducible apply resKept_next | (first | (intro _ hk; have := hk.queue) | (intro _ _ hk; have := hk.queue) | (intro _ _ _ hk; have := hk.queue); clear this) | with_reducible apply adm_kept | with_reducible apply cmdBind_kept)

theorem execAdmUnbind_kept (fn : Master) (pkt : Packet) (s : State) (hs : Kept qs os s) :
    ResKept qs os (execAdmUnbind fn pkt s) := by
  unfold execAdmUnbind
  repeat' (first | with_reducible assumption | with_reducible apply resKept_next | (first | (intro _ hk; have := hk.queue) | (intro _ _ hk; have := hk.queue) | (intro _ _ _ hk; have := hk.queue); clear this) | with_reducible apply adm_kept | with_reducible apply cmdUnbind_kept)

theorem execAdmModify_kept (fn : Master) (pkt : Packet) (s : State) (hs : Kept qs os s) :
    ResKept qs os (execAdmModify fn pkt s) := by
  unfold execAdmModify
  repeat' (first | with_reducible assumption | with_reducible apply resKept_next | (first | (intro _ hk; have := hk.queue) | (intro _ _ hk; have := hk.queue) | (intro _ _ _ hk; have := hk.queue); clear this) | with_reducible apply adm_kept | with_reducible apply cmdModify_kept)

theorem execAdmStart_kept (fn : Master) (pkt : Packet) (s : State) (hs : Kept qs os s) :
    ResKept qs os (execAdmStart fn pkt s) := by
  unfold execAdmStart
  repeat' (first | with_reducible assumption | with_reducible apply resKept_next | (first | (intro _ hk; have := hk.queue) | (intro _ _ hk; have := hk.queue) | (intro _ _ _ hk; have := hk.queue); clear this) | with_reducible apply adm_kept | with_reducible apply cmdStart_kept)

theorem execAdmHalt_kept (fn : Master) (pkt : Packet) (s : State) (hs : Kept qs os s) :
    ResKept qs os (execAdmHalt fn pkt s) := by
  unfold execAdmHalt
  repeat' (first | with_reducible assumption | with_reducible apply resKept_next | (first | (intro _ hk; have := hk.queue) | (intro _ _ hk; have := hk.queue) | (intro _ _ _ hk; have := hk.queue); clear this) | with_reducible apply adm_kept | with_reducible apply cmdHalt_kept)

theorem execAdmResume_kept (fn : Master) (pkt : Packet) (s : State) (hs : Kept qs os s) :
    ResKept qs os (execAdmResume fn pkt s) := by
  unfold execAdmResume
  repeat' (first | with_reducible assumption | with_reducible apply resKept_next | (first | (intro _ hk; have := hk.queue) | (intro _ _ hk; have := hk.queue) | (intro _ _ _ hk; have := hk.queue); clear this) | with_reducible apply adm_kept | with_reducible apply cmdResume_kept)

theorem execAdmClear_kept (fn : Master) (pkt : Packet) (s : State) (hs : Kept qs os s) :
    ResKept qs os (execAdmClear fn pkt s) := by
  unfold execAdmClear
  repeat' (first | with_reducible assumption | with_reducible apply resKept_next | (first | (intro _ hk; have := hk.queue) | (intro _ _ hk; have := hk.queue) | (intro _ _ _ hk; have := hk.queue); clear this) | with_reducible apply adm_kept | with_reducible apply cmdClear_kept)

theorem execAdmPronounReset_kept (fn : Master) (pkt : Packet) (s : State) (hs : Kept qs os s) :
    ResKept qs os (execAdmPronounReset fn pkt s) := by
  unfold execAdmPronounReset
  repeat' (first | with_reducible assumption | with_reducible apply resKept_next | (first | (intro _ hk; have := hk.queue) | (intro _ _ hk; have := hk.queue) | (intro _ _ _ hk; have := hk.queue); clear this) | with_reducible apply adm_kept | with_reducible apply cmdPronounReset_kept)

theorem execAdmQuery_kept (fn : Master) (pkt : Packet) (s : State) (hs : Kept qs os s) :
    ResKept qs os (execAdmQuery fn pkt s) := by
  unfold execAdmQuery
  repeat' (first | with_reducible assumption | with_reducible apply resKept_next | (first | (intro _ hk; have := hk.queue) | (intro _ _ hk; have := hk.queue) | (intro _ _ _ hk; have := hk.queue); clear this) | with_reducible apply adm_kept | with_reducible apply cmdQuery_kept)

theorem execAdmReplay_kept (fn : Master) (pkt : Packet) (s : State) (hs : Kept qs os s) :
    ResKept qs os (execAdmReplay fn pkt s) := by
  unfold execAdmReplay
  repeat' (first | with_reducible assumption | with_reducible apply resKept_next | (first | (intro _ hk; have := hk.queue) | (intro _ _ hk; have := hk.queue) | (intro _ _ _ hk; have := hk.queue); clear this) | with_reducible apply adm_kept | with_reducible apply cmdReplay_kept)

theorem execAdmExportSaved_kept (fn : Master) (pkt : Packet) (s : State) (hs : Kept qs os s) :
    ResKept qs os (execAdmExportSaved fn pkt s) := by
  unfold execAdmExportSaved
  repeat' (first | with_reducible assumption | with_reducible apply resKept_next | (first | (intro _ hk; have := hk.queue) | (intro _ _ hk; have := hk.queue) | (intro _ _ _ hk; have := hk.queue); clear this) | with_reducible apply adm_kept | with_reducible apply cmdExportSaved_kept)

theorem execAdmDiscardSaved_kept (fn : Master) (pkt : Packet) (s : State) (hs : Kept qs os s) :
    ResKept qs os (execAdmDiscardSaved fn pkt s) := by
  unfold execAdmDiscardSaved
  repeat' (first | with_reducible assumption | with_reducible apply resKept_next | (first | (intro _ hk; have := hk.queue) | (intro _ _ hk; have := hk.queue) | (intro _ _ _ hk; have := hk.queue); clear this) | with_reducible apply adm_kept | with_reducible apply cmdDiscardSaved_kept)

theorem execAdmClauseTune_kept (fn : Master) (pkt : Packet) (s : State) (hs : Kept qs os s) :
    ResKept qs os (execAdmClauseTune fn pkt s) := by
  unfold execAdmClauseTune
  repeat' (first | with_reducible assumption | with_reducible apply resKept_next | (first | (intro _ hk; have := hk.queue) | (intro _ _ hk; have := hk.queue) | (intro _ _ _ hk; have := hk.queue); clear this) | with_reducible apply adm_kept | with_reducible apply cmdClauseTune_kept)

theorem execAdmSqCreate_kept (fn : Master) (pkt : Packet) (s : State) (hs : Kept qs os s) :
    ResKept qs os (execAdmSqCreate fn pkt s) := by
  unfold execAdmSqCreate
  repeat' (first | with_reducible assumption | with_reducible apply resKept_next | (first | (intro _ hk; have := hk.queue) | (intro _ _ hk; have := hk.queue) | (intro _ _ _ hk; have := hk.queue); clear this) | with_reducible apply adm_kept | with_reducible apply cmdSqCreate_kept)

theorem execAdmSqDelete_kept (fn : Master) (pkt : Packet) (s : State) (hs : Kept qs os s) :
    ResKept qs os (execAdmSqDelete fn pkt s) := by
  unfold execAdmSqDelete
  repeat' (first | with_reducible assumption | with_reducible apply resKept_next | (first | (intro _ hk; have := hk.queue) | (intro _ _ hk; have := hk.queue) | (intro _ _ _ hk; have := hk.queue); clear this) | with_reducible apply adm_kept | with_reducible apply cmdSqDelete_kept)

theorem execAdmSqQuery_kept (fn : Master) (pkt : Packet) (s : State) (hs : Kept qs os s) :
    ResKept qs os (execAdmSqQuery fn pkt s) := by
  unfold execAdmSqQuery
  repeat' (first | with_reducible assumption | with_reducible apply resKept_next | (first | (intro _ hk; have := hk.queue) | (intro _ _ hk; have := hk.queue) | (intro _ _ _ hk; have := hk.queue); clear this) | with_reducible apply adm_kept | with_reducible apply cmdSqQuery_kept)

theorem execAdmEventRoute_kept (fn : Master) (pkt : Packet) (s : State) (hs : Kept qs os s) :
    ResKept qs os (execAdmEventRoute fn pkt s) := by
  unfold execAdmEventRoute
  repeat' (first | with_reducible assumption | with_reducible apply resKept_next | (first | (intro _ hk; have := hk.queue) | (intro _ _ hk; have := hk.queue) | (intro _ _ _ hk; have := hk.queue); clear this) | with_reducible apply adm_kept | with_reducible apply cmdEventRoute_kept)

theorem execAdmMbxBind_kept (fn : Master) (pkt : Packet) (s : State) (hs : Kept qs os s) :
    ResKept qs os (execAdmMbxBind fn pkt s) := by
  unfold execAdmMbxBind
  repeat' (first | with_reducible assumption | with_reducible apply resKept_next | (first | (intro _ hk; have := hk.queue) | (intro _ _ hk; have := hk.queue) | (intro _ _ _ hk; have := hk.queue); clear this) | with_reducible apply adm_kept | with_reducible apply cmdMbxBind_kept)

theorem execAdmKeyImport_kept (fn : Master) (pkt : Packet) (s : State) (hs : Kept qs os s) :
    ResKept qs os (execAdmKeyImport fn pkt s) := by
  unfold execAdmKeyImport
  repeat' (first | with_reducible assumption | with_reducible apply resKept_next | (first | (intro _ hk; have := hk.queue) | (intro _ _ hk; have := hk.queue) | (intro _ _ _ hk; have := hk.queue); clear this) | with_reducible apply adm_kept | with_reducible apply cmdKeyImport_kept)

theorem execAdmKeyErase_kept (fn : Master) (pkt : Packet) (s : State) (hs : Kept qs os s) :
    ResKept qs os (execAdmKeyErase fn pkt s) := by
  unfold execAdmKeyErase
  repeat' (first | with_reducible assumption | with_reducible apply resKept_next | (first | (intro _ hk; have := hk.queue) | (intro _ _ hk; have := hk.queue) | (intro _ _ _ hk; have := hk.queue); clear this) | with_reducible apply adm_kept | with_reducible apply cmdKeyErase_kept)

theorem execAdmKeyInfo_kept (fn : Master) (pkt : Packet) (s : State) (hs : Kept qs os s) :
    ResKept qs os (execAdmKeyInfo fn pkt s) := by
  unfold execAdmKeyInfo
  repeat' (first | with_reducible assumption | with_reducible apply resKept_next | (first | (intro _ hk; have := hk.queue) | (intro _ _ hk; have := hk.queue) | (intro _ _ _ hk; have := hk.queue); clear this) | with_reducible apply adm_kept | with_reducible apply cmdKeyInfo_kept)

theorem execAdmLifecycleRequest_kept (fn : Master) (pkt : Packet) (s : State) (hs : Kept qs os s) :
    ResKept qs os (execAdmLifecycleRequest fn pkt s) := by
  unfold execAdmLifecycleRequest
  repeat' (first | with_reducible assumption | with_reducible apply resKept_next | (first | (intro _ hk; have := hk.queue) | (intro _ _ hk; have := hk.queue) | (intro _ _ _ hk; have := hk.queue); clear this) | with_reducible apply adm_kept | with_reducible apply cmdLifecycle_kept)

theorem execAdmTwinPair_kept (fn : Master) (pkt : Packet) (s : State) (hs : Kept qs os s) :
    ResKept qs os (execAdmTwinPair fn pkt s) := by
  unfold execAdmTwinPair
  repeat' (first | with_reducible assumption | with_reducible apply resKept_next | (first | (intro _ hk; have := hk.queue) | (intro _ _ hk; have := hk.queue) | (intro _ _ _ hk; have := hk.queue); clear this) | with_reducible apply adm_kept | with_reducible apply cmdTwinPair_kept)

theorem execAdmTwinUnpair_kept (fn : Master) (pkt : Packet) (s : State) (hs : Kept qs os s) :
    ResKept qs os (execAdmTwinUnpair fn pkt s) := by
  unfold execAdmTwinUnpair
  repeat' (first | with_reducible assumption | with_reducible apply resKept_next | (first | (intro _ hk; have := hk.queue) | (intro _ _ hk; have := hk.queue) | (intro _ _ _ hk; have := hk.queue); clear this) | with_reducible apply adm_kept | with_reducible apply cmdTwinUnpair_kept)

theorem execAdmTwinFence_kept (fn : Master) (pkt : Packet) (s : State) (hs : Kept qs os s) :
    ResKept qs os (execAdmTwinFence fn pkt s) := by
  unfold execAdmTwinFence
  repeat' (first | with_reducible assumption | with_reducible apply resKept_next | (first | (intro _ hk; have := hk.queue) | (intro _ _ hk; have := hk.queue) | (intro _ _ _ hk; have := hk.queue); clear this) | with_reducible apply adm_kept | with_reducible apply cmdTwinFence_kept)

theorem execAdmTwinTakeover_kept (fn : Master) (pkt : Packet) (s : State) (hs : Kept qs os s) :
    ResKept qs os (execAdmTwinTakeover fn pkt s) := by
  unfold execAdmTwinTakeover
  repeat' (first | with_reducible assumption | with_reducible apply resKept_next | (first | (intro _ hk; have := hk.queue) | (intro _ _ hk; have := hk.queue) | (intro _ _ _ hk; have := hk.queue); clear this) | with_reducible apply adm_kept | with_reducible apply cmdTwinTakeover_kept)

theorem execAdmTwinStatus_kept (fn : Master) (pkt : Packet) (s : State) (hs : Kept qs os s) :
    ResKept qs os (execAdmTwinStatus fn pkt s) := by
  unfold execAdmTwinStatus
  repeat' (first | with_reducible assumption | with_reducible apply resKept_next | (first | (intro _ hk; have := hk.queue) | (intro _ _ hk; have := hk.queue) | (intro _ _ _ hk; have := hk.queue); clear this) | with_reducible apply adm_kept | with_reducible apply cmdTwinStatus_kept)

theorem execAdmSelfTest_kept (fn : Master) (pkt : Packet) (fails : List (BitVec 4 × Word)) (s : State) (hs : Kept qs os s) :
    ResKept qs os (execAdmSelfTest fn pkt fails s) := by
  unfold execAdmSelfTest
  repeat' (first | with_reducible assumption | with_reducible apply resKept_next | (first | (intro _ hk; have := hk.queue) | (intro _ _ hk; have := hk.queue) | (intro _ _ _ hk; have := hk.queue); clear this) | with_reducible apply adm_kept | with_reducible apply cmdSelfTest_kept)

theorem execAdmLinkTest_kept (fn : Master) (pkt : Packet) (s : State) (hs : Kept qs os s) :
    ResKept qs os (execAdmLinkTest fn pkt s) := by
  unfold execAdmLinkTest
  repeat' (first | with_reducible assumption | with_reducible apply resKept_next | (first | (intro _ hk; have := hk.queue) | (intro _ _ hk; have := hk.queue) | (intro _ _ _ hk; have := hk.queue); clear this) | with_reducible apply adm_kept | with_reducible apply cmdLinkTest_kept)

theorem execAdmLogRead_kept (fn : Master) (pkt : Packet) (s : State) (hs : Kept qs os s) :
    ResKept qs os (execAdmLogRead fn pkt s) := by
  unfold execAdmLogRead
  repeat' (first | with_reducible assumption | with_reducible apply resKept_next | (first | (intro _ hk; have := hk.queue) | (intro _ _ hk; have := hk.queue) | (intro _ _ _ hk; have := hk.queue); clear this) | with_reducible apply adm_kept | with_reducible apply cmdLogRead_kept)

theorem execLinkTestLaunch_kept (s : State) (hs : Kept qs os s) :
    ResKept qs os (execLinkTestLaunch s) := by
  unfold execLinkTestLaunch
  repeat' (first | with_reducible assumption | with_reducible apply resKept_next | with_reducible apply resKept_fault | with_reducible apply resKept_ite | with_reducible apply startTest_kept | with_reducible apply reachTick_kept | with_reducible apply kept_ite | split)

theorem execLinkTestEnd_kept (failed : Word) (s : State) (hs : Kept qs os s) :
    ResKept qs os (execLinkTestEnd failed s) := by
  unfold execLinkTestEnd
  repeat' (first | with_reducible assumption | with_reducible apply resKept_next | with_reducible apply resKept_fault | with_reducible apply resKept_ite | ((fail_if_success (fail_if_success extract_lets)); extract_lets +onlyGivenNames kx; (fail_if_success (have : True := kx)); (first | (refine kept_cut qs os kx ?_ fun _ => ?_; unfold kx; rotate_left; clear_value kx; rotate_right) | (refine kept_cut qs os kx.1 ?_ fun _ => ?_; unfold kx; rotate_left; clear_value kx; rotate_right) | (first | have := (kx : State → _) | have := (kx : Twin) | have := (kx : Mem) | have := (kx : Hu) | have := (kx : Sec); clear this) | clear_value kx); all_goals have kx := True.intro) | with_reducible apply reachTick_kept | with_reducible apply finishHeld_kept | with_reducible apply kept_ite | split | refine kept_upd ?_ rfl rfl rfl rfl rfl rfl rfl rfl rfl rfl rfl rfl)

end Sys2Proof.Machine
end

