-- ==== Sys2Proof/Laws/KeptHostRows.lean ====
section
/-!
SUPPORT. Every function of Machine/HostRows.lean keeps a sound state, the queue and what was sent.
-/

namespace Sys2Proof.Machine

variable {qs : List Instr} {os : List Out}

theorem execDoorbellWrite_kept (fn : Master) (off : BitVec 20) (bytes : List Byte) (env : List HostStore) (s : State) (hs : Kept qs os s) :
    ResKept qs os (execDoorbellWrite fn off bytes env s) := by
  unfold execDoorbellWrite
  repeat' (first | with_reducible assumption | with_reducible apply resKept_next | with_reducible apply hostRequest_kept | with_reducible apply hostStores_kept)

theorem execBar0Access_kept (fn : Master) (acc : BarAccess) (env : List HostStore) (s : State) (hs : Kept qs os s) :
    ResKept qs os (execBar0Access fn acc env s) := by
  unfold execBar0Access
  repeat' (first | with_reducible assumption | with_reducible apply resKept_next | with_reducible apply hostRequest_kept | with_reducible apply hostStores_kept)

theorem execBar2Access_kept (fn : Master) (acc : BarAccess) (env : List HostStore) (s : State) (hs : Kept qs os s) :
    ResKept qs os (execBar2Access fn acc env s) := by
  unfold execBar2Access
  repeat' (first | with_reducible assumption | with_reducible apply resKept_next | with_reducible apply hostRequest_kept | with_reducible apply hostStores_kept)

theorem execHfAdmCfgWrite_kept (fn : Master) (v : Word) (s : State) (hs : Kept qs os s) :
    ResKept qs os (execHfAdmCfgWrite fn v s) := by
  unfold execHfAdmCfgWrite
  repeat' (first | with_reducible assumption | with_reducible apply resKept_next | with_reducible apply hostRequest_kept)

theorem execHfAdmSqTailWrite_kept (fn : Master) (v : Word) (env : List HostStore) (s : State) (hs : Kept qs os s) :
    ResKept qs os (execHfAdmSqTailWrite fn v env s) := by
  unfold execHfAdmSqTailWrite
  repeat' (first | with_reducible assumption | with_reducible apply resKept_next | with_reducible apply hostRequest_kept | with_reducible apply hostStores_kept)

theorem execHfAdmRqHeadWrite_kept (fn : Master) (v : Word) (s : State) (hs : Kept qs os s) :
    ResKept qs os (execHfAdmRqHeadWrite fn v s) := by
  unfold execHfAdmRqHeadWrite
  repeat' (first | with_reducible assumption | with_reducible apply resKept_next | with_reducible apply hostRequest_kept)

theorem execHfSqHeadWrite_kept (fn : Master) (n : BitVec 12) (v : Word) (s : State) (hs : Kept qs os s) :
    ResKept qs os (execHfSqHeadWrite fn n v s) := by
  unfold execHfSqHeadWrite
  repeat' (first | with_reducible assumption | with_reducible apply resKept_next | with_reducible apply hostRequest_kept)

theorem execHfModWrite_kept (fn : Master) (n : BitVec 11) (v : Word) (s : State) (hs : Kept qs os s) :
    ResKept qs os (execHfModWrite fn n v s) := by
  unfold execHfModWrite
  repeat' (first | with_reducible assumption | with_reducible apply resKept_next | with_reducible apply hostRequest_kept | with_reducible apply kept_ite)

theorem execModerationTimerExpiry_kept (fn : Master) (n : BitVec 11) (s : State) (hs : Kept qs os s) :
    ResKept qs os (execModerationTimerExpiry fn n s) := by
  unfold execModerationTimerExpiry
  repeat' (first | with_reducible assumption | with_reducible apply resKept_next | with_reducible apply modTimer_kept)

theorem execVectorUnmask_kept (fn : Master) (n : BitVec 11) (s : State) (hs : Kept qs os s) :
    ResKept qs os (execVectorUnmask fn n s) := by
  unfold execVectorUnmask
  repeat' (first | with_reducible assumption | with_reducible apply resKept_next | with_reducible apply hostRequest_kept | with_reducible apply kept_ite)

theorem execAspmL1Entry_kept (link : Bool) (s : State) (hs : Kept qs os s) :
    ResKept qs os (execAspmL1Entry link s) := by
  unfold execAspmL1Entry
  repeat' (first | with_reducible assumption | with_reducible apply resKept_next | ((fail_if_success (fail_if_success extract_lets)); extract_lets +onlyGivenNames kx; (fail_if_success (have : True := kx)); clear_value kx; all_goals have kx := True.intro) | with_reducible apply kept_ite | refine kept_upd ?_ rfl rfl rfl rfl rfl rfl rfl rfl rfl rfl rfl rfl)

theorem execD3hotEntry_kept (pf : Bool) (s : State) (hs : Kept qs os s) :
    ResKept qs os (execD3hotEntry pf s) := by
  unfold execD3hotEntry
  repeat' (first | with_reducible assumption | with_reducible apply resKept_next | with_reducible apply hostRequest_kept)

theorem execD0Entry_kept (pf : Bool) (s : State) (hs : Kept qs os s) :
    ResKept qs os (execD0Entry pf s) := by
  unfold execD0Entry
  repeat' (first | with_reducible assumption | with_reducible apply resKept_next | with_reducible apply hostRequest_kept)

theorem execConfigSpaceWrite_kept (fn : Master) (w : CfgWrite) (s : State) (hs : Kept qs os s) :
    ResKept qs os (execConfigSpaceWrite fn w s) := by
  unfold execConfigSpaceWrite
  repeat' (first | with_reducible assumption | with_reducible apply resKept_next | with_reducible apply hostRequest_kept)

theorem twinRead_kept (s : State) (off : Nat) (hs : Kept qs os s) :
    Kept qs os (twinRead s off).2 := by
  unfold twinRead
  repeat' (first | with_reducible assumption | with_reducible apply regRead_kept | with_reducible apply ro_kept | with_reducible apply kept_ite_snd)

theorem twinWrite_kept (s : State) (off : Nat) (v : Word) (hs : Kept qs os s) :
    Kept qs os (twinWrite s off v) := by
  unfold twinWrite
  repeat' (first | with_reducible assumption | with_reducible apply regWrite_kept | with_reducible apply reject_kept | with_reducible apply kept_ite | split)

theorem execRegisterWrite_kept (who : Master) (off : BitVec 22) (v : Word) (s : State) (hs : Kept qs os s) :
    ResKept qs os (execRegisterWrite who off v s) := by
  unfold execRegisterWrite
  repeat' (first | with_reducible assumption | with_reducible apply resKept_next | with_reducible apply regWrite_kept | with_reducible apply hostRequest_kept | with_reducible apply twinWrite_kept | with_reducible apply kept_ite)

theorem readBy_kept (s : State) (who : Master) (off : Nat) (hs : Kept qs os s) :
    Kept qs os (readBy s who off) := by
  unfold readBy
  dsimp only
  repeat' (first | with_reducible assumption | with_reducible apply emit_kept | with_reducible apply regRead_kept | with_reducible apply hostRequest_kept | with_reducible apply twinRead_kept | with_reducible apply kept_ite)

theorem execTimeTickLoRead_kept (who : Master) (off : BitVec 22) (s : State) (hs : Kept qs os s) :
    ResKept qs os (execTimeTickLoRead who off s) := by
  unfold execTimeTickLoRead
  repeat' (first | with_reducible assumption | with_reducible apply resKept_next | with_reducible apply readBy_kept)

theorem execCounterReadClear_kept (who : Master) (off : BitVec 22) (s : State) (hs : Kept qs os s) :
    ResKept qs os (execCounterReadClear who off s) := by
  unfold execCounterReadClear
  repeat' (first | with_reducible assumption | with_reducible apply resKept_next | with_reducible apply readBy_kept)

theorem execQuadConfigWrite_kept (who : Master) (q : BitVec 5) (v : Word) (s : State) (hs : Kept qs os s) :
    ResKept qs os (execQuadConfigWrite who q v s) := by
  unfold execQuadConfigWrite
  repeat' (first | with_reducible assumption | with_reducible apply execRegisterWrite_kept)

theorem execTwRegReq_kept (param : Dword) (body : List Byte) (s : State) (hs : Kept qs os s) :
    ResKept qs os (execTwRegReq param body s) := by
  unfold execTwRegReq
  extract_lets off
  refine onLink_kept _ _ hs fun t ht => ?_
  split
  · exact twinSend_kept _ _ (twinWrite_kept _ _ _ ht)
  · exact twinSend_kept _ _ (twinRead_kept _ _ ht)

theorem execTwHandback_kept (who : Master) (v : Word) (s : State) (hs : Kept qs os s) :
    ResKept qs os (execTwHandback who v s) := by
  unfold execTwHandback
  repeat' (first | with_reducible assumption | with_reducible apply execRegisterWrite_kept)

theorem execCpRbld_kept (w : Word) (s : State) (hs : Kept qs os s) :
    ResKept qs os (execCpRbld w s) := by
  unfold execCpRbld
  repeat' (first | with_reducible assumption | with_reducible apply resKept_next | (first | (intro _ hk; have := hk.queue) | (intro _ _ hk; have := hk.queue) | (intro _ _ _ hk; have := hk.queue); clear this) | ((fail_if_success (fail_if_success extract_lets)); extract_lets +onlyGivenNames kx; (fail_if_success (have : True := kx)); (first | (refine kept_cut qs os kx.2 ?_ fun _ => ?_; unfold kx; rotate_left; clear_value kx; rotate_right) | clear_value kx); all_goals have kx := True.intro) | with_reducible apply issueCp_kept | with_reducible apply regRead_kept | with_reducible apply done_kept | split | with_reducible apply effKept_trap)

theorem execCpRbst_kept (w : Word) (s : State) (hs : Kept qs os s) :
    ResKept qs os (execCpRbst w s) := by
  unfold execCpRbst
  repeat' (first | with_reducible assumption | with_reducible apply resKept_next | (first | (intro _ hk; have := hk.queue) | (intro _ _ hk; have := hk.queue) | (intro _ _ _ hk; have := hk.queue); clear this) | ((fail_if_success (fail_if_success extract_lets)); extract_lets +onlyGivenNames kx; (fail_if_success (have : True := kx)); clear_value kx; all_goals have kx := True.intro) | with_reducible apply issueCp_kept | with_reducible apply done_kept | with_reducible apply regWrite_kept | split | with_reducible apply effKept_trap)

theorem execHostLinkUp_kept (link : Bool) (rate : BitVec 3) (width : BitVec 5) (flit : Bool) (s : State) (hs : Kept qs os s) :
    ResKept qs os (execHostLinkUp link rate width flit s) := by
  unfold execHostLinkUp
  repeat' (first | with_reducible assumption | with_reducible apply resKept_next | with_reducible apply resKept_fault | with_reducible apply resKept_ite | ((fail_if_success (fail_if_success extract_lets)); extract_lets +onlyGivenNames kx; (fail_if_success (have : True := kx)); (first | (refine kept_cut qs os kx ?_ fun _ => ?_; unfold kx; rotate_left; clear_value kx; rotate_right) | (refine kept_cut qs os kx.1 ?_ fun _ => ?_; unfold kx; rotate_left; clear_value kx; rotate_right) | (first | have := (kx : State → _) | have := (kx : Twin) | have := (kx : Mem) | have := (kx : Hu) | have := (kx : Sec); clear this) | clear_value kx); all_goals have kx := True.intro) | with_reducible apply busMasterOn_kept | (first | (intro _ hk; have := hk.queue) | (intro _ _ hk; have := hk.queue) | (intro _ _ _ hk; have := hk.queue); clear this) | intro _ | (with_reducible apply kept_foldl; intro _ _ _) | with_reducible apply kept_ite | split | refine kept_upd ?_ rfl rfl rfl rfl rfl rfl rfl rfl rfl rfl rfl rfl)

theorem execHostLinkDown_kept (link : Bool) (s : State) (hs : Kept qs os s) :
    ResKept qs os (execHostLinkDown link s) := by
  unfold execHostLinkDown
  repeat' (first | with_reducible assumption | with_reducible apply resKept_next | with_reducible apply linkFalls_kept)

end Sys2Proof.Machine
end

