-- ==== Sys2Proof/Laws/KeptResetRows.lean ====
section
/-!
SUPPORT. Every function of Machine/ResetRows.lean keeps a sound state, the queue and what was sent.
-/

namespace Sys2Proof.Machine

variable {qs : List Instr} {os : List Out}

theorem onPulse_kept (ns recognised ignored : Nat) (s t : State) (hs : Kept qs os s) (ht : Kept qs os t) :
    ResKept qs os (onPulse ns recognised ignored s t) := by
  unfold onPulse
  repeat' (first | with_reducible assumption | with_reducible apply resKept_next | with_reducible apply resKept_fault | with_reducible apply resKept_ite)

theorem execPowerOnReset_kept (straps : Straps) (s : State) (hs : Kept qs os s) : ResKept qs os (execPowerOnReset straps s) :=
  resKept_next (powerOn_kept _
    ⟨nil_canon, hs.loc, hs.tcm, hs.host, hs.twin, hs.before, hs.link, hs.bus, hs.level, hs.asked, hs.queue, hs.sent⟩)

theorem execResetN_kept (ns : BitVec 32) (s : State) (hs : Kept qs os s) :
    ResKept qs os (execResetN ns s) := by
  unfold execResetN
  repeat' (first | with_reducible assumption | with_reducible apply onPulse_kept | with_reducible apply takeReset_kept | refine kept_upd ?_ rfl rfl rfl rfl rfl rfl rfl rfl rfl rfl rfl rfl)

theorem execResetNRelease_kept (s : State) (hs : Kept qs os s) :
    ResKept qs os (execResetNRelease s) := by
  unfold execResetNRelease
  repeat' (first | with_reducible assumption | with_reducible apply resKept_next | with_reducible apply bootRun_kept | refine kept_upd ?_ rfl rfl rfl rfl rfl rfl rfl rfl rfl rfl rfl rfl)

theorem drainCut_kept (s : State) (hs : Kept qs os s) :
    Kept qs os (drainCut s) := by
  unfold drainCut
  repeat' (first | with_reducible assumption | with_reducible apply cutSave_kept | split)

theorem execRailLoss_kept (s : State) (hs : Kept qs os s) :
    ResKept qs os (execRailLoss s) := by
  unfold execRailLoss
  repeat' (first | with_reducible assumption | with_reducible apply resKept_next | with_reducible apply resKept_fault | with_reducible apply resKept_ite | ((fail_if_success (fail_if_success extract_lets)); extract_lets +onlyGivenNames kx; (fail_if_success (have : True := kx)); (first | (refine kept_cut qs os kx ?_ fun _ => ?_; unfold kx; rotate_left; clear_value kx; rotate_right) | (refine kept_cut qs os kx.1 ?_ fun _ => ?_; unfold kx; rotate_left; clear_value kx; rotate_right) | (first | have := (kx : State → _) | have := (kx : Twin) | have := (kx : Mem) | have := (kx : Hu) | have := (kx : Sec); clear this) | clear_value kx); all_goals have kx := True.intro) | with_reducible apply drainCut_kept | with_reducible apply shedHost_kept | with_reducible apply shed_kept | with_reducible apply holdInReset_kept | with_reducible apply kept_ite | split | refine kept_upd ?_ rfl rfl rfl rfl rfl rfl rfl rfl rfl rfl rfl rfl)

theorem execBusReturnToHvIn_kept (s : State) (hs : Kept qs os s) :
    ResKept qs os (execBusReturnToHvIn s) := by
  unfold execBusReturnToHvIn
  repeat' (first | with_reducible assumption | with_reducible apply resKept_next | with_reducible apply busReturns_kept | with_reducible apply kept_ite)

theorem execDrainEnd_kept (s : State) (hs : Kept qs os s) :
    ResKept qs os (execDrainEnd s) := by
  unfold execDrainEnd
  repeat' (first | with_reducible assumption | with_reducible apply resKept_next | with_reducible apply drainDone_kept)

theorem execDevicePerst_kept (ns : BitVec 32) (s : State) (hs : Kept qs os s) :
    ResKept qs os (execDevicePerst ns s) := by
  unfold execDevicePerst
  repeat' (first | with_reducible assumption | with_reducible apply onPulse_kept | with_reducible apply takeReset_kept | refine kept_upd ?_ rfl rfl rfl rfl rfl rfl rfl rfl rfl rfl rfl rfl)

theorem linkPerst_kept (s : State) (b : Bool) (hs : Kept qs os s) :
    Kept qs os (linkPerst s b) := by
  unfold linkPerst
  repeat' (first | with_reducible assumption | ((fail_if_success (fail_if_success extract_lets)); extract_lets +onlyGivenNames kx; (fail_if_success (have : True := kx)); (first | (refine kept_cut qs os kx ?_ fun _ => ?_; unfold kx; rotate_left; clear_value kx; rotate_right) | clear_value kx); all_goals have kx := True.intro) | with_reducible apply flr_kept | with_reducible apply linkFalls_kept | with_reducible apply kept_ite | refine kept_upd ?_ rfl rfl rfl rfl rfl rfl rfl rfl rfl rfl rfl rfl)

theorem execLinkPerst_kept (link : Bool) (ns : BitVec 32) (s : State) (hs : Kept qs os s) :
    ResKept qs os (execLinkPerst link ns s) := by
  unfold execLinkPerst
  repeat' (first | with_reducible assumption | with_reducible apply onPulse_kept | with_reducible apply linkPerst_kept)

theorem execPerstDeassert_kept (link : Bool) (s : State) (hs : Kept qs os s) :
    ResKept qs os (execPerstDeassert link s) := by
  unfold execPerstDeassert
  repeat' (first | with_reducible assumption | with_reducible apply resKept_next | with_reducible apply kept_ite | refine kept_upd ?_ rfl rfl rfl rfl rfl rfl rfl rfl rfl rfl rfl rfl)

theorem execFunctionLevelReset_kept (fn : Master) (s : State) (hs : Kept qs os s) :
    ResKept qs os (execFunctionLevelReset fn s) := by
  unfold execFunctionLevelReset
  repeat' (first | with_reducible assumption | with_reducible apply resKept_next | with_reducible apply resKept_fault | with_reducible apply resKept_ite | with_reducible apply hostRequest_kept | with_reducible apply flr_kept | with_reducible apply kept_ite | split)

theorem execEngineReset_kept (who : Master) (v : Word) (s : State) (hs : Kept qs os s) :
    ResKept qs os (execEngineReset who v s) := by
  unfold execEngineReset
  repeat' (first | with_reducible assumption | with_reducible apply execRegisterWrite_kept)

theorem execWatchdogKick_kept (who : Master) (v : Word) (s : State) (hs : Kept qs os s) :
    ResKept qs os (execWatchdogKick who v s) := by
  unfold execWatchdogKick
  repeat' (first | with_reducible assumption | with_reducible apply execRegisterWrite_kept)

theorem execWatchdogExpiry_kept (s : State) (hs : Kept qs os s) :
    ResKept qs os (execWatchdogExpiry s) := by
  unfold execWatchdogExpiry
  repeat' (first | with_reducible assumption | with_reducible apply resKept_next | with_reducible apply takeReset_kept | with_reducible apply kept_ite)

theorem execControlProcessorFault_kept (s : State) (hs : Kept qs os s) :
    ResKept qs os (execControlProcessorFault s) := by
  unfold execControlProcessorFault
  repeat' (first | with_reducible assumption | with_reducible apply resKept_next | with_reducible apply cpFault_kept | with_reducible apply kept_ite)

theorem execFirmwareReady_kept (a b : Image) (s : State) (hs : Kept qs os s) :
    ResKept qs os (execFirmwareReady a b s) := by
  unfold execFirmwareReady
  repeat' (first | with_reducible assumption | with_reducible apply resKept_next | ((fail_if_success (fail_if_success extract_lets)); extract_lets +onlyGivenNames kx; (fail_if_success (have : True := kx)); (refine kept_cut qs os kx ?_ fun _ => ?_; unfold kx; rotate_left; clear_value kx; rotate_right); all_goals have kx := True.intro) | with_reducible apply bootImage_kept | with_reducible apply applyHeldAdm_kept | with_reducible apply firmwareStarts_kept | with_reducible apply kept_ite)

theorem execTempSensorRead_kept (logic dram holdup : Byte) (s : State) (hs : Kept qs os s) :
    ResKept qs os (execTempSensorRead logic dram holdup s) := by
  unfold execTempSensorRead
  repeat' (first | with_reducible assumption | with_reducible apply resKept_next | refine kept_upd ?_ rfl rfl rfl rfl rfl rfl rfl rfl rfl rfl rfl rfl)

theorem execThermtrip_kept (logic dram holdup : BitVec 9) (s : State) (hs : Kept qs os s) :
    ResKept qs os (execThermtrip logic dram holdup s) := by
  unfold execThermtrip
  repeat' (first | with_reducible assumption | with_reducible apply resKept_next | refine kept_upd ?_ rfl rfl rfl rfl rfl rfl rfl rfl rfl rfl rfl rfl)

end Sys2Proof.Machine
end

