-- ==== Sys2Proof/Laws/KeptEventRows.lean ====
section
/-!
SUPPORT. Every function of Machine/EventRows.lean keeps a sound state, the queue and what was sent.
-/

namespace Sys2Proof.Machine

variable {qs : List Instr} {os : List Out}

theorem execCjInputEdge_kept (n : Byte) (s : State) (hs : Kept qs os s) :
    ResKept qs os (execCjInputEdge n s) := by
  unfold execCjInputEdge
  repeat' (first | with_reducible assumption | with_reducible apply resKept_next | with_reducible apply resKept_fault | with_reducible apply resKept_ite | with_reducible apply cjEdge_kept | with_reducible apply kept_ite | split | refine kept_upd ?_ rfl rfl rfl rfl rfl rfl rfl rfl rfl rfl rfl rfl)

theorem execConjunctionAct_kept (n : Byte) (k : BitVec 3) (s : State) (hs : Kept qs os s) :
    ResKept qs os (execConjunctionAct n k s) := by
  unfold execConjunctionAct
  repeat' (first | with_reducible assumption | with_reducible apply resKept_next | with_reducible apply afterWake_kept | with_reducible apply applyAct_kept | split | refine kept_upd ?_ rfl rfl rfl rfl rfl rfl rfl rfl rfl rfl rfl rfl)

theorem execInhibitDisarm_kept (n : Byte) (s : State) (hs : Kept qs os s) :
    ResKept qs os (execInhibitDisarm n s) := by
  unfold execInhibitDisarm
  repeat' (first | with_reducible assumption | with_reducible apply resKept_next | with_reducible apply resKept_fault | with_reducible apply resKept_ite | with_reducible apply modCj_kept | (first | (intro _ hk; have := hk.queue) | (intro _ _ hk; have := hk.queue) | (intro _ _ _ hk; have := hk.queue); clear this) | intro _ | with_reducible apply kept_ite | split | refine kept_upd ?_ rfl rfl rfl rfl rfl rfl rfl rfl rfl rfl rfl rfl)

theorem execGpioInputEdge_kept (pin : BitVec 4) (high : Bool) (ns : BitVec 32) (s : State) (hs : Kept qs os s) :
    ResKept qs os (execGpioInputEdge pin high ns s) := by
  unfold execGpioInputEdge
  extract_lets t
  have h : Kept qs os t := withPins_kept _ _ hs fun _ h => kept_upd h rfl rfl rfl rfl rfl rfl rfl rfl rfl rfl rfl rfl
  clear_value t
  split
  · exact onPulse_kept _ _ _ _ _ hs h
  · exact resKept_next h

theorem mbxRefused_kept (s : State) (who : Master) (hs : Kept qs os s) :
    Kept qs os (mbxRefused s who) := by
  unfold mbxRefused
  repeat' (first | with_reducible assumption | with_reducible apply reject_kept | with_reducible apply kept_ite | split)

theorem execMbxPost_kept (who : Master) (m : BitVec 6) (s : State) (hs : Kept qs os s) :
    ResKept qs os (execMbxPost who m s) := by
  unfold execMbxPost
  repeat' (first | with_reducible assumption | with_reducible apply resKept_next | with_reducible apply resKept_fault | with_reducible apply resKept_ite | ((fail_if_success (fail_if_success extract_lets)); extract_lets +onlyGivenNames kx; (fail_if_success (have : True := kx)); (first | (refine kept_cut qs os kx ?_ fun _ => ?_; unfold kx; rotate_left; clear_value kx; rotate_right) | (refine kept_cut qs os kx.1 ?_ fun _ => ?_; unfold kx; rotate_left; clear_value kx; rotate_right) | (first | have := (kx : State → _) | have := (kx : Twin) | have := (kx : Mem) | have := (kx : Hu) | have := (kx : Sec); clear this) | clear_value kx); all_goals have kx := True.intro) | with_reducible apply hostRequest_kept | with_reducible apply afterWake_kept | with_reducible apply mbxPostWake_kept | with_reducible apply ceData_kept | with_reducible apply mbxRefused_kept | with_reducible apply kept_ite | split)

theorem execMbxAck_kept (who : Master) (m : BitVec 6) (s : State) (hs : Kept qs os s) :
    ResKept qs os (execMbxAck who m s) := by
  unfold execMbxAck
  repeat' (first | with_reducible assumption | with_reducible apply resKept_next | with_reducible apply resKept_fault | with_reducible apply resKept_ite | ((fail_if_success (fail_if_success extract_lets)); extract_lets +onlyGivenNames kx; (fail_if_success (have : True := kx)); (first | (refine kept_cut qs os kx ?_ fun _ => ?_; unfold kx; rotate_left; clear_value kx; rotate_right) | (refine kept_cut qs os kx.1 ?_ fun _ => ?_; unfold kx; rotate_left; clear_value kx; rotate_right) | (first | have := (kx : State → _) | have := (kx : Twin) | have := (kx : Mem) | have := (kx : Hu) | have := (kx : Sec); clear this) | clear_value kx); all_goals have kx := True.intro) | with_reducible apply hostRequest_kept | with_reducible apply mbxAckOp_kept | with_reducible apply mbxRefused_kept | with_reducible apply kept_ite | split)

theorem execWaitTimeout_kept (prn : PrnNum) (s : State) (hs : Kept qs os s) :
    ResKept qs os (execWaitTimeout prn s) := by
  unfold execWaitTimeout
  repeat' (first | with_reducible assumption | with_reducible apply resKept_next | with_reducible apply expireWait_kept | with_reducible apply holdAct_kept | with_reducible apply reachTick_kept | with_reducible apply kept_ite | split)

theorem execWakeInFall_kept (ns : BitVec 32) (s : State) (hs : Kept qs os s) :
    ResKept qs os (execWakeInFall ns s) := by
  unfold execWakeInFall
  repeat' (first | with_reducible assumption | with_reducible apply onPulse_kept | with_reducible apply afterWake_kept | with_reducible apply wakeSource_kept | with_reducible apply kept_ite)

theorem execWakeTimerExpiry_kept (s : State) (hs : Kept qs os s) :
    ResKept qs os (execWakeTimerExpiry s) := by
  unfold execWakeTimerExpiry
  repeat' (first | with_reducible assumption | with_reducible apply resKept_next | with_reducible apply resKept_fault | with_reducible apply resKept_ite | with_reducible apply afterWake_kept | with_reducible apply wakeSource_kept | with_reducible apply kept_ite | split)

theorem execDeepSleepPrereqMet_kept (s : State) (hs : Kept qs os s) :
    ResKept qs os (execDeepSleepPrereqMet s) := by
  unfold execDeepSleepPrereqMet
  repeat' (first | with_reducible assumption | with_reducible apply resKept_next | with_reducible apply resKept_fault | with_reducible apply resKept_ite | with_reducible apply commitDeep_kept | with_reducible apply kept_ite | split)

theorem execD3WaitTimeout_kept (s : State) (hs : Kept qs os s) :
    ResKept qs os (execD3WaitTimeout s) := by
  unfold execD3WaitTimeout
  repeat' (first | with_reducible assumption | with_reducible apply resKept_next | with_reducible apply resKept_fault | with_reducible apply resKept_ite | with_reducible apply abandonSleep_kept | with_reducible apply kept_ite | split)

end Sys2Proof.Machine
end

