-- ==== Sys2Proof/Laws/KeptIdle.lean ====
section
/-!
SUPPORT. Every function of Machine/Idle.lean keeps a sound state, the queue and what was sent.
-/

namespace Sys2Proof.Machine

variable {qs : List Instr} {os : List Out}

theorem countTick_kept (s : State) (hs : Kept qs os s) :
    Kept qs os (countTick s) := by
  unfold countTick
  repeat' (first | with_reducible assumption | split | refine kept_upd ?_ rfl rfl rfl rfl rfl rfl rfl rfl rfl rfl rfl rfl)

theorem logTick_kept (s : State) (hs : Kept qs os s) :
    Kept qs os (logTick s) := by
  unfold logTick
  repeat' (first | with_reducible assumption | with_reducible apply logFlush_kept | with_reducible apply kept_ite)

theorem standbyTick_kept (s : State) (hs : Kept qs os s) :
    Kept qs os (standbyTick s) := by
  unfold standbyTick
  repeat' (first | with_reducible assumption | ((fail_if_success (fail_if_success extract_lets)); extract_lets +onlyGivenNames kx; (fail_if_success (have : True := kx)); (first | (refine kept_cut qs os kx ?_ fun _ => ?_; unfold kx; rotate_left; clear_value kx; rotate_right) | (refine kept_cut qs os kx.1 ?_ fun _ => ?_; unfold kx; rotate_left; clear_value kx; rotate_right) | (first | have := (kx : State → _) | have := (kx : Twin) | have := (kx : Mem) | have := (kx : Hu) | have := (kx : Sec); clear this) | clear_value kx); all_goals have kx := True.intro) | with_reducible apply commitStandby_kept | with_reducible apply kept_ite | split | refine kept_upd ?_ rfl rfl rfl rfl rfl rfl rfl rfl rfl rfl rfl rfl)

theorem idleTick_kept (s : State) (hs : Kept qs os s) :
    Kept qs os (idleTick s) := by
  unfold idleTick
  repeat' (first | with_reducible assumption | ((fail_if_success (fail_if_success extract_lets)); extract_lets +onlyGivenNames kx; (fail_if_success (have : True := kx)); (first | (refine kept_cut qs os kx ?_ fun _ => ?_; unfold kx; rotate_left; clear_value kx; rotate_right) | (refine kept_cut qs os kx.1 ?_ fun _ => ?_; unfold kx; rotate_left; clear_value kx; rotate_right) | (first | have := (kx : State → _) | have := (kx : Twin) | have := (kx : Mem) | have := (kx : Hu) | have := (kx : Sec); clear this) | clear_value kx); all_goals have kx := True.intro) | with_reducible apply standbyTick_kept | with_reducible apply pulsesTick_kept | with_reducible apply logTick_kept | with_reducible apply countTick_kept | with_reducible apply icCloseWindows_kept | with_reducible apply kept_ite | split)

end Sys2Proof.Machine
end

