-- ==== Sys2Proof/Laws/KeptLinkRows.lean ====
section
/-!
SUPPORT. Every function of Machine/LinkRows.lean keeps a sound state, the queue and what was sent.
-/

namespace Sys2Proof.Machine

variable {qs : List Instr} {os : List Out}

theorem recreate_kept (s : State) (q p : Nat) (d : DeviceInfo) (hs : Kept qs os s) :
    Kept qs os (recreate s q p d) := by
  exact modPP_kept _ _ _ _ (kept_foldl (fun _ _ h => clearRing_kept _ _ h) (kept_foldl (fun _ _ h => clearPair_kept _ _ h) hs))

theorem setUp_kept (s : State) (q p : Nat) (d : DeviceInfo) (bars : List (Nat × Nat × Nat)) (hs : Kept qs os s) :
    Kept qs os (setUp s q p d bars) := by
  unfold setUp
  repeat' (first | with_reducible assumption | (first | (intro _ hk; have := hk.queue) | (intro _ _ hk; have := hk.queue) | (intro _ _ _ hk; have := hk.queue); clear this) | intro _ | with_reducible apply emit_kept | (with_reducible apply kept_foldl; intro _ _ _))

theorem enumerated_kept (s : State) (q p : Nat) (l : LinkUp) (hs : Kept qs os s) :
    Kept qs os (enumerated s q p l) := by
  unfold enumerated
  repeat' (first | with_reducible assumption | (first | (intro _ hk; have := hk.queue) | (intro _ _ hk; have := hk.queue) | (intro _ _ _ hk; have := hk.queue); clear this) | intro _ | ((fail_if_success (fail_if_success extract_lets)); extract_lets +onlyGivenNames kx; (fail_if_success (have : True := kx)); (first | (refine kept_cut qs os kx ?_ fun _ => ?_; unfold kx; rotate_left; clear_value kx; rotate_right) | (refine kept_cut qs os kx.1 ?_ fun _ => ?_; unfold kx; rotate_left; clear_value kx; rotate_right) | (first | have := (kx : State → _) | have := (kx : Twin) | have := (kx : Mem) | have := (kx : Hu) | have := (kx : Sec); clear this) | clear_value kx); all_goals have kx := True.intro) | with_reducible apply portLeaves_kept | with_reducible apply modPort_kept | with_reducible apply adminStart_kept | with_reducible apply setLinkState_kept | with_reducible apply recreate_kept | with_reducible apply setUp_kept | with_reducible apply kept_ite | split | refine kept_upd ?_ rfl rfl rfl rfl rfl rfl rfl rfl rfl rfl rfl rfl)

theorem portUpStep_kept (s : State) (q p : Nat) (l : LinkUp) (hs : Kept qs os s) :
    Kept qs os (portUpStep s q p l) := by
  unfold portUpStep
  repeat' (first | with_reducible assumption | ((fail_if_success (fail_if_success extract_lets)); extract_lets +onlyGivenNames kx; (fail_if_success (have : True := kx)); clear_value kx; all_goals have kx := True.intro) | with_reducible apply setLinkState_kept | with_reducible apply enumerated_kept | with_reducible apply modPort_kept | with_reducible apply startTx_kept | with_reducible apply kept_ite | split)

theorem execPortLinkUp_kept (q : BitVec 5) (p : BitVec 2) (link : LinkUp) (s : State) (hs : Kept qs os s) :
    ResKept qs os (execPortLinkUp q p link s) := by
  unfold execPortLinkUp
  repeat' (first | with_reducible assumption | with_reducible apply resKept_next | with_reducible apply portUpStep_kept)

theorem execPortLinkDown_kept (q : BitVec 5) (p : BitVec 2) (cause : BitVec 4) (s : State) (hs : Kept qs os s) :
    ResKept qs os (execPortLinkDown q p cause s) := by
  unfold execPortLinkDown
  repeat' (first | with_reducible assumption | with_reducible apply resKept_next | with_reducible apply portLeaves_kept | with_reducible apply kept_ite)

theorem execPortRecoveryEntry_kept (q : BitVec 5) (p : BitVec 2) (s : State) (hs : Kept qs os s) :
    ResKept qs os (execPortRecoveryEntry q p s) := by
  unfold execPortRecoveryEntry
  repeat' (first | with_reducible assumption | with_reducible apply resKept_next | with_reducible apply setLinkState_kept | with_reducible apply count_kept | with_reducible apply kept_ite)

theorem execPortLowPowerEntry_kept (q : BitVec 5) (p : BitVec 2) (s : State) (hs : Kept qs os s) :
    ResKept qs os (execPortLowPowerEntry q p s) := by
  unfold execPortLowPowerEntry
  repeat' (first | with_reducible assumption | with_reducible apply resKept_next | with_reducible apply setLinkState_kept | with_reducible apply kept_ite)

theorem inbound_kept (s : State) (q p : Nat) (r : InboundReq) (hs : Kept qs os s) :
    Kept qs os (inbound s q p r) := by
  unfold inbound
  repeat' (first | with_reducible assumption | ((fail_if_success (fail_if_success extract_lets)); extract_lets +onlyGivenNames kx; (fail_if_success (have : True := kx)); clear_value kx; all_goals have kx := True.intro) | with_reducible apply emit_kept | with_reducible apply count_kept | with_reducible apply writeDram_kept | with_reducible apply kept_ite | split)

theorem execInboundMemoryRequest_kept (q : BitVec 5) (p : BitVec 2) (req : InboundReq) (s : State) (hs : Kept qs os s) :
    ResKept qs os (execInboundMemoryRequest q p req s) := by
  unfold execInboundMemoryRequest
  repeat' (first | with_reducible assumption | with_reducible apply resKept_next | with_reducible apply inbound_kept)

theorem execInboundMsixWrite_kept (q : BitVec 5) (p : BitVec 2) (fn : Byte) (vector : BitVec 11) (s : State) (hs : Kept qs os s) :
    ResKept qs os (execInboundMsixWrite q p fn vector s) := by
  unfold execInboundMsixWrite
  repeat' (first | with_reducible assumption | with_reducible apply resKept_next | with_reducible apply deviceVector_kept | with_reducible apply kept_ite)

theorem execPcieErrorMessage_kept (q : BitVec 5) (p : BitVec 2) (sev : PcieErr) (s : State) (hs : Kept qs os s) :
    ResKept qs os (execPcieErrorMessage q p sev s) := by
  unfold execPcieErrorMessage
  repeat' (first | with_reducible assumption | with_reducible apply resKept_next | with_reducible apply resKept_ite | split | with_reducible apply count_kept | with_reducible apply portLeaves_kept)

theorem execCqScanTimer_kept (q : BitVec 5) (p : BitVec 2) (pair : BitVec 7) (s : State) (hs : Kept qs os s) :
    ResKept qs os (execCqScanTimer q p pair s) := by
  unfold execCqScanTimer
  repeat' (first | with_reducible assumption | with_reducible apply resKept_next | with_reducible apply scanPair_kept | with_reducible apply kept_ite)

theorem execNvmeResubmit_kept (op : BitVec 32) (s : State) (hs : Kept qs os s) :
    ResKept qs os (execNvmeResubmit op s) := by
  unfold execNvmeResubmit
  repeat' (first | with_reducible assumption | with_reducible apply resKept_next | with_reducible apply resKept_ite | split | with_reducible apply tryIssue_kept | with_reducible apply setOp_kept)

theorem execRingScanTimer_kept (q : BitVec 5) (p : BitVec 2) (ring : BitVec 4) (s : State) (hs : Kept qs os s) :
    ResKept qs os (execRingScanTimer q p ring s) := by
  unfold execRingScanTimer
  repeat' (first | with_reducible assumption | with_reducible apply resKept_next | with_reducible apply scanRing_kept | with_reducible apply kept_ite)

theorem execDeviceOperationEnd_kept (op : BitVec 32) (data : List Byte) (ok : Bool) (s : State) (hs : Kept qs os s) :
    ResKept qs os (execDeviceOperationEnd op data ok s) := by
  unfold execDeviceOperationEnd
  repeat' (first | with_reducible assumption | with_reducible apply resKept_next | with_reducible apply resKept_ite | split | with_reducible apply finishOp_kept)

theorem execEthFrameRx_kept (q : BitVec 5) (p : BitVec 2) (bytes : List Byte) (good : Bool) (s : State) (hs : Kept qs os s) :
    ResKept qs os (execEthFrameRx q p bytes good s) := by
  unfold execEthFrameRx
  repeat' (first | with_reducible assumption | with_reducible apply resKept_next | with_reducible apply ethRx_kept | with_reducible apply kept_ite)

theorem execPauseFrameRx_kept (q : BitVec 5) (p : BitVec 2) (bytes : List Byte) (s : State) (hs : Kept qs os s) :
    ResKept qs os (execPauseFrameRx q p bytes s) := by
  unfold execPauseFrameRx
  repeat' (first | with_reducible assumption | with_reducible apply resKept_next | with_reducible apply resKept_fault | with_reducible apply resKept_ite | with_reducible apply ethRx_kept | with_reducible apply kept_ite | split)

theorem execPauseTimerExpiry_kept (q : BitVec 5) (p : BitVec 2) (queues : BitVec 8) (s : State) (hs : Kept qs os s) :
    ResKept qs os (execPauseTimerExpiry q p queues s) := by
  unfold execPauseTimerExpiry
  repeat' (first | with_reducible assumption | with_reducible apply resKept_next | with_reducible apply startTx_kept | with_reducible apply modEP_kept | with_reducible apply kept_ite)

theorem frameSent_kept (s : State) (q p : Nat) (hs : Kept qs os s) :
    Kept qs os (frameSent s q p) := by
  unfold frameSent
  repeat' (first | with_reducible assumption | (first | (intro _ hk; have := hk.queue) | (intro _ _ hk; have := hk.queue) | (intro _ _ _ hk; have := hk.queue); clear this) | intro _ | ((fail_if_success (fail_if_success extract_lets)); extract_lets +onlyGivenNames kx; (fail_if_success (have : True := kx)); (first | (refine kept_cut qs os kx ?_ fun _ => ?_; unfold kx; rotate_left; clear_value kx; rotate_right) | (refine kept_cut qs os kx.1 ?_ fun _ => ?_; unfold kx; rotate_left; clear_value kx; rotate_right) | (first | have := (kx : State → _) | have := (kx : Twin) | have := (kx : Mem) | have := (kx : Hu) | have := (kx : Sec); clear this) | clear_value kx); all_goals have kx := True.intro) | with_reducible apply emit_kept | with_reducible apply modEP_kept | with_reducible apply countBy_kept | with_reducible apply count_kept | with_reducible apply finishOp_kept | with_reducible apply startTx_kept | with_reducible apply kept_ite | split | refine kept_upd ?_ rfl rfl rfl rfl rfl rfl rfl rfl rfl rfl rfl rfl)

theorem execEthFrameTxDone_kept (q : BitVec 5) (p : BitVec 2) (s : State) (hs : Kept qs os s) :
    ResKept qs os (execEthFrameTxDone q p s) := by
  unfold execEthFrameTxDone
  repeat' (first | with_reducible assumption | with_reducible apply resKept_next | with_reducible apply frameSent_kept | with_reducible apply kept_ite)

theorem execKdlSignalDetect_kept (q : BitVec 5) (p : BitVec 2) (s : State) (hs : Kept qs os s) :
    ResKept qs os (execKdlSignalDetect q p s) := by
  unfold execKdlSignalDetect
  repeat' (first | with_reducible assumption | with_reducible apply resKept_next | with_reducible apply setLinkState_kept | with_reducible apply kept_ite)

theorem execKdlTs1Rx_kept (q : BitVec 5) (p : BitVec 2) (inverted : Bool) (s : State) (hs : Kept qs os s) :
    ResKept qs os (execKdlTs1Rx q p inverted s) := by
  unfold execKdlTs1Rx
  repeat' (first | with_reducible assumption | with_reducible apply resKept_next | with_reducible apply trainSet_kept | with_reducible apply modKP_kept | with_reducible apply kept_ite)

theorem execKdlTs2Rx_kept (q : BitVec 5) (p : BitVec 2) (s : State) (hs : Kept qs os s) :
    ResKept qs os (execKdlTs2Rx q p s) := by
  unfold execKdlTs2Rx
  repeat' (first | with_reducible assumption | with_reducible apply resKept_next | with_reducible apply trainSet_kept | with_reducible apply kept_ite)

theorem execKdlSkpRx_kept (_q : BitVec 5) (_p : BitVec 2) (s : State) (hs : Kept qs os s) :
    ResKept qs os (execKdlSkpRx _q _p s) := by
  unfold execKdlSkpRx
  repeat' (first | with_reducible assumption | with_reducible apply resKept_next)

theorem execKdlEiosRx_kept (_q : BitVec 5) (_p : BitVec 2) (s : State) (hs : Kept qs os s) :
    ResKept qs os (execKdlEiosRx _q _p s) := by
  unfold execKdlEiosRx
  repeat' (first | with_reducible assumption | with_reducible apply resKept_next)

theorem execKdlTrainTimeout_kept (q : BitVec 5) (p : BitVec 2) (s : State) (hs : Kept qs os s) :
    ResKept qs os (execKdlTrainTimeout q p s) := by
  unfold execKdlTrainTimeout
  repeat' (first | with_reducible assumption | with_reducible apply resKept_next | split | with_reducible apply modKP_kept | with_reducible apply portLeaves_kept)

theorem execKdlConfigTimeout_kept (q : BitVec 5) (p : BitVec 2) (s : State) (hs : Kept qs os s) :
    ResKept qs os (execKdlConfigTimeout q p s) := by
  unfold execKdlConfigTimeout
  repeat' (first | with_reducible assumption | with_reducible apply resKept_next | with_reducible apply portLeaves_kept | with_reducible apply kept_ite)

theorem execKdlRetryDelay_kept (q : BitVec 5) (p : BitVec 2) (s : State) (hs : Kept qs os s) :
    ResKept qs os (execKdlRetryDelay q p s) := by
  unfold execKdlRetryDelay
  repeat' (first | with_reducible assumption | with_reducible apply resKept_next | with_reducible apply setLinkState_kept | with_reducible apply modKP_kept | with_reducible apply kept_ite)

theorem execKdlBlockLockLoss_kept (q : BitVec 5) (p : BitVec 2) (s : State) (hs : Kept qs os s) :
    ResKept qs os (execKdlBlockLockLoss q p s) := by
  unfold execKdlBlockLockLoss
  repeat' (first | with_reducible assumption | with_reducible apply resKept_next | with_reducible apply enterRetrain_kept | with_reducible apply kept_ite)

theorem execKdlInit_kept (q : BitVec 5) (p : BitVec 2) (f : KdlFrame) (s : State) (hs : Kept qs os s) :
    ResKept qs os (execKdlInit q p f s) := by
  unfold execKdlInit
  repeat' (first | with_reducible assumption | with_reducible apply resKept_next | with_reducible apply kdlOfType_kept)

theorem execKdlIdle_kept (q : BitVec 5) (p : BitVec 2) (f : KdlFrame) (s : State) (hs : Kept qs os s) :
    ResKept qs os (execKdlIdle q p f s) := by
  unfold execKdlIdle
  repeat' (first | with_reducible assumption | with_reducible apply resKept_next | with_reducible apply kdlOfType_kept)

theorem execKdlData_kept (q : BitVec 5) (p : BitVec 2) (f : KdlFrame) (s : State) (hs : Kept qs os s) :
    ResKept qs os (execKdlData q p f s) := by
  unfold execKdlData
  repeat' (first | with_reducible assumption | with_reducible apply resKept_next | with_reducible apply kdlOfType_kept)

theorem execKdlStatus_kept (q : BitVec 5) (p : BitVec 2) (f : KdlFrame) (s : State) (hs : Kept qs os s) :
    ResKept qs os (execKdlStatus q p f s) := by
  unfold execKdlStatus
  repeat' (first | with_reducible assumption | with_reducible apply resKept_next | with_reducible apply kdlOfType_kept)

theorem execKdlAttn_kept (q : BitVec 5) (p : BitVec 2) (f : KdlFrame) (s : State) (hs : Kept qs os s) :
    ResKept qs os (execKdlAttn q p f s) := by
  unfold execKdlAttn
  repeat' (first | with_reducible assumption | with_reducible apply resKept_next | with_reducible apply kdlOfType_kept)

theorem execKdlAck_kept (q : BitVec 5) (p : BitVec 2) (f : KdlFrame) (s : State) (hs : Kept qs os s) :
    ResKept qs os (execKdlAck q p f s) := by
  unfold execKdlAck
  repeat' (first | with_reducible assumption | with_reducible apply resKept_next | with_reducible apply kdlOfType_kept)

theorem execKdlNak_kept (q : BitVec 5) (p : BitVec 2) (f : KdlFrame) (s : State) (hs : Kept qs os s) :
    ResKept qs os (execKdlNak q p f s) := by
  unfold execKdlNak
  repeat' (first | with_reducible assumption | with_reducible apply resKept_next | with_reducible apply kdlOfType_kept)

theorem execKdlCredit_kept (q : BitVec 5) (p : BitVec 2) (f : KdlFrame) (s : State) (hs : Kept qs os s) :
    ResKept qs os (execKdlCredit q p f s) := by
  unfold execKdlCredit
  repeat' (first | with_reducible assumption | with_reducible apply resKept_next | with_reducible apply kdlOfType_kept)

theorem execKdlUndefinedFrame_kept (q : BitVec 5) (p : BitVec 2) (f : KdlFrame) (s : State) (hs : Kept qs os s) :
    ResKept qs os (execKdlUndefinedFrame q p f s) := by
  unfold execKdlUndefinedFrame
  repeat' (first | with_reducible assumption | with_reducible apply resKept_next | with_reducible apply kdlRx_kept | with_reducible apply kept_ite)

theorem execKdlReplayTimeout_kept (q : BitVec 5) (p : BitVec 2) (s : State) (hs : Kept qs os s) :
    ResKept qs os (execKdlReplayTimeout q p s) := by
  unfold execKdlReplayTimeout
  repeat' (first | with_reducible assumption | with_reducible apply resKept_next | with_reducible apply replayAgain_kept | with_reducible apply kept_ite)

theorem opTimesOut_kept (s : State) (o : DevOp) (hs : Kept qs os s) :
    Kept qs os (opTimesOut s o) := by
  unfold opTimesOut
  repeat' (first | with_reducible assumption | ((fail_if_success (fail_if_success extract_lets)); extract_lets +onlyGivenNames kx; (fail_if_success (have : True := kx)); (refine kept_cut qs os kx ?_ fun _ => ?_; unfold kx; rotate_left; clear_value kx; rotate_right); all_goals have kx := True.intro) | with_reducible apply kdlEnqueue_kept | with_reducible apply modEP_kept | with_reducible apply retryQueued_kept | with_reducible apply finishOp_kept | with_reducible apply kept_ite)

theorem execOpTimeoutExpiry_kept (op : BitVec 32) (s : State) (hs : Kept qs os s) :
    ResKept qs os (execOpTimeoutExpiry op s) := by
  unfold execOpTimeoutExpiry
  repeat' (first | with_reducible assumption | with_reducible apply resKept_next | split | with_reducible apply opTimesOut_kept)

theorem execKdlBusyResend_kept (op : BitVec 32) (s : State) (hs : Kept qs os s) :
    ResKept qs os (execKdlBusyResend op s) := by
  unfold execKdlBusyResend
  repeat' (first | with_reducible assumption | with_reducible apply resKept_next | with_reducible apply resKept_ite | split | with_reducible apply tryIssue_kept | with_reducible apply setOp_kept)

theorem execKdlInitSend_kept (q : BitVec 5) (p : BitVec 2) (s : State) (hs : Kept qs os s) :
    ResKept qs os (execKdlInitSend q p s) := by
  unfold execKdlInitSend
  repeat' (first | with_reducible assumption | with_reducible apply resKept_next | with_reducible apply resKept_fault | with_reducible apply resKept_ite | ((fail_if_success (fail_if_success extract_lets)); extract_lets +onlyGivenNames kx; (fail_if_success (have : True := kx)); (first | (refine kept_cut qs os kx ?_ fun _ => ?_; unfold kx; rotate_left; clear_value kx; rotate_right) | (refine kept_cut qs os kx.1 ?_ fun _ => ?_; unfold kx; rotate_left; clear_value kx; rotate_right) | (first | have := (kx : State → _) | have := (kx : Twin) | have := (kx : Mem) | have := (kx : Hu) | have := (kx : Sec); clear this) | clear_value kx); all_goals have kx := True.intro) | with_reducible apply sendKdl_kept | with_reducible apply modKP_kept | with_reducible apply enterActive_kept | (first | (intro _ hk; have := hk.queue) | (intro _ _ hk; have := hk.queue) | (intro _ _ _ hk; have := hk.queue); clear this) | intro _ | with_reducible apply kept_ite | split | refine kept_upd ?_ rfl rfl rfl rfl rfl rfl rfl rfl rfl rfl rfl rfl)

end Sys2Proof.Machine
end

