-- ==== Sys2Proof/Laws/KeptSecurityRows.lean ====
section
/-!
SUPPORT. Every function of Machine/SecurityRows.lean keeps a sound state, the queue and what was sent.
-/

namespace Sys2Proof.Machine

variable {qs : List Instr} {os : List Out}

theorem execKeyReservationWrite_kept (s : State) (hs : Kept qs os s) :
    ResKept qs os (execKeyReservationWrite s) := by
  unfold execKeyReservationWrite
  repeat' (first | with_reducible assumption | with_reducible apply resKept_next | with_reducible apply startBank_kept | with_reducible apply kept_ite)

theorem execKeyBankWritten_kept (s : State) (hs : Kept qs os s) :
    ResKept qs os (execKeyBankWritten s) := by
  unfold execKeyBankWritten
  repeat' (first | with_reducible assumption | with_reducible apply resKept_next | with_reducible apply bankWritten_kept | with_reducible apply kept_ite)

theorem execNewNonce_kept (s : State) (hs : Kept qs os s) :
    ResKept qs os (execNewNonce s) := by
  unfold execNewNonce
  repeat' (first | with_reducible assumption | with_reducible apply resKept_next | with_reducible apply newNonce_kept | with_reducible apply kept_ite)

theorem onTap_kept (s : State) (f : State → State) (hs : Kept qs os s) (hf : ∀ (x0 : State), Kept qs os x0 → Kept qs os (f x0)) :
    ResKept qs os (onTap s f) := by
  unfold onTap
  repeat' (first | with_reducible assumption | with_reducible apply resKept_next | apply hf | with_reducible apply kept_ite)

theorem execExtest_kept (s : State) (hs : Kept qs os s) :
    ResKept qs os (execExtest s) := by
  unfold execExtest
  repeat' (first | with_reducible assumption | with_reducible apply onTap_kept | with_reducible apply boundaryIr_kept | (first | (intro _ hk; have := hk.queue) | (intro _ _ hk; have := hk.queue) | (intro _ _ _ hk; have := hk.queue); clear this))

theorem execSamplePreload_kept (cells : List Bool) (s : State) (hs : Kept qs os s) :
    ResKept qs os (execSamplePreload cells s) := by
  unfold execSamplePreload
  repeat' (first | with_reducible assumption | ((fail_if_success (fail_if_success extract_lets)); extract_lets +onlyGivenNames kx; (fail_if_success (have : True := kx)); (first | (refine kept_cut qs os kx ?_ fun _ => ?_; unfold kx; rotate_left; clear_value kx; rotate_right) | clear_value kx); all_goals have kx := True.intro) | with_reducible apply onTap_kept | with_reducible apply selectIr_kept | with_reducible apply setTap_kept | (first | (intro _ hk; have := hk.queue) | (intro _ _ hk; have := hk.queue) | (intro _ _ _ hk; have := hk.queue); clear this))

theorem execIdcode_kept (s : State) (hs : Kept qs os s) :
    ResKept qs os (execIdcode s) := by
  unfold execIdcode
  repeat' (first | with_reducible assumption | with_reducible apply onTap_kept | with_reducible apply emit_kept | with_reducible apply selectIr_kept | (first | (intro _ hk; have := hk.queue) | (intro _ _ hk; have := hk.queue) | (intro _ _ _ hk; have := hk.queue); clear this))

theorem execClamp_kept (s : State) (hs : Kept qs os s) :
    ResKept qs os (execClamp s) := by
  unfold execClamp
  repeat' (first | with_reducible assumption | with_reducible apply onTap_kept | with_reducible apply boundaryIr_kept | (first | (intro _ hk; have := hk.queue) | (intro _ _ hk; have := hk.queue) | (intro _ _ _ hk; have := hk.queue); clear this))

theorem execHighz_kept (s : State) (hs : Kept qs os s) :
    ResKept qs os (execHighz s) := by
  unfold execHighz
  repeat' (first | with_reducible assumption | with_reducible apply onTap_kept | with_reducible apply boundaryIr_kept | (first | (intro _ hk; have := hk.queue) | (intro _ _ hk; have := hk.queue) | (intro _ _ _ hk; have := hk.queue); clear this))

theorem execDbgMbx_kept (s : State) (hs : Kept qs os s) :
    ResKept qs os (execDbgMbx s) := by
  unfold execDbgMbx
  repeat' (first | with_reducible assumption | with_reducible apply onTap_kept | with_reducible apply selectIr_kept | (first | (intro _ hk; have := hk.queue) | (intro _ _ hk; have := hk.queue) | (intro _ _ _ hk; have := hk.queue); clear this))

theorem execBypass_kept (s : State) (hs : Kept qs os s) :
    ResKept qs os (execBypass s) := by
  unfold execBypass
  repeat' (first | with_reducible assumption | with_reducible apply onTap_kept | with_reducible apply selectIr_kept | (first | (intro _ hk; have := hk.queue) | (intro _ _ hk; have := hk.queue) | (intro _ _ _ hk; have := hk.queue); clear this))

theorem trst_kept (s : State) (hs : Kept qs os s) :
    Kept qs os (trst s) := by
  unfold trst
  repeat' (first | with_reducible assumption | ((fail_if_success (fail_if_success extract_lets)); extract_lets +onlyGivenNames kx; (fail_if_success (have : True := kx)); (first | (refine kept_cut qs os kx ?_ fun _ => ?_; unfold kx; rotate_left; clear_value kx; rotate_right) | clear_value kx); all_goals have kx := True.intro) | with_reducible apply setLevel_kept | with_reducible apply setTap_kept | with_reducible apply resetMaster_kept | with_reducible apply kept_ite | exact Nat.le_of_ble_eq_true rfl)

theorem execTrstNAssert_kept (ns : BitVec 32) (s : State) (hs : Kept qs os s) :
    ResKept qs os (execTrstNAssert ns s) := by
  unfold execTrstNAssert
  repeat' (first | with_reducible assumption | with_reducible apply onPulse_kept | with_reducible apply trst_kept | with_reducible apply kept_ite)

theorem onMailbox_kept (s : State) (f : State → State) (hs : Kept qs os s) (hf : ∀ (x0 : State), Kept qs os x0 → Kept qs os (f x0)) :
    ResKept qs os (onMailbox s f) := by
  unfold onMailbox
  repeat' (first | with_reducible assumption | with_reducible apply resKept_next | apply hf | with_reducible apply kept_ite)

theorem execDbgStatus_kept (s : State) (hs : Kept qs os s) :
    ResKept qs os (execDbgStatus s) := by
  unfold execDbgStatus
  repeat' (first | with_reducible assumption | with_reducible apply onMailbox_kept | with_reducible apply answer_kept | (first | (intro _ hk; have := hk.queue) | (intro _ _ hk; have := hk.queue) | (intro _ _ _ hk; have := hk.queue); clear this))

theorem execChallenge_kept (level : Byte) (s : State) (hs : Kept qs os s) :
    ResKept qs os (execChallenge level s) := by
  unfold execChallenge
  repeat' (first | with_reducible assumption | with_reducible apply onMailbox_kept | with_reducible apply challengeOp_kept | (first | (intro _ hk; have := hk.queue) | (intro _ _ hk; have := hk.queue) | (intro _ _ _ hk; have := hk.queue); clear this))

theorem execChallengeExpiry_kept (s : State) (hs : Kept qs os s) :
    ResKept qs os (execChallengeExpiry s) :=
  resKept_next (kept_sec hs hs.level fun _ e => nomatch e)

theorem execDbgUnlock_kept (key sig : List Byte) (s : State) (hs : Kept qs os s) :
    ResKept qs os (execDbgUnlock key sig s) := by
  unfold execDbgUnlock
  repeat' (first | with_reducible assumption | with_reducible apply onMailbox_kept | with_reducible apply unlockDbg_kept | (first | (intro _ hk; have := hk.queue) | (intro _ _ hk; have := hk.queue) | (intro _ _ _ hk; have := hk.queue); clear this))

theorem execRelock_kept (level : Byte) (s : State) (hs : Kept qs os s) :
    ResKept qs os (execRelock level s) := by
  unfold execRelock
  repeat' (first | with_reducible assumption | with_reducible apply onMailbox_kept | with_reducible apply relockOp_kept | (first | (intro _ hk; have := hk.queue) | (intro _ _ hk; have := hk.queue) | (intro _ _ _ hk; have := hk.queue); clear this))

theorem execRead32_kept (off : Word) (s : State) (hs : Kept qs os s) :
    ResKept qs os (execRead32 off s) := by
  unfold execRead32
  repeat' (first | with_reducible assumption | ((fail_if_success (fail_if_success extract_lets)); extract_lets +onlyGivenNames kx; (fail_if_success (have : True := kx)); (first | (refine kept_cut qs os kx.2 ?_ fun _ => ?_; unfold kx; rotate_left; clear_value kx; rotate_right) | clear_value kx); all_goals have kx := True.intro) | with_reducible apply onMailbox_kept | with_reducible apply answer_kept | with_reducible apply regRead_kept | (first | (intro _ hk; have := hk.queue) | (intro _ _ hk; have := hk.queue) | (intro _ _ _ hk; have := hk.queue); clear this) | with_reducible apply kept_ite)

theorem execWrite32_kept (off v : Word) (s : State) (hs : Kept qs os s) :
    ResKept qs os (execWrite32 off v s) := by
  unfold execWrite32
  repeat' (first | with_reducible assumption | ((fail_if_success (fail_if_success extract_lets)); extract_lets +onlyGivenNames kx; (fail_if_success (have : True := kx)); clear_value kx; all_goals have kx := True.intro) | with_reducible apply onMailbox_kept | with_reducible apply answer_kept | with_reducible apply afterWake_kept | with_reducible apply regWrite_kept | (first | (intro _ hk; have := hk.queue) | (intro _ _ hk; have := hk.queue) | (intro _ _ _ hk; have := hk.queue); clear this) | with_reducible apply kept_ite)

theorem execReadMem_kept (addr : Dword) (len : Word) (s : State) (hs : Kept qs os s) :
    ResKept qs os (execReadMem addr len s) := by
  unfold execReadMem
  repeat' (first | with_reducible assumption | with_reducible apply onMailbox_kept | with_reducible apply readMemOp_kept | (first | (intro _ hk; have := hk.queue) | (intro _ _ hk; have := hk.queue) | (intro _ _ _ hk; have := hk.queue); clear this))

theorem execWriteMem_kept (addr : Dword) (len : Word) (bytes : List Byte) (s : State) (hs : Kept qs os s) :
    ResKept qs os (execWriteMem addr len bytes s) := by
  unfold execWriteMem
  repeat' (first | with_reducible assumption | with_reducible apply onMailbox_kept | with_reducible apply writeMemOp_kept | (first | (intro _ hk; have := hk.queue) | (intro _ _ hk; have := hk.queue) | (intro _ _ _ hk; have := hk.queue); clear this))

theorem execTraceRead_kept (off : Word) (s : State) (hs : Kept qs os s) :
    ResKept qs os (execTraceRead off s) := by
  unfold execTraceRead
  repeat' (first | with_reducible assumption | with_reducible apply onMailbox_kept | with_reducible apply traceReadOp_kept | (first | (intro _ hk; have := hk.queue) | (intro _ _ hk; have := hk.queue) | (intro _ _ _ hk; have := hk.queue); clear this))

end Sys2Proof.Machine
end

