-- ==== Sys2Proof/WellFormed.lean ====
section
/-!
DEFINITION. Well-formed commands: operands that a happening can carry at all. A meaning does not rest on it; a command
outside it is one the part never sees.
-/

namespace Sys2Proof

open Machine

/-- a store lies in the host's address space; a failing range has a byte (01 R13) -/
def HostStore.wf : HostStore → Bool
  | .bytes a l => decide (a.toNat + l.length ≤ 2 ^ 60)
  | .fault a n _ => decide (0 < n.toNat) && decide (a.toNat + n.toNat ≤ 2 ^ 60)
  | .repair _ => true
/-- 1 to 4,096 bytes; a write carries as many, a read none (09 R280) -/
def BarAccess.wf (a : BarAccess) : Bool :=
  decide (0 < a.len.toNat) && decide (a.len.toNat ≤ 4096) && decide (a.data.length = if a.write then a.len.toNat else 0)
/-- a frame's payload has the length its header gives, at most 4,096 bytes (08 Table 8-17) -/
def KdlFrame.wf (f : KdlFrame) : Bool := decide (f.payload.length = f.length.toNat) && decide (f.length.toNat ≤ 4096)
/-- a flit has at most 248 payload bytes, a NULL flit none (11 R336) -/
def Flit.wf (f : Flit) : Bool := decide (f.payload.length ≤ 248) && (!f.null || f.payload.isEmpty)
/-- numbers rise strictly -/
def rising : List Nat → Bool
  | a :: b :: l => decide (a < b) && rising (b :: l)
  | _ => true
/-- BARs 0 to 5 in ascending order, of at least 16 bytes; at most 2,048 MSI-X table entries -/
def DevFunc.wf (f : DevFunc) : Bool :=
  rising (f.bars.map (·.index.toNat)) && (f.bars.all fun b => decide (b.index.toNat < 6) && decide (4 ≤ b.shift.toNat))
    && decide (f.payload.toNat ≤ 5) && decide (f.vectors.toNat ≤ 2048)
/-- functions in ascending order, the NVMe controller one of them (08 R239) -/
def DeviceInfo.wf (d : DeviceInfo) : Bool :=
  rising (d.funcs.map (·.num.toNat)) && d.funcs.all DevFunc.wf
    && (match d.nvme with | some f => d.funcs.any (·.num == f) | none => true)
/-- a state of training, and a rate and width of Table 8-3 (08 R236) -/
def LinkUp.wf (l : LinkUp) : Bool :=
  decide (1 ≤ l.state.toNat) && decide (l.state.toNat ≤ 6) && decide (l.rate.toNat ≤ 9)
    && (l.width == 0 || l.width == 1 || l.width == 2 || l.width == 4) && l.device.wf
/-- 1 to 4,096 bytes (08 R240) -/
def InboundReq.wf : InboundReq → Bool
  | .read _ n => decide (0 < n.toNat) && decide (n.toNat ≤ 4096)
  | .write _ l => !l.isEmpty && decide (l.length ≤ 4096)

/-- The operands of a command are ones its happening can carry. -/
def Instr.wf : Instr → Bool
  | .ccwFetch _ => true
  | .verbWrite _ => true
  | .verbRead _ => true
  | .verbSense _ => true
  | .verbMove _ => true
  | .verbFill _ => true
  | .verbCompare _ => true
  | .verbControl _ => true
  | .verbJump _ => true
  | .verbLoop _ => true
  | .verbNop _ => true
  | .verbWait _ => true
  | .verbSignal _ => true
  | .verbScript _ => true
  | .verbAbandon _ => true
  | .verbPost _ => true
  | .verbHalt _ => true
  | .doomEntriesReturned prn => prn != 0
  | .conflictRerun prn => prn != 0
  | .clbRecordWaitEnd => true
  | .ctmCommittedWaitEnd _ => true
  | .fullStopAdmit => true
  | .fsReservationWrite => true
  | .releaseIssue => true
  | .doorbellWrite fn _ bytes env => isFn fn && env.all HostStore.wf && !bytes.isEmpty
  | .placement => true
  | .recordLoadDone _ => true
  | .budgetEnd _ => true
  | .waitTimeout prn => prn != 0
  | .moverIssueStallEnd _ => true
  | .moverReadTurn _ => true
  | .moverWriteTurn _ => true
  | .barrierReadbackDone _ _ => true
  | .moverFetchError _ _ _ _ => true
  | .mvReinit _ => true
  | .moverReinitDone _ => true
  | .resumeHeld _ => true
  | .mvClose _ => true
  | .mvHoldClear _ => true
  | .arbCutoff a _ => decide (a.toNat < 20)
  | .arbStarve a _ => decide (a.toNat < 20)
  | .arbSwap a _ => decide (a.toNat < 20)
  | .scAdd _ _ => true
  | .scSub _ _ => true
  | .scAnd _ _ => true
  | .scOr _ _ => true
  | .scXor _ _ => true
  | .scAndn _ _ => true
  | .scShl _ _ => true
  | .scShr _ _ => true
  | .scSar _ _ => true
  | .scRol _ _ => true
  | .scRor _ _ => true
  | .scMul _ _ => true
  | .scMulhs _ _ => true
  | .scMulhu _ _ => true
  | .scDivs _ _ => true
  | .scDivu _ _ => true
  | .scRems _ _ => true
  | .scRemu _ _ => true
  | .scMin _ _ => true
  | .scMax _ _ => true
  | .scMinu _ _ => true
  | .scMaxu _ _ => true
  | .scNeg _ _ => true
  | .scNot _ _ => true
  | .scBrev _ _ => true
  | .scBrevb _ _ => true
  | .scPar8 _ _ => true
  | .scPar32 _ _ => true
  | .scClz _ _ => true
  | .scPopc _ _ => true
  | .scBswap _ _ => true
  | .scCrcb _ _ => true
  | .scCrch _ _ => true
  | .scCrcw _ _ => true
  | .scCrcbM _ _ => true
  | .scCrchM _ _ => true
  | .scCrcwM _ _ => true
  | .scAddi _ _ => true
  | .scAndi _ _ => true
  | .scOri _ _ => true
  | .scXori _ _ => true
  | .scShli _ _ => true
  | .scShri _ _ => true
  | .scSari _ _ => true
  | .scRori _ _ => true
  | .scMovl _ _ => true
  | .scMovh _ _ => true
  | .scLdb _ _ => true
  | .scLdbu _ _ => true
  | .scLdh _ _ => true
  | .scLdhu _ _ => true
  | .scLdw _ _ => true
  | .scStb _ _ => true
  | .scSth _ _ => true
  | .scStw _ _ => true
  | .scLdcbu _ _ => true
  | .scLdchu _ _ => true
  | .scLdcw _ _ => true
  | .scStcb _ _ => true
  | .scStch _ _ => true
  | .scStcw _ _ => true
  | .scCmp _ _ => true
  | .scCmpi _ _ => true
  | .scPlog _ _ => true
  | .scBr _ _ => true
  | .scCall _ _ => true
  | .scCalll _ _ => true
  | .scJr _ _ => true
  | .scRet _ _ => true
  | .scRetl _ _ => true
  | .scRep _ _ _ => true
  | .scRepi _ _ _ => true
  | .scEnd _ _ => true
  | .scTrap _ _ => true
  | .scTret _ _ => true
  | .scMfs _ _ => true
  | .scMts _ _ => true
  | .scIcinv _ _ => true
  | .scLock _ _ => true
  | .scUnlock _ _ => true
  | .scMovreq _ _ => true
  | .scMovwt _ _ => true
  | .scWaitInstr _ _ => true
  | .scSignalInstr _ _ => true
  | .cpRbld _ => true
  | .cpRbst _ => true
  | .cpMfc _ => true
  | .cpMtc _ => true
  | .cpIret _ => true
  | .cpWfi _ => true
  | .cpFence _ => true
  | .interruptEntry => true
  | .icClaimN who => masterLegal who
  | .icClaimF who => masterLegal who
  | .icCompleteN who _ => masterLegal who
  | .icCompleteF who _ => masterLegal who
  | .ceIcinv _ => true
  | .portLinkUp _ _ link => link.wf
  | .portLinkDown _ _ _ => true
  | .inboundMemoryRequest _ _ req => req.wf
  | .inboundMsixWrite _ _ _ _ => true
  | .pcieErrorMessage _ _ _ => true
  | .cqScanTimer _ _ _ => true
  | .nvmeResubmit _ => true
  | .ringScanTimer _ _ _ => true
  | .deviceOperationEnd _ _ _ => true
  | .ethFrameRx _ _ _ _ => true
  | .pauseFrameRx _ _ _ => true
  | .ethFrameTxDone _ _ => true
  | .kdlSignalDetect _ _ => true
  | .kdlTs1Rx _ _ _ => true
  | .kdlTs2Rx _ _ => true
  | .kdlSkpRx _ _ => true
  | .kdlEiosRx _ _ => true
  | .kdlTrainTimeout _ _ => true
  | .kdlConfigTimeout _ _ => true
  | .kdlRetryDelay _ _ => true
  | .kdlBlockLockLoss _ _ => true
  | .kdlInit _ _ f => f.wf
  | .kdlIdle _ _ f => f.wf
  | .kdlData _ _ f => f.wf
  | .kdlStatus _ _ f => f.wf
  | .kdlAttn _ _ f => f.wf
  | .kdlAck _ _ f => f.wf
  | .kdlNak _ _ f => f.wf
  | .kdlCredit _ _ f => f.wf
  | .kdlUndefinedFrame _ _ f => f.wf
  | .kdlReplayTimeout _ _ => true
  | .opTimeoutExpiry _ => true
  | .kdlBusyResend _ => true
  | .quadConfigWrite who _ _ => masterLegal who
  | .bar0Access fn acc env => isFn fn && acc.wf && env.all HostStore.wf
  | .bar2Access fn acc env => isFn fn && acc.wf && env.all HostStore.wf
  | .registerWrite who off _ => masterLegal who && decide (off.toNat % 4 = 0)
  | .timeTickLoRead who off => masterLegal who && decide (off.toNat % 4 = 0)
  | .counterReadClear who off => masterLegal who && decide (off.toNat % 4 = 0)
  | .hfAdmCfgWrite fn _ => isFn fn
  | .hfAdmSqTailWrite fn _ env => isFn fn && env.all HostStore.wf
  | .hfAdmRqHeadWrite fn _ => isFn fn
  | .hfSqHeadWrite fn _ _ => isFn fn
  | .hfModWrite fn n _ => isFn fn && decide (n.toNat < vecCount fn)
  | .moderationTimerExpiry fn n => isFn fn && decide (n.toNat < vecCount fn)
  | .vectorUnmask fn n => isFn fn && decide (n.toNat < vecCount fn)
  | .aspmL1Entry _ => true
  | .d3hotEntry _ => true
  | .d0Entry _ => true
  | .admIdentify fn _ => isFn fn
  | .admConfigure fn _ => isFn fn
  | .admResetDevice fn _ => isFn fn
  | .admSleep fn _ => isFn fn
  | .admVfConfig fn _ => isFn fn
  | .admQuadConfig fn _ => isFn fn
  | .admPortRegion fn _ => isFn fn
  | .admNvmeQueues fn _ => isFn fn
  | .admNsAdd fn _ => isFn fn
  | .admNsRemove fn _ => isFn fn
  | .admRingSet fn _ => isFn fn
  | .admRingClear fn _ => isFn fn
  | .admEthUnicast fn _ => isFn fn
  | .admEthMulticast fn _ => isFn fn
  | .admFlowAdd fn _ => isFn fn
  | .admFlowDelete fn _ => isFn fn
  | .admBucketSet fn _ => isFn fn
  | .admBind fn _ => isFn fn
  | .admUnbind fn _ => isFn fn
  | .admModify fn _ => isFn fn
  | .admStart fn _ => isFn fn
  | .admHalt fn _ => isFn fn
  | .admResume fn _ => isFn fn
  | .admClear fn _ => isFn fn
  | .admPronounReset fn _ => isFn fn
  | .admQuery fn _ => isFn fn
  | .admReplay fn _ => isFn fn
  | .admExportSaved fn _ => isFn fn
  | .admDiscardSaved fn _ => isFn fn
  | .admClauseTune fn _ => isFn fn
  | .admSqCreate fn _ => isFn fn
  | .admSqDelete fn _ => isFn fn
  | .admSqQuery fn _ => isFn fn
  | .admEventRoute fn _ => isFn fn
  | .admMbxBind fn _ => isFn fn
  | .admKeyImport fn _ => isFn fn
  | .admKeyErase fn _ => isFn fn
  | .admKeyInfo fn _ => isFn fn
  | .admLifecycleRequest fn _ => isFn fn
  | .admTwinPair fn _ => isFn fn
  | .admTwinUnpair fn _ => isFn fn
  | .admTwinFence fn _ => isFn fn
  | .admTwinTakeover fn _ => isFn fn
  | .admTwinStatus fn _ => isFn fn
  | .admSelfTest fn _ fails => isFn fn && decide (fails.map (·.1)).Nodup
  | .admLinkTest fn _ => isFn fn
  | .linkTestEnd _ => true
  | .admLogRead fn _ => isFn fn
  | .cjInputEdge _ => true
  | .conjunctionAct _ _ => true
  | .inhibitDisarm _ => true
  | .gpioInputEdge _ _ _ => true
  | .mbxPost who _ => masterLegal who
  | .mbxAck who _ => masterLegal who
  | .twHello body => decide (body.length = 64)
  | .twAuth body => decide (body.length = 32)
  | .twHeartbeat _ body => decide (body.length = 32)
  | .twHeartbeatSend => true
  | .twAlignmentTimeout => true
  | .twMirrorAck _ => true
  | .twFenceMsg _ => true
  | .twFenceAck _ => true
  | .twLaunch _ body => decide (body.length = 8)
  | .twLaunchAck _ body => decide (body.length = 8)
  | .twLaunchTick _ => true
  | .twLaunchRetry _ => true
  | .twMailbox param body => decide (body.length = if param.extractLsb' 6 2 = 1 then 0 else 32)
  | .twRegReq _ body => decide (body.length = 4)
  | .twRegResp _ body => decide (body.length = 4)
  | .twCtmCopy _ body => decide (body.length = 64)
  | .twCtmWrite _ body => decide (body.length = 64)
  | .twMirror _ _ => true
  | .twReleased _ => true
  | .twMalidUndefMessage _ _ => true
  | .twMalidFlitRx f => f.wf
  | .twMalidReplayTimeout => true
  | .twMalidTrainTimeout => true
  | .twJoinLinkTimeout => true
  | .twJoinAlignTimeout => true
  | .twTwinLoss => true
  | .twFenceInAssert _ _ => true
  | .twPinFenceComplete => true
  | .twLinkFenceTimeout => true
  | .twHandback who _ => masterLegal who
  | .wakeInFall _ => true
  | .wakeTimerExpiry => true
  | .deepSleepPrereqMet => true
  | .d3WaitTimeout => true
  | .huStatusFrame _ _ _ => true
  | .isolatedLinkLoss => true
  | .powerFailDeclared => true
  | .hvOvervoltage => true
  | .failLineEdge => true
  | .drainEnd => true
  | .capacitanceCheckTimer => true
  | .capacitanceCheckRequest => true
  | .chargeStop => true
  | .chargeResume => true
  | .capacitanceCheckDone _ _ => true
  | .chargerTimeout => true
  | .holdupDieStart => true
  | .hvOkSettled => true
  | .busReturnToHvIn => true
  | .keyReservationWrite => true
  | .newNonce => true
  | .extest => true
  | .samplePreload _ => true
  | .idcode => true
  | .clamp => true
  | .highz => true
  | .dbgMbx => true
  | .bypass => true
  | .dbgStatus => true
  | .challenge _ => true
  | .dbgUnlock _ _ => true
  | .relock _ => true
  | .read32 _ => true
  | .write32 _ _ => true
  | .readMem _ _ => true
  | .writeMem _ len bytes => decide (bytes.length = len.toNat)
  | .traceRead _ => true
  | .challengeExpiry => true
  | .trstNAssert _ => true
  | .uncorrectableError _ _ => true
  | .correctedError _ _ _ => true
  | .controlProcessorFault => true
  | .persistentCopyCrcFailure _ _ => true
  | .fenceSlot _ => true
  | .fenceEngine _ => true
  | .fenceMover _ => true
  | .fenceQuad _ => true
  | .fenceCacheBank _ => true
  | .fltRetire _ => true
  | .logFlush => true
  | .tempSensorRead _ _ _ => true
  | .thermtrip _ _ _ => true
  | .powerOnReset _ => true
  | .firmwareReady _ _ => true
  | .resetN _ => true
  | .devicePerst _ => true
  | .linkPerst _ _ => true
  | .functionLevelReset fn => isFn fn
  | .engineReset who _ => masterLegal who
  | .watchdogExpiry => true
  | .watchdogKick who _ => masterLegal who
  | .railLoss => true
  | .perstDeassert _ => true
  | .resetNRelease => true
  | .hostLinkUp _ _ _ _ => true
  | .hostLinkDown _ => true
  | .configSpaceWrite fn _ => isFn fn
  | .holdupDieStop => true
  | .malidLinkActive => true
  | .malidRetryDelay => true
  | .pauseTimerExpiry _ _ _ => true
  | .portRecoveryEntry _ _ => true
  | .portLowPowerEntry _ _ => true
  | .fenceTick => true
  | .regionCopySent => true
  | .keyBankWritten => true
  | .linkTestLaunch => true
  | .kdlInitSend _ _ => true

end Sys2Proof
end

