-- ==== Sys2Proof/Laws/PerInstr.lean ====
section
/-!
SUPPORT. Every command can arrive: some well-formed operands exist for it.
-/

/-- A well-formed command with this constructor exists. -/
def Sys2Proof.Laws.CanArrive.Statement (i : Sys2Proof.Instr) : Prop := ∃ j : Sys2Proof.Instr, j.ctorIdx = i.ctorIdx ∧ j.wf = true

namespace Sys2Proof.Laws.CanArrive

open Sys2Proof

theorem ccwFetch (slot : BitVec 9) : Statement (.ccwFetch slot) := ⟨.ccwFetch 1, rfl, by decide⟩
theorem verbWrite (slot : BitVec 9) : Statement (.verbWrite slot) := ⟨.verbWrite 1, rfl, by decide⟩
theorem verbRead (slot : BitVec 9) : Statement (.verbRead slot) := ⟨.verbRead 1, rfl, by decide⟩
theorem verbSense (slot : BitVec 9) : Statement (.verbSense slot) := ⟨.verbSense 1, rfl, by decide⟩
theorem verbMove (slot : BitVec 9) : Statement (.verbMove slot) := ⟨.verbMove 1, rfl, by decide⟩
theorem verbFill (slot : BitVec 9) : Statement (.verbFill slot) := ⟨.verbFill 1, rfl, by decide⟩
theorem verbCompare (slot : BitVec 9) : Statement (.verbCompare slot) := ⟨.verbCompare 1, rfl, by decide⟩
theorem verbControl (slot : BitVec 9) : Statement (.verbControl slot) := ⟨.verbControl 1, rfl, by decide⟩
theorem verbJump (slot : BitVec 9) : Statement (.verbJump slot) := ⟨.verbJump 1, rfl, by decide⟩
theorem verbLoop (slot : BitVec 9) : Statement (.verbLoop slot) := ⟨.verbLoop 1, rfl, by decide⟩
theorem verbNop (slot : BitVec 9) : Statement (.verbNop slot) := ⟨.verbNop 1, rfl, by decide⟩
theorem verbWait (slot : BitVec 9) : Statement (.verbWait slot) := ⟨.verbWait 1, rfl, by decide⟩
theorem verbSignal (slot : BitVec 9) : Statement (.verbSignal slot) := ⟨.verbSignal 1, rfl, by decide⟩
theorem verbScript (slot : BitVec 9) : Statement (.verbScript slot) := ⟨.verbScript 1, rfl, by decide⟩
theorem verbAbandon (slot : BitVec 9) : Statement (.verbAbandon slot) := ⟨.verbAbandon 1, rfl, by decide⟩
theorem verbPost (slot : BitVec 9) : Statement (.verbPost slot) := ⟨.verbPost 1, rfl, by decide⟩
theorem verbHalt (slot : BitVec 9) : Statement (.verbHalt slot) := ⟨.verbHalt 1, rfl, by decide⟩
theorem doomEntriesReturned (prn : PrnNum) : Statement (.doomEntriesReturned prn) := ⟨.doomEntriesReturned 1, rfl, by decide⟩
theorem conflictRerun (prn : PrnNum) : Statement (.conflictRerun prn) := ⟨.conflictRerun 1, rfl, by decide⟩
theorem clbRecordWaitEnd : Statement (.clbRecordWaitEnd) := ⟨.clbRecordWaitEnd, rfl, by decide⟩
theorem ctmCommittedWaitEnd (c : Core) : Statement (.ctmCommittedWaitEnd c) := ⟨.ctmCommittedWaitEnd .control, rfl, by decide⟩
theorem fullStopAdmit : Statement (.fullStopAdmit) := ⟨.fullStopAdmit, rfl, by decide⟩
theorem fsReservationWrite : Statement (.fsReservationWrite) := ⟨.fsReservationWrite, rfl, by decide⟩
theorem releaseIssue : Statement (.releaseIssue) := ⟨.releaseIssue, rfl, by decide⟩
theorem doorbellWrite (fn : Master) (off : BitVec 20) (bytes : List Byte) (env : List HostStore) : Statement (.doorbellWrite fn off bytes env) := ⟨.doorbellWrite 0x40 0 [0] [], rfl, by decide⟩
theorem placement : Statement (.placement) := ⟨.placement, rfl, by decide⟩
theorem recordLoadDone (slot : BitVec 9) : Statement (.recordLoadDone slot) := ⟨.recordLoadDone 1, rfl, by decide⟩
theorem budgetEnd (slot : BitVec 9) : Statement (.budgetEnd slot) := ⟨.budgetEnd 1, rfl, by decide⟩
theorem waitTimeout (prn : PrnNum) : Statement (.waitTimeout prn) := ⟨.waitTimeout 1, rfl, by decide⟩
theorem moverIssueStallEnd (c : Core) : Statement (.moverIssueStallEnd c) := ⟨.moverIssueStallEnd .control, rfl, by decide⟩
theorem moverReadTurn (m : BitVec 3) : Statement (.moverReadTurn m) := ⟨.moverReadTurn 1, rfl, by decide⟩
theorem moverWriteTurn (m : BitVec 3) : Statement (.moverWriteTurn m) := ⟨.moverWriteTurn 1, rfl, by decide⟩
theorem barrierReadbackDone (w : Arrival) (detail : Byte) : Statement (.barrierReadbackDone w detail) := ⟨.barrierReadbackDone .release 1, rfl, by decide⟩
theorem moverFetchError (m : BitVec 3) (ctx : BitVec 6) (err : FetchError) (multi : Bool) : Statement (.moverFetchError m ctx err multi) := ⟨.moverFetchError 1 1 .ecc true, rfl, by decide⟩
theorem mvReinit (m : BitVec 3) : Statement (.mvReinit m) := ⟨.mvReinit 1, rfl, by decide⟩
theorem moverReinitDone (m : BitVec 3) : Statement (.moverReinitDone m) := ⟨.moverReinitDone 1, rfl, by decide⟩
theorem resumeHeld (m : BitVec 3) : Statement (.resumeHeld m) := ⟨.resumeHeld 1, rfl, by decide⟩
theorem mvClose (m : BitVec 3) : Statement (.mvClose m) := ⟨.mvClose 1, rfl, by decide⟩
theorem mvHoldClear (v : Word) : Statement (.mvHoldClear v) := ⟨.mvHoldClear 1, rfl, by decide⟩
theorem arbCutoff (a : BitVec 5) (input : BitVec 5) : Statement (.arbCutoff a input) := ⟨.arbCutoff 1 1, rfl, by decide⟩
theorem arbStarve (a : BitVec 5) (input : BitVec 5) : Statement (.arbStarve a input) := ⟨.arbStarve 1 1, rfl, by decide⟩
theorem arbSwap (a : BitVec 5) (v : Word) : Statement (.arbSwap a v) := ⟨.arbSwap 1 1, rfl, by decide⟩
theorem scAdd (c : Core) (w : Word) : Statement (.scAdd c w) := ⟨.scAdd .control 1, rfl, by decide⟩
theorem scSub (c : Core) (w : Word) : Statement (.scSub c w) := ⟨.scSub .control 1, rfl, by decide⟩
theorem scAnd (c : Core) (w : Word) : Statement (.scAnd c w) := ⟨.scAnd .control 1, rfl, by decide⟩
theorem scOr (c : Core) (w : Word) : Statement (.scOr c w) := ⟨.scOr .control 1, rfl, by decide⟩
theorem scXor (c : Core) (w : Word) : Statement (.scXor c w) := ⟨.scXor .control 1, rfl, by decide⟩
theorem scAndn (c : Core) (w : Word) : Statement (.scAndn c w) := ⟨.scAndn .control 1, rfl, by decide⟩
theorem scShl (c : Core) (w : Word) : Statement (.scShl c w) := ⟨.scShl .control 1, rfl, by decide⟩
theorem scShr (c : Core) (w : Word) : Statement (.scShr c w) := ⟨.scShr .control 1, rfl, by decide⟩
theorem scSar (c : Core) (w : Word) : Statement (.scSar c w) := ⟨.scSar .control 1, rfl, by decide⟩
theorem scRol (c : Core) (w : Word) : Statement (.scRol c w) := ⟨.scRol .control 1, rfl, by decide⟩
theorem scRor (c : Core) (w : Word) : Statement (.scRor c w) := ⟨.scRor .control 1, rfl, by decide⟩
theorem scMul (c : Core) (w : Word) : Statement (.scMul c w) := ⟨.scMul .control 1, rfl, by decide⟩
theorem scMulhs (c : Core) (w : Word) : Statement (.scMulhs c w) := ⟨.scMulhs .control 1, rfl, by decide⟩
theorem scMulhu (c : Core) (w : Word) : Statement (.scMulhu c w) := ⟨.scMulhu .control 1, rfl, by decide⟩
theorem scDivs (c : Core) (w : Word) : Statement (.scDivs c w) := ⟨.scDivs .control 1, rfl, by decide⟩
theorem scDivu (c : Core) (w : Word) : Statement (.scDivu c w) := ⟨.scDivu .control 1, rfl, by decide⟩
theorem scRems (c : Core) (w : Word) : Statement (.scRems c w) := ⟨.scRems .control 1, rfl, by decide⟩
theorem scRemu (c : Core) (w : Word) : Statement (.scRemu c w) := ⟨.scRemu .control 1, rfl, by decide⟩
theorem scMin (c : Core) (w : Word) : Statement (.scMin c w) := ⟨.scMin .control 1, rfl, by decide⟩
theorem scMax (c : Core) (w : Word) : Statement (.scMax c w) := ⟨.scMax .control 1, rfl, by decide⟩
theorem scMinu (c : Core) (w : Word) : Statement (.scMinu c w) := ⟨.scMinu .control 1, rfl, by decide⟩
theorem scMaxu (c : Core) (w : Word) : Statement (.scMaxu c w) := ⟨.scMaxu .control 1, rfl, by decide⟩
theorem scNeg (c : Core) (w : Word) : Statement (.scNeg c w) := ⟨.scNeg .control 1, rfl, by decide⟩
theorem scNot (c : Core) (w : Word) : Statement (.scNot c w) := ⟨.scNot .control 1, rfl, by decide⟩
theorem scBrev (c : Core) (w : Word) : Statement (.scBrev c w) := ⟨.scBrev .control 1, rfl, by decide⟩
theorem scBrevb (c : Core) (w : Word) : Statement (.scBrevb c w) := ⟨.scBrevb .control 1, rfl, by decide⟩
theorem scPar8 (c : Core) (w : Word) : Statement (.scPar8 c w) := ⟨.scPar8 .control 1, rfl, by decide⟩
theorem scPar32 (c : Core) (w : Word) : Statement (.scPar32 c w) := ⟨.scPar32 .control 1, rfl, by decide⟩
theorem scClz (c : Core) (w : Word) : Statement (.scClz c w) := ⟨.scClz .control 1, rfl, by decide⟩
theorem scPopc (c : Core) (w : Word) : Statement (.scPopc c w) := ⟨.scPopc .control 1, rfl, by decide⟩
theorem scBswap (c : Core) (w : Word) : Statement (.scBswap c w) := ⟨.scBswap .control 1, rfl, by decide⟩
theorem scCrcb (c : Core) (w : Word) : Statement (.scCrcb c w) := ⟨.scCrcb .control 1, rfl, by decide⟩
theorem scCrch (c : Core) (w : Word) : Statement (.scCrch c w) := ⟨.scCrch .control 1, rfl, by decide⟩
theorem scCrcw (c : Core) (w : Word) : Statement (.scCrcw c w) := ⟨.scCrcw .control 1, rfl, by decide⟩
theorem scCrcbM (c : Core) (w : Word) : Statement (.scCrcbM c w) := ⟨.scCrcbM .control 1, rfl, by decide⟩
theorem scCrchM (c : Core) (w : Word) : Statement (.scCrchM c w) := ⟨.scCrchM .control 1, rfl, by decide⟩
theorem scCrcwM (c : Core) (w : Word) : Statement (.scCrcwM c w) := ⟨.scCrcwM .control 1, rfl, by decide⟩
theorem scAddi (c : Core) (w : Word) : Statement (.scAddi c w) := ⟨.scAddi .control 1, rfl, by decide⟩
theorem scAndi (c : Core) (w : Word) : Statement (.scAndi c w) := ⟨.scAndi .control 1, rfl, by decide⟩
theorem scOri (c : Core) (w : Word) : Statement (.scOri c w) := ⟨.scOri .control 1, rfl, by decide⟩
theorem scXori (c : Core) (w : Word) : Statement (.scXori c w) := ⟨.scXori .control 1, rfl, by decide⟩
theorem scShli (c : Core) (w : Word) : Statement (.scShli c w) := ⟨.scShli .control 1, rfl, by decide⟩
theorem scShri (c : Core) (w : Word) : Statement (.scShri c w) := ⟨.scShri .control 1, rfl, by decide⟩
theorem scSari (c : Core) (w : Word) : Statement (.scSari c w) := ⟨.scSari .control 1, rfl, by decide⟩
theorem scRori (c : Core) (w : Word) : Statement (.scRori c w) := ⟨.scRori .control 1, rfl, by decide⟩
theorem scMovl (c : Core) (w : Word) : Statement (.scMovl c w) := ⟨.scMovl .control 1, rfl, by decide⟩
theorem scMovh (c : Core) (w : Word) : Statement (.scMovh c w) := ⟨.scMovh .control 1, rfl, by decide⟩
theorem scLdb (c : Core) (w : Word) : Statement (.scLdb c w) := ⟨.scLdb .control 1, rfl, by decide⟩
theorem scLdbu (c : Core) (w : Word) : Statement (.scLdbu c w) := ⟨.scLdbu .control 1, rfl, by decide⟩
theorem scLdh (c : Core) (w : Word) : Statement (.scLdh c w) := ⟨.scLdh .control 1, rfl, by decide⟩
theorem scLdhu (c : Core) (w : Word) : Statement (.scLdhu c w) := ⟨.scLdhu .control 1, rfl, by decide⟩
theorem scLdw (c : Core) (w : Word) : Statement (.scLdw c w) := ⟨.scLdw .control 1, rfl, by decide⟩
theorem scStb (c : Core) (w : Word) : Statement (.scStb c w) := ⟨.scStb .control 1, rfl, by decide⟩
theorem scSth (c : Core) (w : Word) : Statement (.scSth c w) := ⟨.scSth .control 1, rfl, by decide⟩
theorem scStw (c : Core) (w : Word) : Statement (.scStw c w) := ⟨.scStw .control 1, rfl, by decide⟩
theorem scLdcbu (c : Core) (w : Word) : Statement (.scLdcbu c w) := ⟨.scLdcbu .control 1, rfl, by decide⟩
theorem scLdchu (c : Core) (w : Word) : Statement (.scLdchu c w) := ⟨.scLdchu .control 1, rfl, by decide⟩
theorem scLdcw (c : Core) (w : Word) : Statement (.scLdcw c w) := ⟨.scLdcw .control 1, rfl, by decide⟩
theorem scStcb (c : Core) (w : Word) : Statement (.scStcb c w) := ⟨.scStcb .control 1, rfl, by decide⟩
theorem scStch (c : Core) (w : Word) : Statement (.scStch c w) := ⟨.scStch .control 1, rfl, by decide⟩
theorem scStcw (c : Core) (w : Word) : Statement (.scStcw c w) := ⟨.scStcw .control 1, rfl, by decide⟩
theorem scCmp (c : Core) (w : Word) : Statement (.scCmp c w) := ⟨.scCmp .control 1, rfl, by decide⟩
theorem scCmpi (c : Core) (w : Word) : Statement (.scCmpi c w) := ⟨.scCmpi .control 1, rfl, by decide⟩
theorem scPlog (c : Core) (w : Word) : Statement (.scPlog c w) := ⟨.scPlog .control 1, rfl, by decide⟩
theorem scBr (c : Core) (w : Word) : Statement (.scBr c w) := ⟨.scBr .control 1, rfl, by decide⟩
theorem scCall (c : Core) (w : Word) : Statement (.scCall c w) := ⟨.scCall .control 1, rfl, by decide⟩
theorem scCalll (c : Core) (w : Word) : Statement (.scCalll c w) := ⟨.scCalll .control 1, rfl, by decide⟩
theorem scJr (c : Core) (w : Word) : Statement (.scJr c w) := ⟨.scJr .control 1, rfl, by decide⟩
theorem scRet (c : Core) (w : Word) : Statement (.scRet c w) := ⟨.scRet .control 1, rfl, by decide⟩
theorem scRetl (c : Core) (w : Word) : Statement (.scRetl c w) := ⟨.scRetl .control 1, rfl, by decide⟩
theorem scRep (c : Core) (w : Word) (nxt : Word) : Statement (.scRep c w nxt) := ⟨.scRep .control 1 1, rfl, by decide⟩
theorem scRepi (c : Core) (w : Word) (nxt : Word) : Statement (.scRepi c w nxt) := ⟨.scRepi .control 1 1, rfl, by decide⟩
theorem scEnd (c : Core) (w : Word) : Statement (.scEnd c w) := ⟨.scEnd .control 1, rfl, by decide⟩
theorem scTrap (c : Core) (w : Word) : Statement (.scTrap c w) := ⟨.scTrap .control 1, rfl, by decide⟩
theorem scTret (c : Core) (w : Word) : Statement (.scTret c w) := ⟨.scTret .control 1, rfl, by decide⟩
theorem scMfs (c : Core) (w : Word) : Statement (.scMfs c w) := ⟨.scMfs .control 1, rfl, by decide⟩
theorem scMts (c : Core) (w : Word) : Statement (.scMts c w) := ⟨.scMts .control 1, rfl, by decide⟩
theorem scIcinv (c : Core) (w : Word) : Statement (.scIcinv c w) := ⟨.scIcinv .control 1, rfl, by decide⟩
theorem scLock (c : Core) (w : Word) : Statement (.scLock c w) := ⟨.scLock .control 1, rfl, by decide⟩
theorem scUnlock (c : Core) (w : Word) : Statement (.scUnlock c w) := ⟨.scUnlock .control 1, rfl, by decide⟩
theorem scMovreq (c : Core) (w : Word) : Statement (.scMovreq c w) := ⟨.scMovreq .control 1, rfl, by decide⟩
theorem scMovwt (c : Core) (w : Word) : Statement (.scMovwt c w) := ⟨.scMovwt .control 1, rfl, by decide⟩
theorem scWaitInstr (c : Core) (w : Word) : Statement (.scWaitInstr c w) := ⟨.scWaitInstr .control 1, rfl, by decide⟩
theorem scSignalInstr (c : Core) (w : Word) : Statement (.scSignalInstr c w) := ⟨.scSignalInstr .control 1, rfl, by decide⟩
theorem cpRbld (w : Word) : Statement (.cpRbld w) := ⟨.cpRbld 1, rfl, by decide⟩
theorem cpRbst (w : Word) : Statement (.cpRbst w) := ⟨.cpRbst 1, rfl, by decide⟩
theorem cpMfc (w : Word) : Statement (.cpMfc w) := ⟨.cpMfc 1, rfl, by decide⟩
theorem cpMtc (w : Word) : Statement (.cpMtc w) := ⟨.cpMtc 1, rfl, by decide⟩
theorem cpIret (w : Word) : Statement (.cpIret w) := ⟨.cpIret 1, rfl, by decide⟩
theorem cpWfi (w : Word) : Statement (.cpWfi w) := ⟨.cpWfi 1, rfl, by decide⟩
theorem cpFence (w : Word) : Statement (.cpFence w) := ⟨.cpFence 1, rfl, by decide⟩
theorem interruptEntry : Statement (.interruptEntry) := ⟨.interruptEntry, rfl, by decide⟩
theorem icClaimN (who : Master) : Statement (.icClaimN who) := ⟨.icClaimN 0x40, rfl, by decide⟩
theorem icClaimF (who : Master) : Statement (.icClaimF who) := ⟨.icClaimF 0x40, rfl, by decide⟩
theorem icCompleteN (who : Master) (v : Word) : Statement (.icCompleteN who v) := ⟨.icCompleteN 0x40 1, rfl, by decide⟩
theorem icCompleteF (who : Master) (v : Word) : Statement (.icCompleteF who v) := ⟨.icCompleteF 0x40 1, rfl, by decide⟩
theorem ceIcinv (n : BitVec 5) : Statement (.ceIcinv n) := ⟨.ceIcinv 1, rfl, by decide⟩
theorem portLinkUp (q : BitVec 5) (p : BitVec 2) (link : LinkUp) : Statement (.portLinkUp q p link) := ⟨.portLinkUp 1 1 { state := 2, rate := 1, width := 1, device := { bridge := false, funcs := [{ num := 0 }], nvme := none, pairs := 0, mdts := 0, spaces := [] } }, rfl, by decide⟩
theorem portLinkDown (q : BitVec 5) (p : BitVec 2) (cause : BitVec 4) : Statement (.portLinkDown q p cause) := ⟨.portLinkDown 1 1 1, rfl, by decide⟩
theorem inboundMemoryRequest (q : BitVec 5) (p : BitVec 2) (req : InboundReq) : Statement (.inboundMemoryRequest q p req) := ⟨.inboundMemoryRequest 1 1 (.read 0 4), rfl, by decide⟩
theorem inboundMsixWrite (q : BitVec 5) (p : BitVec 2) (fn : Byte) (vector : BitVec 11) : Statement (.inboundMsixWrite q p fn vector) := ⟨.inboundMsixWrite 1 1 1 1, rfl, by decide⟩
theorem pcieErrorMessage (q : BitVec 5) (p : BitVec 2) (sev : PcieErr) : Statement (.pcieErrorMessage q p sev) := ⟨.pcieErrorMessage 1 1 .fatal, rfl, by decide⟩
theorem cqScanTimer (q : BitVec 5) (p : BitVec 2) (pair : BitVec 7) : Statement (.cqScanTimer q p pair) := ⟨.cqScanTimer 1 1 1, rfl, by decide⟩
theorem nvmeResubmit (op : BitVec 32) : Statement (.nvmeResubmit op) := ⟨.nvmeResubmit 1, rfl, by decide⟩
theorem ringScanTimer (q : BitVec 5) (p : BitVec 2) (ring : BitVec 4) : Statement (.ringScanTimer q p ring) := ⟨.ringScanTimer 1 1 1, rfl, by decide⟩
theorem deviceOperationEnd (op : BitVec 32) (data : List Byte) (ok : Bool) : Statement (.deviceOperationEnd op data ok) := ⟨.deviceOperationEnd 1 [] true, rfl, by decide⟩
theorem ethFrameRx (q : BitVec 5) (p : BitVec 2) (bytes : List Byte) (good : Bool) : Statement (.ethFrameRx q p bytes good) := ⟨.ethFrameRx 1 1 [] true, rfl, by decide⟩
theorem pauseFrameRx (q : BitVec 5) (p : BitVec 2) (bytes : List Byte) : Statement (.pauseFrameRx q p bytes) := ⟨.pauseFrameRx 1 1 [], rfl, by decide⟩
theorem ethFrameTxDone (q : BitVec 5) (p : BitVec 2) : Statement (.ethFrameTxDone q p) := ⟨.ethFrameTxDone 1 1, rfl, by decide⟩
theorem kdlSignalDetect (q : BitVec 5) (p : BitVec 2) : Statement (.kdlSignalDetect q p) := ⟨.kdlSignalDetect 1 1, rfl, by decide⟩
theorem kdlTs1Rx (q : BitVec 5) (p : BitVec 2) (inverted : Bool) : Statement (.kdlTs1Rx q p inverted) := ⟨.kdlTs1Rx 1 1 true, rfl, by decide⟩
theorem kdlTs2Rx (q : BitVec 5) (p : BitVec 2) : Statement (.kdlTs2Rx q p) := ⟨.kdlTs2Rx 1 1, rfl, by decide⟩
theorem kdlSkpRx (q : BitVec 5) (p : BitVec 2) : Statement (.kdlSkpRx q p) := ⟨.kdlSkpRx 1 1, rfl, by decide⟩
theorem kdlEiosRx (q : BitVec 5) (p : BitVec 2) : Statement (.kdlEiosRx q p) := ⟨.kdlEiosRx 1 1, rfl, by decide⟩
theorem kdlTrainTimeout (q : BitVec 5) (p : BitVec 2) : Statement (.kdlTrainTimeout q p) := ⟨.kdlTrainTimeout 1 1, rfl, by decide⟩
theorem kdlConfigTimeout (q : BitVec 5) (p : BitVec 2) : Statement (.kdlConfigTimeout q p) := ⟨.kdlConfigTimeout 1 1, rfl, by decide⟩
theorem kdlRetryDelay (q : BitVec 5) (p : BitVec 2) : Statement (.kdlRetryDelay q p) := ⟨.kdlRetryDelay 1 1, rfl, by decide⟩
theorem kdlBlockLockLoss (q : BitVec 5) (p : BitVec 2) : Statement (.kdlBlockLockLoss q p) := ⟨.kdlBlockLockLoss 1 1, rfl, by decide⟩
theorem kdlInit (q : BitVec 5) (p : BitVec 2) (f : KdlFrame) : Statement (.kdlInit q p f) := ⟨.kdlInit 1 1 { type := 0 }, rfl, by decide⟩
theorem kdlIdle (q : BitVec 5) (p : BitVec 2) (f : KdlFrame) : Statement (.kdlIdle q p f) := ⟨.kdlIdle 1 1 { type := 0 }, rfl, by decide⟩
theorem kdlData (q : BitVec 5) (p : BitVec 2) (f : KdlFrame) : Statement (.kdlData q p f) := ⟨.kdlData 1 1 { type := 0 }, rfl, by decide⟩
theorem kdlStatus (q : BitVec 5) (p : BitVec 2) (f : KdlFrame) : Statement (.kdlStatus q p f) := ⟨.kdlStatus 1 1 { type := 0 }, rfl, by decide⟩
theorem kdlAttn (q : BitVec 5) (p : BitVec 2) (f : KdlFrame) : Statement (.kdlAttn q p f) := ⟨.kdlAttn 1 1 { type := 0 }, rfl, by decide⟩
theorem kdlAck (q : BitVec 5) (p : BitVec 2) (f : KdlFrame) : Statement (.kdlAck q p f) := ⟨.kdlAck 1 1 { type := 0 }, rfl, by decide⟩
theorem kdlNak (q : BitVec 5) (p : BitVec 2) (f : KdlFrame) : Statement (.kdlNak q p f) := ⟨.kdlNak 1 1 { type := 0 }, rfl, by decide⟩
theorem kdlCredit (q : BitVec 5) (p : BitVec 2) (f : KdlFrame) : Statement (.kdlCredit q p f) := ⟨.kdlCredit 1 1 { type := 0 }, rfl, by decide⟩
theorem kdlUndefinedFrame (q : BitVec 5) (p : BitVec 2) (f : KdlFrame) : Statement (.kdlUndefinedFrame q p f) := ⟨.kdlUndefinedFrame 1 1 { type := 0 }, rfl, by decide⟩
theorem kdlReplayTimeout (q : BitVec 5) (p : BitVec 2) : Statement (.kdlReplayTimeout q p) := ⟨.kdlReplayTimeout 1 1, rfl, by decide⟩
theorem opTimeoutExpiry (op : BitVec 32) : Statement (.opTimeoutExpiry op) := ⟨.opTimeoutExpiry 1, rfl, by decide⟩
theorem kdlBusyResend (op : BitVec 32) : Statement (.kdlBusyResend op) := ⟨.kdlBusyResend 1, rfl, by decide⟩
theorem quadConfigWrite (who : Master) (q : BitVec 5) (v : Word) : Statement (.quadConfigWrite who q v) := ⟨.quadConfigWrite 0x40 1 1, rfl, by decide⟩
theorem bar0Access (fn : Master) (acc : BarAccess) (env : List HostStore) : Statement (.bar0Access fn acc env) := ⟨.bar0Access 0x40 { write := false, off := 0, len := 4, data := [] } [], rfl, by decide⟩
theorem bar2Access (fn : Master) (acc : BarAccess) (env : List HostStore) : Statement (.bar2Access fn acc env) := ⟨.bar2Access 0x40 { write := false, off := 0, len := 4, data := [] } [], rfl, by decide⟩
theorem registerWrite (who : Master) (off : BitVec 22) (v : Word) : Statement (.registerWrite who off v) := ⟨.registerWrite 0x40 0 1, rfl, by decide⟩
theorem timeTickLoRead (who : Master) (off : BitVec 22) : Statement (.timeTickLoRead who off) := ⟨.timeTickLoRead 0x40 0, rfl, by decide⟩
theorem counterReadClear (who : Master) (off : BitVec 22) : Statement (.counterReadClear who off) := ⟨.counterReadClear 0x40 0, rfl, by decide⟩
theorem hfAdmCfgWrite (fn : Master) (v : Word) : Statement (.hfAdmCfgWrite fn v) := ⟨.hfAdmCfgWrite 0x40 1, rfl, by decide⟩
theorem hfAdmSqTailWrite (fn : Master) (v : Word) (env : List HostStore) : Statement (.hfAdmSqTailWrite fn v env) := ⟨.hfAdmSqTailWrite 0x40 1 [], rfl, by decide⟩
theorem hfAdmRqHeadWrite (fn : Master) (v : Word) : Statement (.hfAdmRqHeadWrite fn v) := ⟨.hfAdmRqHeadWrite 0x40 1, rfl, by decide⟩
theorem hfSqHeadWrite (fn : Master) (n : BitVec 12) (v : Word) : Statement (.hfSqHeadWrite fn n v) := ⟨.hfSqHeadWrite 0x40 1 1, rfl, by decide⟩
theorem hfModWrite (fn : Master) (n : BitVec 11) (v : Word) : Statement (.hfModWrite fn n v) := ⟨.hfModWrite 0x40 0 1, rfl, by decide⟩
theorem moderationTimerExpiry (fn : Master) (n : BitVec 11) : Statement (.moderationTimerExpiry fn n) := ⟨.moderationTimerExpiry 0x40 0, rfl, by decide⟩
theorem vectorUnmask (fn : Master) (n : BitVec 11) : Statement (.vectorUnmask fn n) := ⟨.vectorUnmask 0x40 0, rfl, by decide⟩
theorem aspmL1Entry (link : Bool) : Statement (.aspmL1Entry link) := ⟨.aspmL1Entry true, rfl, by decide⟩
theorem d3hotEntry (pf : Bool) : Statement (.d3hotEntry pf) := ⟨.d3hotEntry true, rfl, by decide⟩
theorem d0Entry (pf : Bool) : Statement (.d0Entry pf) := ⟨.d0Entry true, rfl, by decide⟩
theorem admIdentify (fn : Master) (pkt : BitVec 512) : Statement (.admIdentify fn pkt) := ⟨.admIdentify 0x40 1, rfl, by decide⟩
theorem admConfigure (fn : Master) (pkt : BitVec 512) : Statement (.admConfigure fn pkt) := ⟨.admConfigure 0x40 1, rfl, by decide⟩
theorem admResetDevice (fn : Master) (pkt : BitVec 512) : Statement (.admResetDevice fn pkt) := ⟨.admResetDevice 0x40 1, rfl, by decide⟩
theorem admSleep (fn : Master) (pkt : BitVec 512) : Statement (.admSleep fn pkt) := ⟨.admSleep 0x40 1, rfl, by decide⟩
theorem admVfConfig (fn : Master) (pkt : BitVec 512) : Statement (.admVfConfig fn pkt) := ⟨.admVfConfig 0x40 1, rfl, by decide⟩
theorem admQuadConfig (fn : Master) (pkt : BitVec 512) : Statement (.admQuadConfig fn pkt) := ⟨.admQuadConfig 0x40 1, rfl, by decide⟩
theorem admPortRegion (fn : Master) (pkt : BitVec 512) : Statement (.admPortRegion fn pkt) := ⟨.admPortRegion 0x40 1, rfl, by decide⟩
theorem admNvmeQueues (fn : Master) (pkt : BitVec 512) : Statement (.admNvmeQueues fn pkt) := ⟨.admNvmeQueues 0x40 1, rfl, by decide⟩
theorem admNsAdd (fn : Master) (pkt : BitVec 512) : Statement (.admNsAdd fn pkt) := ⟨.admNsAdd 0x40 1, rfl, by decide⟩
theorem admNsRemove (fn : Master) (pkt : BitVec 512) : Statement (.admNsRemove fn pkt) := ⟨.admNsRemove 0x40 1, rfl, by decide⟩
theorem admRingSet (fn : Master) (pkt : BitVec 512) : Statement (.admRingSet fn pkt) := ⟨.admRingSet 0x40 1, rfl, by decide⟩
theorem admRingClear (fn : Master) (pkt : BitVec 512) : Statement (.admRingClear fn pkt) := ⟨.admRingClear 0x40 1, rfl, by decide⟩
theorem admEthUnicast (fn : Master) (pkt : BitVec 512) : Statement (.admEthUnicast fn pkt) := ⟨.admEthUnicast 0x40 1, rfl, by decide⟩
theorem admEthMulticast (fn : Master) (pkt : BitVec 512) : Statement (.admEthMulticast fn pkt) := ⟨.admEthMulticast 0x40 1, rfl, by decide⟩
theorem admFlowAdd (fn : Master) (pkt : BitVec 512) : Statement (.admFlowAdd fn pkt) := ⟨.admFlowAdd 0x40 1, rfl, by decide⟩
theorem admFlowDelete (fn : Master) (pkt : BitVec 512) : Statement (.admFlowDelete fn pkt) := ⟨.admFlowDelete 0x40 1, rfl, by decide⟩
theorem admBucketSet (fn : Master) (pkt : BitVec 512) : Statement (.admBucketSet fn pkt) := ⟨.admBucketSet 0x40 1, rfl, by decide⟩
theorem admBind (fn : Master) (pkt : BitVec 512) : Statement (.admBind fn pkt) := ⟨.admBind 0x40 1, rfl, by decide⟩
theorem admUnbind (fn : Master) (pkt : BitVec 512) : Statement (.admUnbind fn pkt) := ⟨.admUnbind 0x40 1, rfl, by decide⟩
theorem admModify (fn : Master) (pkt : BitVec 512) : Statement (.admModify fn pkt) := ⟨.admModify 0x40 1, rfl, by decide⟩
theorem admStart (fn : Master) (pkt : BitVec 512) : Statement (.admStart fn pkt) := ⟨.admStart 0x40 1, rfl, by decide⟩
theorem admHalt (fn : Master) (pkt : BitVec 512) : Statement (.admHalt fn pkt) := ⟨.admHalt 0x40 1, rfl, by decide⟩
theorem admResume (fn : Master) (pkt : BitVec 512) : Statement (.admResume fn pkt) := ⟨.admResume 0x40 1, rfl, by decide⟩
theorem admClear (fn : Master) (pkt : BitVec 512) : Statement (.admClear fn pkt) := ⟨.admClear 0x40 1, rfl, by decide⟩
theorem admPronounReset (fn : Master) (pkt : BitVec 512) : Statement (.admPronounReset fn pkt) := ⟨.admPronounReset 0x40 1, rfl, by decide⟩
theorem admQuery (fn : Master) (pkt : BitVec 512) : Statement (.admQuery fn pkt) := ⟨.admQuery 0x40 1, rfl, by decide⟩
theorem admReplay (fn : Master) (pkt : BitVec 512) : Statement (.admReplay fn pkt) := ⟨.admReplay 0x40 1, rfl, by decide⟩
theorem admExportSaved (fn : Master) (pkt : BitVec 512) : Statement (.admExportSaved fn pkt) := ⟨.admExportSaved 0x40 1, rfl, by decide⟩
theorem admDiscardSaved (fn : Master) (pkt : BitVec 512) : Statement (.admDiscardSaved fn pkt) := ⟨.admDiscardSaved 0x40 1, rfl, by decide⟩
theorem admClauseTune (fn : Master) (pkt : BitVec 512) : Statement (.admClauseTune fn pkt) := ⟨.admClauseTune 0x40 1, rfl, by decide⟩
theorem admSqCreate (fn : Master) (pkt : BitVec 512) : Statement (.admSqCreate fn pkt) := ⟨.admSqCreate 0x40 1, rfl, by decide⟩
theorem admSqDelete (fn : Master) (pkt : BitVec 512) : Statement (.admSqDelete fn pkt) := ⟨.admSqDelete 0x40 1, rfl, by decide⟩
theorem admSqQuery (fn : Master) (pkt : BitVec 512) : Statement (.admSqQuery fn pkt) := ⟨.admSqQuery 0x40 1, rfl, by decide⟩
theorem admEventRoute (fn : Master) (pkt : BitVec 512) : Statement (.admEventRoute fn pkt) := ⟨.admEventRoute 0x40 1, rfl, by decide⟩
theorem admMbxBind (fn : Master) (pkt : BitVec 512) : Statement (.admMbxBind fn pkt) := ⟨.admMbxBind 0x40 1, rfl, by decide⟩
theorem admKeyImport (fn : Master) (pkt : BitVec 512) : Statement (.admKeyImport fn pkt) := ⟨.admKeyImport 0x40 1, rfl, by decide⟩
theorem admKeyErase (fn : Master) (pkt : BitVec 512) : Statement (.admKeyErase fn pkt) := ⟨.admKeyErase 0x40 1, rfl, by decide⟩
theorem admKeyInfo (fn : Master) (pkt : BitVec 512) : Statement (.admKeyInfo fn pkt) := ⟨.admKeyInfo 0x40 1, rfl, by decide⟩
theorem admLifecycleRequest (fn : Master) (pkt : BitVec 512) : Statement (.admLifecycleRequest fn pkt) := ⟨.admLifecycleRequest 0x40 1, rfl, by decide⟩
theorem admTwinPair (fn : Master) (pkt : BitVec 512) : Statement (.admTwinPair fn pkt) := ⟨.admTwinPair 0x40 1, rfl, by decide⟩
theorem admTwinUnpair (fn : Master) (pkt : BitVec 512) : Statement (.admTwinUnpair fn pkt) := ⟨.admTwinUnpair 0x40 1, rfl, by decide⟩
theorem admTwinFence (fn : Master) (pkt : BitVec 512) : Statement (.admTwinFence fn pkt) := ⟨.admTwinFence 0x40 1, rfl, by decide⟩
theorem admTwinTakeover (fn : Master) (pkt : BitVec 512) : Statement (.admTwinTakeover fn pkt) := ⟨.admTwinTakeover 0x40 1, rfl, by decide⟩
theorem admTwinStatus (fn : Master) (pkt : BitVec 512) : Statement (.admTwinStatus fn pkt) := ⟨.admTwinStatus 0x40 1, rfl, by decide⟩
theorem admSelfTest (fn : Master) (pkt : BitVec 512) (fails : List (BitVec 4 × Word)) : Statement (.admSelfTest fn pkt fails) := ⟨.admSelfTest 0x40 1 [], rfl, by decide⟩
theorem admLinkTest (fn : Master) (pkt : BitVec 512) : Statement (.admLinkTest fn pkt) := ⟨.admLinkTest 0x40 1, rfl, by decide⟩
theorem linkTestEnd (failed : Word) : Statement (.linkTestEnd failed) := ⟨.linkTestEnd 1, rfl, by decide⟩
theorem admLogRead (fn : Master) (pkt : BitVec 512) : Statement (.admLogRead fn pkt) := ⟨.admLogRead 0x40 1, rfl, by decide⟩
theorem cjInputEdge (n : Byte) : Statement (.cjInputEdge n) := ⟨.cjInputEdge 1, rfl, by decide⟩
theorem conjunctionAct (n : Byte) (k : BitVec 3) : Statement (.conjunctionAct n k) := ⟨.conjunctionAct 1 1, rfl, by decide⟩
theorem inhibitDisarm (n : Byte) : Statement (.inhibitDisarm n) := ⟨.inhibitDisarm 1, rfl, by decide⟩
theorem gpioInputEdge (pin : BitVec 4) (high : Bool) (ns : BitVec 32) : Statement (.gpioInputEdge pin high ns) := ⟨.gpioInputEdge 1 true 1, rfl, by decide⟩
theorem mbxPost (who : Master) (m : BitVec 6) : Statement (.mbxPost who m) := ⟨.mbxPost 0x40 1, rfl, by decide⟩
theorem mbxAck (who : Master) (m : BitVec 6) : Statement (.mbxAck who m) := ⟨.mbxAck 0x40 1, rfl, by decide⟩
theorem twHello (body : List Byte) : Statement (.twHello body) := ⟨.twHello (List.replicate 64 0), rfl, by decide⟩
theorem twAuth (body : List Byte) : Statement (.twAuth body) := ⟨.twAuth (List.replicate 32 0), rfl, by decide⟩
theorem twHeartbeat (param : Dword) (body : List Byte) : Statement (.twHeartbeat param body) := ⟨.twHeartbeat 1 (List.replicate 32 0), rfl, by decide⟩
theorem twHeartbeatSend : Statement (.twHeartbeatSend) := ⟨.twHeartbeatSend, rfl, by decide⟩
theorem twAlignmentTimeout : Statement (.twAlignmentTimeout) := ⟨.twAlignmentTimeout, rfl, by decide⟩
theorem twMirrorAck (param : Dword) : Statement (.twMirrorAck param) := ⟨.twMirrorAck 1, rfl, by decide⟩
theorem twFenceMsg (param : Dword) : Statement (.twFenceMsg param) := ⟨.twFenceMsg 1, rfl, by decide⟩
theorem twFenceAck (param : Dword) : Statement (.twFenceAck param) := ⟨.twFenceAck 1, rfl, by decide⟩
theorem twLaunch (param : Dword) (body : List Byte) : Statement (.twLaunch param body) := ⟨.twLaunch 1 (List.replicate 8 0), rfl, by decide⟩
theorem twLaunchAck (param : Dword) (body : List Byte) : Statement (.twLaunchAck param body) := ⟨.twLaunchAck 1 (List.replicate 8 0), rfl, by decide⟩
theorem twLaunchTick (action : Byte) : Statement (.twLaunchTick action) := ⟨.twLaunchTick 1, rfl, by decide⟩
theorem twLaunchRetry (action : Byte) : Statement (.twLaunchRetry action) := ⟨.twLaunchRetry 1, rfl, by decide⟩
theorem twMailbox (param : Dword) (body : List Byte) : Statement (.twMailbox param body) := ⟨.twMailbox 0 (List.replicate 32 0), rfl, by decide⟩
theorem twRegReq (param : Dword) (body : List Byte) : Statement (.twRegReq param body) := ⟨.twRegReq 1 (List.replicate 4 0), rfl, by decide⟩
theorem twRegResp (param : Dword) (body : List Byte) : Statement (.twRegResp param body) := ⟨.twRegResp 1 (List.replicate 4 0), rfl, by decide⟩
theorem twCtmCopy (param : Dword) (body : List Byte) : Statement (.twCtmCopy param body) := ⟨.twCtmCopy 1 (List.replicate 64 0), rfl, by decide⟩
theorem twCtmWrite (param : Dword) (body : List Byte) : Statement (.twCtmWrite param body) := ⟨.twCtmWrite 1 (List.replicate 64 0), rfl, by decide⟩
theorem twMirror (param : Dword) (body : List Byte) : Statement (.twMirror param body) := ⟨.twMirror 1 [], rfl, by decide⟩
theorem twReleased (param : Dword) : Statement (.twReleased param) := ⟨.twReleased 1, rfl, by decide⟩
theorem twMalidUndefMessage (type : Byte) (bulk : Bool) : Statement (.twMalidUndefMessage type bulk) := ⟨.twMalidUndefMessage 1 true, rfl, by decide⟩
theorem twMalidFlitRx (f : Flit) : Statement (.twMalidFlitRx f) := ⟨.twMalidFlitRx { seq := 0 }, rfl, by decide⟩
theorem twMalidReplayTimeout : Statement (.twMalidReplayTimeout) := ⟨.twMalidReplayTimeout, rfl, by decide⟩
theorem twMalidTrainTimeout : Statement (.twMalidTrainTimeout) := ⟨.twMalidTrainTimeout, rfl, by decide⟩
theorem twJoinLinkTimeout : Statement (.twJoinLinkTimeout) := ⟨.twJoinLinkTimeout, rfl, by decide⟩
theorem twJoinAlignTimeout : Statement (.twJoinAlignTimeout) := ⟨.twJoinAlignTimeout, rfl, by decide⟩
theorem twTwinLoss : Statement (.twTwinLoss) := ⟨.twTwinLoss, rfl, by decide⟩
theorem twFenceInAssert (ns : BitVec 32) (held : Bool) : Statement (.twFenceInAssert ns held) := ⟨.twFenceInAssert 1 true, rfl, by decide⟩
theorem twPinFenceComplete : Statement (.twPinFenceComplete) := ⟨.twPinFenceComplete, rfl, by decide⟩
theorem twLinkFenceTimeout : Statement (.twLinkFenceTimeout) := ⟨.twLinkFenceTimeout, rfl, by decide⟩
theorem twHandback (who : Master) (v : Word) : Statement (.twHandback who v) := ⟨.twHandback 0x40 1, rfl, by decide⟩
theorem wakeInFall (ns : BitVec 32) : Statement (.wakeInFall ns) := ⟨.wakeInFall 1, rfl, by decide⟩
theorem wakeTimerExpiry : Statement (.wakeTimerExpiry) := ⟨.wakeTimerExpiry, rfl, by decide⟩
theorem deepSleepPrereqMet : Statement (.deepSleepPrereqMet) := ⟨.deepSleepPrereqMet, rfl, by decide⟩
theorem d3WaitTimeout : Statement (.d3WaitTimeout) := ⟨.d3WaitTimeout, rfl, by decide⟩
theorem huStatusFrame (good : Bool) (hv : BitVec 12) (vcap : BitVec 12) : Statement (.huStatusFrame good hv vcap) := ⟨.huStatusFrame true 1 1, rfl, by decide⟩
theorem isolatedLinkLoss : Statement (.isolatedLinkLoss) := ⟨.isolatedLinkLoss, rfl, by decide⟩
theorem powerFailDeclared : Statement (.powerFailDeclared) := ⟨.powerFailDeclared, rfl, by decide⟩
theorem hvOvervoltage : Statement (.hvOvervoltage) := ⟨.hvOvervoltage, rfl, by decide⟩
theorem failLineEdge : Statement (.failLineEdge) := ⟨.failLineEdge, rfl, by decide⟩
theorem drainEnd : Statement (.drainEnd) := ⟨.drainEnd, rfl, by decide⟩
theorem capacitanceCheckTimer : Statement (.capacitanceCheckTimer) := ⟨.capacitanceCheckTimer, rfl, by decide⟩
theorem capacitanceCheckRequest : Statement (.capacitanceCheckRequest) := ⟨.capacitanceCheckRequest, rfl, by decide⟩
theorem chargeStop : Statement (.chargeStop) := ⟨.chargeStop, rfl, by decide⟩
theorem chargeResume : Statement (.chargeResume) := ⟨.chargeResume, rfl, by decide⟩
theorem capacitanceCheckDone (fall : BitVec 12) (us : BitVec 32) : Statement (.capacitanceCheckDone fall us) := ⟨.capacitanceCheckDone 1 1, rfl, by decide⟩
theorem chargerTimeout : Statement (.chargerTimeout) := ⟨.chargerTimeout, rfl, by decide⟩
theorem holdupDieStart : Statement (.holdupDieStart) := ⟨.holdupDieStart, rfl, by decide⟩
theorem hvOkSettled : Statement (.hvOkSettled) := ⟨.hvOkSettled, rfl, by decide⟩
theorem busReturnToHvIn : Statement (.busReturnToHvIn) := ⟨.busReturnToHvIn, rfl, by decide⟩
theorem keyReservationWrite : Statement (.keyReservationWrite) := ⟨.keyReservationWrite, rfl, by decide⟩
theorem newNonce : Statement (.newNonce) := ⟨.newNonce, rfl, by decide⟩
theorem extest : Statement (.extest) := ⟨.extest, rfl, by decide⟩
theorem samplePreload (cells : List Bool) : Statement (.samplePreload cells) := ⟨.samplePreload [], rfl, by decide⟩
theorem idcode : Statement (.idcode) := ⟨.idcode, rfl, by decide⟩
theorem clamp : Statement (.clamp) := ⟨.clamp, rfl, by decide⟩
theorem highz : Statement (.highz) := ⟨.highz, rfl, by decide⟩
theorem dbgMbx : Statement (.dbgMbx) := ⟨.dbgMbx, rfl, by decide⟩
theorem bypass : Statement (.bypass) := ⟨.bypass, rfl, by decide⟩
theorem dbgStatus : Statement (.dbgStatus) := ⟨.dbgStatus, rfl, by decide⟩
theorem challenge (level : Byte) : Statement (.challenge level) := ⟨.challenge 1, rfl, by decide⟩
theorem dbgUnlock (key : List Byte) (sig : List Byte) : Statement (.dbgUnlock key sig) := ⟨.dbgUnlock [] [], rfl, by decide⟩
theorem relock (level : Byte) : Statement (.relock level) := ⟨.relock 1, rfl, by decide⟩
theorem read32 (off : Word) : Statement (.read32 off) := ⟨.read32 0, rfl, by decide⟩
theorem write32 (off : Word) (v : Word) : Statement (.write32 off v) := ⟨.write32 0 1, rfl, by decide⟩
theorem readMem (addr : Dword) (len : Word) : Statement (.readMem addr len) := ⟨.readMem 1 1, rfl, by decide⟩
theorem writeMem (addr : Dword) (len : Word) (bytes : List Byte) : Statement (.writeMem addr len bytes) := ⟨.writeMem 1 1 [0], rfl, by decide⟩
theorem traceRead (off : Word) : Statement (.traceRead off) := ⟨.traceRead 0, rfl, by decide⟩
theorem challengeExpiry : Statement (.challengeExpiry) := ⟨.challengeExpiry, rfl, by decide⟩
theorem trstNAssert (ns : BitVec 32) : Statement (.trstNAssert ns) := ⟨.trstNAssert 1, rfl, by decide⟩
theorem uncorrectableError (site : ErrSite) (multi : Bool) : Statement (.uncorrectableError site multi) := ⟨.uncorrectableError .logic true, rfl, by decide⟩
theorem correctedError (code : BitVec 4) (unit : BitVec 9) (loc : BitVec 32) : Statement (.correctedError code unit loc) := ⟨.correctedError 1 1 1, rfl, by decide⟩
theorem controlProcessorFault : Statement (.controlProcessorFault) := ⟨.controlProcessorFault, rfl, by decide⟩
theorem persistentCopyCrcFailure (rec : StoreRec) (copyB : Bool) : Statement (.persistentCopyCrcFailure rec copyB) := ⟨.persistentCopyCrcFailure .twin true, rfl, by decide⟩
theorem fenceSlot (n : BitVec 9) : Statement (.fenceSlot n) := ⟨.fenceSlot 1, rfl, by decide⟩
theorem fenceEngine (n : BitVec 9) : Statement (.fenceEngine n) := ⟨.fenceEngine 1, rfl, by decide⟩
theorem fenceMover (n : BitVec 9) : Statement (.fenceMover n) := ⟨.fenceMover 1, rfl, by decide⟩
theorem fenceQuad (n : BitVec 9) : Statement (.fenceQuad n) := ⟨.fenceQuad 1, rfl, by decide⟩
theorem fenceCacheBank (n : BitVec 9) : Statement (.fenceCacheBank n) := ⟨.fenceCacheBank 1, rfl, by decide⟩
theorem fltRetire (v : Word) : Statement (.fltRetire v) := ⟨.fltRetire 1, rfl, by decide⟩
theorem logFlush : Statement (.logFlush) := ⟨.logFlush, rfl, by decide⟩
theorem tempSensorRead (logic : Byte) (dram : Byte) (holdup : Byte) : Statement (.tempSensorRead logic dram holdup) := ⟨.tempSensorRead 1 1 1, rfl, by decide⟩
theorem thermtrip (logic : BitVec 9) (dram : BitVec 9) (holdup : BitVec 9) : Statement (.thermtrip logic dram holdup) := ⟨.thermtrip 1 1 1, rfl, by decide⟩
theorem powerOnReset (straps : Straps) : Statement (.powerOnReset straps) := ⟨.powerOnReset { hostSplit := false, twinId := false, testmode := false, resetLow := false }, rfl, by decide⟩
theorem firmwareReady (a : Image) (b : Image) : Statement (.firmwareReady a b) := ⟨.firmwareReady { magic := 0, format := 0, flags := 0, length := 0, svn := 0, seq := 0, entry := 0, zeros := true, keyOk := true, sigOk := true, hashOk := true, payload := [] } { magic := 0, format := 0, flags := 0, length := 0, svn := 0, seq := 0, entry := 0, zeros := true, keyOk := true, sigOk := true, hashOk := true, payload := [] }, rfl, by decide⟩
theorem resetN (ns : BitVec 32) : Statement (.resetN ns) := ⟨.resetN 1, rfl, by decide⟩
theorem devicePerst (ns : BitVec 32) : Statement (.devicePerst ns) := ⟨.devicePerst 1, rfl, by decide⟩
theorem linkPerst (link : Bool) (ns : BitVec 32) : Statement (.linkPerst link ns) := ⟨.linkPerst true 1, rfl, by decide⟩
theorem functionLevelReset (fn : Master) : Statement (.functionLevelReset fn) := ⟨.functionLevelReset 0x40, rfl, by decide⟩
theorem engineReset (who : Master) (v : Word) : Statement (.engineReset who v) := ⟨.engineReset 0x40 1, rfl, by decide⟩
theorem watchdogExpiry : Statement (.watchdogExpiry) := ⟨.watchdogExpiry, rfl, by decide⟩
theorem watchdogKick (who : Master) (v : Word) : Statement (.watchdogKick who v) := ⟨.watchdogKick 0x40 1, rfl, by decide⟩
theorem railLoss : Statement (.railLoss) := ⟨.railLoss, rfl, by decide⟩
theorem perstDeassert (link : Bool) : Statement (.perstDeassert link) := ⟨.perstDeassert true, rfl, by decide⟩
theorem resetNRelease : Statement (.resetNRelease) := ⟨.resetNRelease, rfl, by decide⟩
theorem hostLinkUp (link : Bool) (rate : BitVec 3) (width : BitVec 5) (flit : Bool) : Statement (.hostLinkUp link rate width flit) := ⟨.hostLinkUp true 1 1 true, rfl, by decide⟩
theorem hostLinkDown (link : Bool) : Statement (.hostLinkDown link) := ⟨.hostLinkDown true, rfl, by decide⟩
theorem configSpaceWrite (fn : Master) (w : CfgWrite) : Statement (.configSpaceWrite fn w) := ⟨.configSpaceWrite 0x40 (.busMaster true), rfl, by decide⟩
theorem holdupDieStop : Statement (.holdupDieStop) := ⟨.holdupDieStop, rfl, by decide⟩
theorem malidLinkActive : Statement (.malidLinkActive) := ⟨.malidLinkActive, rfl, by decide⟩
theorem malidRetryDelay : Statement (.malidRetryDelay) := ⟨.malidRetryDelay, rfl, by decide⟩
theorem pauseTimerExpiry (q : BitVec 5) (p : BitVec 2) (queues : BitVec 8) : Statement (.pauseTimerExpiry q p queues) := ⟨.pauseTimerExpiry 1 1 1, rfl, by decide⟩
theorem portRecoveryEntry (q : BitVec 5) (p : BitVec 2) : Statement (.portRecoveryEntry q p) := ⟨.portRecoveryEntry 1 1, rfl, by decide⟩
theorem portLowPowerEntry (q : BitVec 5) (p : BitVec 2) : Statement (.portLowPowerEntry q p) := ⟨.portLowPowerEntry 1 1, rfl, by decide⟩
theorem fenceTick : Statement (.fenceTick) := ⟨.fenceTick, rfl, by decide⟩
theorem regionCopySent : Statement (.regionCopySent) := ⟨.regionCopySent, rfl, by decide⟩
theorem keyBankWritten : Statement (.keyBankWritten) := ⟨.keyBankWritten, rfl, by decide⟩
theorem linkTestLaunch : Statement (.linkTestLaunch) := ⟨.linkTestLaunch, rfl, by decide⟩
theorem kdlInitSend (q : BitVec 5) (p : BitVec 2) : Statement (.kdlInitSend q p) := ⟨.kdlInitSend 1 1, rfl, by decide⟩

end Sys2Proof.Laws.CanArrive
end

