-- ==== Sys2Proof/Laws/State.lean ====
section
/-!
SUPPORT. What each named plain update of the state leaves as it was, field by field, and what is read after it.
-/

namespace Sys2Proof.Machine

/-! ### emit -/

@[simp] theorem emit_dev (s : State) (o : Out) : (emit s o).dev = s.dev := rfl
@[simp] theorem emit_mem (s : State) (o : Out) : (emit s o).mem = s.mem := rfl
@[simp] theorem emit_hp (s : State) (o : Out) : (emit s o).hp = s.hp := rfl
@[simp] theorem emit_evt (s : State) (o : Out) : (emit s o).evt = s.evt := rfl
@[simp] theorem emit_sched (s : State) (o : Out) : (emit s o).sched = s.sched := rfl
@[simp] theorem emit_cls (s : State) (o : Out) : (emit s o).cls = s.cls := rfl
@[simp] theorem emit_fs (s : State) (o : Out) : (emit s o).fs = s.fs := rfl
@[simp] theorem emit_mv (s : State) (o : Out) : (emit s o).mv = s.mv := rfl
@[simp] theorem emit_ce (s : State) (o : Out) : (emit s o).ce = s.ce := rfl
@[simp] theorem emit_cp (s : State) (o : Out) : (emit s o).cp = s.cp := rfl
@[simp] theorem emit_lk (s : State) (o : Out) : (emit s o).lk = s.lk := rfl
@[simp] theorem emit_tw (s : State) (o : Out) : (emit s o).tw = s.tw := rfl
@[simp] theorem emit_nv (s : State) (o : Out) : (emit s o).nv = s.nv := rfl
@[simp] theorem emit_sec (s : State) (o : Out) : (emit s o).sec = s.sec := rfl
@[simp] theorem emit_flt (s : State) (o : Out) : (emit s o).flt = s.flt := rfl
@[simp] theorem emit_pwr (s : State) (o : Out) : (emit s o).pwr = s.pwr := rfl
@[simp] theorem emit_hu (s : State) (o : Out) : (emit s o).hu = s.hu := rfl
@[simp] theorem emit_rst (s : State) (o : Out) : (emit s o).rst = s.rst := rfl
@[simp] theorem emit_pins (s : State) (o : Out) : (emit s o).pins = s.pins := rfl
@[simp] theorem emit_free (s : State) (o : Out) : (emit s o).free = s.free := rfl
@[simp] theorem emit_pending (s : State) (o : Out) : (emit s o).pending = s.pending := rfl

/-! ### writeDram -/

@[simp] theorem writeDram_dev (s : State) (o : Nat) (l : List Byte) : (writeDram s o l).dev = s.dev := rfl
@[simp] theorem writeDram_hp (s : State) (o : Nat) (l : List Byte) : (writeDram s o l).hp = s.hp := rfl
@[simp] theorem writeDram_evt (s : State) (o : Nat) (l : List Byte) : (writeDram s o l).evt = s.evt := rfl
@[simp] theorem writeDram_sched (s : State) (o : Nat) (l : List Byte) : (writeDram s o l).sched = s.sched := rfl
@[simp] theorem writeDram_cls (s : State) (o : Nat) (l : List Byte) : (writeDram s o l).cls = s.cls := rfl
@[simp] theorem writeDram_fs (s : State) (o : Nat) (l : List Byte) : (writeDram s o l).fs = s.fs := rfl
@[simp] theorem writeDram_mv (s : State) (o : Nat) (l : List Byte) : (writeDram s o l).mv = s.mv := rfl
@[simp] theorem writeDram_ce (s : State) (o : Nat) (l : List Byte) : (writeDram s o l).ce = s.ce := rfl
@[simp] theorem writeDram_cp (s : State) (o : Nat) (l : List Byte) : (writeDram s o l).cp = s.cp := rfl
@[simp] theorem writeDram_lk (s : State) (o : Nat) (l : List Byte) : (writeDram s o l).lk = s.lk := rfl
@[simp] theorem writeDram_tw (s : State) (o : Nat) (l : List Byte) : (writeDram s o l).tw = s.tw := rfl
@[simp] theorem writeDram_nv (s : State) (o : Nat) (l : List Byte) : (writeDram s o l).nv = s.nv := rfl
@[simp] theorem writeDram_sec (s : State) (o : Nat) (l : List Byte) : (writeDram s o l).sec = s.sec := rfl
@[simp] theorem writeDram_flt (s : State) (o : Nat) (l : List Byte) : (writeDram s o l).flt = s.flt := rfl
@[simp] theorem writeDram_pwr (s : State) (o : Nat) (l : List Byte) : (writeDram s o l).pwr = s.pwr := rfl
@[simp] theorem writeDram_hu (s : State) (o : Nat) (l : List Byte) : (writeDram s o l).hu = s.hu := rfl
@[simp] theorem writeDram_rst (s : State) (o : Nat) (l : List Byte) : (writeDram s o l).rst = s.rst := rfl
@[simp] theorem writeDram_pins (s : State) (o : Nat) (l : List Byte) : (writeDram s o l).pins = s.pins := rfl
@[simp] theorem writeDram_free (s : State) (o : Nat) (l : List Byte) : (writeDram s o l).free = s.free := rfl
@[simp] theorem writeDram_out (s : State) (o : Nat) (l : List Byte) : (writeDram s o l).out = s.out := rfl
@[simp] theorem writeDram_pending (s : State) (o : Nat) (l : List Byte) : (writeDram s o l).pending = s.pending := rfl

/-! ### writeLoc -/

@[simp] theorem writeLoc_dev (s : State) (o : Nat) (l : List Byte) : (writeLoc s o l).dev = s.dev := rfl
@[simp] theorem writeLoc_hp (s : State) (o : Nat) (l : List Byte) : (writeLoc s o l).hp = s.hp := rfl
@[simp] theorem writeLoc_evt (s : State) (o : Nat) (l : List Byte) : (writeLoc s o l).evt = s.evt := rfl
@[simp] theorem writeLoc_sched (s : State) (o : Nat) (l : List Byte) : (writeLoc s o l).sched = s.sched := rfl
@[simp] theorem writeLoc_cls (s : State) (o : Nat) (l : List Byte) : (writeLoc s o l).cls = s.cls := rfl
@[simp] theorem writeLoc_fs (s : State) (o : Nat) (l : List Byte) : (writeLoc s o l).fs = s.fs := rfl
@[simp] theorem writeLoc_mv (s : State) (o : Nat) (l : List Byte) : (writeLoc s o l).mv = s.mv := rfl
@[simp] theorem writeLoc_ce (s : State) (o : Nat) (l : List Byte) : (writeLoc s o l).ce = s.ce := rfl
@[simp] theorem writeLoc_cp (s : State) (o : Nat) (l : List Byte) : (writeLoc s o l).cp = s.cp := rfl
@[simp] theorem writeLoc_lk (s : State) (o : Nat) (l : List Byte) : (writeLoc s o l).lk = s.lk := rfl
@[simp] theorem writeLoc_tw (s : State) (o : Nat) (l : List Byte) : (writeLoc s o l).tw = s.tw := rfl
@[simp] theorem writeLoc_nv (s : State) (o : Nat) (l : List Byte) : (writeLoc s o l).nv = s.nv := rfl
@[simp] theorem writeLoc_sec (s : State) (o : Nat) (l : List Byte) : (writeLoc s o l).sec = s.sec := rfl
@[simp] theorem writeLoc_flt (s : State) (o : Nat) (l : List Byte) : (writeLoc s o l).flt = s.flt := rfl
@[simp] theorem writeLoc_pwr (s : State) (o : Nat) (l : List Byte) : (writeLoc s o l).pwr = s.pwr := rfl
@[simp] theorem writeLoc_hu (s : State) (o : Nat) (l : List Byte) : (writeLoc s o l).hu = s.hu := rfl
@[simp] theorem writeLoc_rst (s : State) (o : Nat) (l : List Byte) : (writeLoc s o l).rst = s.rst := rfl
@[simp] theorem writeLoc_pins (s : State) (o : Nat) (l : List Byte) : (writeLoc s o l).pins = s.pins := rfl
@[simp] theorem writeLoc_free (s : State) (o : Nat) (l : List Byte) : (writeLoc s o l).free = s.free := rfl
@[simp] theorem writeLoc_out (s : State) (o : Nat) (l : List Byte) : (writeLoc s o l).out = s.out := rfl
@[simp] theorem writeLoc_pending (s : State) (o : Nat) (l : List Byte) : (writeLoc s o l).pending = s.pending := rfl

/-! ### writeTcm -/

@[simp] theorem writeTcm_dev (s : State) (o : Nat) (l : List Byte) : (writeTcm s o l).dev = s.dev := rfl
@[simp] theorem writeTcm_hp (s : State) (o : Nat) (l : List Byte) : (writeTcm s o l).hp = s.hp := rfl
@[simp] theorem writeTcm_evt (s : State) (o : Nat) (l : List Byte) : (writeTcm s o l).evt = s.evt := rfl
@[simp] theorem writeTcm_sched (s : State) (o : Nat) (l : List Byte) : (writeTcm s o l).sched = s.sched := rfl
@[simp] theorem writeTcm_cls (s : State) (o : Nat) (l : List Byte) : (writeTcm s o l).cls = s.cls := rfl
@[simp] theorem writeTcm_fs (s : State) (o : Nat) (l : List Byte) : (writeTcm s o l).fs = s.fs := rfl
@[simp] theorem writeTcm_mv (s : State) (o : Nat) (l : List Byte) : (writeTcm s o l).mv = s.mv := rfl
@[simp] theorem writeTcm_ce (s : State) (o : Nat) (l : List Byte) : (writeTcm s o l).ce = s.ce := rfl
@[simp] theorem writeTcm_cp (s : State) (o : Nat) (l : List Byte) : (writeTcm s o l).cp = s.cp := rfl
@[simp] theorem writeTcm_lk (s : State) (o : Nat) (l : List Byte) : (writeTcm s o l).lk = s.lk := rfl
@[simp] theorem writeTcm_tw (s : State) (o : Nat) (l : List Byte) : (writeTcm s o l).tw = s.tw := rfl
@[simp] theorem writeTcm_nv (s : State) (o : Nat) (l : List Byte) : (writeTcm s o l).nv = s.nv := rfl
@[simp] theorem writeTcm_sec (s : State) (o : Nat) (l : List Byte) : (writeTcm s o l).sec = s.sec := rfl
@[simp] theorem writeTcm_flt (s : State) (o : Nat) (l : List Byte) : (writeTcm s o l).flt = s.flt := rfl
@[simp] theorem writeTcm_pwr (s : State) (o : Nat) (l : List Byte) : (writeTcm s o l).pwr = s.pwr := rfl
@[simp] theorem writeTcm_hu (s : State) (o : Nat) (l : List Byte) : (writeTcm s o l).hu = s.hu := rfl
@[simp] theorem writeTcm_rst (s : State) (o : Nat) (l : List Byte) : (writeTcm s o l).rst = s.rst := rfl
@[simp] theorem writeTcm_pins (s : State) (o : Nat) (l : List Byte) : (writeTcm s o l).pins = s.pins := rfl
@[simp] theorem writeTcm_free (s : State) (o : Nat) (l : List Byte) : (writeTcm s o l).free = s.free := rfl
@[simp] theorem writeTcm_out (s : State) (o : Nat) (l : List Byte) : (writeTcm s o l).out = s.out := rfl
@[simp] theorem writeTcm_pending (s : State) (o : Nat) (l : List Byte) : (writeTcm s o l).pending = s.pending := rfl

/-! ### writeHostRaw -/

@[simp] theorem writeHostRaw_dev (s : State) (o : Nat) (l : List Byte) : (writeHostRaw s o l).dev = s.dev := rfl
@[simp] theorem writeHostRaw_hp (s : State) (o : Nat) (l : List Byte) : (writeHostRaw s o l).hp = s.hp := rfl
@[simp] theorem writeHostRaw_evt (s : State) (o : Nat) (l : List Byte) : (writeHostRaw s o l).evt = s.evt := rfl
@[simp] theorem writeHostRaw_sched (s : State) (o : Nat) (l : List Byte) : (writeHostRaw s o l).sched = s.sched := rfl
@[simp] theorem writeHostRaw_cls (s : State) (o : Nat) (l : List Byte) : (writeHostRaw s o l).cls = s.cls := rfl
@[simp] theorem writeHostRaw_fs (s : State) (o : Nat) (l : List Byte) : (writeHostRaw s o l).fs = s.fs := rfl
@[simp] theorem writeHostRaw_mv (s : State) (o : Nat) (l : List Byte) : (writeHostRaw s o l).mv = s.mv := rfl
@[simp] theorem writeHostRaw_ce (s : State) (o : Nat) (l : List Byte) : (writeHostRaw s o l).ce = s.ce := rfl
@[simp] theorem writeHostRaw_cp (s : State) (o : Nat) (l : List Byte) : (writeHostRaw s o l).cp = s.cp := rfl
@[simp] theorem writeHostRaw_lk (s : State) (o : Nat) (l : List Byte) : (writeHostRaw s o l).lk = s.lk := rfl
@[simp] theorem writeHostRaw_tw (s : State) (o : Nat) (l : List Byte) : (writeHostRaw s o l).tw = s.tw := rfl
@[simp] theorem writeHostRaw_nv (s : State) (o : Nat) (l : List Byte) : (writeHostRaw s o l).nv = s.nv := rfl
@[simp] theorem writeHostRaw_sec (s : State) (o : Nat) (l : List Byte) : (writeHostRaw s o l).sec = s.sec := rfl
@[simp] theorem writeHostRaw_flt (s : State) (o : Nat) (l : List Byte) : (writeHostRaw s o l).flt = s.flt := rfl
@[simp] theorem writeHostRaw_pwr (s : State) (o : Nat) (l : List Byte) : (writeHostRaw s o l).pwr = s.pwr := rfl
@[simp] theorem writeHostRaw_hu (s : State) (o : Nat) (l : List Byte) : (writeHostRaw s o l).hu = s.hu := rfl
@[simp] theorem writeHostRaw_rst (s : State) (o : Nat) (l : List Byte) : (writeHostRaw s o l).rst = s.rst := rfl
@[simp] theorem writeHostRaw_pins (s : State) (o : Nat) (l : List Byte) : (writeHostRaw s o l).pins = s.pins := rfl
@[simp] theorem writeHostRaw_free (s : State) (o : Nat) (l : List Byte) : (writeHostRaw s o l).free = s.free := rfl
@[simp] theorem writeHostRaw_out (s : State) (o : Nat) (l : List Byte) : (writeHostRaw s o l).out = s.out := rfl
@[simp] theorem writeHostRaw_pending (s : State) (o : Nat) (l : List Byte) : (writeHostRaw s o l).pending = s.pending := rfl

/-! ### setFunc -/

@[simp] theorem setFunc_dev (s : State) (m : Master) (f : Func) : (setFunc s m f).dev = s.dev := rfl
@[simp] theorem setFunc_mem (s : State) (m : Master) (f : Func) : (setFunc s m f).mem = s.mem := rfl
@[simp] theorem setFunc_evt (s : State) (m : Master) (f : Func) : (setFunc s m f).evt = s.evt := rfl
@[simp] theorem setFunc_sched (s : State) (m : Master) (f : Func) : (setFunc s m f).sched = s.sched := rfl
@[simp] theorem setFunc_cls (s : State) (m : Master) (f : Func) : (setFunc s m f).cls = s.cls := rfl
@[simp] theorem setFunc_fs (s : State) (m : Master) (f : Func) : (setFunc s m f).fs = s.fs := rfl
@[simp] theorem setFunc_mv (s : State) (m : Master) (f : Func) : (setFunc s m f).mv = s.mv := rfl
@[simp] theorem setFunc_ce (s : State) (m : Master) (f : Func) : (setFunc s m f).ce = s.ce := rfl
@[simp] theorem setFunc_cp (s : State) (m : Master) (f : Func) : (setFunc s m f).cp = s.cp := rfl
@[simp] theorem setFunc_lk (s : State) (m : Master) (f : Func) : (setFunc s m f).lk = s.lk := rfl
@[simp] theorem setFunc_tw (s : State) (m : Master) (f : Func) : (setFunc s m f).tw = s.tw := rfl
@[simp] theorem setFunc_nv (s : State) (m : Master) (f : Func) : (setFunc s m f).nv = s.nv := rfl
@[simp] theorem setFunc_sec (s : State) (m : Master) (f : Func) : (setFunc s m f).sec = s.sec := rfl
@[simp] theorem setFunc_flt (s : State) (m : Master) (f : Func) : (setFunc s m f).flt = s.flt := rfl
@[simp] theorem setFunc_pwr (s : State) (m : Master) (f : Func) : (setFunc s m f).pwr = s.pwr := rfl
@[simp] theorem setFunc_hu (s : State) (m : Master) (f : Func) : (setFunc s m f).hu = s.hu := rfl
@[simp] theorem setFunc_rst (s : State) (m : Master) (f : Func) : (setFunc s m f).rst = s.rst := rfl
@[simp] theorem setFunc_pins (s : State) (m : Master) (f : Func) : (setFunc s m f).pins = s.pins := rfl
@[simp] theorem setFunc_free (s : State) (m : Master) (f : Func) : (setFunc s m f).free = s.free := rfl
@[simp] theorem setFunc_out (s : State) (m : Master) (f : Func) : (setFunc s m f).out = s.out := rfl
@[simp] theorem setFunc_pending (s : State) (m : Master) (f : Func) : (setFunc s m f).pending = s.pending := rfl

/-! ### modFunc -/

@[simp] theorem modFunc_dev (s : State) (m : Master) (g : Func → Func) : (modFunc s m g).dev = s.dev := rfl
@[simp] theorem modFunc_mem (s : State) (m : Master) (g : Func → Func) : (modFunc s m g).mem = s.mem := rfl
@[simp] theorem modFunc_evt (s : State) (m : Master) (g : Func → Func) : (modFunc s m g).evt = s.evt := rfl
@[simp] theorem modFunc_sched (s : State) (m : Master) (g : Func → Func) : (modFunc s m g).sched = s.sched := rfl
@[simp] theorem modFunc_cls (s : State) (m : Master) (g : Func → Func) : (modFunc s m g).cls = s.cls := rfl
@[simp] theorem modFunc_fs (s : State) (m : Master) (g : Func → Func) : (modFunc s m g).fs = s.fs := rfl
@[simp] theorem modFunc_mv (s : State) (m : Master) (g : Func → Func) : (modFunc s m g).mv = s.mv := rfl
@[simp] theorem modFunc_ce (s : State) (m : Master) (g : Func → Func) : (modFunc s m g).ce = s.ce := rfl
@[simp] theorem modFunc_cp (s : State) (m : Master) (g : Func → Func) : (modFunc s m g).cp = s.cp := rfl
@[simp] theorem modFunc_lk (s : State) (m : Master) (g : Func → Func) : (modFunc s m g).lk = s.lk := rfl
@[simp] theorem modFunc_tw (s : State) (m : Master) (g : Func → Func) : (modFunc s m g).tw = s.tw := rfl
@[simp] theorem modFunc_nv (s : State) (m : Master) (g : Func → Func) : (modFunc s m g).nv = s.nv := rfl
@[simp] theorem modFunc_sec (s : State) (m : Master) (g : Func → Func) : (modFunc s m g).sec = s.sec := rfl
@[simp] theorem modFunc_flt (s : State) (m : Master) (g : Func → Func) : (modFunc s m g).flt = s.flt := rfl
@[simp] theorem modFunc_pwr (s : State) (m : Master) (g : Func → Func) : (modFunc s m g).pwr = s.pwr := rfl
@[simp] theorem modFunc_hu (s : State) (m : Master) (g : Func → Func) : (modFunc s m g).hu = s.hu := rfl
@[simp] theorem modFunc_rst (s : State) (m : Master) (g : Func → Func) : (modFunc s m g).rst = s.rst := rfl
@[simp] theorem modFunc_pins (s : State) (m : Master) (g : Func → Func) : (modFunc s m g).pins = s.pins := rfl
@[simp] theorem modFunc_free (s : State) (m : Master) (g : Func → Func) : (modFunc s m g).free = s.free := rfl
@[simp] theorem modFunc_out (s : State) (m : Master) (g : Func → Func) : (modFunc s m g).out = s.out := rfl
@[simp] theorem modFunc_pending (s : State) (m : Master) (g : Func → Func) : (modFunc s m g).pending = s.pending := rfl

/-! ### setVec -/

@[simp] theorem setVec_dev (s : State) (m : Master) (n : Nat) (v : Vec) : (setVec s m n v).dev = s.dev := rfl
@[simp] theorem setVec_mem (s : State) (m : Master) (n : Nat) (v : Vec) : (setVec s m n v).mem = s.mem := rfl
@[simp] theorem setVec_evt (s : State) (m : Master) (n : Nat) (v : Vec) : (setVec s m n v).evt = s.evt := rfl
@[simp] theorem setVec_sched (s : State) (m : Master) (n : Nat) (v : Vec) : (setVec s m n v).sched = s.sched := rfl
@[simp] theorem setVec_cls (s : State) (m : Master) (n : Nat) (v : Vec) : (setVec s m n v).cls = s.cls := rfl
@[simp] theorem setVec_fs (s : State) (m : Master) (n : Nat) (v : Vec) : (setVec s m n v).fs = s.fs := rfl
@[simp] theorem setVec_mv (s : State) (m : Master) (n : Nat) (v : Vec) : (setVec s m n v).mv = s.mv := rfl
@[simp] theorem setVec_ce (s : State) (m : Master) (n : Nat) (v : Vec) : (setVec s m n v).ce = s.ce := rfl
@[simp] theorem setVec_cp (s : State) (m : Master) (n : Nat) (v : Vec) : (setVec s m n v).cp = s.cp := rfl
@[simp] theorem setVec_lk (s : State) (m : Master) (n : Nat) (v : Vec) : (setVec s m n v).lk = s.lk := rfl
@[simp] theorem setVec_tw (s : State) (m : Master) (n : Nat) (v : Vec) : (setVec s m n v).tw = s.tw := rfl
@[simp] theorem setVec_nv (s : State) (m : Master) (n : Nat) (v : Vec) : (setVec s m n v).nv = s.nv := rfl
@[simp] theorem setVec_sec (s : State) (m : Master) (n : Nat) (v : Vec) : (setVec s m n v).sec = s.sec := rfl
@[simp] theorem setVec_flt (s : State) (m : Master) (n : Nat) (v : Vec) : (setVec s m n v).flt = s.flt := rfl
@[simp] theorem setVec_pwr (s : State) (m : Master) (n : Nat) (v : Vec) : (setVec s m n v).pwr = s.pwr := rfl
@[simp] theorem setVec_hu (s : State) (m : Master) (n : Nat) (v : Vec) : (setVec s m n v).hu = s.hu := rfl
@[simp] theorem setVec_rst (s : State) (m : Master) (n : Nat) (v : Vec) : (setVec s m n v).rst = s.rst := rfl
@[simp] theorem setVec_pins (s : State) (m : Master) (n : Nat) (v : Vec) : (setVec s m n v).pins = s.pins := rfl
@[simp] theorem setVec_free (s : State) (m : Master) (n : Nat) (v : Vec) : (setVec s m n v).free = s.free := rfl
@[simp] theorem setVec_out (s : State) (m : Master) (n : Nat) (v : Vec) : (setVec s m n v).out = s.out := rfl
@[simp] theorem setVec_pending (s : State) (m : Master) (n : Nat) (v : Vec) : (setVec s m n v).pending = s.pending := rfl

/-! ### setMv -/

@[simp] theorem setMv_dev (s : State) (m : Nat) (x : Mover) : (setMv s m x).dev = s.dev := rfl
@[simp] theorem setMv_mem (s : State) (m : Nat) (x : Mover) : (setMv s m x).mem = s.mem := rfl
@[simp] theorem setMv_hp (s : State) (m : Nat) (x : Mover) : (setMv s m x).hp = s.hp := rfl
@[simp] theorem setMv_evt (s : State) (m : Nat) (x : Mover) : (setMv s m x).evt = s.evt := rfl
@[simp] theorem setMv_sched (s : State) (m : Nat) (x : Mover) : (setMv s m x).sched = s.sched := rfl
@[simp] theorem setMv_cls (s : State) (m : Nat) (x : Mover) : (setMv s m x).cls = s.cls := rfl
@[simp] theorem setMv_fs (s : State) (m : Nat) (x : Mover) : (setMv s m x).fs = s.fs := rfl
@[simp] theorem setMv_ce (s : State) (m : Nat) (x : Mover) : (setMv s m x).ce = s.ce := rfl
@[simp] theorem setMv_cp (s : State) (m : Nat) (x : Mover) : (setMv s m x).cp = s.cp := rfl
@[simp] theorem setMv_lk (s : State) (m : Nat) (x : Mover) : (setMv s m x).lk = s.lk := rfl
@[simp] theorem setMv_tw (s : State) (m : Nat) (x : Mover) : (setMv s m x).tw = s.tw := rfl
@[simp] theorem setMv_nv (s : State) (m : Nat) (x : Mover) : (setMv s m x).nv = s.nv := rfl
@[simp] theorem setMv_sec (s : State) (m : Nat) (x : Mover) : (setMv s m x).sec = s.sec := rfl
@[simp] theorem setMv_flt (s : State) (m : Nat) (x : Mover) : (setMv s m x).flt = s.flt := rfl
@[simp] theorem setMv_pwr (s : State) (m : Nat) (x : Mover) : (setMv s m x).pwr = s.pwr := rfl
@[simp] theorem setMv_hu (s : State) (m : Nat) (x : Mover) : (setMv s m x).hu = s.hu := rfl
@[simp] theorem setMv_rst (s : State) (m : Nat) (x : Mover) : (setMv s m x).rst = s.rst := rfl
@[simp] theorem setMv_pins (s : State) (m : Nat) (x : Mover) : (setMv s m x).pins = s.pins := rfl
@[simp] theorem setMv_free (s : State) (m : Nat) (x : Mover) : (setMv s m x).free = s.free := rfl
@[simp] theorem setMv_out (s : State) (m : Nat) (x : Mover) : (setMv s m x).out = s.out := rfl
@[simp] theorem setMv_pending (s : State) (m : Nat) (x : Mover) : (setMv s m x).pending = s.pending := rfl

/-! ### modMv -/

@[simp] theorem modMv_dev (s : State) (m : Nat) (f : Mover → Mover) : (modMv s m f).dev = s.dev := rfl
@[simp] theorem modMv_mem (s : State) (m : Nat) (f : Mover → Mover) : (modMv s m f).mem = s.mem := rfl
@[simp] theorem modMv_hp (s : State) (m : Nat) (f : Mover → Mover) : (modMv s m f).hp = s.hp := rfl
@[simp] theorem modMv_evt (s : State) (m : Nat) (f : Mover → Mover) : (modMv s m f).evt = s.evt := rfl
@[simp] theorem modMv_sched (s : State) (m : Nat) (f : Mover → Mover) : (modMv s m f).sched = s.sched := rfl
@[simp] theorem modMv_cls (s : State) (m : Nat) (f : Mover → Mover) : (modMv s m f).cls = s.cls := rfl
@[simp] theorem modMv_fs (s : State) (m : Nat) (f : Mover → Mover) : (modMv s m f).fs = s.fs := rfl
@[simp] theorem modMv_ce (s : State) (m : Nat) (f : Mover → Mover) : (modMv s m f).ce = s.ce := rfl
@[simp] theorem modMv_cp (s : State) (m : Nat) (f : Mover → Mover) : (modMv s m f).cp = s.cp := rfl
@[simp] theorem modMv_lk (s : State) (m : Nat) (f : Mover → Mover) : (modMv s m f).lk = s.lk := rfl
@[simp] theorem modMv_tw (s : State) (m : Nat) (f : Mover → Mover) : (modMv s m f).tw = s.tw := rfl
@[simp] theorem modMv_nv (s : State) (m : Nat) (f : Mover → Mover) : (modMv s m f).nv = s.nv := rfl
@[simp] theorem modMv_sec (s : State) (m : Nat) (f : Mover → Mover) : (modMv s m f).sec = s.sec := rfl
@[simp] theorem modMv_flt (s : State) (m : Nat) (f : Mover → Mover) : (modMv s m f).flt = s.flt := rfl
@[simp] theorem modMv_pwr (s : State) (m : Nat) (f : Mover → Mover) : (modMv s m f).pwr = s.pwr := rfl
@[simp] theorem modMv_hu (s : State) (m : Nat) (f : Mover → Mover) : (modMv s m f).hu = s.hu := rfl
@[simp] theorem modMv_rst (s : State) (m : Nat) (f : Mover → Mover) : (modMv s m f).rst = s.rst := rfl
@[simp] theorem modMv_pins (s : State) (m : Nat) (f : Mover → Mover) : (modMv s m f).pins = s.pins := rfl
@[simp] theorem modMv_free (s : State) (m : Nat) (f : Mover → Mover) : (modMv s m f).free = s.free := rfl
@[simp] theorem modMv_out (s : State) (m : Nat) (f : Mover → Mover) : (modMv s m f).out = s.out := rfl
@[simp] theorem modMv_pending (s : State) (m : Nat) (f : Mover → Mover) : (modMv s m f).pending = s.pending := rfl

/-! ### modClause -/

@[simp] theorem modClause_dev (s : State) (b : Nat) (f : Clause → Clause) : (modClause s b f).dev = s.dev := rfl
@[simp] theorem modClause_mem (s : State) (b : Nat) (f : Clause → Clause) : (modClause s b f).mem = s.mem := rfl
@[simp] theorem modClause_hp (s : State) (b : Nat) (f : Clause → Clause) : (modClause s b f).hp = s.hp := rfl
@[simp] theorem modClause_evt (s : State) (b : Nat) (f : Clause → Clause) : (modClause s b f).evt = s.evt := rfl
@[simp] theorem modClause_sched (s : State) (b : Nat) (f : Clause → Clause) : (modClause s b f).sched = s.sched := rfl
@[simp] theorem modClause_fs (s : State) (b : Nat) (f : Clause → Clause) : (modClause s b f).fs = s.fs := rfl
@[simp] theorem modClause_mv (s : State) (b : Nat) (f : Clause → Clause) : (modClause s b f).mv = s.mv := rfl
@[simp] theorem modClause_ce (s : State) (b : Nat) (f : Clause → Clause) : (modClause s b f).ce = s.ce := rfl
@[simp] theorem modClause_cp (s : State) (b : Nat) (f : Clause → Clause) : (modClause s b f).cp = s.cp := rfl
@[simp] theorem modClause_lk (s : State) (b : Nat) (f : Clause → Clause) : (modClause s b f).lk = s.lk := rfl
@[simp] theorem modClause_tw (s : State) (b : Nat) (f : Clause → Clause) : (modClause s b f).tw = s.tw := rfl
@[simp] theorem modClause_nv (s : State) (b : Nat) (f : Clause → Clause) : (modClause s b f).nv = s.nv := rfl
@[simp] theorem modClause_sec (s : State) (b : Nat) (f : Clause → Clause) : (modClause s b f).sec = s.sec := rfl
@[simp] theorem modClause_flt (s : State) (b : Nat) (f : Clause → Clause) : (modClause s b f).flt = s.flt := rfl
@[simp] theorem modClause_pwr (s : State) (b : Nat) (f : Clause → Clause) : (modClause s b f).pwr = s.pwr := rfl
@[simp] theorem modClause_hu (s : State) (b : Nat) (f : Clause → Clause) : (modClause s b f).hu = s.hu := rfl
@[simp] theorem modClause_rst (s : State) (b : Nat) (f : Clause → Clause) : (modClause s b f).rst = s.rst := rfl
@[simp] theorem modClause_pins (s : State) (b : Nat) (f : Clause → Clause) : (modClause s b f).pins = s.pins := rfl
@[simp] theorem modClause_free (s : State) (b : Nat) (f : Clause → Clause) : (modClause s b f).free = s.free := rfl
@[simp] theorem modClause_out (s : State) (b : Nat) (f : Clause → Clause) : (modClause s b f).out = s.out := rfl
@[simp] theorem modClause_pending (s : State) (b : Nat) (f : Clause → Clause) : (modClause s b f).pending = s.pending := rfl

/-! ### dropClause -/

@[simp] theorem dropClause_dev (s : State) (b : Nat) : (dropClause s b).dev = s.dev := rfl
@[simp] theorem dropClause_mem (s : State) (b : Nat) : (dropClause s b).mem = s.mem := rfl
@[simp] theorem dropClause_hp (s : State) (b : Nat) : (dropClause s b).hp = s.hp := rfl
@[simp] theorem dropClause_evt (s : State) (b : Nat) : (dropClause s b).evt = s.evt := rfl
@[simp] theorem dropClause_sched (s : State) (b : Nat) : (dropClause s b).sched = s.sched := rfl
@[simp] theorem dropClause_fs (s : State) (b : Nat) : (dropClause s b).fs = s.fs := rfl
@[simp] theorem dropClause_mv (s : State) (b : Nat) : (dropClause s b).mv = s.mv := rfl
@[simp] theorem dropClause_ce (s : State) (b : Nat) : (dropClause s b).ce = s.ce := rfl
@[simp] theorem dropClause_cp (s : State) (b : Nat) : (dropClause s b).cp = s.cp := rfl
@[simp] theorem dropClause_lk (s : State) (b : Nat) : (dropClause s b).lk = s.lk := rfl
@[simp] theorem dropClause_tw (s : State) (b : Nat) : (dropClause s b).tw = s.tw := rfl
@[simp] theorem dropClause_nv (s : State) (b : Nat) : (dropClause s b).nv = s.nv := rfl
@[simp] theorem dropClause_sec (s : State) (b : Nat) : (dropClause s b).sec = s.sec := rfl
@[simp] theorem dropClause_flt (s : State) (b : Nat) : (dropClause s b).flt = s.flt := rfl
@[simp] theorem dropClause_pwr (s : State) (b : Nat) : (dropClause s b).pwr = s.pwr := rfl
@[simp] theorem dropClause_hu (s : State) (b : Nat) : (dropClause s b).hu = s.hu := rfl
@[simp] theorem dropClause_rst (s : State) (b : Nat) : (dropClause s b).rst = s.rst := rfl
@[simp] theorem dropClause_pins (s : State) (b : Nat) : (dropClause s b).pins = s.pins := rfl
@[simp] theorem dropClause_free (s : State) (b : Nat) : (dropClause s b).free = s.free := rfl
@[simp] theorem dropClause_out (s : State) (b : Nat) : (dropClause s b).out = s.out := rfl
@[simp] theorem dropClause_pending (s : State) (b : Nat) : (dropClause s b).pending = s.pending := rfl

/-! ### setLock -/

@[simp] theorem setLock_dev (s : State) (a owner : Nat) (broken : Bool) : (setLock s a owner broken).dev = s.dev := rfl
@[simp] theorem setLock_mem (s : State) (a owner : Nat) (broken : Bool) : (setLock s a owner broken).mem = s.mem := rfl
@[simp] theorem setLock_hp (s : State) (a owner : Nat) (broken : Bool) : (setLock s a owner broken).hp = s.hp := rfl
@[simp] theorem setLock_evt (s : State) (a owner : Nat) (broken : Bool) : (setLock s a owner broken).evt = s.evt := rfl
@[simp] theorem setLock_sched (s : State) (a owner : Nat) (broken : Bool) : (setLock s a owner broken).sched = s.sched := rfl
@[simp] theorem setLock_fs (s : State) (a owner : Nat) (broken : Bool) : (setLock s a owner broken).fs = s.fs := rfl
@[simp] theorem setLock_mv (s : State) (a owner : Nat) (broken : Bool) : (setLock s a owner broken).mv = s.mv := rfl
@[simp] theorem setLock_ce (s : State) (a owner : Nat) (broken : Bool) : (setLock s a owner broken).ce = s.ce := rfl
@[simp] theorem setLock_cp (s : State) (a owner : Nat) (broken : Bool) : (setLock s a owner broken).cp = s.cp := rfl
@[simp] theorem setLock_lk (s : State) (a owner : Nat) (broken : Bool) : (setLock s a owner broken).lk = s.lk := rfl
@[simp] theorem setLock_tw (s : State) (a owner : Nat) (broken : Bool) : (setLock s a owner broken).tw = s.tw := rfl
@[simp] theorem setLock_nv (s : State) (a owner : Nat) (broken : Bool) : (setLock s a owner broken).nv = s.nv := rfl
@[simp] theorem setLock_sec (s : State) (a owner : Nat) (broken : Bool) : (setLock s a owner broken).sec = s.sec := rfl
@[simp] theorem setLock_flt (s : State) (a owner : Nat) (broken : Bool) : (setLock s a owner broken).flt = s.flt := rfl
@[simp] theorem setLock_pwr (s : State) (a owner : Nat) (broken : Bool) : (setLock s a owner broken).pwr = s.pwr := rfl
@[simp] theorem setLock_hu (s : State) (a owner : Nat) (broken : Bool) : (setLock s a owner broken).hu = s.hu := rfl
@[simp] theorem setLock_rst (s : State) (a owner : Nat) (broken : Bool) : (setLock s a owner broken).rst = s.rst := rfl
@[simp] theorem setLock_pins (s : State) (a owner : Nat) (broken : Bool) : (setLock s a owner broken).pins = s.pins := rfl
@[simp] theorem setLock_free (s : State) (a owner : Nat) (broken : Bool) : (setLock s a owner broken).free = s.free := rfl
@[simp] theorem setLock_out (s : State) (a owner : Nat) (broken : Bool) : (setLock s a owner broken).out = s.out := rfl
@[simp] theorem setLock_pending (s : State) (a owner : Nat) (broken : Bool) : (setLock s a owner broken).pending = s.pending := rfl

/-! ### delLock -/

@[simp] theorem delLock_dev (s : State) (a : Nat) : (delLock s a).dev = s.dev := rfl
@[simp] theorem delLock_mem (s : State) (a : Nat) : (delLock s a).mem = s.mem := rfl
@[simp] theorem delLock_hp (s : State) (a : Nat) : (delLock s a).hp = s.hp := rfl
@[simp] theorem delLock_evt (s : State) (a : Nat) : (delLock s a).evt = s.evt := rfl
@[simp] theorem delLock_sched (s : State) (a : Nat) : (delLock s a).sched = s.sched := rfl
@[simp] theorem delLock_fs (s : State) (a : Nat) : (delLock s a).fs = s.fs := rfl
@[simp] theorem delLock_mv (s : State) (a : Nat) : (delLock s a).mv = s.mv := rfl
@[simp] theorem delLock_ce (s : State) (a : Nat) : (delLock s a).ce = s.ce := rfl
@[simp] theorem delLock_cp (s : State) (a : Nat) : (delLock s a).cp = s.cp := rfl
@[simp] theorem delLock_lk (s : State) (a : Nat) : (delLock s a).lk = s.lk := rfl
@[simp] theorem delLock_tw (s : State) (a : Nat) : (delLock s a).tw = s.tw := rfl
@[simp] theorem delLock_nv (s : State) (a : Nat) : (delLock s a).nv = s.nv := rfl
@[simp] theorem delLock_sec (s : State) (a : Nat) : (delLock s a).sec = s.sec := rfl
@[simp] theorem delLock_flt (s : State) (a : Nat) : (delLock s a).flt = s.flt := rfl
@[simp] theorem delLock_pwr (s : State) (a : Nat) : (delLock s a).pwr = s.pwr := rfl
@[simp] theorem delLock_hu (s : State) (a : Nat) : (delLock s a).hu = s.hu := rfl
@[simp] theorem delLock_rst (s : State) (a : Nat) : (delLock s a).rst = s.rst := rfl
@[simp] theorem delLock_pins (s : State) (a : Nat) : (delLock s a).pins = s.pins := rfl
@[simp] theorem delLock_free (s : State) (a : Nat) : (delLock s a).free = s.free := rfl
@[simp] theorem delLock_out (s : State) (a : Nat) : (delLock s a).out = s.out := rfl
@[simp] theorem delLock_pending (s : State) (a : Nat) : (delLock s a).pending = s.pending := rfl

/-! ### modNum -/

@[simp] theorem modNum_dev (s : State) (n : Nat) (f : NClause → NClause) : (modNum s n f).dev = s.dev := rfl
@[simp] theorem modNum_mem (s : State) (n : Nat) (f : NClause → NClause) : (modNum s n f).mem = s.mem := rfl
@[simp] theorem modNum_hp (s : State) (n : Nat) (f : NClause → NClause) : (modNum s n f).hp = s.hp := rfl
@[simp] theorem modNum_evt (s : State) (n : Nat) (f : NClause → NClause) : (modNum s n f).evt = s.evt := rfl
@[simp] theorem modNum_sched (s : State) (n : Nat) (f : NClause → NClause) : (modNum s n f).sched = s.sched := rfl
@[simp] theorem modNum_cls (s : State) (n : Nat) (f : NClause → NClause) : (modNum s n f).cls = s.cls := rfl
@[simp] theorem modNum_mv (s : State) (n : Nat) (f : NClause → NClause) : (modNum s n f).mv = s.mv := rfl
@[simp] theorem modNum_ce (s : State) (n : Nat) (f : NClause → NClause) : (modNum s n f).ce = s.ce := rfl
@[simp] theorem modNum_cp (s : State) (n : Nat) (f : NClause → NClause) : (modNum s n f).cp = s.cp := rfl
@[simp] theorem modNum_lk (s : State) (n : Nat) (f : NClause → NClause) : (modNum s n f).lk = s.lk := rfl
@[simp] theorem modNum_tw (s : State) (n : Nat) (f : NClause → NClause) : (modNum s n f).tw = s.tw := rfl
@[simp] theorem modNum_nv (s : State) (n : Nat) (f : NClause → NClause) : (modNum s n f).nv = s.nv := rfl
@[simp] theorem modNum_sec (s : State) (n : Nat) (f : NClause → NClause) : (modNum s n f).sec = s.sec := rfl
@[simp] theorem modNum_flt (s : State) (n : Nat) (f : NClause → NClause) : (modNum s n f).flt = s.flt := rfl
@[simp] theorem modNum_pwr (s : State) (n : Nat) (f : NClause → NClause) : (modNum s n f).pwr = s.pwr := rfl
@[simp] theorem modNum_hu (s : State) (n : Nat) (f : NClause → NClause) : (modNum s n f).hu = s.hu := rfl
@[simp] theorem modNum_rst (s : State) (n : Nat) (f : NClause → NClause) : (modNum s n f).rst = s.rst := rfl
@[simp] theorem modNum_pins (s : State) (n : Nat) (f : NClause → NClause) : (modNum s n f).pins = s.pins := rfl
@[simp] theorem modNum_free (s : State) (n : Nat) (f : NClause → NClause) : (modNum s n f).free = s.free := rfl
@[simp] theorem modNum_out (s : State) (n : Nat) (f : NClause → NClause) : (modNum s n f).out = s.out := rfl
@[simp] theorem modNum_pending (s : State) (n : Nat) (f : NClause → NClause) : (modNum s n f).pending = s.pending := rfl

/-! ### setQ -/

@[simp] theorem setQ_dev (s : State) (q : Nat) (x : Quad) : (setQ s q x).dev = s.dev := rfl
@[simp] theorem setQ_mem (s : State) (q : Nat) (x : Quad) : (setQ s q x).mem = s.mem := rfl
@[simp] theorem setQ_hp (s : State) (q : Nat) (x : Quad) : (setQ s q x).hp = s.hp := rfl
@[simp] theorem setQ_evt (s : State) (q : Nat) (x : Quad) : (setQ s q x).evt = s.evt := rfl
@[simp] theorem setQ_sched (s : State) (q : Nat) (x : Quad) : (setQ s q x).sched = s.sched := rfl
@[simp] theorem setQ_cls (s : State) (q : Nat) (x : Quad) : (setQ s q x).cls = s.cls := rfl
@[simp] theorem setQ_fs (s : State) (q : Nat) (x : Quad) : (setQ s q x).fs = s.fs := rfl
@[simp] theorem setQ_mv (s : State) (q : Nat) (x : Quad) : (setQ s q x).mv = s.mv := rfl
@[simp] theorem setQ_ce (s : State) (q : Nat) (x : Quad) : (setQ s q x).ce = s.ce := rfl
@[simp] theorem setQ_cp (s : State) (q : Nat) (x : Quad) : (setQ s q x).cp = s.cp := rfl
@[simp] theorem setQ_tw (s : State) (q : Nat) (x : Quad) : (setQ s q x).tw = s.tw := rfl
@[simp] theorem setQ_nv (s : State) (q : Nat) (x : Quad) : (setQ s q x).nv = s.nv := rfl
@[simp] theorem setQ_sec (s : State) (q : Nat) (x : Quad) : (setQ s q x).sec = s.sec := rfl
@[simp] theorem setQ_flt (s : State) (q : Nat) (x : Quad) : (setQ s q x).flt = s.flt := rfl
@[simp] theorem setQ_pwr (s : State) (q : Nat) (x : Quad) : (setQ s q x).pwr = s.pwr := rfl
@[simp] theorem setQ_hu (s : State) (q : Nat) (x : Quad) : (setQ s q x).hu = s.hu := rfl
@[simp] theorem setQ_rst (s : State) (q : Nat) (x : Quad) : (setQ s q x).rst = s.rst := rfl
@[simp] theorem setQ_pins (s : State) (q : Nat) (x : Quad) : (setQ s q x).pins = s.pins := rfl
@[simp] theorem setQ_free (s : State) (q : Nat) (x : Quad) : (setQ s q x).free = s.free := rfl
@[simp] theorem setQ_out (s : State) (q : Nat) (x : Quad) : (setQ s q x).out = s.out := rfl
@[simp] theorem setQ_pending (s : State) (q : Nat) (x : Quad) : (setQ s q x).pending = s.pending := rfl

/-! ### setPort -/

@[simp] theorem setPort_dev (s : State) (q p : Nat) (x : Port) : (setPort s q p x).dev = s.dev := rfl
@[simp] theorem setPort_mem (s : State) (q p : Nat) (x : Port) : (setPort s q p x).mem = s.mem := rfl
@[simp] theorem setPort_hp (s : State) (q p : Nat) (x : Port) : (setPort s q p x).hp = s.hp := rfl
@[simp] theorem setPort_evt (s : State) (q p : Nat) (x : Port) : (setPort s q p x).evt = s.evt := rfl
@[simp] theorem setPort_sched (s : State) (q p : Nat) (x : Port) : (setPort s q p x).sched = s.sched := rfl
@[simp] theorem setPort_cls (s : State) (q p : Nat) (x : Port) : (setPort s q p x).cls = s.cls := rfl
@[simp] theorem setPort_fs (s : State) (q p : Nat) (x : Port) : (setPort s q p x).fs = s.fs := rfl
@[simp] theorem setPort_mv (s : State) (q p : Nat) (x : Port) : (setPort s q p x).mv = s.mv := rfl
@[simp] theorem setPort_ce (s : State) (q p : Nat) (x : Port) : (setPort s q p x).ce = s.ce := rfl
@[simp] theorem setPort_cp (s : State) (q p : Nat) (x : Port) : (setPort s q p x).cp = s.cp := rfl
@[simp] theorem setPort_tw (s : State) (q p : Nat) (x : Port) : (setPort s q p x).tw = s.tw := rfl
@[simp] theorem setPort_nv (s : State) (q p : Nat) (x : Port) : (setPort s q p x).nv = s.nv := rfl
@[simp] theorem setPort_sec (s : State) (q p : Nat) (x : Port) : (setPort s q p x).sec = s.sec := rfl
@[simp] theorem setPort_flt (s : State) (q p : Nat) (x : Port) : (setPort s q p x).flt = s.flt := rfl
@[simp] theorem setPort_pwr (s : State) (q p : Nat) (x : Port) : (setPort s q p x).pwr = s.pwr := rfl
@[simp] theorem setPort_hu (s : State) (q p : Nat) (x : Port) : (setPort s q p x).hu = s.hu := rfl
@[simp] theorem setPort_rst (s : State) (q p : Nat) (x : Port) : (setPort s q p x).rst = s.rst := rfl
@[simp] theorem setPort_pins (s : State) (q p : Nat) (x : Port) : (setPort s q p x).pins = s.pins := rfl
@[simp] theorem setPort_free (s : State) (q p : Nat) (x : Port) : (setPort s q p x).free = s.free := rfl
@[simp] theorem setPort_out (s : State) (q p : Nat) (x : Port) : (setPort s q p x).out = s.out := rfl
@[simp] theorem setPort_pending (s : State) (q p : Nat) (x : Port) : (setPort s q p x).pending = s.pending := rfl

/-! ### setOp -/

@[simp] theorem setOp_dev (s : State) (o : DevOp) : (setOp s o).dev = s.dev := rfl
@[simp] theorem setOp_mem (s : State) (o : DevOp) : (setOp s o).mem = s.mem := rfl
@[simp] theorem setOp_hp (s : State) (o : DevOp) : (setOp s o).hp = s.hp := rfl
@[simp] theorem setOp_evt (s : State) (o : DevOp) : (setOp s o).evt = s.evt := rfl
@[simp] theorem setOp_sched (s : State) (o : DevOp) : (setOp s o).sched = s.sched := rfl
@[simp] theorem setOp_cls (s : State) (o : DevOp) : (setOp s o).cls = s.cls := rfl
@[simp] theorem setOp_fs (s : State) (o : DevOp) : (setOp s o).fs = s.fs := rfl
@[simp] theorem setOp_mv (s : State) (o : DevOp) : (setOp s o).mv = s.mv := rfl
@[simp] theorem setOp_ce (s : State) (o : DevOp) : (setOp s o).ce = s.ce := rfl
@[simp] theorem setOp_cp (s : State) (o : DevOp) : (setOp s o).cp = s.cp := rfl
@[simp] theorem setOp_tw (s : State) (o : DevOp) : (setOp s o).tw = s.tw := rfl
@[simp] theorem setOp_nv (s : State) (o : DevOp) : (setOp s o).nv = s.nv := rfl
@[simp] theorem setOp_sec (s : State) (o : DevOp) : (setOp s o).sec = s.sec := rfl
@[simp] theorem setOp_flt (s : State) (o : DevOp) : (setOp s o).flt = s.flt := rfl
@[simp] theorem setOp_pwr (s : State) (o : DevOp) : (setOp s o).pwr = s.pwr := rfl
@[simp] theorem setOp_hu (s : State) (o : DevOp) : (setOp s o).hu = s.hu := rfl
@[simp] theorem setOp_rst (s : State) (o : DevOp) : (setOp s o).rst = s.rst := rfl
@[simp] theorem setOp_pins (s : State) (o : DevOp) : (setOp s o).pins = s.pins := rfl
@[simp] theorem setOp_free (s : State) (o : DevOp) : (setOp s o).free = s.free := rfl
@[simp] theorem setOp_out (s : State) (o : DevOp) : (setOp s o).out = s.out := rfl
@[simp] theorem setOp_pending (s : State) (o : DevOp) : (setOp s o).pending = s.pending := rfl

/-! ### delOp -/

@[simp] theorem delOp_dev (s : State) (id : Nat) : (delOp s id).dev = s.dev := rfl
@[simp] theorem delOp_mem (s : State) (id : Nat) : (delOp s id).mem = s.mem := rfl
@[simp] theorem delOp_hp (s : State) (id : Nat) : (delOp s id).hp = s.hp := rfl
@[simp] theorem delOp_evt (s : State) (id : Nat) : (delOp s id).evt = s.evt := rfl
@[simp] theorem delOp_sched (s : State) (id : Nat) : (delOp s id).sched = s.sched := rfl
@[simp] theorem delOp_cls (s : State) (id : Nat) : (delOp s id).cls = s.cls := rfl
@[simp] theorem delOp_fs (s : State) (id : Nat) : (delOp s id).fs = s.fs := rfl
@[simp] theorem delOp_mv (s : State) (id : Nat) : (delOp s id).mv = s.mv := rfl
@[simp] theorem delOp_ce (s : State) (id : Nat) : (delOp s id).ce = s.ce := rfl
@[simp] theorem delOp_cp (s : State) (id : Nat) : (delOp s id).cp = s.cp := rfl
@[simp] theorem delOp_tw (s : State) (id : Nat) : (delOp s id).tw = s.tw := rfl
@[simp] theorem delOp_nv (s : State) (id : Nat) : (delOp s id).nv = s.nv := rfl
@[simp] theorem delOp_sec (s : State) (id : Nat) : (delOp s id).sec = s.sec := rfl
@[simp] theorem delOp_flt (s : State) (id : Nat) : (delOp s id).flt = s.flt := rfl
@[simp] theorem delOp_pwr (s : State) (id : Nat) : (delOp s id).pwr = s.pwr := rfl
@[simp] theorem delOp_hu (s : State) (id : Nat) : (delOp s id).hu = s.hu := rfl
@[simp] theorem delOp_rst (s : State) (id : Nat) : (delOp s id).rst = s.rst := rfl
@[simp] theorem delOp_pins (s : State) (id : Nat) : (delOp s id).pins = s.pins := rfl
@[simp] theorem delOp_free (s : State) (id : Nat) : (delOp s id).free = s.free := rfl
@[simp] theorem delOp_out (s : State) (id : Nat) : (delOp s id).out = s.out := rfl
@[simp] theorem delOp_pending (s : State) (id : Nat) : (delOp s id).pending = s.pending := rfl

/-! ### setSq -/

@[simp] theorem setSq_dev (s : State) (n : Nat) (q : SQueue) : (setSq s n q).dev = s.dev := rfl
@[simp] theorem setSq_mem (s : State) (n : Nat) (q : SQueue) : (setSq s n q).mem = s.mem := rfl
@[simp] theorem setSq_evt (s : State) (n : Nat) (q : SQueue) : (setSq s n q).evt = s.evt := rfl
@[simp] theorem setSq_sched (s : State) (n : Nat) (q : SQueue) : (setSq s n q).sched = s.sched := rfl
@[simp] theorem setSq_cls (s : State) (n : Nat) (q : SQueue) : (setSq s n q).cls = s.cls := rfl
@[simp] theorem setSq_fs (s : State) (n : Nat) (q : SQueue) : (setSq s n q).fs = s.fs := rfl
@[simp] theorem setSq_mv (s : State) (n : Nat) (q : SQueue) : (setSq s n q).mv = s.mv := rfl
@[simp] theorem setSq_ce (s : State) (n : Nat) (q : SQueue) : (setSq s n q).ce = s.ce := rfl
@[simp] theorem setSq_cp (s : State) (n : Nat) (q : SQueue) : (setSq s n q).cp = s.cp := rfl
@[simp] theorem setSq_lk (s : State) (n : Nat) (q : SQueue) : (setSq s n q).lk = s.lk := rfl
@[simp] theorem setSq_tw (s : State) (n : Nat) (q : SQueue) : (setSq s n q).tw = s.tw := rfl
@[simp] theorem setSq_nv (s : State) (n : Nat) (q : SQueue) : (setSq s n q).nv = s.nv := rfl
@[simp] theorem setSq_sec (s : State) (n : Nat) (q : SQueue) : (setSq s n q).sec = s.sec := rfl
@[simp] theorem setSq_flt (s : State) (n : Nat) (q : SQueue) : (setSq s n q).flt = s.flt := rfl
@[simp] theorem setSq_pwr (s : State) (n : Nat) (q : SQueue) : (setSq s n q).pwr = s.pwr := rfl
@[simp] theorem setSq_hu (s : State) (n : Nat) (q : SQueue) : (setSq s n q).hu = s.hu := rfl
@[simp] theorem setSq_rst (s : State) (n : Nat) (q : SQueue) : (setSq s n q).rst = s.rst := rfl
@[simp] theorem setSq_pins (s : State) (n : Nat) (q : SQueue) : (setSq s n q).pins = s.pins := rfl
@[simp] theorem setSq_free (s : State) (n : Nat) (q : SQueue) : (setSq s n q).free = s.free := rfl
@[simp] theorem setSq_out (s : State) (n : Nat) (q : SQueue) : (setSq s n q).out = s.out := rfl
@[simp] theorem setSq_pending (s : State) (n : Nat) (q : SQueue) : (setSq s n q).pending = s.pending := rfl

/-! ### setMbx -/

@[simp] theorem setMbx_dev (s : State) (m : Nat) (x : Mbx) : (setMbx s m x).dev = s.dev := rfl
@[simp] theorem setMbx_mem (s : State) (m : Nat) (x : Mbx) : (setMbx s m x).mem = s.mem := rfl
@[simp] theorem setMbx_hp (s : State) (m : Nat) (x : Mbx) : (setMbx s m x).hp = s.hp := rfl
@[simp] theorem setMbx_sched (s : State) (m : Nat) (x : Mbx) : (setMbx s m x).sched = s.sched := rfl
@[simp] theorem setMbx_cls (s : State) (m : Nat) (x : Mbx) : (setMbx s m x).cls = s.cls := rfl
@[simp] theorem setMbx_fs (s : State) (m : Nat) (x : Mbx) : (setMbx s m x).fs = s.fs := rfl
@[simp] theorem setMbx_mv (s : State) (m : Nat) (x : Mbx) : (setMbx s m x).mv = s.mv := rfl
@[simp] theorem setMbx_ce (s : State) (m : Nat) (x : Mbx) : (setMbx s m x).ce = s.ce := rfl
@[simp] theorem setMbx_cp (s : State) (m : Nat) (x : Mbx) : (setMbx s m x).cp = s.cp := rfl
@[simp] theorem setMbx_lk (s : State) (m : Nat) (x : Mbx) : (setMbx s m x).lk = s.lk := rfl
@[simp] theorem setMbx_tw (s : State) (m : Nat) (x : Mbx) : (setMbx s m x).tw = s.tw := rfl
@[simp] theorem setMbx_nv (s : State) (m : Nat) (x : Mbx) : (setMbx s m x).nv = s.nv := rfl
@[simp] theorem setMbx_sec (s : State) (m : Nat) (x : Mbx) : (setMbx s m x).sec = s.sec := rfl
@[simp] theorem setMbx_flt (s : State) (m : Nat) (x : Mbx) : (setMbx s m x).flt = s.flt := rfl
@[simp] theorem setMbx_pwr (s : State) (m : Nat) (x : Mbx) : (setMbx s m x).pwr = s.pwr := rfl
@[simp] theorem setMbx_hu (s : State) (m : Nat) (x : Mbx) : (setMbx s m x).hu = s.hu := rfl
@[simp] theorem setMbx_rst (s : State) (m : Nat) (x : Mbx) : (setMbx s m x).rst = s.rst := rfl
@[simp] theorem setMbx_pins (s : State) (m : Nat) (x : Mbx) : (setMbx s m x).pins = s.pins := rfl
@[simp] theorem setMbx_free (s : State) (m : Nat) (x : Mbx) : (setMbx s m x).free = s.free := rfl
@[simp] theorem setMbx_out (s : State) (m : Nat) (x : Mbx) : (setMbx s m x).out = s.out := rfl
@[simp] theorem setMbx_pending (s : State) (m : Nat) (x : Mbx) : (setMbx s m x).pending = s.pending := rfl

/-! ### setArb -/

@[simp] theorem setArb_dev (s : State) (a : Nat) (x : Arb) : (setArb s a x).dev = s.dev := rfl
@[simp] theorem setArb_mem (s : State) (a : Nat) (x : Arb) : (setArb s a x).mem = s.mem := rfl
@[simp] theorem setArb_hp (s : State) (a : Nat) (x : Arb) : (setArb s a x).hp = s.hp := rfl
@[simp] theorem setArb_evt (s : State) (a : Nat) (x : Arb) : (setArb s a x).evt = s.evt := rfl
@[simp] theorem setArb_sched (s : State) (a : Nat) (x : Arb) : (setArb s a x).sched = s.sched := rfl
@[simp] theorem setArb_cls (s : State) (a : Nat) (x : Arb) : (setArb s a x).cls = s.cls := rfl
@[simp] theorem setArb_fs (s : State) (a : Nat) (x : Arb) : (setArb s a x).fs = s.fs := rfl
@[simp] theorem setArb_ce (s : State) (a : Nat) (x : Arb) : (setArb s a x).ce = s.ce := rfl
@[simp] theorem setArb_cp (s : State) (a : Nat) (x : Arb) : (setArb s a x).cp = s.cp := rfl
@[simp] theorem setArb_lk (s : State) (a : Nat) (x : Arb) : (setArb s a x).lk = s.lk := rfl
@[simp] theorem setArb_tw (s : State) (a : Nat) (x : Arb) : (setArb s a x).tw = s.tw := rfl
@[simp] theorem setArb_nv (s : State) (a : Nat) (x : Arb) : (setArb s a x).nv = s.nv := rfl
@[simp] theorem setArb_sec (s : State) (a : Nat) (x : Arb) : (setArb s a x).sec = s.sec := rfl
@[simp] theorem setArb_flt (s : State) (a : Nat) (x : Arb) : (setArb s a x).flt = s.flt := rfl
@[simp] theorem setArb_pwr (s : State) (a : Nat) (x : Arb) : (setArb s a x).pwr = s.pwr := rfl
@[simp] theorem setArb_hu (s : State) (a : Nat) (x : Arb) : (setArb s a x).hu = s.hu := rfl
@[simp] theorem setArb_rst (s : State) (a : Nat) (x : Arb) : (setArb s a x).rst = s.rst := rfl
@[simp] theorem setArb_pins (s : State) (a : Nat) (x : Arb) : (setArb s a x).pins = s.pins := rfl
@[simp] theorem setArb_free (s : State) (a : Nat) (x : Arb) : (setArb s a x).free = s.free := rfl
@[simp] theorem setArb_out (s : State) (a : Nat) (x : Arb) : (setArb s a x).out = s.out := rfl
@[simp] theorem setArb_pending (s : State) (a : Nat) (x : Arb) : (setArb s a x).pending = s.pending := rfl

/-! ### setCj -/

@[simp] theorem setCj_dev (s : State) (n : Nat) (c : Cj) : (setCj s n c).dev = s.dev := rfl
@[simp] theorem setCj_mem (s : State) (n : Nat) (c : Cj) : (setCj s n c).mem = s.mem := rfl
@[simp] theorem setCj_hp (s : State) (n : Nat) (c : Cj) : (setCj s n c).hp = s.hp := rfl
@[simp] theorem setCj_sched (s : State) (n : Nat) (c : Cj) : (setCj s n c).sched = s.sched := rfl
@[simp] theorem setCj_cls (s : State) (n : Nat) (c : Cj) : (setCj s n c).cls = s.cls := rfl
@[simp] theorem setCj_fs (s : State) (n : Nat) (c : Cj) : (setCj s n c).fs = s.fs := rfl
@[simp] theorem setCj_mv (s : State) (n : Nat) (c : Cj) : (setCj s n c).mv = s.mv := rfl
@[simp] theorem setCj_ce (s : State) (n : Nat) (c : Cj) : (setCj s n c).ce = s.ce := rfl
@[simp] theorem setCj_cp (s : State) (n : Nat) (c : Cj) : (setCj s n c).cp = s.cp := rfl
@[simp] theorem setCj_lk (s : State) (n : Nat) (c : Cj) : (setCj s n c).lk = s.lk := rfl
@[simp] theorem setCj_tw (s : State) (n : Nat) (c : Cj) : (setCj s n c).tw = s.tw := rfl
@[simp] theorem setCj_nv (s : State) (n : Nat) (c : Cj) : (setCj s n c).nv = s.nv := rfl
@[simp] theorem setCj_sec (s : State) (n : Nat) (c : Cj) : (setCj s n c).sec = s.sec := rfl
@[simp] theorem setCj_flt (s : State) (n : Nat) (c : Cj) : (setCj s n c).flt = s.flt := rfl
@[simp] theorem setCj_pwr (s : State) (n : Nat) (c : Cj) : (setCj s n c).pwr = s.pwr := rfl
@[simp] theorem setCj_hu (s : State) (n : Nat) (c : Cj) : (setCj s n c).hu = s.hu := rfl
@[simp] theorem setCj_rst (s : State) (n : Nat) (c : Cj) : (setCj s n c).rst = s.rst := rfl
@[simp] theorem setCj_pins (s : State) (n : Nat) (c : Cj) : (setCj s n c).pins = s.pins := rfl
@[simp] theorem setCj_free (s : State) (n : Nat) (c : Cj) : (setCj s n c).free = s.free := rfl
@[simp] theorem setCj_out (s : State) (n : Nat) (c : Cj) : (setCj s n c).out = s.out := rfl
@[simp] theorem setCj_pending (s : State) (n : Nat) (c : Cj) : (setCj s n c).pending = s.pending := rfl

/-! ### setProf -/

@[simp] theorem setProf_dev (s : State) (n : Nat) (p : Profile) : (setProf s n p).dev = s.dev := rfl
@[simp] theorem setProf_mem (s : State) (n : Nat) (p : Profile) : (setProf s n p).mem = s.mem := rfl
@[simp] theorem setProf_hp (s : State) (n : Nat) (p : Profile) : (setProf s n p).hp = s.hp := rfl
@[simp] theorem setProf_evt (s : State) (n : Nat) (p : Profile) : (setProf s n p).evt = s.evt := rfl
@[simp] theorem setProf_sched (s : State) (n : Nat) (p : Profile) : (setProf s n p).sched = s.sched := rfl
@[simp] theorem setProf_cls (s : State) (n : Nat) (p : Profile) : (setProf s n p).cls = s.cls := rfl
@[simp] theorem setProf_fs (s : State) (n : Nat) (p : Profile) : (setProf s n p).fs = s.fs := rfl
@[simp] theorem setProf_ce (s : State) (n : Nat) (p : Profile) : (setProf s n p).ce = s.ce := rfl
@[simp] theorem setProf_cp (s : State) (n : Nat) (p : Profile) : (setProf s n p).cp = s.cp := rfl
@[simp] theorem setProf_lk (s : State) (n : Nat) (p : Profile) : (setProf s n p).lk = s.lk := rfl
@[simp] theorem setProf_tw (s : State) (n : Nat) (p : Profile) : (setProf s n p).tw = s.tw := rfl
@[simp] theorem setProf_nv (s : State) (n : Nat) (p : Profile) : (setProf s n p).nv = s.nv := rfl
@[simp] theorem setProf_sec (s : State) (n : Nat) (p : Profile) : (setProf s n p).sec = s.sec := rfl
@[simp] theorem setProf_flt (s : State) (n : Nat) (p : Profile) : (setProf s n p).flt = s.flt := rfl
@[simp] theorem setProf_pwr (s : State) (n : Nat) (p : Profile) : (setProf s n p).pwr = s.pwr := rfl
@[simp] theorem setProf_hu (s : State) (n : Nat) (p : Profile) : (setProf s n p).hu = s.hu := rfl
@[simp] theorem setProf_rst (s : State) (n : Nat) (p : Profile) : (setProf s n p).rst = s.rst := rfl
@[simp] theorem setProf_pins (s : State) (n : Nat) (p : Profile) : (setProf s n p).pins = s.pins := rfl
@[simp] theorem setProf_free (s : State) (n : Nat) (p : Profile) : (setProf s n p).free = s.free := rfl
@[simp] theorem setProf_out (s : State) (n : Nat) (p : Profile) : (setProf s n p).out = s.out := rfl
@[simp] theorem setProf_pending (s : State) (n : Nat) (p : Profile) : (setProf s n p).pending = s.pending := rfl

/-! ### setSlot -/

@[simp] theorem setSlot_dev (s : State) (k : Nat) (x : Slot) : (setSlot s k x).dev = s.dev := rfl
@[simp] theorem setSlot_mem (s : State) (k : Nat) (x : Slot) : (setSlot s k x).mem = s.mem := rfl
@[simp] theorem setSlot_hp (s : State) (k : Nat) (x : Slot) : (setSlot s k x).hp = s.hp := rfl
@[simp] theorem setSlot_evt (s : State) (k : Nat) (x : Slot) : (setSlot s k x).evt = s.evt := rfl
@[simp] theorem setSlot_sched (s : State) (k : Nat) (x : Slot) : (setSlot s k x).sched = s.sched := rfl
@[simp] theorem setSlot_cls (s : State) (k : Nat) (x : Slot) : (setSlot s k x).cls = s.cls := rfl
@[simp] theorem setSlot_fs (s : State) (k : Nat) (x : Slot) : (setSlot s k x).fs = s.fs := rfl
@[simp] theorem setSlot_mv (s : State) (k : Nat) (x : Slot) : (setSlot s k x).mv = s.mv := rfl
@[simp] theorem setSlot_cp (s : State) (k : Nat) (x : Slot) : (setSlot s k x).cp = s.cp := rfl
@[simp] theorem setSlot_lk (s : State) (k : Nat) (x : Slot) : (setSlot s k x).lk = s.lk := rfl
@[simp] theorem setSlot_tw (s : State) (k : Nat) (x : Slot) : (setSlot s k x).tw = s.tw := rfl
@[simp] theorem setSlot_nv (s : State) (k : Nat) (x : Slot) : (setSlot s k x).nv = s.nv := rfl
@[simp] theorem setSlot_sec (s : State) (k : Nat) (x : Slot) : (setSlot s k x).sec = s.sec := rfl
@[simp] theorem setSlot_flt (s : State) (k : Nat) (x : Slot) : (setSlot s k x).flt = s.flt := rfl
@[simp] theorem setSlot_pwr (s : State) (k : Nat) (x : Slot) : (setSlot s k x).pwr = s.pwr := rfl
@[simp] theorem setSlot_hu (s : State) (k : Nat) (x : Slot) : (setSlot s k x).hu = s.hu := rfl
@[simp] theorem setSlot_rst (s : State) (k : Nat) (x : Slot) : (setSlot s k x).rst = s.rst := rfl
@[simp] theorem setSlot_pins (s : State) (k : Nat) (x : Slot) : (setSlot s k x).pins = s.pins := rfl
@[simp] theorem setSlot_free (s : State) (k : Nat) (x : Slot) : (setSlot s k x).free = s.free := rfl
@[simp] theorem setSlot_out (s : State) (k : Nat) (x : Slot) : (setSlot s k x).out = s.out := rfl
@[simp] theorem setSlot_pending (s : State) (k : Nat) (x : Slot) : (setSlot s k x).pending = s.pending := rfl

/-! ### hold -/

@[simp] theorem hold_dev (s : State) (m : Master) (tag : Half) (why : HeldWhy) : (hold s m tag why).dev = s.dev := rfl
@[simp] theorem hold_mem (s : State) (m : Master) (tag : Half) (why : HeldWhy) : (hold s m tag why).mem = s.mem := rfl
@[simp] theorem hold_evt (s : State) (m : Master) (tag : Half) (why : HeldWhy) : (hold s m tag why).evt = s.evt := rfl
@[simp] theorem hold_sched (s : State) (m : Master) (tag : Half) (why : HeldWhy) : (hold s m tag why).sched = s.sched := rfl
@[simp] theorem hold_cls (s : State) (m : Master) (tag : Half) (why : HeldWhy) : (hold s m tag why).cls = s.cls := rfl
@[simp] theorem hold_fs (s : State) (m : Master) (tag : Half) (why : HeldWhy) : (hold s m tag why).fs = s.fs := rfl
@[simp] theorem hold_mv (s : State) (m : Master) (tag : Half) (why : HeldWhy) : (hold s m tag why).mv = s.mv := rfl
@[simp] theorem hold_ce (s : State) (m : Master) (tag : Half) (why : HeldWhy) : (hold s m tag why).ce = s.ce := rfl
@[simp] theorem hold_cp (s : State) (m : Master) (tag : Half) (why : HeldWhy) : (hold s m tag why).cp = s.cp := rfl
@[simp] theorem hold_lk (s : State) (m : Master) (tag : Half) (why : HeldWhy) : (hold s m tag why).lk = s.lk := rfl
@[simp] theorem hold_tw (s : State) (m : Master) (tag : Half) (why : HeldWhy) : (hold s m tag why).tw = s.tw := rfl
@[simp] theorem hold_nv (s : State) (m : Master) (tag : Half) (why : HeldWhy) : (hold s m tag why).nv = s.nv := rfl
@[simp] theorem hold_sec (s : State) (m : Master) (tag : Half) (why : HeldWhy) : (hold s m tag why).sec = s.sec := rfl
@[simp] theorem hold_flt (s : State) (m : Master) (tag : Half) (why : HeldWhy) : (hold s m tag why).flt = s.flt := rfl
@[simp] theorem hold_pwr (s : State) (m : Master) (tag : Half) (why : HeldWhy) : (hold s m tag why).pwr = s.pwr := rfl
@[simp] theorem hold_hu (s : State) (m : Master) (tag : Half) (why : HeldWhy) : (hold s m tag why).hu = s.hu := rfl
@[simp] theorem hold_rst (s : State) (m : Master) (tag : Half) (why : HeldWhy) : (hold s m tag why).rst = s.rst := rfl
@[simp] theorem hold_pins (s : State) (m : Master) (tag : Half) (why : HeldWhy) : (hold s m tag why).pins = s.pins := rfl
@[simp] theorem hold_free (s : State) (m : Master) (tag : Half) (why : HeldWhy) : (hold s m tag why).free = s.free := rfl
@[simp] theorem hold_out (s : State) (m : Master) (tag : Half) (why : HeldWhy) : (hold s m tag why).out = s.out := rfl
@[simp] theorem hold_pending (s : State) (m : Master) (tag : Half) (why : HeldWhy) : (hold s m tag why).pending = s.pending := rfl

/-! ### holdAct -/

@[simp] theorem holdAct_dev (s : State) (h : HeldAct) : (holdAct s h).dev = s.dev := rfl
@[simp] theorem holdAct_mem (s : State) (h : HeldAct) : (holdAct s h).mem = s.mem := rfl
@[simp] theorem holdAct_hp (s : State) (h : HeldAct) : (holdAct s h).hp = s.hp := rfl
@[simp] theorem holdAct_evt (s : State) (h : HeldAct) : (holdAct s h).evt = s.evt := rfl
@[simp] theorem holdAct_sched (s : State) (h : HeldAct) : (holdAct s h).sched = s.sched := rfl
@[simp] theorem holdAct_cls (s : State) (h : HeldAct) : (holdAct s h).cls = s.cls := rfl
@[simp] theorem holdAct_fs (s : State) (h : HeldAct) : (holdAct s h).fs = s.fs := rfl
@[simp] theorem holdAct_mv (s : State) (h : HeldAct) : (holdAct s h).mv = s.mv := rfl
@[simp] theorem holdAct_ce (s : State) (h : HeldAct) : (holdAct s h).ce = s.ce := rfl
@[simp] theorem holdAct_cp (s : State) (h : HeldAct) : (holdAct s h).cp = s.cp := rfl
@[simp] theorem holdAct_lk (s : State) (h : HeldAct) : (holdAct s h).lk = s.lk := rfl
@[simp] theorem holdAct_tw (s : State) (h : HeldAct) : (holdAct s h).tw = s.tw := rfl
@[simp] theorem holdAct_nv (s : State) (h : HeldAct) : (holdAct s h).nv = s.nv := rfl
@[simp] theorem holdAct_sec (s : State) (h : HeldAct) : (holdAct s h).sec = s.sec := rfl
@[simp] theorem holdAct_flt (s : State) (h : HeldAct) : (holdAct s h).flt = s.flt := rfl
@[simp] theorem holdAct_hu (s : State) (h : HeldAct) : (holdAct s h).hu = s.hu := rfl
@[simp] theorem holdAct_rst (s : State) (h : HeldAct) : (holdAct s h).rst = s.rst := rfl
@[simp] theorem holdAct_pins (s : State) (h : HeldAct) : (holdAct s h).pins = s.pins := rfl
@[simp] theorem holdAct_free (s : State) (h : HeldAct) : (holdAct s h).free = s.free := rfl
@[simp] theorem holdAct_out (s : State) (h : HeldAct) : (holdAct s h).out = s.out := rfl
@[simp] theorem holdAct_pending (s : State) (h : HeldAct) : (holdAct s h).pending = s.pending := rfl

/-! ### putCacheSet -/

@[simp] theorem putCacheSet_dev (s : State) (n : Nat) (l : List Way) : (putCacheSet s n l).dev = s.dev := rfl
@[simp] theorem putCacheSet_mem (s : State) (n : Nat) (l : List Way) : (putCacheSet s n l).mem = s.mem := rfl
@[simp] theorem putCacheSet_hp (s : State) (n : Nat) (l : List Way) : (putCacheSet s n l).hp = s.hp := rfl
@[simp] theorem putCacheSet_evt (s : State) (n : Nat) (l : List Way) : (putCacheSet s n l).evt = s.evt := rfl
@[simp] theorem putCacheSet_cls (s : State) (n : Nat) (l : List Way) : (putCacheSet s n l).cls = s.cls := rfl
@[simp] theorem putCacheSet_fs (s : State) (n : Nat) (l : List Way) : (putCacheSet s n l).fs = s.fs := rfl
@[simp] theorem putCacheSet_mv (s : State) (n : Nat) (l : List Way) : (putCacheSet s n l).mv = s.mv := rfl
@[simp] theorem putCacheSet_ce (s : State) (n : Nat) (l : List Way) : (putCacheSet s n l).ce = s.ce := rfl
@[simp] theorem putCacheSet_cp (s : State) (n : Nat) (l : List Way) : (putCacheSet s n l).cp = s.cp := rfl
@[simp] theorem putCacheSet_lk (s : State) (n : Nat) (l : List Way) : (putCacheSet s n l).lk = s.lk := rfl
@[simp] theorem putCacheSet_tw (s : State) (n : Nat) (l : List Way) : (putCacheSet s n l).tw = s.tw := rfl
@[simp] theorem putCacheSet_nv (s : State) (n : Nat) (l : List Way) : (putCacheSet s n l).nv = s.nv := rfl
@[simp] theorem putCacheSet_sec (s : State) (n : Nat) (l : List Way) : (putCacheSet s n l).sec = s.sec := rfl
@[simp] theorem putCacheSet_flt (s : State) (n : Nat) (l : List Way) : (putCacheSet s n l).flt = s.flt := rfl
@[simp] theorem putCacheSet_pwr (s : State) (n : Nat) (l : List Way) : (putCacheSet s n l).pwr = s.pwr := rfl
@[simp] theorem putCacheSet_hu (s : State) (n : Nat) (l : List Way) : (putCacheSet s n l).hu = s.hu := rfl
@[simp] theorem putCacheSet_rst (s : State) (n : Nat) (l : List Way) : (putCacheSet s n l).rst = s.rst := rfl
@[simp] theorem putCacheSet_pins (s : State) (n : Nat) (l : List Way) : (putCacheSet s n l).pins = s.pins := rfl
@[simp] theorem putCacheSet_free (s : State) (n : Nat) (l : List Way) : (putCacheSet s n l).free = s.free := rfl
@[simp] theorem putCacheSet_out (s : State) (n : Nat) (l : List Way) : (putCacheSet s n l).out = s.out := rfl
@[simp] theorem putCacheSet_pending (s : State) (n : Nat) (l : List Way) : (putCacheSet s n l).pending = s.pending := rfl

/-! ### invalidate -/

@[simp] theorem invalidate_dev (s : State) (e : Nat) : (invalidate s e).dev = s.dev := rfl
@[simp] theorem invalidate_mem (s : State) (e : Nat) : (invalidate s e).mem = s.mem := rfl
@[simp] theorem invalidate_hp (s : State) (e : Nat) : (invalidate s e).hp = s.hp := rfl
@[simp] theorem invalidate_evt (s : State) (e : Nat) : (invalidate s e).evt = s.evt := rfl
@[simp] theorem invalidate_sched (s : State) (e : Nat) : (invalidate s e).sched = s.sched := rfl
@[simp] theorem invalidate_cls (s : State) (e : Nat) : (invalidate s e).cls = s.cls := rfl
@[simp] theorem invalidate_fs (s : State) (e : Nat) : (invalidate s e).fs = s.fs := rfl
@[simp] theorem invalidate_mv (s : State) (e : Nat) : (invalidate s e).mv = s.mv := rfl
@[simp] theorem invalidate_cp (s : State) (e : Nat) : (invalidate s e).cp = s.cp := rfl
@[simp] theorem invalidate_lk (s : State) (e : Nat) : (invalidate s e).lk = s.lk := rfl
@[simp] theorem invalidate_tw (s : State) (e : Nat) : (invalidate s e).tw = s.tw := rfl
@[simp] theorem invalidate_nv (s : State) (e : Nat) : (invalidate s e).nv = s.nv := rfl
@[simp] theorem invalidate_sec (s : State) (e : Nat) : (invalidate s e).sec = s.sec := rfl
@[simp] theorem invalidate_flt (s : State) (e : Nat) : (invalidate s e).flt = s.flt := rfl
@[simp] theorem invalidate_pwr (s : State) (e : Nat) : (invalidate s e).pwr = s.pwr := rfl
@[simp] theorem invalidate_hu (s : State) (e : Nat) : (invalidate s e).hu = s.hu := rfl
@[simp] theorem invalidate_rst (s : State) (e : Nat) : (invalidate s e).rst = s.rst := rfl
@[simp] theorem invalidate_pins (s : State) (e : Nat) : (invalidate s e).pins = s.pins := rfl
@[simp] theorem invalidate_free (s : State) (e : Nat) : (invalidate s e).free = s.free := rfl
@[simp] theorem invalidate_out (s : State) (e : Nat) : (invalidate s e).out = s.out := rfl
@[simp] theorem invalidate_pending (s : State) (e : Nat) : (invalidate s e).pending = s.pending := rfl

/-! ### setCp -/

@[simp] theorem setCp_dev (s : State) (c : Cp) : (setCp s c).dev = s.dev := rfl
@[simp] theorem setCp_mem (s : State) (c : Cp) : (setCp s c).mem = s.mem := rfl
@[simp] theorem setCp_hp (s : State) (c : Cp) : (setCp s c).hp = s.hp := rfl
@[simp] theorem setCp_evt (s : State) (c : Cp) : (setCp s c).evt = s.evt := rfl
@[simp] theorem setCp_sched (s : State) (c : Cp) : (setCp s c).sched = s.sched := rfl
@[simp] theorem setCp_cls (s : State) (c : Cp) : (setCp s c).cls = s.cls := rfl
@[simp] theorem setCp_fs (s : State) (c : Cp) : (setCp s c).fs = s.fs := rfl
@[simp] theorem setCp_mv (s : State) (c : Cp) : (setCp s c).mv = s.mv := rfl
@[simp] theorem setCp_ce (s : State) (c : Cp) : (setCp s c).ce = s.ce := rfl
@[simp] theorem setCp_lk (s : State) (c : Cp) : (setCp s c).lk = s.lk := rfl
@[simp] theorem setCp_tw (s : State) (c : Cp) : (setCp s c).tw = s.tw := rfl
@[simp] theorem setCp_nv (s : State) (c : Cp) : (setCp s c).nv = s.nv := rfl
@[simp] theorem setCp_sec (s : State) (c : Cp) : (setCp s c).sec = s.sec := rfl
@[simp] theorem setCp_flt (s : State) (c : Cp) : (setCp s c).flt = s.flt := rfl
@[simp] theorem setCp_pwr (s : State) (c : Cp) : (setCp s c).pwr = s.pwr := rfl
@[simp] theorem setCp_hu (s : State) (c : Cp) : (setCp s c).hu = s.hu := rfl
@[simp] theorem setCp_rst (s : State) (c : Cp) : (setCp s c).rst = s.rst := rfl
@[simp] theorem setCp_pins (s : State) (c : Cp) : (setCp s c).pins = s.pins := rfl
@[simp] theorem setCp_free (s : State) (c : Cp) : (setCp s c).free = s.free := rfl
@[simp] theorem setCp_out (s : State) (c : Cp) : (setCp s c).out = s.out := rfl
@[simp] theorem setCp_pending (s : State) (c : Cp) : (setCp s c).pending = s.pending := rfl

/-! ### setHu -/

@[simp] theorem setHu_dev (s : State) (h : Hu) : (setHu s h).dev = s.dev := rfl
@[simp] theorem setHu_mem (s : State) (h : Hu) : (setHu s h).mem = s.mem := rfl
@[simp] theorem setHu_hp (s : State) (h : Hu) : (setHu s h).hp = s.hp := rfl
@[simp] theorem setHu_evt (s : State) (h : Hu) : (setHu s h).evt = s.evt := rfl
@[simp] theorem setHu_sched (s : State) (h : Hu) : (setHu s h).sched = s.sched := rfl
@[simp] theorem setHu_cls (s : State) (h : Hu) : (setHu s h).cls = s.cls := rfl
@[simp] theorem setHu_fs (s : State) (h : Hu) : (setHu s h).fs = s.fs := rfl
@[simp] theorem setHu_mv (s : State) (h : Hu) : (setHu s h).mv = s.mv := rfl
@[simp] theorem setHu_ce (s : State) (h : Hu) : (setHu s h).ce = s.ce := rfl
@[simp] theorem setHu_cp (s : State) (h : Hu) : (setHu s h).cp = s.cp := rfl
@[simp] theorem setHu_lk (s : State) (h : Hu) : (setHu s h).lk = s.lk := rfl
@[simp] theorem setHu_tw (s : State) (h : Hu) : (setHu s h).tw = s.tw := rfl
@[simp] theorem setHu_nv (s : State) (h : Hu) : (setHu s h).nv = s.nv := rfl
@[simp] theorem setHu_sec (s : State) (h : Hu) : (setHu s h).sec = s.sec := rfl
@[simp] theorem setHu_flt (s : State) (h : Hu) : (setHu s h).flt = s.flt := rfl
@[simp] theorem setHu_pwr (s : State) (h : Hu) : (setHu s h).pwr = s.pwr := rfl
@[simp] theorem setHu_rst (s : State) (h : Hu) : (setHu s h).rst = s.rst := rfl
@[simp] theorem setHu_pins (s : State) (h : Hu) : (setHu s h).pins = s.pins := rfl
@[simp] theorem setHu_free (s : State) (h : Hu) : (setHu s h).free = s.free := rfl
@[simp] theorem setHu_out (s : State) (h : Hu) : (setHu s h).out = s.out := rfl
@[simp] theorem setHu_pending (s : State) (h : Hu) : (setHu s h).pending = s.pending := rfl

/-! ### setTw -/

@[simp] theorem setTw_dev (s : State) (t : Twin) : (setTw s t).dev = s.dev := rfl
@[simp] theorem setTw_mem (s : State) (t : Twin) : (setTw s t).mem = s.mem := rfl
@[simp] theorem setTw_hp (s : State) (t : Twin) : (setTw s t).hp = s.hp := rfl
@[simp] theorem setTw_evt (s : State) (t : Twin) : (setTw s t).evt = s.evt := rfl
@[simp] theorem setTw_sched (s : State) (t : Twin) : (setTw s t).sched = s.sched := rfl
@[simp] theorem setTw_cls (s : State) (t : Twin) : (setTw s t).cls = s.cls := rfl
@[simp] theorem setTw_fs (s : State) (t : Twin) : (setTw s t).fs = s.fs := rfl
@[simp] theorem setTw_mv (s : State) (t : Twin) : (setTw s t).mv = s.mv := rfl
@[simp] theorem setTw_ce (s : State) (t : Twin) : (setTw s t).ce = s.ce := rfl
@[simp] theorem setTw_cp (s : State) (t : Twin) : (setTw s t).cp = s.cp := rfl
@[simp] theorem setTw_lk (s : State) (t : Twin) : (setTw s t).lk = s.lk := rfl
@[simp] theorem setTw_nv (s : State) (t : Twin) : (setTw s t).nv = s.nv := rfl
@[simp] theorem setTw_sec (s : State) (t : Twin) : (setTw s t).sec = s.sec := rfl
@[simp] theorem setTw_flt (s : State) (t : Twin) : (setTw s t).flt = s.flt := rfl
@[simp] theorem setTw_pwr (s : State) (t : Twin) : (setTw s t).pwr = s.pwr := rfl
@[simp] theorem setTw_hu (s : State) (t : Twin) : (setTw s t).hu = s.hu := rfl
@[simp] theorem setTw_rst (s : State) (t : Twin) : (setTw s t).rst = s.rst := rfl
@[simp] theorem setTw_pins (s : State) (t : Twin) : (setTw s t).pins = s.pins := rfl
@[simp] theorem setTw_free (s : State) (t : Twin) : (setTw s t).free = s.free := rfl
@[simp] theorem setTw_out (s : State) (t : Twin) : (setTw s t).out = s.out := rfl
@[simp] theorem setTw_pending (s : State) (t : Twin) : (setTw s t).pending = s.pending := rfl

/-! ### setTap -/

@[simp] theorem setTap_dev (s : State) (t : Tap) : (setTap s t).dev = s.dev := rfl
@[simp] theorem setTap_mem (s : State) (t : Tap) : (setTap s t).mem = s.mem := rfl
@[simp] theorem setTap_hp (s : State) (t : Tap) : (setTap s t).hp = s.hp := rfl
@[simp] theorem setTap_evt (s : State) (t : Tap) : (setTap s t).evt = s.evt := rfl
@[simp] theorem setTap_sched (s : State) (t : Tap) : (setTap s t).sched = s.sched := rfl
@[simp] theorem setTap_cls (s : State) (t : Tap) : (setTap s t).cls = s.cls := rfl
@[simp] theorem setTap_fs (s : State) (t : Tap) : (setTap s t).fs = s.fs := rfl
@[simp] theorem setTap_mv (s : State) (t : Tap) : (setTap s t).mv = s.mv := rfl
@[simp] theorem setTap_ce (s : State) (t : Tap) : (setTap s t).ce = s.ce := rfl
@[simp] theorem setTap_cp (s : State) (t : Tap) : (setTap s t).cp = s.cp := rfl
@[simp] theorem setTap_lk (s : State) (t : Tap) : (setTap s t).lk = s.lk := rfl
@[simp] theorem setTap_tw (s : State) (t : Tap) : (setTap s t).tw = s.tw := rfl
@[simp] theorem setTap_nv (s : State) (t : Tap) : (setTap s t).nv = s.nv := rfl
@[simp] theorem setTap_flt (s : State) (t : Tap) : (setTap s t).flt = s.flt := rfl
@[simp] theorem setTap_pwr (s : State) (t : Tap) : (setTap s t).pwr = s.pwr := rfl
@[simp] theorem setTap_hu (s : State) (t : Tap) : (setTap s t).hu = s.hu := rfl
@[simp] theorem setTap_rst (s : State) (t : Tap) : (setTap s t).rst = s.rst := rfl
@[simp] theorem setTap_pins (s : State) (t : Tap) : (setTap s t).pins = s.pins := rfl
@[simp] theorem setTap_free (s : State) (t : Tap) : (setTap s t).free = s.free := rfl
@[simp] theorem setTap_out (s : State) (t : Tap) : (setTap s t).out = s.out := rfl
@[simp] theorem setTap_pending (s : State) (t : Tap) : (setTap s t).pending = s.pending := rfl

/-! ### answer -/

@[simp] theorem answer_dev (s : State) (status : Byte) (data : List Byte) : (answer s status data).dev = s.dev := rfl
@[simp] theorem answer_mem (s : State) (status : Byte) (data : List Byte) : (answer s status data).mem = s.mem := rfl
@[simp] theorem answer_hp (s : State) (status : Byte) (data : List Byte) : (answer s status data).hp = s.hp := rfl
@[simp] theorem answer_evt (s : State) (status : Byte) (data : List Byte) : (answer s status data).evt = s.evt := rfl
@[simp] theorem answer_sched (s : State) (status : Byte) (data : List Byte) : (answer s status data).sched = s.sched := rfl
@[simp] theorem answer_cls (s : State) (status : Byte) (data : List Byte) : (answer s status data).cls = s.cls := rfl
@[simp] theorem answer_fs (s : State) (status : Byte) (data : List Byte) : (answer s status data).fs = s.fs := rfl
@[simp] theorem answer_mv (s : State) (status : Byte) (data : List Byte) : (answer s status data).mv = s.mv := rfl
@[simp] theorem answer_ce (s : State) (status : Byte) (data : List Byte) : (answer s status data).ce = s.ce := rfl
@[simp] theorem answer_cp (s : State) (status : Byte) (data : List Byte) : (answer s status data).cp = s.cp := rfl
@[simp] theorem answer_lk (s : State) (status : Byte) (data : List Byte) : (answer s status data).lk = s.lk := rfl
@[simp] theorem answer_tw (s : State) (status : Byte) (data : List Byte) : (answer s status data).tw = s.tw := rfl
@[simp] theorem answer_nv (s : State) (status : Byte) (data : List Byte) : (answer s status data).nv = s.nv := rfl
@[simp] theorem answer_flt (s : State) (status : Byte) (data : List Byte) : (answer s status data).flt = s.flt := rfl
@[simp] theorem answer_pwr (s : State) (status : Byte) (data : List Byte) : (answer s status data).pwr = s.pwr := rfl
@[simp] theorem answer_hu (s : State) (status : Byte) (data : List Byte) : (answer s status data).hu = s.hu := rfl
@[simp] theorem answer_rst (s : State) (status : Byte) (data : List Byte) : (answer s status data).rst = s.rst := rfl
@[simp] theorem answer_pins (s : State) (status : Byte) (data : List Byte) : (answer s status data).pins = s.pins := rfl
@[simp] theorem answer_free (s : State) (status : Byte) (data : List Byte) : (answer s status data).free = s.free := rfl
@[simp] theorem answer_out (s : State) (status : Byte) (data : List Byte) : (answer s status data).out = s.out := rfl
@[simp] theorem answer_pending (s : State) (status : Byte) (data : List Byte) : (answer s status data).pending = s.pending := rfl

/-! ### setRx -/

@[simp] theorem setRx_dev (s : State) (l : List RxFrame) : (setRx s l).dev = s.dev := rfl
@[simp] theorem setRx_mem (s : State) (l : List RxFrame) : (setRx s l).mem = s.mem := rfl
@[simp] theorem setRx_hp (s : State) (l : List RxFrame) : (setRx s l).hp = s.hp := rfl
@[simp] theorem setRx_evt (s : State) (l : List RxFrame) : (setRx s l).evt = s.evt := rfl
@[simp] theorem setRx_sched (s : State) (l : List RxFrame) : (setRx s l).sched = s.sched := rfl
@[simp] theorem setRx_cls (s : State) (l : List RxFrame) : (setRx s l).cls = s.cls := rfl
@[simp] theorem setRx_fs (s : State) (l : List RxFrame) : (setRx s l).fs = s.fs := rfl
@[simp] theorem setRx_mv (s : State) (l : List RxFrame) : (setRx s l).mv = s.mv := rfl
@[simp] theorem setRx_ce (s : State) (l : List RxFrame) : (setRx s l).ce = s.ce := rfl
@[simp] theorem setRx_cp (s : State) (l : List RxFrame) : (setRx s l).cp = s.cp := rfl
@[simp] theorem setRx_tw (s : State) (l : List RxFrame) : (setRx s l).tw = s.tw := rfl
@[simp] theorem setRx_nv (s : State) (l : List RxFrame) : (setRx s l).nv = s.nv := rfl
@[simp] theorem setRx_sec (s : State) (l : List RxFrame) : (setRx s l).sec = s.sec := rfl
@[simp] theorem setRx_flt (s : State) (l : List RxFrame) : (setRx s l).flt = s.flt := rfl
@[simp] theorem setRx_pwr (s : State) (l : List RxFrame) : (setRx s l).pwr = s.pwr := rfl
@[simp] theorem setRx_hu (s : State) (l : List RxFrame) : (setRx s l).hu = s.hu := rfl
@[simp] theorem setRx_rst (s : State) (l : List RxFrame) : (setRx s l).rst = s.rst := rfl
@[simp] theorem setRx_pins (s : State) (l : List RxFrame) : (setRx s l).pins = s.pins := rfl
@[simp] theorem setRx_free (s : State) (l : List RxFrame) : (setRx s l).free = s.free := rfl
@[simp] theorem setRx_out (s : State) (l : List RxFrame) : (setRx s l).out = s.out := rfl
@[simp] theorem setRx_pending (s : State) (l : List RxFrame) : (setRx s l).pending = s.pending := rfl

/-! ### setWords -/

@[simp] theorem setWords_dev (s : State) (l : List (Nat × Nat × BitVec 256)) : (setWords s l).dev = s.dev := rfl
@[simp] theorem setWords_mem (s : State) (l : List (Nat × Nat × BitVec 256)) : (setWords s l).mem = s.mem := rfl
@[simp] theorem setWords_hp (s : State) (l : List (Nat × Nat × BitVec 256)) : (setWords s l).hp = s.hp := rfl
@[simp] theorem setWords_evt (s : State) (l : List (Nat × Nat × BitVec 256)) : (setWords s l).evt = s.evt := rfl
@[simp] theorem setWords_cls (s : State) (l : List (Nat × Nat × BitVec 256)) : (setWords s l).cls = s.cls := rfl
@[simp] theorem setWords_fs (s : State) (l : List (Nat × Nat × BitVec 256)) : (setWords s l).fs = s.fs := rfl
@[simp] theorem setWords_mv (s : State) (l : List (Nat × Nat × BitVec 256)) : (setWords s l).mv = s.mv := rfl
@[simp] theorem setWords_ce (s : State) (l : List (Nat × Nat × BitVec 256)) : (setWords s l).ce = s.ce := rfl
@[simp] theorem setWords_cp (s : State) (l : List (Nat × Nat × BitVec 256)) : (setWords s l).cp = s.cp := rfl
@[simp] theorem setWords_lk (s : State) (l : List (Nat × Nat × BitVec 256)) : (setWords s l).lk = s.lk := rfl
@[simp] theorem setWords_tw (s : State) (l : List (Nat × Nat × BitVec 256)) : (setWords s l).tw = s.tw := rfl
@[simp] theorem setWords_nv (s : State) (l : List (Nat × Nat × BitVec 256)) : (setWords s l).nv = s.nv := rfl
@[simp] theorem setWords_sec (s : State) (l : List (Nat × Nat × BitVec 256)) : (setWords s l).sec = s.sec := rfl
@[simp] theorem setWords_flt (s : State) (l : List (Nat × Nat × BitVec 256)) : (setWords s l).flt = s.flt := rfl
@[simp] theorem setWords_pwr (s : State) (l : List (Nat × Nat × BitVec 256)) : (setWords s l).pwr = s.pwr := rfl
@[simp] theorem setWords_hu (s : State) (l : List (Nat × Nat × BitVec 256)) : (setWords s l).hu = s.hu := rfl
@[simp] theorem setWords_rst (s : State) (l : List (Nat × Nat × BitVec 256)) : (setWords s l).rst = s.rst := rfl
@[simp] theorem setWords_pins (s : State) (l : List (Nat × Nat × BitVec 256)) : (setWords s l).pins = s.pins := rfl
@[simp] theorem setWords_free (s : State) (l : List (Nat × Nat × BitVec 256)) : (setWords s l).free = s.free := rfl
@[simp] theorem setWords_out (s : State) (l : List (Nat × Nat × BitVec 256)) : (setWords s l).out = s.out := rfl
@[simp] theorem setWords_pending (s : State) (l : List (Nat × Nat × BitVec 256)) : (setWords s l).pending = s.pending := rfl

/-! ### leaveWaits -/

@[simp] theorem leaveWaits_dev (s : State) (n : Nat) : (leaveWaits s n).dev = s.dev := rfl
@[simp] theorem leaveWaits_mem (s : State) (n : Nat) : (leaveWaits s n).mem = s.mem := rfl
@[simp] theorem leaveWaits_hp (s : State) (n : Nat) : (leaveWaits s n).hp = s.hp := rfl
@[simp] theorem leaveWaits_evt (s : State) (n : Nat) : (leaveWaits s n).evt = s.evt := rfl
@[simp] theorem leaveWaits_sched (s : State) (n : Nat) : (leaveWaits s n).sched = s.sched := rfl
@[simp] theorem leaveWaits_mv (s : State) (n : Nat) : (leaveWaits s n).mv = s.mv := rfl
@[simp] theorem leaveWaits_ce (s : State) (n : Nat) : (leaveWaits s n).ce = s.ce := rfl
@[simp] theorem leaveWaits_cp (s : State) (n : Nat) : (leaveWaits s n).cp = s.cp := rfl
@[simp] theorem leaveWaits_lk (s : State) (n : Nat) : (leaveWaits s n).lk = s.lk := rfl
@[simp] theorem leaveWaits_tw (s : State) (n : Nat) : (leaveWaits s n).tw = s.tw := rfl
@[simp] theorem leaveWaits_nv (s : State) (n : Nat) : (leaveWaits s n).nv = s.nv := rfl
@[simp] theorem leaveWaits_sec (s : State) (n : Nat) : (leaveWaits s n).sec = s.sec := rfl
@[simp] theorem leaveWaits_flt (s : State) (n : Nat) : (leaveWaits s n).flt = s.flt := rfl
@[simp] theorem leaveWaits_pwr (s : State) (n : Nat) : (leaveWaits s n).pwr = s.pwr := rfl
@[simp] theorem leaveWaits_hu (s : State) (n : Nat) : (leaveWaits s n).hu = s.hu := rfl
@[simp] theorem leaveWaits_rst (s : State) (n : Nat) : (leaveWaits s n).rst = s.rst := rfl
@[simp] theorem leaveWaits_pins (s : State) (n : Nat) : (leaveWaits s n).pins = s.pins := rfl
@[simp] theorem leaveWaits_free (s : State) (n : Nat) : (leaveWaits s n).free = s.free := rfl
@[simp] theorem leaveWaits_out (s : State) (n : Nat) : (leaveWaits s n).out = s.out := rfl
@[simp] theorem leaveWaits_pending (s : State) (n : Nat) : (leaveWaits s n).pending = s.pending := rfl

/-! ### dropReplies -/

@[simp] theorem dropReplies_dev (s : State) (m : Master) : (dropReplies s m).dev = s.dev := rfl
@[simp] theorem dropReplies_mem (s : State) (m : Master) : (dropReplies s m).mem = s.mem := rfl
@[simp] theorem dropReplies_evt (s : State) (m : Master) : (dropReplies s m).evt = s.evt := rfl
@[simp] theorem dropReplies_sched (s : State) (m : Master) : (dropReplies s m).sched = s.sched := rfl
@[simp] theorem dropReplies_cls (s : State) (m : Master) : (dropReplies s m).cls = s.cls := rfl
@[simp] theorem dropReplies_fs (s : State) (m : Master) : (dropReplies s m).fs = s.fs := rfl
@[simp] theorem dropReplies_mv (s : State) (m : Master) : (dropReplies s m).mv = s.mv := rfl
@[simp] theorem dropReplies_ce (s : State) (m : Master) : (dropReplies s m).ce = s.ce := rfl
@[simp] theorem dropReplies_cp (s : State) (m : Master) : (dropReplies s m).cp = s.cp := rfl
@[simp] theorem dropReplies_lk (s : State) (m : Master) : (dropReplies s m).lk = s.lk := rfl
@[simp] theorem dropReplies_tw (s : State) (m : Master) : (dropReplies s m).tw = s.tw := rfl
@[simp] theorem dropReplies_nv (s : State) (m : Master) : (dropReplies s m).nv = s.nv := rfl
@[simp] theorem dropReplies_sec (s : State) (m : Master) : (dropReplies s m).sec = s.sec := rfl
@[simp] theorem dropReplies_flt (s : State) (m : Master) : (dropReplies s m).flt = s.flt := rfl
@[simp] theorem dropReplies_pwr (s : State) (m : Master) : (dropReplies s m).pwr = s.pwr := rfl
@[simp] theorem dropReplies_hu (s : State) (m : Master) : (dropReplies s m).hu = s.hu := rfl
@[simp] theorem dropReplies_rst (s : State) (m : Master) : (dropReplies s m).rst = s.rst := rfl
@[simp] theorem dropReplies_pins (s : State) (m : Master) : (dropReplies s m).pins = s.pins := rfl
@[simp] theorem dropReplies_free (s : State) (m : Master) : (dropReplies s m).free = s.free := rfl
@[simp] theorem dropReplies_out (s : State) (m : Master) : (dropReplies s m).out = s.out := rfl
@[simp] theorem dropReplies_pending (s : State) (m : Master) : (dropReplies s m).pending = s.pending := rfl

/-! ### Reads after updates -/

theorem getMv_setMv_same (s : State) (m : Nat) (x : Mover) (h : tabCanon {} s.mv.movers) : getMv (setMv s m x) m = x :=
  tget_tset_same _ _ _ _ h
@[simp] theorem getMv_setMv_other (s : State) {m k : Nat} (x : Mover) (h : k ≠ m) : getMv (setMv s m x) k = getMv s k :=
  tget_tset_other _ h _ _
theorem getQ_setQ_same (s : State) (q : Nat) (x : Quad) (h : tabCanon {} s.lk.quads) : getQ (setQ s q x) q = x :=
  tget_tset_same _ _ _ _ h
@[simp] theorem getQ_setQ_other (s : State) {q k : Nat} (x : Quad) (h : k ≠ q) : getQ (setQ s q x) k = getQ s k :=
  tget_tset_other _ h _ _
@[simp] theorem getQ_setPort_other (s : State) {q k : Nat} (p : Nat) (x : Port) (h : k ≠ q) : getQ (setPort s q p x) k = getQ s k :=
  getQ_setQ_other _ _ h
@[simp] theorem getPort_setPort_other (s : State) {q k : Nat} (p j : Nat) (x : Port) (h : k ≠ q) :
    getPort (setPort s q p x) k j = getPort s k j := by
  simp [getPort, getQ_setPort_other _ _ _ h]
theorem getMbx_setMbx_same (s : State) (m : Nat) (x : Mbx) (h : tabCanon {} s.evt.mbx) : getMbx (setMbx s m x) m = x :=
  tget_tset_same _ _ _ _ h
@[simp] theorem getMbx_setMbx_other (s : State) {m k : Nat} (x : Mbx) (h : k ≠ m) : getMbx (setMbx s m x) k = getMbx s k :=
  tget_tset_other _ h _ _
theorem getArb_setArb_same (s : State) (a : Nat) (x : Arb) (h : tabCanon {} s.mv.arbs) : getArb (setArb s a x) a = x :=
  tget_tset_same _ _ _ _ h
@[simp] theorem getArb_setArb_other (s : State) {a k : Nat} (x : Arb) (h : k ≠ a) : getArb (setArb s a x) k = getArb s k :=
  tget_tset_other _ h _ _
theorem getCj_setCj_same (s : State) (n : Nat) (x : Cj) (h : tabCanon {} s.evt.cj) : getCj (setCj s n x) n = x :=
  tget_tset_same _ _ _ _ h
@[simp] theorem getCj_setCj_other (s : State) {n k : Nat} (x : Cj) (h : k ≠ n) : getCj (setCj s n x) k = getCj s k :=
  tget_tset_other _ h _ _
theorem getProf_setProf_same (s : State) (n : Nat) (x : Profile) (h : tabCanon {} s.mv.profiles) : getProf (setProf s n x) n = x :=
  tget_tset_same _ _ _ _ h
@[simp] theorem getProf_setProf_other (s : State) {n k : Nat} (x : Profile) (h : k ≠ n) : getProf (setProf s n x) k = getProf s k :=
  tget_tset_other _ h _ _
theorem getSlot_setSlot_same (s : State) (n : Nat) (x : Slot) (h : tabCanon {} s.ce.slots) : getSlot (setSlot s n x) n = x :=
  tget_tset_same _ _ _ _ h
@[simp] theorem getSlot_setSlot_other (s : State) {n k : Nat} (x : Slot) (h : k ≠ n) : getSlot (setSlot s n x) k = getSlot s k :=
  tget_tset_other _ h _ _
theorem getFunc_setFunc_same (s : State) (m : Master) (f : Func) (h : tabCanon {} s.hp.funcs) : getFunc (setFunc s m f) m = f :=
  tget_tset_same _ _ _ _ h
@[simp] theorem getFunc_setFunc_other (s : State) {m k : Master} (f : Func) (h : k ≠ m) : getFunc (setFunc s m f) k = getFunc s k :=
  tget_tset_other _ (fun e => h (BitVec.eq_of_toNat_eq e)) _ _
/-- a byte of host memory written reads as written, and every other byte as before -/
theorem host_writeHostRaw_same (s : State) (o i : Nat) (l : List Byte) (h : Memory.wf s.mem) (hi : i < l.length) :
    tget emptyByte (writeHostRaw s o l).mem.host (o + i) = l[i] := tget_putBytes_same _ _ _ h.2.2.2 hi
theorem host_writeHostRaw_other (s : State) (o k : Nat) (l : List Byte) (h : k < o ∨ o + l.length ≤ k) :
    tget emptyByte (writeHostRaw s o l).mem.host k = tget emptyByte s.mem.host k := tget_putBytes_other _ _ _ _ h
/-- the same of buffer DRAM -/
theorem dram_writeDram_same (s : State) (o i : Nat) (l : List Byte) (h : Memory.wf s.mem) (hi : i < l.length) :
    tget emptyByte (writeDram s o l).mem.dram (o + i) = l[i] := tget_putBytes_same _ _ _ h.1 hi
theorem dram_writeDram_other (s : State) (o k : Nat) (l : List Byte) (h : k < o ∨ o + l.length ≤ k) :
    tget emptyByte (writeDram s o l).mem.dram k = tget emptyByte s.mem.dram k := tget_putBytes_other _ _ _ _ h
/-- the same of local memory -/
theorem loc_writeLoc_same (s : State) (o i : Nat) (l : List Byte) (h : Memory.wf s.mem) (hi : i < l.length) :
    tget emptyByte (writeLoc s o l).mem.loc (o + i) = l[i] := tget_putBytes_same _ _ _ h.2.1 hi
theorem loc_writeLoc_other (s : State) (o k : Nat) (l : List Byte) (h : k < o ∨ o + l.length ≤ k) :
    tget emptyByte (writeLoc s o l).mem.loc k = tget emptyByte s.mem.loc k := tget_putBytes_other _ _ _ _ h
/-- what is left of a message begun, of either class (11 R337) -/
@[simp] theorem restOf_setRest_same (s : State) (b : Bool) (l : List Byte) : restOf (setRest s b l) b = l := by cases b <;> rfl
@[simp] theorem restOf_setRest_other (s : State) (b : Bool) (l : List Byte) : restOf (setRest s b l) (!b) = restOf s (!b) := by
  cases b <;> rfl
@[simp] theorem setRest_txq (s : State) (b : Bool) (l : List Byte) : (setRest s b l).tw.txq = s.tw.txq := by cases b <;> rfl
@[simp] theorem setRest_replay (s : State) (b : Bool) (l : List Byte) : (setRest s b l).tw.replay = s.tw.replay := by cases b <;> rfl
@[simp] theorem setRest_mem (s : State) (b : Bool) (l : List Byte) : (setRest s b l).mem = s.mem := by cases b <;> rfl
@[simp] theorem setRest_cls (s : State) (b : Bool) (l : List Byte) : (setRest s b l).cls = s.cls := by cases b <;> rfl
@[simp] theorem setRest_fs (s : State) (b : Bool) (l : List Byte) : (setRest s b l).fs = s.fs := by cases b <;> rfl
@[simp] theorem setRest_out (s : State) (b : Bool) (l : List Byte) : (setRest s b l).out = s.out := by cases b <;> rfl
@[simp] theorem setRest_pending (s : State) (b : Bool) (l : List Byte) : (setRest s b l).pending = s.pending := by cases b <;> rfl

end Sys2Proof.Machine
end

