-- ==== Sys2Proof/Laws/Records.lean ====
section
/-!
SUPPORT. Pronoun records: what each shared operation on them can change, and what is read afterwards.
-/

namespace Sys2Proof.Machine

theorem tget_tset_new {α : Type} [DecidableEq α] {d v : α} (k : Nat) (t : Tab α) (h : v ≠ d) : tget d (tset d k v t) k = v := by
  induction t with
  | nil => simp [tset, tget, h]
  | cons e t ih =>
    obtain ⟨k', v'⟩ := e
    unfold tset
    split
    · simp [h, tget]
    · split
      · simp [h, tget]
      · rename_i h1 h2; simp only [tget, if_neg h2]; exact ih

theorem noteRecord_what (s : State) (n : Nat) (p : Pron) :
    ∃ c t, noteRecord s n p = { s with sched := { s.sched with cache := c, table := t } } := by
  unfold noteRecord
  split
  · exact ⟨_, _, rfl⟩
  · split
    · exact ⟨_, _, rfl⟩
    · exact ⟨_, _, rfl⟩
/-- storing a record changes that record, and where its copies are kept -/
theorem setP_what (s : State) (n : Nat) (p : Pron) :
    ∃ c t, setP s n p = { s with sched := { s.sched with recs := tset {} n p s.sched.recs, cache := c, table := t } } := by
  obtain ⟨c, t, h⟩ := noteRecord_what { s with sched := { s.sched with recs := tset {} n p s.sched.recs } } n p
  exact ⟨c, t, h⟩
theorem modP_what (s : State) (n : Nat) (f : Pron → Pron) :
    ∃ c t, modP s n f = { s with sched := { s.sched with recs := tset {} n (f (getP s n)) s.sched.recs, cache := c, table := t } } :=
  setP_what s n _
theorem cachePut_what (s : State) (n : Nat) (d : Bool) :
    ∃ c t, cachePut s n d = { s with sched := { s.sched with cache := c, table := t } } := by
  unfold cachePut
  dsimp only
  split
  · split <;> exact ⟨_, _, rfl⟩
  · split
    · exact ⟨_, _, rfl⟩
    · split
      · split <;> exact ⟨_, _, rfl⟩
      · exact ⟨_, _, rfl⟩
/-- leaving a slot frees it and puts the record in the cache -/
theorem leaveSlot_what (s : State) (n : Nat) : ∃ x c t, leaveSlot s n =
    { s with ce := { s.ce with slots := x }, sched := { s.sched with cache := c, table := t } } := by
  unfold leaveSlot
  split
  · exact ⟨_, _, _, rfl⟩
  · rename_i k _
    obtain ⟨c, t, h⟩ := cachePut_what (setSlot s k { getSlot s k with prn := none, loading := false }) n true
    exact ⟨_, c, t, h⟩
theorem enqueue_what (s : State) (n : Nat) : ∃ q c t, enqueue s n = { s with sched := { s.sched with runq := q, cache := c, table := t } } := by
  unfold enqueue
  obtain ⟨c, t, h⟩ := cachePut_what { dequeue s n with sched := { (dequeue s n).sched with
    runq := tset [] (getP (dequeue s n) n).runLevel.toNat (runq (dequeue s n) (getP (dequeue s n) n).runLevel.toNat ++ [n]) (dequeue s n).sched.runq } } n false
  exact ⟨_, c, t, h⟩

theorem getP_setP_other (s : State) {n m : Nat} (p : Pron) (h : m ≠ n) : getP (setP s n p) m = getP s m := by
  obtain ⟨c, t, e⟩ := setP_what s n p
  rw [e]; exact tget_tset_other _ h _ _
/-- a record of a bound pronoun reads as stored -/
theorem getP_setP_same (s : State) (n : Nat) (p : Pron) (h : p.state ≠ .unbound) : getP (setP s n p) n = p := by
  obtain ⟨c, t, e⟩ := setP_what s n p
  rw [e]; exact tget_tset_new _ _ fun e => h (by rw [e])
theorem getP_modP_other (s : State) {n m : Nat} (f : Pron → Pron) (h : m ≠ n) : getP (modP s n f) m = getP s m :=
  getP_setP_other _ _ h
theorem getP_modP_same (s : State) (n : Nat) (f : Pron → Pron) (h : (f (getP s n)).state ≠ .unbound) :
    getP (modP s n f) n = f (getP s n) := getP_setP_same _ _ _ h
@[simp] theorem getP_leaveSlot (s : State) (n m : Nat) : getP (leaveSlot s n) m = getP s m := by
  obtain ⟨x, c, t, h⟩ := leaveSlot_what s n
  rw [h]; rfl
@[simp] theorem getP_dequeue (s : State) (n m : Nat) : getP (dequeue s n) m = getP s m := rfl
@[simp] theorem getP_enqueue (s : State) (n m : Nat) : getP (enqueue s n) m = getP s m := by
  obtain ⟨x, c, t, h⟩ := enqueue_what s n
  rw [h]; rfl
@[simp] theorem getP_cachePut (s : State) (n m : Nat) (d : Bool) : getP (cachePut s n d) m = getP s m := by
  obtain ⟨c, t, h⟩ := cachePut_what s n d
  rw [h]; rfl

end Sys2Proof.Machine
end

