-- ==== Sys2Proof/Tests/Slice0.lean ====
section
/-!
SUPPORT. Small tests: each check of `Instr.wf` refuses an ill-formed command, single steps whose results the specification gives,
and for every statement a state and operands that meet its hypotheses.
-/

set_option maxRecDepth 50000
set_option Elab.async false

namespace Sys2Proof.Tests

open Sys2Proof Sys2Proof.Machine

/-! ### Ill-formed commands are refused -/

def noDevice : DeviceInfo := { bridge := false, funcs := [], nvme := none, pairs := 0, mdts := 0, spaces := [] }

theorem test_wf_null_pronoun : (Instr.waitTimeout 0).wf = false ∧ (Instr.doomEntriesReturned 0).wf = false ∧ (Instr.conflictRerun 0).wf = false := by decide
theorem test_wf_no_arbiter : (Instr.arbCutoff 20 0).wf = false ∧ (Instr.arbStarve 20 0).wf = false ∧ (Instr.arbSwap 31 0).wf = false := by decide
theorem test_wf_no_function : (Instr.admBind 0x39 0).wf = false ∧ (Instr.hfAdmCfgWrite 0xF0 0).wf = false := by decide
theorem test_wf_doorbell : (Instr.doorbellWrite 0x40 0 [] []).wf = false ∧ (Instr.doorbellWrite 0x3F 0 [0] []).wf = false := by decide
theorem test_wf_host_store : (HostStore.bytes (BitVec.allOnes 60) [0, 0]).wf = false ∧ (HostStore.fault 0 0 1).wf = false ∧
    (HostStore.fault (BitVec.allOnes 60) 2 1).wf = false := by decide
theorem test_wf_bar_access : (BarAccess.wf { off := 0, write := false, len := 0, data := [] }) = false ∧
    (BarAccess.wf { off := 0, write := false, len := 4097, data := [] }) = false ∧
    (BarAccess.wf { off := 0, write := true, len := 4, data := [1, 2, 3] }) = false ∧
    (BarAccess.wf { off := 0, write := false, len := 4, data := [1, 2, 3, 4] }) = false := by decide
theorem test_wf_flit : (Flit.wf { seq := 0, null := false, payload := List.replicate 249 0 }) = false ∧
    (Flit.wf { seq := 0, null := true, payload := [0] }) = false := by decide
theorem test_wf_master : (Instr.icClaimN 0xFF).wf = false ∧ (Instr.mbxPost 0xFF 0).wf = false := by decide
theorem test_wf_register_alignment : (Instr.registerWrite 0 0x102 0).wf = false ∧ (Instr.counterReadClear 0 1).wf = false ∧ (Instr.timeTickLoRead 0 2).wf = false := by decide
theorem test_wf_vector : (Instr.hfModWrite 0x48 2047 0).wf = false ∧ (Instr.vectorUnmask 0x48 2047).wf = false := by decide
theorem test_wf_messages : (Instr.twHello [0]).wf = false ∧ (Instr.twAuth []).wf = false ∧ (Instr.twHeartbeat 0 [1]).wf = false ∧
    (Instr.twLaunch 0 []).wf = false ∧ (Instr.twLaunchAck 0 [1]).wf = false ∧ (Instr.twMailbox 0 []).wf = false ∧ (Instr.twMailbox 0x40 [0]).wf = false ∧
    (Instr.twRegReq 0 []).wf = false ∧ (Instr.twRegResp 0 []).wf = false ∧ (Instr.twCtmCopy 0 []).wf = false ∧ (Instr.twCtmWrite 0 [1]).wf = false := by decide
theorem test_wf_inbound : (InboundReq.read 0 0).wf = false ∧ (InboundReq.read 0 4097).wf = false ∧ (InboundReq.write 0 []).wf = false := by decide
theorem test_wf_self_test : (Instr.admSelfTest 0x40 0 [(1, 2), (1, 3)]).wf = false := by decide
theorem test_wf_write_mem : (Instr.writeMem 0 4 [1, 2]).wf = false := by decide
theorem test_wf_device : (DeviceInfo.wf { noDevice with funcs := [{ num := 0 }, { num := 0 }] }) = false ∧
    (DeviceInfo.wf { noDevice with funcs := [{ num := 0 }], nvme := some 1 }) = false ∧
    (DevFunc.wf { num := 0, bars := [{ index := 6, shift := 12 }] }) = false ∧ (DevFunc.wf { num := 0, bars := [{ index := 0, shift := 3 }] }) = false ∧
    (DevFunc.wf { num := 0, bars := [{ index := 2, shift := 12 }, { index := 0, shift := 12 }] }) = false ∧ (DevFunc.wf { num := 0, payload := 6 }) = false ∧
    (DevFunc.wf { num := 0, vectors := 2049 }) = false := by decide
theorem test_wf_link : (LinkUp.wf { state := 0, rate := 1, width := 1, device := noDevice }) = false ∧ (LinkUp.wf { state := 7, rate := 1, width := 1, device := noDevice }) = false ∧
    (LinkUp.wf { state := 4, rate := 10, width := 1, device := noDevice }) = false ∧ (LinkUp.wf { state := 4, rate := 1, width := 3, device := noDevice }) = false ∧
    (LinkUp.wf { state := 4, rate := 9, width := 4, device := noDevice }) = true := by decide
theorem test_wf_kdl_frame : (KdlFrame.wf { type := 2, length := 1 }) = false ∧ (KdlFrame.wf { type := 2, length := 4097, payload := List.replicate 4097 0 }) = false := by decide

/-! ### States for the witnesses and for single steps -/

/-- a part in service -/
def up : State := { State.reset with
  rst := { State.reset.rst with booted := true, fwReady := true }
  sched := { State.reset.sched with configured := true, ctmBase := 8, ctmSize := 2, prnBase := 16 } }
/-- an instruction word: opcode, rd, rs1 and the twelve low bits -/
def ins (opc rd rs1 low : Nat) : Word := BitVec.ofNat 32 (opc * 2 ^ 22 + rd * 2 ^ 17 + rs1 * 2 ^ 12 + low)
/-- an ALU word -/
def alu (fn rd rs1 rs2 : Nat) : Word := ins 1 rd rs1 (rs2 * 128 + fn)
/-- a compare, predicate or lock word -/
def cmpw (opc pd cond rs1 low : Nat) : Word := BitVec.ofNat 32 (opc * 2 ^ 22 + pd * 2 ^ 19 + cond * 2 ^ 16 + rs1 * 2 ^ 11 + low)
def scriptCcw : Ccw := { addr := 0x8000000000000100, verb := 0x46, mod := 0, flags := 1, count := 9, opnd := 0xA000000000000200 }
/-- pronoun 5 runs a script on slot 17; its next word is `w` -/
def eng (w : Word) (r : Regs) (s : State := up) : State :=
  let s := { s with mem := { s.mem with loc := putBytes s.mem.loc (0x200 + r.pc.toNat) (toLE 4 w.toNat) } }
  let s := setSlot s 17 { getSlot s 17 with prn := some 5 }
  setP s 5 { state := .active, hostFn := 0x40, affinity := 0xFFFFFFFF, script := some { regs := r, base := 0xA000000000000200, count := 9, left := 5 }
             cur := some { items := [scriptCcw], phase := .script } }
/-- the control processor's next word is `w` -/
def cpAt (w : Word) (r : Regs) (s : State := up) : State :=
  { s with mem := { s.mem with tcm := putBytes s.mem.tcm r.pc.toNat (toLE 4 w.toNat) }, cp := { s.cp with running := true, regs := r } }
def regs2 (a b : Word) : Regs := { g := [(1, a), (2, b)], th := 0x40 }
def next? (r : Host.Outcome State Fault Refusal) (f : State → Bool) : Bool := match r with | .next t => f t | _ => false

def faults? (r : Host.Outcome State Fault Refusal) : Bool := match r with | .fault .forbiddenPulse => true | _ => false

/-- `Issues` as a test -/
def issuesB (s : State) (c : Core) (w : Word) : Bool :=
  match c with
  | .engine k => match scriptReady s k.toNat with
    | some (n, sc) => decide (doomedRerun s n = none ∧ (sc.left ≠ 0 ∨ inRep sc.regs = true) ∧ codeGood s n sc.base sc.regs.pc = true ∧
        (lineCached s (engineOf k.toNat) (codeAddr sc.base sc.regs.pc) = true ∨ codeBad s (codeAddr sc.base sc.regs.pc) = false) ∧
        codeWord s (engineOf k.toNat) (codeAddr sc.base sc.regs.pc) = w ∧
        encLegal false sc.regs.crc.toNat sc.regs.inHandler false w = true ∧ executes sc.regs w = true)
    | none => false
  | .control => decide (cpIssues s = true ∧ s.cp.regs.pc.toNat + 4 ≤ 0x80000 ∧ tcmWord s s.cp.regs.pc = w ∧
      encLegal true s.cp.regs.crc.toNat s.cp.regs.inHandler (s.cp.inNormal || s.cp.inFast) w = true ∧ executes s.cp.regs w = true)
theorem issues_of {s : State} {c : Core} {w : Word} (h : issuesB s c w = true) : Issues s w c := by
  cases c with
  | engine k =>
    dsimp only [issuesB] at h
    split at h
    · next m x e => exact ⟨m, x, e, of_decide_eq_true h⟩
    · cases h
  | control => simpa [issuesB, Issues] using h
/-- the word issues on slot 17 and on the control processor -/
def bothB (w : Word) (r : Regs) (s : State := up) : Bool := issuesB (eng w r s) (.engine 17) w && issuesB (cpAt w r s) .control w
theorem both_of {w : Word} {r : Regs} {s : State} (h : bothB w r s = true) : Issues (eng w r s) w (.engine 17) ∧ Issues (cpAt w r s) w .control := by
  unfold bothB at h
  rw [Bool.and_eq_true] at h
  exact ⟨issues_of h.1, issues_of h.2⟩
theorem of_all {α : Type} {l : List α} {p : α → Bool} (h : l.all p = true) (a : α) (m : a ∈ l) : p a = true := List.all_eq_true.mp h a m

/-! ### Script instructions -/

/-- 0x7FFF_FFFF + 1 wraps and sets V (07 R200) -/
theorem test_add_wraps : next? (exec (.scAdd (.engine 17) (alu 0 3 1 2)) (eng (alu 0 3 1 2) (regs2 0x7FFFFFFF 1)))
    (fun t => getG (regsOf t (.engine 17)) 3 == 0x80000000 && (regsOf t (.engine 17)).v) = true := by decide +kernel
/-- −7 divided by 2 rounds toward zero (07 R199) -/
theorem test_divs_rounds_to_zero : next? (exec (.scDivs .control (alu 0x14 3 1 2)) (cpAt (alu 0x14 3 1 2) (regs2 0xFFFFFFF9 2)))
    (fun t => getG t.cp.regs 3 == 0xFFFFFFFD) = true := by decide +kernel
/-- a shift by 32 leaves nothing (07 R199) -/
theorem test_shl_full_width : next? (exec (.scShl .control (alu 0x08 3 1 2)) (cpAt (alu 0x08 3 1 2) (regs2 0xFFFFFFFF 32)))
    (fun t => getG t.cp.regs 3 == 0) = true := by decide +kernel

def aluFns : List Nat := [0x00, 0x01, 0x02, 0x03, 0x04, 0x05, 0x08, 0x09, 0x0A, 0x0B, 0x0C, 0x10, 0x11, 0x12, 0x14, 0x15, 0x16, 0x17, 0x18, 0x19, 0x1A, 0x1B]
def unFns : List Nat := [0x20, 0x21, 0x22, 0x23, 0x24, 0x25, 0x26, 0x27, 0x28]
theorem witness_AluOperationsWriteRd :
    (∀ f ∈ aluFns, (Issues (eng (alu f 3 1 2) (regs2 5 7)) (alu f 3 1 2) (.engine 17) ∧ Issues (cpAt (alu f 3 1 2) (regs2 5 7)) (alu f 3 1 2) .control) ∧
      opcOf (alu f 3 1 2) = 1 ∧ fnOf (alu f 3 1 2) = BitVec.ofNat 7 f) ∧
    (∀ f ∈ unFns, (Issues (eng (alu f 3 1 0) (regs2 5 7)) (alu f 3 1 0) (.engine 17) ∧ Issues (cpAt (alu f 3 1 0) (regs2 5 7)) (alu f 3 1 0) .control) ∧
      opcOf (alu f 3 1 0) = 1 ∧ fnOf (alu f 3 1 0) = BitVec.ofNat 7 f) ∧
    Issues (eng (ins 2 3 1 5) (regs2 5 7)) (ins 2 3 1 5) (.engine 17) ∧ opcOf (ins 2 3 1 5) = 2 := by
  refine ⟨fun f hf => ⟨both_of ?_, ?_⟩, fun f hf => ⟨both_of ?_, ?_⟩, issues_of ?_, ?_⟩
  · revert f; decide +kernel
  · revert f; decide +kernel
  · revert f; decide +kernel
  · revert f; decide +kernel
  · decide +kernel
  · decide +kernel
def trapping (s : State) : State := setSlot s 17 { prn := some 5, dzt := true }
/-- divisors zero and not, the overflowing pair, and DZT set -/
theorem witness_DivisionsAndTheirEdges : ∀ f ∈ [0x14, 0x15, 0x16, 0x17], ∀ b ∈ [0, 1, 0xFFFFFFFF],
    Issues (eng (alu f 3 1 2) (regs2 0x80000000 (BitVec.ofNat 32 b))) (alu f 3 1 2) (.engine 17) ∧
      Issues (trapping (eng (alu f 3 1 2) (regs2 0x80000000 (BitVec.ofNat 32 b)))) (alu f 3 1 2) (.engine 17) ∧
      (getSlot (trapping (eng (alu f 3 1 2) (regs2 0x80000000 (BitVec.ofNat 32 b)))) 17).dzt = true ∧ opcOf (alu f 3 1 2) = 1 ∧
      fnOf (alu f 3 1 2) = BitVec.ofNat 7 f ∧ (getG (regsOf (trapping (eng (alu f 3 1 2) (regs2 0x80000000 (BitVec.ofNat 32 b)))) (.engine 17)) (rs2Of (alu f 3 1 2)) = BitVec.ofNat 32 b ∧
      canTrap (regsOf (trapping (eng (alu f 3 1 2) (regs2 0x80000000 (BitVec.ofNat 32 b)))) (.engine 17))) := by
  intro f hf b hb
  refine ⟨issues_of ?_, issues_of ?_, ?_, ?_, ?_, ?_⟩
  · revert b; revert f; decide +kernel
  · revert b; revert f; decide +kernel
  · revert b; revert f; decide +kernel
  · revert f; decide +kernel
  · revert f; decide +kernel
  · unfold canTrap; revert b; revert f; decide +kernel
theorem witness_ImmediatesAndCompares :
    (∀ o ∈ [3, 4, 5, 6, 7, 8, 9], (Issues (eng (ins o 3 1 0xFFF) (regs2 5 7)) (ins o 3 1 0xFFF) (.engine 17) ∧ Issues (cpAt (ins o 3 1 0xFFF) (regs2 5 7)) (ins o 3 1 0xFFF) .control) ∧
      opcOf (ins o 3 1 0xFFF) = BitVec.ofNat 6 o) ∧
    (∀ h ∈ [0, 16], (Issues (eng (ins 10 3 h 7) (regs2 5 7)) (ins 10 3 h 7) (.engine 17) ∧ Issues (cpAt (ins 10 3 h 7) (regs2 5 7)) (ins 10 3 h 7) .control) ∧
      opcOf (ins 10 3 h 7) = 10 ∧ (ins 10 3 h 7).getLsbD 16 = decide (h = 16)) ∧
    (∀ o ∈ [0x20, 0x21, 0x22], ∀ c ∈ [0, 1, 2, 3, 4, 5, 6, 7], (Issues (eng (cmpw o 3 c 1 0) (regs2 5 7)) (cmpw o 3 c 1 0) (.engine 17) ∧
      Issues (cpAt (cmpw o 3 c 1 0) (regs2 5 7)) (cmpw o 3 c 1 0) .control) ∧ opcOf (cmpw o 3 c 1 0) = BitVec.ofNat 6 o) := by
  refine ⟨fun o ho => ⟨both_of ?_, ?_⟩, fun h hh => ⟨both_of ?_, ?_⟩, fun o ho c hc => ⟨both_of ?_, ?_⟩⟩
  · revert o; decide +kernel
  · revert o; decide +kernel
  · revert h; decide +kernel
  · revert h; decide +kernel
  · revert c; revert o; decide +kernel
  · revert c; revert o; decide +kernel

/-- the address of a load or store -/
def addrOf (w : Word) (r : Regs) : Word := getG r (rs1Of w) + (imm12Of w).signExtend 32
/-- the last aligned unit of the TCM and of local memory, a misaligned address, and the first beyond each -/
theorem witness_LocalLoadsAndStores : ∀ o ∈ [0x10, 0x11, 0x12, 0x13, 0x14, 0x15, 0x16, 0x17], ∀ a ∈ [0, 0x7FFFC, 0x80000, 0x3FFFFC, 0x400000, 0x1001],
    (Issues (eng (ins o 3 1 0) (regs2 (BitVec.ofNat 32 a) 0)) (ins o 3 1 0) (.engine 17) ∧ Issues (cpAt (ins o 3 1 0) (regs2 (BitVec.ofNat 32 a) 0)) (ins o 3 1 0) .control) ∧
      opcOf (ins o 3 1 0) = BitVec.ofNat 6 o ∧ addrOf (ins o 3 1 0) (regs2 (BitVec.ofNat 32 a) 0) = BitVec.ofNat 32 a ∧
      localGone (eng (ins o 3 1 0) (regs2 (BitVec.ofNat 32 a) 0)) a 4 = false ∧ canTrap (regs2 (BitVec.ofNat 32 a) 0) := by
  intro o ho a ha
  refine ⟨both_of ?_, ?_⟩
  · revert a; revert o; decide +kernel
  · unfold canTrap; revert a; revert o; decide +kernel
/-- the first and the last word of CTM, and the first address beyond it -/
theorem witness_CtmAccessOutsideClause : ∀ o ∈ [0x18, 0x19, 0x1A, 0x1B, 0x1C, 0x1D], ∀ a ∈ [0, 0x1FFFFFFC, 0x20000000],
    (Issues (eng (ins o 3 1 0) (regs2 (BitVec.ofNat 32 a) 0)) (ins o 3 1 0) (.engine 17) ∧ Issues (cpAt (ins o 3 1 0) (regs2 (BitVec.ofNat 32 a) 0)) (ins o 3 1 0) .control) ∧
      opcOf (ins o 3 1 0) = BitVec.ofNat 6 o ∧ addrOf (ins o 3 1 0) (regs2 (BitVec.ofNat 32 a) 0) = BitVec.ofNat 32 a ∧
      openClause (eng (ins o 3 1 0) (regs2 (BitVec.ofNat 32 a) 0)) 5 = none ∧ ctmSizeFor (eng (ins o 3 1 0) (regs2 (BitVec.ofNat 32 a) 0)) 5 = 0x20000000 ∧
      dramPoisoned (eng (ins o 3 1 0) (regs2 (BitVec.ofNat 32 a) 0)) (ctmPhys up a) 4 = false ∧ (linesOf a 4).any (isCommitted up) = false := by
  intro o ho a ha
  refine ⟨both_of ?_, ?_⟩
  · revert a; revert o; decide +kernel
  · revert a; revert o; decide +kernel
/-- every polynomial, with the register form and the memory form of each width -/
theorem witness_CrcSteps : ∀ k ∈ [0, 1, 2, 3], ∀ f ∈ [0x30, 0x31, 0x32, 0x34, 0x35, 0x36],
    (Issues (eng (alu f 4 (if f < 0x34 then 4 else 1) (if f < 0x34 then 2 else 0)) ({ regs2 0x1000 7 with crc := BitVec.ofNat 2 k }))
        (alu f 4 (if f < 0x34 then 4 else 1) (if f < 0x34 then 2 else 0)) (.engine 17) ∧
      Issues (cpAt (alu f 4 (if f < 0x34 then 4 else 1) (if f < 0x34 then 2 else 0)) ({ regs2 0x1000 7 with crc := BitVec.ofNat 2 k }))
        (alu f 4 (if f < 0x34 then 4 else 1) (if f < 0x34 then 2 else 0)) .control) ∧
      fnOf (alu f 4 (if f < 0x34 then 4 else 1) (if f < 0x34 then 2 else 0)) = BitVec.ofNat 7 f ∧ localGone up 0x1000 4 = false := by
  intro k hk f hf
  refine ⟨both_of ?_, ?_⟩
  · revert f; revert k; decide +kernel
  · revert f; decide +kernel
def callRegs (n : Nat) (a : Word) : Regs := { g := [(1, a)], rs := List.replicate n 0x88, lk := 0x44, th := 0x40, pc := 0x10 }
def callWord (o : Nat) : Word := ins o 0 (if o = 0x2B then 1 else 0) 0
/-- aligned and misaligned targets, a return stack with none, seven and eight entries -/
theorem witness_BranchesAndCalls : ∀ o ∈ [0x28, 0x29, 0x2A, 0x2B, 0x2C, 0x2D], ∀ n ∈ [0, 1, 7, 8], ∀ a ∈ [0x100, 0x101, 0x102],
    (Issues (eng (callWord o) (callRegs n (BitVec.ofNat 32 a))) (callWord o) (.engine 17) ∧ Issues (cpAt (callWord o) (callRegs n (BitVec.ofNat 32 a))) (callWord o) .control) ∧
      opcOf (callWord o) = BitVec.ofNat 6 o ∧ getG (callRegs n (BitVec.ofNat 32 a)) 1 = BitVec.ofNat 32 a ∧ canTrap (callRegs n (BitVec.ofNat 32 a)) ∧
      (callRegs n (BitVec.ofNat 32 a)).rs.length = n ∧ (getSlot (eng (callWord o) (callRegs n (BitVec.ofNat 32 a))) 17).rsov = true := by
  intro o ho n hn a ha
  refine ⟨both_of ?_, ?_⟩
  · revert a; revert n; revert o; decide +kernel
  · unfold canTrap; revert a; revert n; revert o; decide +kernel
/-- a return stack of eight on a slot whose RSOV is clear -/
theorem witness_BranchesAndCalls_rsov_clear :
    Issues (setSlot (eng (ins 0x29 0 0 5) (callRegs 8 0)) 17 { prn := some 5, rsov := false }) (ins 0x29 0 0 5) (.engine 17) := issues_of (by decide +kernel)
/-- the word after the one at the program counter -/
def nextWord (w : Word) (s : State) : State :=
  { s with mem := { s.mem with loc := putBytes s.mem.loc 0x204 (toLE 4 w.toNat), tcm := putBytes s.mem.tcm 4 (toLE 4 w.toNat) } }
def second (x : Nat) : Word := if x = 0 then alu 0 3 1 2 else ins 0x28 0 0 5
/-- both prefixes, before an addition and before a branch; a false predicate; an undefined opcode -/
theorem witness_RepeatsAndUnexecuted :
    (∀ w ∈ [0x0B800007, 0x0BA000FF], ∀ x ∈ [0, 1],
      (Issues (eng (BitVec.ofNat 32 w) (regs2 1 2) (nextWord (second x) up)) (BitVec.ofNat 32 w) (.engine 17) ∧ Issues (cpAt (BitVec.ofNat 32 w) (regs2 1 2) (nextWord (second x) up)) (BitVec.ofNat 32 w) .control) ∧
        opcOf (BitVec.ofNat 32 w) = 0x2E ∧ nextIs (eng (BitVec.ofNat 32 w) (regs2 1 2) (nextWord (second x) up)) (.engine 17) (second x) = true ∧
        nextIs (cpAt (BitVec.ofNat 32 w) (regs2 1 2) (nextWord (second x) up)) .control (second x) = true ∧ repeatForbidden false (second x) = decide (x = 1)) ∧
    (∀ w ∈ [0x30861005, 0x00000055], scriptReady (eng (BitVec.ofNat 32 w) (regs2 1 2)) 17 = some (5, { regs := regs2 1 2, base := 0xA000000000000200, count := 9, left := 5 }) ∧
      codeGood (eng (BitVec.ofNat 32 w) (regs2 1 2)) 5 0xA000000000000200 0 = true ∧ codeBad (eng (BitVec.ofNat 32 w) (regs2 1 2)) (codeAddr 0xA000000000000200 0) = false ∧
      codeWord (eng (BitVec.ofNat 32 w) (regs2 1 2)) 1 (codeAddr 0xA000000000000200 0) = BitVec.ofNat 32 w) ∧
    executes (regs2 1 2) 0x30861005 = false ∧ opcOf (0x30861005 : Word) = 2 ∧ opcOf (0x55 : Word) = 0 := by
  refine ⟨fun w hw x hx => ⟨both_of ?_, ?_⟩, ?_, ?_⟩
  · revert x; revert w; decide +kernel
  · revert x; revert w; decide +kernel
  · decide +kernel
  · decide +kernel
/-- the words of TRAP, TRET, and of MFS and MTS for each register they name; TRET issues in a handler alone -/
theorem witness_TrapsAndSpecialRegisters :
    (∀ w ∈ [ins 0x30 0 1 0x2A] ++ ((List.range 15).map fun i => ins 0x32 3 0 (i * 128)) ++ ([0, 1, 2, 4, 6, 7].map fun i => ins 0x33 0 1 (i * 128)),
      Issues (eng w (regs2 5 0)) w (.engine 17) ∧ Issues (cpAt w (regs2 5 0)) w .control) ∧ canTrap (regs2 5 0) ∧
    (Issues (eng (ins 0x31 0 0 1) ({ regs2 5 0 with inHandler := true })) (ins 0x31 0 0 1) (.engine 17) ∧
      Issues (cpAt (ins 0x31 0 0 1) ({ regs2 5 0 with inHandler := true })) (ins 0x31 0 0 1) .control) := by
  refine ⟨fun w hw => both_of ?_, ?_, both_of ?_⟩
  · exact List.all_eq_true.mp (by decide +kernel : ([ins 0x30 0 1 0x2A] ++ ((List.range 15).map fun i => ins 0x32 3 0 (i * 128)) ++ ([0, 1, 2, 4, 6, 7].map fun i => ins 0x33 0 1 (i * 128))).all (fun w => bothB w (regs2 5 0)) = true) w hw
  · unfold canTrap; decide +kernel
  · decide +kernel

/-! ### Ends, locks, requests, waits -/

def endReady (s : State) : Prop := ∃ n sc, scriptReady s 17 = some (n, sc) ∧ (getP s n).state = .active ∧ (getP s n).fenceDue = none ∧
  outstanding s n = [] ∧ clauseOf s n = none ∧ (getP s n).rerun = none ∧ (lastCcw (getP s n)).verb = 0x46 ∧ fNext (lastCcw (getP s n)) = true ∧ fFst (lastCcw (getP s n)) = false
theorem witness_EndsAndCacheInvalidation :
    Issues (eng (ins 0x34 0 0 0) {}) (ins 0x34 0 0 0) (.engine 17) ∧ opcOf (ins 0x34 0 0 0) = 0x34 ∧
    Issues (eng (ins 0x2F 0 0 1) {}) (ins 0x2F 0 0 1) (.engine 17) ∧ opcOf (ins 0x2F 0 0 1) = 0x2F ∧ endReady (eng (ins 0x2F 0 0 1) {}) :=
  ⟨issues_of (by decide +kernel), by decide +kernel, issues_of (by decide +kernel), by decide +kernel,
   5, { regs := {}, base := 0xA000000000000200, count := 9, left := 5 }, by decide +kernel⟩

def lockWord (i : Nat) : Word := if i = 0 then cmpw 0x35 3 2 1 0 else cmpw 0x36 3 0 1 0
def lockAt (i : Nat) (l : List (Nat × Nat × Bool)) (c : List Clause) : State :=
  let s := eng (lockWord i) { g := [(1, 0x100)], th := 0x40 }
  { s with cls := { s.cls with locks := l, clauses := c } }
def fullRegistry : List (Nat × Nat × Bool) := (List.range 8192).map fun i => (0x1000 + 4 * i, 9, false)
def openOf5 : Clause := { begin_ := 1, prn := 5, clb := 0x8000000000000080, loops := [] }
def lockCases (i : Nat) : List State :=
  [lockAt i [] [], lockAt i fullRegistry [], lockAt i [(0x100, 5, false)] [], lockAt i [(0x100, 5, true)] [], lockAt i [(0x100, 7, true)] [], lockAt i [(0x100, 7, false)] [],
   lockAt i [] [openOf5]]
/-- a free word, a full registry, a lock of one's own, broken ones, another's, and with a clause open -/
theorem witness_LocksAndUnlocks :
    (∀ i ∈ [0, 1], ∀ s ∈ lockCases i, Issues s (lockWord i) (.engine 17)) ∧
    (∀ i ∈ [0, 1], opcOf (lockWord i) = BitVec.ofNat 6 (0x35 + i) ∧ getLock (lockAt i [] []) 0x100 = none ∧ ctmOff (lockAt i [] []) 5 0x100 = 0x100 ∧
      dramPoisoned (lockAt i [] []) (ctmPhys (lockAt i [] []) 0x100) 4 = false ∧ isCommitted (lockAt i [] []) 4 = false ∧
      0 + retiredOf (lockAt i [] []) 7 0 < 8192 ∧ fullRegistry.length = 8192 ∧ getLock (lockAt i fullRegistry []) 0x100 = none ∧
      getLock (lockAt i [(0x100, 5, false)] []) 0x100 = some (5, false) ∧ getLock (lockAt i [(0x100, 7, true)] []) 0x100 = some (7, true) ∧
      0x100 < ctmSizeFor (lockAt i [] []) 5 ∧ clauseOf (lockAt i [] []) 5 = none ∧ clauseOf (lockAt i [] [openOf5]) 5 = some openOf5) := by
  refine ⟨fun i hi s hs => issues_of ?_, ?_⟩
  · exact List.all_eq_true.mp (List.all_eq_true.mp (by decide +kernel : ([0, 1].all fun i => (lockCases i).all fun s => issuesB s (.engine 17) (lockWord i)) = true) i hi) s hs
  · decide +kernel

def reqAt (a : Word) : State :=
  let s := eng (ins 0x37 3 1 0) { g := [(1, a)], th := 0x40 }
  { s with mem := { s.mem with loc := putBytes s.mem.loc 0x800 (toLE 8 0x8000000000001000 ++ toLE 8 0xA000000000001000 ++ toLE 4 64) } }
def tickets3 : Tab Ticket := [(0, .busy 3), (1, .done 2 7)]
def ticketAt (i v : Nat) : State :=
  let s := eng (ins 0x38 3 1 i) { g := [(1, BitVec.ofNat 32 v)], th := 0x40 }
  modP s 5 fun p => { p with tickets := tickets3 }
/-- a plain copy at an aligned block, a block off by one; a ticket in progress, ended, free, and numbers 15 and 16 -/
theorem witness_MoverRequestsAndTickets :
    (Issues (reqAt 0x800) (ins 0x37 3 1 0) (.engine 17) ∧ localGone (reqAt 0x800) 0x800 32 = false ∧ 0x800 % 16 = 0 ∧ opcOf (ins 0x37 3 1 0) = 0x37 ∧
      qIdx (parseReq (getBytes (reqAt 0x800).mem.loc 0x800 32)) = false ∧ qXfm (parseReq (getBytes (reqAt 0x800).mem.loc 0x800 32)) = false ∧
      lowest (qChecks (reqAt 0x800) { ctl := false, k := 17, n := 5, r := { g := [(1, 0x800)], th := 0x40 }, left := 0, rsov := true, dzt := false }
        (parseReq (getBytes (reqAt 0x800).mem.loc 0x800 32))) = none ∧ firstFree (getP (reqAt 0x800) 5).tickets = some 0 ∧
      (pickMover (reqAt 0x800) 1).isSome = true ∧ 1 ≤ (reqAt 0x800).sched.moverLimit.toNat) ∧
    Issues (reqAt 0x801) (ins 0x37 3 1 0) (.engine 17) ∧
    (∀ i ∈ [0, 1], ∀ v ∈ [0, 1, 2, 15, 16, 0xFFFFFFFF], Issues (ticketAt i v) (ins 0x38 3 1 i) (.engine 17) ∧ opcOf (ins 0x38 3 1 i) = 0x38 ∧
      (getP (ticketAt i v) 5).tickets = tickets3 ∧ (ins 0x38 3 1 i).getLsbD 0 = decide (i = 1)) := by
  refine ⟨⟨issues_of ?_, ?_⟩, issues_of ?_, fun i hi v hv => ⟨issues_of ?_, ?_⟩⟩
  · decide +kernel
  · decide +kernel
  · decide +kernel
  · revert v; revert i; decide +kernel
  · revert v; revert i; decide +kernel

def waitWord (mask : Nat) : Word := BitVec.ofNat 32 (0x39 * 2 ^ 22 + 3 * 2 ^ 17 + 2 ^ 12 + mask * 16)
def waitAt (mask v : Nat) : State := modP (eng (waitWord mask) { g := [(1, 100)] }) 5 fun p => { p with waitPending := BitVec.ofNat 32 v }
def signalWord (m : Nat) : Word := BitVec.ofNat 32 (0x3A * 2 ^ 22 + m * 2 ^ 21 + 2 ^ 12)
/-- the highest and the lowest input pending, none pending; targets at the edges of what SIGNAL accepts -/
theorem witness_ScriptWaitsAndSignals :
    (∀ mask ∈ [0xFF, 0x81, 0], ∀ v ∈ [0x10000001, 0xF, 0], Issues (waitAt mask v) (waitWord mask) (.engine 17) ∧ opcOf (waitWord mask) = 0x39 ∧
      frameQueued (waitAt mask v) 5 = false ∧ (getP (waitAt mask v) 5).attn = [] ∧ (getP (waitAt mask v) 5).state = .active ∧ (getP (waitAt mask v) 5).waitPending = BitVec.ofNat 32 v) ∧
    (∀ m ∈ [0, 1], ∀ a ∈ [0, 223, 224, 511, 512, 1022, 1023, 0x700005, 0x7FFFFF, 0x800005, 0x100000],
      (Issues (eng (signalWord m) { g := [(1, BitVec.ofNat 32 a)], th := 0x40 }) (signalWord m) (.engine 17) ∧
        Issues (cpAt (signalWord m) { g := [(1, BitVec.ofNat 32 a)], th := 0x40 }) (signalWord m) .control) ∧
      opcOf (signalWord m) = 0x3A ∧ (signalWord m).getLsbD 21 = decide (m = 1) ∧ openClause (eng (signalWord m) { g := [(1, BitVec.ofNat 32 a)], th := 0x40 }) 5 = none) := by
  refine ⟨fun mask hm v hv => ⟨issues_of ?_, ?_⟩, fun m hm a ha => ⟨both_of ?_, ?_⟩⟩
  · revert v; revert mask; decide +kernel
  · revert v; revert mask; decide +kernel
  · revert a; revert m; decide +kernel
  · revert a; revert m; decide +kernel

def storeWord : Word := ins 0x1D 3 1 4
def storeWaits : State := modP (eng storeWord { g := [(1, 0x100), (3, 0xCAFE)] }) 5 fun p => { p with script := p.script.map fun x => { x with stall := some (.committed storeWord) } }
def fillCcw : Ccw := { addr := 0x8000000000000100, verb := 0x25, mod := 0x5A, flags := 1, count := 64, opnd := 0x8000000000001000 }
def issueWaits : State := modP (eng storeWord {}) 5 fun p => { p with script := none, cur := some { items := [fillCcw], phase := .issue } }
def budgetSpent : State := modP (eng storeWord {}) 5 fun p => { p with runLevel := 3, script := p.script.map fun x => { x with left := 0 } }
def doomedOf5 : Clause := { begin_ := 3, prn := 5, clb := 0x8000000000000100, loops := [], doom := some 1, reads := [1, 2] }
def linesHeld : State := { eng storeWord {} with cls := { up.cls with clauses := [doomedOf5] } }
def rerunDue : State := setP up 5 { state := .queued, rerun := some { reason := 1, clb := 0x80, loops := [], begin_ := 1, doomers := [2], counted := true } }
def clbWaits : State := { modP (eng storeWord {}) 5 (fun p => { p with script := none, cur := some { items := [{ fillCcw with flags := 5 }], phase := .clbWait } }) with cls := { up.cls with clbWait := [5] } }
/-- one state for each wait that ends -/
theorem witness_WaitsEnd :
    (slotPron storeWaits 17 = some 5 ∧ (getP storeWaits 5).script.bind (·.stall) = some (.committed storeWord) ∧ doomedRerun storeWaits 5 = none ∧
      running (getP storeWaits 5) = true ∧ openClause storeWaits 5 = none ∧ isCommitted storeWaits (ctmOff storeWaits 5 0x104 / 64) = false ∧ 0x104 < ctmSizeFor storeWaits 5) ∧
    (slotPron issueWaits 17 = some 5 ∧ (getP issueWaits 5).cur = some { items := [fillCcw], phase := .issue } ∧ doomedRerun issueWaits 5 = none ∧ (pickMover issueWaits 1).isSome = true) ∧
    ((scriptReady budgetSpent 17).isSome = true ∧ doomedRerun budgetSpent 5 = none ∧ (getP budgetSpent 5).script.map (·.left) = some 0) ∧
    (clauseOf linesHeld 5 = some doomedOf5 ∧ linesHeld.cp.stall.bind pickEntries = none ∧
      (linesHeld.sched.recs.all fun e => ((e.2.script.bind (·.stall)).bind pickEntries).isNone) = true) ∧
    (isBound (getP rerunDue 5) = true ∧ (getP rerunDue 5).rerun.map (·.counted) = some true ∧ rerunDue.cls.clauses = []) ∧
    (clbWaiter clbWaits 512 = some 5 ∧ clbWaits.flt.staging = false ∧ isBound (getP clbWaits 5) = true ∧ (getP clbWaits 5).rerun = none) := by decide +kernel

/-! ### The control processor, conjunctions, mailboxes -/

def cpIn (c : Cp) (w : Word) : State := let s := cpAt w { g := [(1, 5), (3, 7)], th := 0x40 }; { s with cp := { c with running := true, regs := s.cp.regs } }
def cpWords : List Word := ([0, 1, 2, 3, 4, 7].map fun i => ins 0x3E 3 0 (i * 128)) ++ ((List.range 7).map fun i => ins 0x3E 0 1 (i * 128 + 1)) ++ [ins 0x3F 0 0 1, ins 0x3F 0 0 2]
def busRegs (a : Nat) : Regs := { g := [(1, BitVec.ofNat 32 a)], th := 0x40 }
/-- every control register read and written, both handlers for IRET, and the first, last, misaligned and out of range bus offsets -/
theorem witness_ControlProcessorInstructions :
    (∀ w ∈ cpWords, Issues (cpIn {} w) w .control) ∧
    Issues (cpIn { inNormal := true } (ins 0x3F 0 0 0)) (ins 0x3F 0 0 0) .control ∧ Issues (cpIn { inFast := true } (ins 0x3F 0 0 0)) (ins 0x3F 0 0 0) .control ∧
    (∀ o ∈ [0x3C, 0x3D], ∀ a ∈ [0, 0x3FFFFC, 0x13, 0x400000], Issues (cpAt (ins o 3 1 0) (busRegs a)) (ins o 3 1 0) .control ∧ opcOf (ins o 3 1 0) = BitVec.ofNat 6 o ∧
      addrOf (ins o 3 1 0) (busRegs a) = BitVec.ofNat 32 a ∧ (busRegs a).th ≠ 0 ∧ (busRegs a).inHandler = false) := by
  refine ⟨fun w hw => issues_of ?_, issues_of ?_, issues_of ?_, fun o ho a ha => ⟨issues_of ?_, ?_⟩⟩
  · exact List.all_eq_true.mp (by decide +kernel : (cpWords.all fun w => issuesB (cpIn {} w) .control w) = true) w hw
  · decide +kernel
  · decide +kernel
  · revert a; revert o; decide +kernel
  · revert a; revert o; decide +kernel
def asksNormal (c : Cp) : State := { up with cp := { c with running := true }, evt := { up.evt with normal := { presented := some 5 } } }
def asksFast (c : Cp) : State := { up with cp := { c with running := true }, evt := { up.evt with fast := { presented := some 1023 } } }
theorem witness_InterruptEntries :
    (∀ s ∈ [asksNormal { nie := true }, asksFast { fie := true }, asksNormal { nie := true, regs := { rep := some ⟨3, true⟩ } }, asksFast { fie := true, inNormal := true }],
      controlRuns s = true ∧ s.cp.running = true ∧ s.cp.faulted = false ∧ s.cp.stall = none ∧ inRep s.cp.regs = false) ∧
    inRep (asksNormal { nie := true, regs := { rep := some ⟨3, false⟩ } }).cp.regs = true := by decide +kernel
def icAt (p e c : Nat) (n f : IcClass) : State :=
  { up with evt := { up.evt with icPend := BitVec.ofNat 1024 p, icEn := BitVec.ofNat 1024 e, icCls := BitVec.ofNat 1024 c, normal := n, fast := f } }
/-- sources 0 and 1023 presented, in service, and pending with none presented -/
theorem witness_ClaimsAndCompletions :
    (∀ n ∈ [0, 1023], (icAt 0 0 0 { presented := some n } {}).evt.normal.presented = some n ∧ (icAt 0 0 0 {} { presented := some n }).evt.fast.presented = some n ∧
      (icAt 0 0 0 { service := some n } {}).evt.normal.service = some (BitVec.ofNat 32 n).toNat ∧ (icAt 0 0 0 { service := some n } {}).evt.normal.presented = none) ∧
    icEval (icAt 0 0 0 {} {}) = icAt 0 0 0 {} {} ∧ (icAt (2 ^ 1023 + 1) (2 ^ 1023 + 1) 1 {} {}).evt.normal = {} ∧
    (icEval (icAt (2 ^ 1023 + 1) (2 ^ 1023 + 1) 1 {} {})).evt.normal.presented = some 1023 ∧
    (∀ w ∈ [true, false], let s := icAt 8 0 0 { presented := some 3, window := w } {}
      s.evt.normal.presented = some 3 ∧ s.evt.normal.service = none ∧ s.evt.normal.window = w ∧ s.evt.normal.stuck = false ∧ s.evt.icPend.getLsbD 3 = true ∧
        s.evt.icPend &&& s.evt.icEn = 0) := by decide +kernel
def firing : Cj := { en := true, group := 3, srcA := 0x00008005, tgt := [(0, 0x00000017), (3, 0x31), (5, 0x00000FF0), (7, 0x00000028)] }
def cjAt (c : Cj) : State := { up with evt := { up.evt with cj := tset {} 0 c (tset {} 255 c []), grpEn := 0xFFEF, edges := [0, 255] } }
def actWord (i : Nat) : Word := BitVec.ofNat 32 ([0, 0x13, 0xF3, 0x37, 0xF7, 0x38, 0x15, 0x115, 0x215, 0x315, 0xF5, 0x03000051, 0x07000091, 0xFF1].getD i 0)
def actAt (i : Nat) : State :=
  let s := setP up 5 { state := .waiting, wait := some { mask := 0x08, expiry := none, script := none }, hostFn := 0x40 }
  { s with evt := { s.evt with acts := [(255, 3, actWord i), (1, 2, 0x17)], caps := [(1, { count := 14, tick := 3 }), (15, { count := 15 })], cj := [(255, { owner := 0x40 })] }
           pwr := { s.pwr with gpioDir := 2 } }
/-- conjunctions 0 and 255 that fire, are blocked, armed, or use no source; one act of every kind, each first in its queue -/
theorem witness_ConjunctionEdgesAndActs :
    (∀ n ∈ [0, 255], getCj (cjAt firing) n = firing ∧ getCj (cjAt { firing with armed := true }) n = { firing with armed := true } ∧
      getCj (cjAt { firing with en := false }) n = { firing with en := false } ∧ getCj (cjAt { firing with srcA := 0 }) n = { firing with srcA := 0 }) ∧
    tabCanon {} (cjAt firing).evt.cj ∧ (∀ n ∈ [0, 255], n ∈ (cjAt firing).evt.edges ∧ n ∉ up.evt.edges) ∧ cjHigh (gpioLevels (cjAt firing)) firing = false ∧
    connected 5 = true ∧ cjSources firing = [5] ∧ connected 330 = false ∧
    (cjAt firing).evt.grpEn.getLsbD 3 = true ∧ (cjAt firing).evt.grpEn.getLsbD 4 = false ∧ (cjAt firing).rst.held = false ∧ (cjAt firing).evt.loops = 0 ∧
    (∀ i ∈ List.range 14, (actAt i).evt.acts = (255, 3, actWord i) :: [(1, 2, 0x17)] ∧ (actAt i).pwr.held = [] ∧ (actAt i).pwr.sleep = .awake) ∧
    actDenied (actAt 11) 0x40 5 = false ∧ waitCount (getP (actAt 11) 5) 3 < 15 := by decide +kernel
/-- a loop is not counted where the conjunction is not armed; the first act of two targets comes first (10 R306) -/
theorem test_conjunction_fires : next? (exec (.cjInputEdge 255) (cjAt firing)) (fun t => t.evt.acts.map (·.2.1) == [0, 3, 7] && (getCj t 255).armed) = true := by decide +kernel
/-- 3 ns and 9 ns are not to be produced, 2 ns is ignored and 10 ns is an edge (16 R479) -/
theorem test_gpio_pulse_lengths : faults? (exec (.gpioInputEdge 15 true 3) up) = true ∧ faults? (exec (.gpioInputEdge 15 true 9) up) = true ∧
    next? (exec (.gpioInputEdge 15 true 2) up) (· == up) = true ∧ next? (exec (.gpioInputEdge 15 true 10) up) (fun t => t.evt.icPend.getLsbD 255) = true := by decide +kernel
theorem witness_GpioEdges : up.pwr.gpioDir.getLsbD 0 = false ∧ up.pins.gpio.getLsbD 15 = false ∧
    ({ up with pwr := { up.pwr with gpioDir := 1 } } : State).pwr.gpioDir.getLsbD 0 = true := by decide +kernel
def mbxAt (x : Mbx) : State := { up with evt := { up.evt with mbx := tset {} 0 x (tset {} 63 x []), epochs := [(0x40, 7)] } }
def bound : Mbx := { valid := true, sender := 0x40, receiver := 0xF0, data := 5 }
/-- mailboxes 0 and 63, empty and full, and one of another master -/
theorem witness_MailboxPostsAndAcks :
    ∀ m ∈ [0, 63], getMbx (mbxAt bound) m = bound ∧ getMbx (mbxAt { bound with full := true }) m = { bound with full := true } ∧
      (mbxAt bound).rst.held = false ∧ (mbxAt bound).pwr.held = [] ∧ isVf 0x41 = false ∧ bound.sender ≠ 0x41 ∧ bound.receiver ≠ 0x41 := by decide +kernel
def waitsAt : State := setP up 5 { state := .waiting, ccwAddr := 0x8000000000000100, hostFn := 0x40, wait := some { mask := 1, expiry := some 500, script := none } }
def asleep (k : Sleep) (m : BitVec 12) : State := { waitsAt with pwr := { up.pwr with sleep := k, mask := m, wakeTimer := 77 } }
def readyForDeep (b : Bool) : State := { asleep .entering 0x100 with hp := { up.hp with split := b, linkA := { l1 := true }, linkB := { l1 := b }, funcs := [(0x40, { d3hot := true }), (0x41, { d3hot := true })] } }
/-- a WAIT that times out, a part that wakes from either sleep, and one that may enter DEEP SLEEP with one link or two -/
theorem witness_TimeoutsAndWakes :
    ((getP waitsAt 5).state = .waiting ∧ (getP waitsAt 5).wait = some { mask := 1, expiry := some 500, script := none } ∧ waitsAt.pwr.drain = none ∧ isFenced waitsAt = false ∧
      waitsAt.pwr.sleep = .awake ∧ waitsAt.rst.held = false) ∧
    ((asleep .standby 0x100).pwr.mask.getLsbD 8 = true ∧ (asleep .deep 0x100).pwr.sleep = .deep ∧ (asleep .standby 0x100).evt.deferred = [] ∧ (asleep .standby 0x100).tw.fenceIn = false ∧
      (asleep .standby 0x100).pwr.mask.getLsbD 10 = false ∧ (asleep .standby 0x100).pwr.wakeTimer ≠ 0) ∧
    (∀ b ∈ [true, false], logicRuns (readyForDeep b) = true ∧ (getFunc (readyForDeep b) 0x40).d3hot = true ∧ (getFunc (readyForDeep b) 0x41).d3hot = true ∧
      (readyForDeep b).hp.linkA.l1 = true ∧ ((readyForDeep b).hp.split = false ∨ (readyForDeep b).hp.linkB.l1 = true)) := by decide +kernel

/-! ### Chains, clauses, full stop -/

/-- pronoun 5 on slot 17 with this CCW checked and next -/
def verbAt (c : Ccw) (s : State := up) : State :=
  let s := setSlot s 17 { getSlot s 17 with prn := some 5 }
  setP s 5 { state := .active, hostFn := 0x40, affinity := 0xFFFFFFFF, ccwAddr := c.addr, cur := some { items := [c], phase := .ready } }
def ccw (verb mod flags count opnd : Nat) : Ccw :=
  { addr := 0x8000000000000100, verb := BitVec.ofNat 8 verb, mod := BitVec.ofNat 8 mod, flags := BitVec.ofNat 16 flags, count := BitVec.ofNat 32 count, opnd := BitVec.ofNat 64 opnd
    src := 0x8000000000002000, dst := 0x8000000000003000 }
def directing : List Ccw := [ccw 0x43 0 1 0 0, ccw 0x41 0 1 0 0x8000000000000200, ccw 0x45 0 1 0 512, ccw 0x45 0 1 0 1022, ccw 0x42 0 1 2 0x8000000000000080, ccw 0x42 0 1 0xFFFFFFFF 0x8000000000000080,
  ccw 0x46 0 1 9 0xA000000000000200, ccw 0x44 0 1 50 0xFF, ccw 0x44 0 1 0 0]
def withSq (s : State) : State :=
  { modP s 5 (fun p => { p with statusQueue := 3, seq := 0xFFFF }) with
    hp := { s.hp with sqs := [(3, { owner := 0x40, base := 0x10000, log2 := 4, vec := 2, prod := 15, cons := 3, phase := true, full := false })]
                      linkA := { rate := 5, width := 16 }, funcs := [(0x40, { bme := true, mse := true })] }
    pins := { s.pins with perst0 := false } }
def abandoning : State := { withSq (verbAt (ccw 0x51 0 1 0 0)) with cls := { up.cls with clauses := [{ openOf5 with begin_ := 3 }] } }
/-- each verb with its CCW at the limits of its operands, with and without a loop entry; the words of a chain's end have room -/
theorem witness_DirectingVerbsAndChainEnds :
    (∀ c ∈ directing, VerbReady (verbAt c) 17 5 c ∧ fClb c = false ∧ fNext c = true ∧ fFst c = false ∧ clauseOf (verbAt c) 5 = none ∧ frameQueued (verbAt c) 5 = false ∧
      (getP (verbAt c) 5).loops = [] ∧ (getP (verbAt c) 5).attn = [] ∧ (getP (verbAt c) 5).waitPending = 0) ∧
    ((getP (modP (verbAt (ccw 0x42 0 1 5 0)) 5 fun p => { p with loops := [⟨0x8000000000000100, 1⟩] }) 5).loops = [⟨0x8000000000000100, 1⟩]) ∧
    (∀ c ∈ [ccw 0x52 0 1 7 0, ccw 0x5F 0 0 0 0, ccw 0x51 0 1 0 0], VerbReady (withSq (verbAt c)) 17 5 c ∧ sqRoom (withSq (verbAt c)) 3 = true ∧
      (getP (withSq (verbAt c)) 5).startPending = false ∧ (getP (withSq (verbAt c)) 5).statusQueue = 3) ∧
    ((abandoning.cls.clauses.filter fun y => y.prn == 5) = [{ openOf5 with begin_ := 3 }] ∧ tget 0 abandoning.cls.aborts 5 + 1 ≠ BitVec.allOnes 32) := by
  unfold VerbReady VerbNext; decide +kernel
/-- pronoun 5 in a clause of its own -/
def inOwn (s : State) : State := { s with cls := { s.cls with clauses := [{ openOf5 with begin_ := 3 }] } }
/-- this CCW begins a data chain of two -/
def chained (c : Ccw) : State :=
  setP (bindK (verbAt c)) 5 { getP (bindK (verbAt c)) 5 with cur := some { items := [c, { c with addr := c.addr + 16, flags := 1 }], phase := .ready } }
where bindK (s : State) : State := modP s 5 fun p => { p with binds := BitVec.ofNat 512 (1 + 2 ^ 8 * 4) }
/-- every verb with CLB (flag bit 2) outside a clause, in one of its own, and at the head of a chain; a WAIT that an event
ends at once; loops found, not found, and not found with four entries -/
theorem witness_DirectingVerbsAndChainEnds_everyForm :
    (∀ c ∈ [0x43, 0x41, 0x42, 0x45, 0x46, 0x44, 0x52, 0x5F, 0x51, 0x21, 0x22, 0x23, 0x24, 0x25, 0x26, 0x31].map (fun v => ccw v 0 5 1 512),
      VerbNext (verbAt c) 17 5 c ∧ MayOpen (verbAt c) 5 c ∧ fClb c = true ∧ clauseOf (verbAt c) 5 = none ∧
      VerbNext (inOwn (verbAt c)) 17 5 c ∧ (clauseOf (inOwn (verbAt c)) 5).isSome = true ∧ (openClause (opened (inOwn (verbAt c)) 5 c) 5).isSome = true) ∧
    (∀ c ∈ [0x21, 0x24, 0x25, 0x26, 0x31].map (fun v => ccw v 0 5 64 512),
      VerbNext (chained c) 17 5 c ∧ MayOpen (chained c) 5 c ∧ (pickMover (chained c) 1).isSome = true ∧ (getP (chained c) 5).rerun = none) ∧
    waitTop { waitPending := setBit 0 28 true } 0xFF 8 = some 7 ∧
    (∀ e ∈ ([⟨0x8000000000000100, 2⟩] : List LoopEnt), [e] = [] ++ e :: [] ∧ (List.replicate 4 { e with addr := 0 }).all (fun x => x.addr != e.addr) = true) := by
  refine ⟨fun c h => ⟨?_, ?_, ?_, ?_, ?_, ?_⟩, fun c h => ⟨?_, ?_, ?_⟩, ?_⟩
  · unfold VerbNext; revert c; decide +kernel
  · unfold MayOpen; revert c; decide +kernel
  · revert c; decide +kernel
  · revert c; decide +kernel
  · unfold VerbNext; revert c; decide +kernel
  · revert c; decide +kernel
  · unfold VerbNext; revert c; decide +kernel
  · unfold MayOpen; revert c; decide +kernel
  · revert c; decide +kernel
  · decide +kernel
def bindK (k : Nat) (s : State) : State := modP s 5 fun p => { p with binds := BitVec.ofNat 512 (k + 2 ^ 8 * 4) }
theorem witness_DataVerbsQueueTransfers :
    ∀ c ∈ [ccw 0x24 0 1 64 0, ccw 0x25 0x5A 1 64 0x8000000000001000, ccw 0x25 0x5A 5 64 0x8000000000001000, ccw 0x26 0 0x11 64 0x8000000000001000, ccw 0x21 0 1 512 0x8000000000001000,
      ccw 0x31 3 1 64 0x8000000000001000], VerbReady (bindK 1 (verbAt c)) 17 5 c ∧ (pickMover (bindK 1 (verbAt c)) 1).isSome = true ∧ clauseOf (bindK 1 (verbAt c)) 5 = none ∧
      (getP (bindK 1 (verbAt c)) 5).rerun = none ∧ (bindK 1 (verbAt c)).flt.staging = false := by unfold VerbReady VerbNext; decide +kernel
theorem witness_ReadsIssueDeviceOperations :
    ∀ c ∈ [ccw 0x22 1 1 64 0x8000000000001000, ccw 0x23 2 1 64 0x8000000000001000], VerbReady (bindK 5 (verbAt c)) 17 5 c ∧ bKind (bindOf (getP (bindK 5 (verbAt c)) 5) (ccwBind c)) = 5 ∧
      (pickMover (bindK 5 (verbAt c)) 1).isSome = true ∧ clauseOf (bindK 5 (verbAt c)) 5 = none ∧ fClb c = false := by unfold VerbReady VerbNext; decide +kernel
/-- the CCW's bytes at 0x100 of buffer DRAM, pronoun 5 ACTIVE and about to fetch them -/
def fetchAt (verb : Nat) : State :=
  let s := { up with mem := { up.mem with dram := putBytes [] 0x100 ([BitVec.ofNat 8 verb, 0, 1, 0, 0, 0, 0, 0, 0, 0, 0, 0, 0, 0, 0, 0]) } }
  setP (setSlot s 17 { prn := some 5 }) 5 { state := .active, hostFn := 0x40, affinity := 0xFFFFFFFF, ccwAddr := 0x8000000000000100 }
def fetchCtx : Ctx := { first := none, before := 0, inClause := false, engine := 1 }
def isGood : Checked → Bool | .good c => !(fXfm c) && !(fPar c) && !(fNote c) && !(fJoin c) | _ => false
def isCheck : Checked → Bool | .check _ _ _ => true | _ => false
/-- a NOP, which is good, and an undefined verb, which is a check -/
theorem witness_FetchTakesCheckedCcw :
    (∀ v ∈ [0x43, 0x99], slotPron (fetchAt v) 17 = some 5 ∧ slotFenced (fetchAt v) 17 = false ∧ enginesRun (fetchAt v) = true ∧ (getP (fetchAt v) 5).cur = none ∧
      doomedRerun (fetchAt v) 5 = none ∧ rerunWaits (fetchAt v) (getP (fetchAt v) 5) = false) ∧
    isGood (fetchCheck (fetchAt 0x43) 5 fetchCtx 0x8000000000000100) = true ∧ isCheck (fetchCheck (fetchAt 0x99) 5 fetchCtx 0x8000000000000100) = true := by decide +kernel
def holders : State := { up with cls := { up.cls with clauses := [{ openOf5 with reads := [0] }, { openOf5 with begin_ := 2, writes := [1] }, { openOf5 with begin_ := 3, reads := [2] }] } }
theorem witness_OutsideStoresDoomHolders : tabCanon emptyByte holders.mem.dram ∧ (holders.cls.clauses.map (·.begin_)).Nodup ∧ ∀ c ∈ holders.cls.clauses, c.doom = none := by decide +kernel
/-- a store over the end of line 0 and the start of line 1 dooms the clauses that hold them, not the one of line 2 (04 R101) -/
theorem test_store_dooms_two_lines : ((ctmStore holders 62 [1, 2, 3, 4]).cls.clauses.filter (·.doom.isNone)).map (·.begin_) = [3] := by decide +kernel
def stopping : State :=
  let s := verbAt (ccw 0x43 0 9 0 0)
  { s with cls := { s.cls with clauses := [openOf5] }, fs := { s.fs with waiting := [⟨5, .goOn 0x200⟩], next := 2 ^ 48 + 77, limit := 2 ^ 49 } }
theorem witness_FullStopNumbers :
    (openClause stopping 5 = some openOf5 ∧ clauseOf stopping 5 = some openOf5 ∧ canNumber stopping = true ∧ fits stopping openOf5 = true ∧ stopping.fs.watermark = 0 ∧
      (stopping.cls.clauses.filter fun x => x.prn == 5) = [openOf5] ∧ (stopping.fs.window.all fun x => x.number != stopping.fs.next) = true) ∧
    2 ^ 32 ≤ 2 ^ 31 + 2 ^ 31 ∧ (2 ^ 31 - 1) + 2 ^ 31 < 2 ^ 32 := by decide +kernel
def releasing (b : EffBody) : State :=
  let e : Effect := { body := b, data := [1, 2, 3, 4] }
  let c : NClause := { number := 7, prn := 5, committed := true, hostFn := 0x40, effects := [e, { body := .host 0x1000, data := [1] }] }
  { withSq up with fs := { up.fs with window := [c, { c with number := 8 }] } }
/-- host runs, CTM lines and signals at their lowest and highest source -/
theorem witness_ReleaseIssuesInOrder :
    ∀ b ∈ [EffBody.host 0x1000, .ctm 0x40, .ctm 0x7F, .signal 0 512 3, .signal 0 1023 3], (releasing b).fs.stopped = false ∧ (releasing b).fs.barHold = none ∧ isFenced (releasing b) = false ∧
      (releasing b).fs.replay = none ∧ (releasing b).tw.taking = false ∧ ((releasing b).fs.window.map (·.number)).Nodup ∧ canIssue (releasing b) 0x40 = true ∧
      hostFault (releasing b) 0x1000 4 = none ∧ (releasing b).fs.window.head?.map (fun c => c.effects.map (·.body)) = some [b, .host 0x1000] := by decide +kernel
def queued (n l : Nat) (s : State) : State :=
  let s := setP s n { state := .queued, hostFn := 0x40, affinity := 0xFFFFFFFF, runLevel := BitVec.ofNat 3 l }
  { s with sched := { s.sched with runq := tmod [] l (fun x => x ++ [n]) s.sched.runq } }
def loadingAt : State := setSlot (queued 5 3 up) 17 { prn := some 5, loading := true }
/-- the oldest of the highest level goes to slot 511, or to 510 where a pronoun is on 511 (03 R78) -/
theorem witness_PlacementAndLoad :
    pickSlot (queued 5 3 (queued 6 3 (queued 7 2 up))) 512 = some (511, 6) ∧ pickSlot (setSlot (queued 5 0 up) 511 { prn := some 8 }) 512 = some (510, 5) ∧
    enginesRun (queued 5 0 up) = true ∧ (getSlot loadingAt 17).loading = true ∧ copyBad loadingAt 5 = false ∧ (getP loadingAt 5).state = .queued ∧
    doomedRerun loadingAt 5 = none := by decide +kernel

/-! ### Movers -/

def moveT (src dst : Dword) (n roff : Nat) (o : Origin) : Transfer := { id := 4, origin := o, master := 0, fn := 0, segs := [{ src := .mem src, dst := .mem dst, len := n }], roff := roff }
def moverAt (t : Transfer) : State :=
  let s := setMv up 7 { ctx := [(9, t)] }
  { s with mem := { s.mem with dram := putBytes [] 0xFF0 (List.replicate 64 0x5A) }, cp := { s.cp with tickets := [(2, .busy 4)], running := true } }
def readT : Transfer := moveT 0x8000000000000FF0 0x8000000000010000 64 0 (.ccw 5)
def writeT : Transfer := { moveT 0x8000000000000FF0 0x8000000000010000 4 4 (.firmware 2 0x100) with buf := [{ seg := 0, off := 0, bytes := [1, 2, 3, 4] }] }
/-- a read that meets a 4 KiB boundary, a write that ends its transfer, and a barred request that waits for arrival -/
theorem witness_MoverTurnsAndReadbacks :
    (moverRuns (moverAt readT) 7 = true ∧ (getMv (moverAt readT) 7).ctx = [(9, readT)] ∧ segDesc { src := .mem 0x8000000000000FF0, dst := .mem 0x8000000000010000, len := 64 } = false ∧
      buffered readT < 4096 ∧ spaceOf 0x8000000000000FF0 = 8) ∧
    (writeT.moved + 4 = 4 ∧ tget .free (moverAt writeT).cp.tickets 2 = .busy writeT.id ∧ (moverAt writeT).cp.stall = none) ∧
    findTransfer (moverAt { writeT with arrival := true, buf := [] }) 4 = some (7, 9, { writeT with arrival := true, buf := [] }) ∧ (moverAt writeT).fs.barHold = none := by decide +kernel
/-- the first turn stops at the boundary (06 R156) -/
theorem test_read_turn_stops_at_4k : next? (exec (.moverReadTurn 7) (moverAt readT)) (fun t => (getMv t 7).ctx.map (fun e => e.2.roff) == [16]) = true := by decide +kernel
def checkAt : State := setMv (modP (verbAt (ccw 0x24 0 1 64 0)) 5 fun p => { p with cur := p.cur.map fun c => { c with phase := .moving, mover := some 3 } }) 3 { ctx := [(63, readT)] }
def heldByMover (n : Nat) (m : Mover) : State := setP (setMv up 3 m) n { state := .parenthesis, moverHold := true, checkedBy := some 3, hostFn := 0x40, starts := 7 }
theorem witness_MoverChecksAndRestart :
    (moverRuns checkAt 3 = true ∧ ctxAt (getMv checkAt 3) 63 = some readT ∧ (getMv checkAt 3).queue = [] ∧ (getP checkAt 5).state = .active ∧ clauseOf checkAt 5 = none) ∧
    (moverRuns (moverAt writeT) 7 = true ∧ ctxAt (getMv (moverAt writeT) 7) 9 = some writeT) ∧
    (∀ n ∈ [1, 0xFFFFF], (getP (heldByMover n { check := true }) n).checkedBy = some 3 ∧ (getP (heldByMover n { check := true }) n).state = .parenthesis ∧
      (getMv (heldByMover n { check := true }) 3).ready = true ∧ (getMv (heldByMover n { check := true, ready := false, reinit := true }) 3).reinit = true) := by decide +kernel
theorem witness_ArbitersCutStarveAndSwap :
    (∀ a ∈ List.range 20, 0 < arbInputs a ∧ ((arbMap a (getArb up a))[0]?).isSome = true ∧ ((arbMap a (getArb up a))[arbInputs a - 1]?).isSome = true) ∧
    (getArb (setArb up 19 { starve := 4 }) 19).starve ≠ 0 ∧ (getArb up 0).cutoffs = 0 := by decide +kernel

/-! ### The host port -/

/-- host links up, functions able to issue -/
def hostOn (s : State := up) : State := { s with
  hp := { s.hp with linkA := { rate := 5, width := 16 }
                    funcs := [(0x40, { bme := true, mse := true, msixEn := true, vecs := [(2, { masked := false, addr := 0xFEE, data := 7 })] }), (0x41, { bme := true, mse := true }),
                      (0x48, { bme := true, prnFirst := 4, prnCount := 8, sqFirst := 2, sqCount := 4 })] }
  pins := { s.pins with perst0 := false } }
def mbxHost (x : Mbx) : State := { hostOn with evt := { hostOn.evt with mbx := tset {} 63 x [] } }
/-- a function that is a sender, and the debug port as one -/
theorem witness_MailboxPostsAndAcks_host :
    HostUp (mbxHost bound) 0x40 ∧ getMbx (mbxHost bound) 63 = bound ∧ isFn 0xF0 = false ∧ isFn 0x10 = false ∧ isCe 0x10 = true ∧
    getMbx (mbxHost { bound with sender := 0x10 }) 63 = { bound with sender := 0x10 } := by unfold HostUp; decide +kernel
def ringAt (f : Func) : State := setFunc hostOn 0x40 { f with bme := true, mse := true, sqBase := 0x1000 }
def cq0 : SQueue := { owner := 0x40, base := 0x10000, log2 := 4, vec := 2, prod := 5, cons := 14, phase := true, full := false }
def vecAt (v : Vec) : State := { setVec (setFunc hostOn 0x40 { bme := true, mse := true, msixEn := true }) 0x40 2 v with hp := { (setVec (setFunc hostOn 0x40 { bme := true, mse := true, msixEn := true }) 0x40 2 v).hp with sqs := [(3, cq0)] } }
/-- sizes 4 and 12, a tail that wraps to 0, a head at the produced end and one past it, vectors with events, masked and timed -/
theorem witness_RingsHeadsAndModeration :
    (∀ f ∈ [({} : Func), { enable := true, ready := true, sqHead := 15 }], HostUp (ringAt f) 0x40 ∧ (getFunc (ringAt f) 0x40).size = 4) ∧
    (ringAt {}).sched.words = [] ∧
    ((0x80020004 : Word).toNat % 16 = 4 ∧ (0x87FF000C : Word).toNat / 2 ^ 16 % 2 ^ 11 < vecCount 0x40 ∧ (0x80020004 : Word).getLsbD 31 = true) ∧
    ((15 + 1) % 2 ^ 4 = 0 ∧ canIssue (ringAt { enable := true, ready := true, sqHead := 15 }) 0x40 = true ∧
      hostFault (ringAt { enable := true, ready := true, sqHead := 15 }) (0x1000 + 64 * 15) 64 = none) ∧
    (∀ v ∈ [({} : Vec), { masked := false, pending := 3, count := 5, time := 9, timing := true }, { masked := false, pba := true, pending := 1 }], HostUp (vecAt v) 0x40 ∧
      getSq (vecAt v) 3 = some cq0 ∧ getVec (vecAt v) 0x40 2 = v ∧ (getFunc (vecAt v) 0x40).fmask = false) ∧
    Deliverable (vecAt { masked := false, pending := 3, count := 5, time := 9, timing := true }) 0x40 2 ∧ (5 + 16 - 14) % 16 ≤ (cq0.prod + 16 - cq0.cons) % 16 ∧
    (cq0.prod + 16 - cq0.cons) % 16 < (6 + 16 - 14) % 16 := by
  unfold HostUp Deliverable; decide +kernel
/-- a head past what was produced is rejected (09 R292) -/
theorem test_head_past_producer : next? (exec (.hfSqHeadWrite 0x40 3 6) (vecAt {})) (fun t => (getFunc t 0x40).wrReject && (getSq t 3 == some cq0)) = true := by decide +kernel
def d3At (b : Bool) : State := modFunc (modFunc hostOn 0x40 fun f => { f with d3hot := b, vecs := [] }) 0x41 fun f => { f with d3hot := b }
def splitAt : State := { hostOn with hp := { hostOn.hp with split := true, linkB := { rate := 3, width := 8, aspm := true } }, pins := { hostOn.pins with perst1 := false } }
theorem witness_HostPowerAndLinks :
    (∀ b ∈ [true, false], hostReaches (d3At b) 0x40 = true ∧ hostReaches (d3At b) 0x41 = true ∧ (d3At b).pwr.sleep = .awake ∧ (d3At b).pwr.held = [] ∧
      (getFunc (d3At b) 0x40).d3hot = b ∧ (getFunc (d3At b) 0x41).d3hot = b ∧ (getFunc (d3At b) 0x40).bme = true ∧ (getFunc (d3At b) 0x40).vecs = []) ∧
    (hostLinkLegal hostOn false 1 1 false = true ∧ hostLinkLegal hostOn false 6 16 true = true ∧ hostLinkLegal splitAt true 6 8 true = true ∧
      hostLinkLegal hostOn false 6 16 false = false ∧ hostLinkLegal hostOn false 7 16 true = false ∧
      hostOn.rst.booted = true ∧ hostOn.hp.linkA.rate ≠ 0 ∧ splitAt.hp.linkB.rate ≠ 0) := by decide +kernel
def bellAt (st : PState) : State := setP hostOn 5 { state := st, hostFn := 0x40, affinity := 1 }
/-- a START word for an IDLE pronoun and one for an UNBOUND one, a badly sized write, and accesses at the edges of BAR0, DRAM and CTM -/
theorem witness_HostMemoryWindows :
    (∀ st ∈ [PState.idle, .unbound], HostUp (bellAt st) 0x40 ∧ (getP (bellAt st) 5).state = st ∧ (getP (bellAt st) 5).hostFn = 0x40 ∧ isFenced (bellAt st) = false) ∧
    dbAligned 2 4 = false ∧ dbAligned 0 4 = true ∧ accessGood 0x40 2 4 = false ∧ accessGood 0x40 0 3 = false ∧ accessGood 0x40 0x3DFFFC 4 = true ∧
    overlaps (ctmStart hostOn - 4) 4 (ctmStart hostOn) (ctmBytes hostOn) = false ∧ overlaps (ctmStart hostOn) 4 (ctmStart hostOn) (ctmBytes hostOn) = true ∧
    overlaps 0 4 (prnStart hostOn) prnTablesLen = false ∧ dramSize < dramSize - 3 + 4 := by unfold HostUp; decide +kernel
theorem witness_RegisterAccesses :
    (blockOf 0x10820).isSome = true ∧ inMailboxes 0x10820 = false ∧ inTwin 0x10820 = false ∧ ({ up with tw := { up.tw with link := 2 } } : State).tw.link = 2 ∧ up.sec.level ≠ 2 ∧
    quadFenced { up with flt := { up.flt with quads := [31] } } 31 = true ∧ quadFenced up 0 = false ∧ (getQ up 31).portEn = 0 ∧ quadBound up 31 = false ∧
    arrangeLegal ((1 : Word).toNat % 4) ((1 : Word).toNat / 4 % 4) ((1 : Word).toNat / 16 % 4) = true ∧
    (let s : State := { up with tw := { up.tw with state := 3, tookOver := true } }
     s.tw.handing = false ∧ boundIn s s.tw.id = false ∧ (s.fs.window.any fun c => inTaken s c.prn) = false) := by decide +kernel

/-! ### Link quads -/

def portAt (prof : BitVec 2) (st : BitVec 3) (pp : PPort := {}) : State :=
  setPort (setQ up 3 { profile := prof, portEn := 0xF, arrange := if prof = 1 then 2 else 0 }) 3 1 { state := st, rate := 4, width := 2, pp := pp }
/-- a device with one BAR of 16 KiB, or one too large for the window -/
def upNow (br bars : Bool) : LinkUp := { state := 4, rate := 4, width := 1, device := { noDevice with
  bridge := br, funcs := [{ num := 0, bars := [{ index := 0, shift := if bars then 14 else 33 }], vectors := 3 }] } }
/-- every state of an enabled P port, legal and illegal devices, causes of loss, and requests at the edges of its region -/
theorem witness_PortStates :
    (∀ st ∈ [0, 1, 2, 3, 4, 5, 6], portOn (portAt 1 (BitVec.ofNat 3 st)) 3 1 = true ∧ (getPort (portAt 1 (BitVec.ofNat 3 st)) 3 1).state = BitVec.ofNat 3 st ∧
      portOps (portAt 1 (BitVec.ofNat 3 st)) 3 1 = []) ∧
    portOn (portAt 2 1) 3 1 = true ∧ portOn up 3 1 = false ∧ linkLegal (getQ (portAt 1 3) 3) (upNow false true) = true ∧ linkLegal (getQ (portAt 1 3) 3) (upNow true false) = true ∧
    placeBars 0 (barsOf (upNow false true).device) = some [(0, 0, 0)] ∧ placeBars 0 (barsOf (upNow false false).device) = none ∧
    lossCause 1 2 = true ∧ lossCause 1 5 = true ∧ lossCause 1 1 = false ∧ lossCause 1 6 = false ∧ portUp (getPort (portAt 1 4) 3 1) = true ∧ portUp (getPort (portAt 1 2) 3 1) = false ∧
    inRegion { base := 64, size := 2 } 0x100000000 1 = true ∧ inRegion { base := 64, size := 2 } 0x107FFFFFF 1 = true ∧ inRegion { base := 64, size := 2 } 0x107FFFFFF 2 = false ∧
    inRegion { base := 64, size := 2 } 0xFFFFFFFF 1 = false := by decide +kernel
def pairAt (k : NvPair) : State :=
  let s := portAt 1 4 { base := 64, size := 2, pairs := [(1, k)] }
  { s with mem := { s.mem with dram := putBytes (putBytes [] (0x100000 + 48) [0, 0, 0, 0, 0, 0, 0, 0, 2, 0, 0, 0, 5, 0, 1, 0]) 0x100200 [0] } }
def pair3 : NvPair := { entries := 4, sqBase := 0x200000, cqBase := 0x100000, cqHead := 3, phase := true }
def ring3 : Ring := { entry := setField (setField (setField (0 : BitVec 384) 24 8 4) 48 16 7) 128 64 0x300000, done := 3, busy := 1, comp := 3, phase := true }
def devOp (kd : OpKind) (ow : OpOwner) (st : OpStage) : DevOp := { id := 1, q := 3, p := 1, kind := kd, owner := ow, verb := 0x22, mod := 0, bind := 5, count := 8, stage := st, qid := 3, blocks := 1, opcode := 2 }
def opAt (prof : BitVec 2) (o : DevOp) : State := { portAt prof 5 with lk := { (portAt prof 5).lk with ops := [o] } }
/-- a completion at the last entry of its queue, a ring with one descriptor busy, and an operation of each kind and stage -/
theorem witness_DeviceQueuesAndOperations :
    (portUp (getPort (pairAt pair3) 3 1) = true ∧ aget (getPort (pairAt pair3) 3 1).pp.pairs 1 = some pair3 ∧ portOps (pairAt pair3) 3 1 = [] ∧
      ofLE (getBytes (pairAt pair3).mem.dram (0x100000 + 48 + 12) 4) / 2 ^ 16 % 2 = 1 ∧ (getQ (pairAt pair3) 3).profile = 1) ∧
    rgMode ring3.entry = 0 ∧
    (∀ o ∈ [devOp .ring .loose .issued, devOp .ring (.ccw 5) .issued, devOp .nvme .loose .issued, devOp .nvme .loose .busyWait, devOp .kdl .loose .busyWait, devOp .nvme (.ccw 5) (.ended 0 0 0)],
      getOp (opAt 1 o) 1 = some o ∧ getOp (opAt 3 o) 1 = some o ∧ outstanding (opAt 1 o) 5 = [] ∧ isFenced (opAt 3 o) = false) ∧
    (getPort (opAt 3 (devOp .kdl .loose .busyWait)) 3 1).state = 5 := by decide +kernel
def frameOf (dst ty : List Byte) (n : Nat) : List Byte := let l := dst ++ [0xA, 0xB, 0xC, 0xD, 0xE, 0xF] ++ ty; l ++ List.replicate (n - l.length) 0x11
def mineFrame : List Byte := frameOf [2, 2, 3, 4, 5, 6] [0x12, 0x34] 64
def pauseFrame : List Byte := frameOf [0x01, 0x80, 0xC2, 0, 0, 1] [0x88, 0x08, 0, 1, 0, 5] 64
def etherAt (ep : EPort) : State := setPort (setQ up 3 { profile := 2, portEn := 0xF }) 3 1 { state := 4, rate := 6, width := 1, ep := ep }
def myPort : EPort := { uni := [(0, some 0x060504030202)] }
def bucketAt5 : State :=
  { setP (etherAt { myPort with bucketEn := true, bucketBase := 16, bucketShift := 0 }) 5 { state := .active, hostFn := 0x40 } with
    mem := { up.mem with dram := putBytes [] 4194304 [5, 0, 0x10, 0] } }
/-- a port that takes frames and one that does not; frames addressed and not, a pause, and one that a bucket gives pronoun 5 -/
theorem witness_EthernetFrames :
    eTakes (etherAt myPort) 3 1 = true ∧ eTakes (portAt 2 1) 3 1 = false ∧ eUp (etherAt myPort) 3 1 = true ∧ eUp (portAt 2 1) 3 1 = false ∧ isPauseFrame myPort pauseFrame = true ∧
    isPauseFrame myPort mineFrame = false ∧ addressed myPort mineFrame = true ∧ addressed {} mineFrame = false ∧ be16 pauseFrame 14 = 1 ∧
    ipSumGood mineFrame (parseFrame mineFrame) = true ∧ l4SumGood mineFrame (parseFrame mineFrame) = true ∧ (etherAt myPort).lk.flowEn = false ∧
    (classify bucketAt5 3 1 mineFrame).2 = some 0x100005 ∧ resPron 0x100005 = 5 ∧ isBound (getP bucketAt5 5) = true ∧ cellsUsed bucketAt5 3 = 0 ∧
    (framesFor bucketAt5 5).length < (getQ bucketAt5 3).rxQuota.toNat := by decide +kernel
/-- 59 bytes are too few, 60 not (08 R253) -/
theorem test_short_frame : next? (exec (.ethFrameRx 3 1 (List.replicate 59 0) true) (etherAt myPort)) (fun t => tget 0 (getPort t 3 1).ctr (ctrAt 2 5) == 1) = true ∧
    next? (exec (.ethFrameRx 3 1 (List.replicate 60 0) true) (etherAt myPort)) (fun t => tget 0 (getPort t 3 1).ctr (ctrAt 2 5) == 0) = true := by decide +kernel
def kdlAt (st : BitVec 3) (k : KPort) : State := setPort (setQ up 3 { profile := 3, portEn := 0xF, busyRetries := 3 }) 3 1 { state := st, rate := 9, width := 1, kp := k }
def sent (n : BitVec 16) : KdlFrame := { type := 0x01, seqVc := n }
/-- an INIT whose largest payload has the last defined code, with the CRC-32C of its bytes -/
def initOf4 : KdlFrame :=
  let f : KdlFrame := { type := 0x13, length := 20, payload := List.replicate 16 0 ++ [4, 0, 0, 0] }
  { f with crc := kdlCrc f }
/-- training at eight received and sixteen sent, CONFIG, a retrain, and frames in order, old, ahead, and at the ends of the replay buffer -/
theorem witness_KdlTrainingAndFrames :
    (∀ st ∈ [1, 2, 3, 4, 5], (getQ (kdlAt (BitVec.ofNat 3 st) {}) 3).profile = 3 ∧ (getPort (kdlAt (BitVec.ofNat 3 st) {}) 3 1).state = BitVec.ofNat 3 st ∧
      portOps (kdlAt (BitVec.ofNat 3 st) {}) 3 1 = []) ∧
    (getPort (kdlAt 2 { tsRx := 8, ts2Rx := 7, ts2Tx := 15 }) 3 1).kp.ts2Rx + 1 = 8 ∧ (getPort (kdlAt 2 { tsRx := 8, ts2Rx := 7, ts2Tx := 15 }) 3 1).kp.ts2Tx + 1 = 16 ∧
    (getPort (kdlAt 3 { initRx := true }) 3 1).kp.waiting = [] ∧ (getPort (kdlAt 5 { tsRx := 8, ts2Rx := 7, ts2Tx := 15, replay := [sent 3] }) 3 1).kp.ts2Rx + 1 = 8 ∧
    kdlGood initOf4 = true ∧ kdlGood { initOf4 with crc := 0 } = false ∧ initOf4.payload.length = 20 ∧ byteAt initOf4.payload 16 = 4 ∧
    frameSeq { type := 2, seqVc := 0x1005 } = 5 ∧ ((5 : BitVec 12) - frameSeq { type := 2, seqVc := 4 }).toNat ≤ 2048 ∧ 2048 < ((5 : BitVec 12) - frameSeq { type := 2, seqVc := 6 }).toNat ∧
    (getPort (kdlAt 4 { rxSeq := 5, replay := [sent 0xFFF, sent 0] }) 3 1).kp.replay.length = 2 ∧ (frameSeq { type := 0x10, seqVc := 0 } - frameSeq (sent 0xFFF) + 1).toNat = 2 ∧
    (frameSeq { type := 0x11, seqVc := 0xFFE } - frameSeq (sent 0xFFF) + 1).toNat = 0 ∧ kdlFromController 0x05 = false := by decide +kernel

/-! ### Admin commands -/

/-- a packet of these fields: offset, length in bytes, value -/
def pk (l : List (Nat × Nat × Nat)) : Packet := l.foldl (fun v x => setField v (8 * x.1) (8 * x.2.1) x.2.2) 0
/-- a command packet: its opcode, tag 9, and fields -/
def cmd (op : Nat) (l : List (Nat × Nat × Nat)) : Nat × Packet := (op, pk ([(0, 2, op), (4, 2, 9)] ++ l))
/-- the packet is function 0x40's next -/
def adm (p : Packet) (s : State := hostOn) : State :=
  modFunc s 0x40 fun f => { f with fetched := [p], enable := true, ready := true, size := 4, rqBase := 0x7000, sqBase := 0x6000 }
def deviceCmds : List (Nat × Packet) :=
  [cmd 1 [], cmd 2 [(8, 1, 119), (9, 1, 1), (10, 1, 117)], cmd 2 [(8, 1, 104), (9, 1, 16), (10, 1, 0)], cmd 2 [(9, 1, 17)], cmd 2 [(8, 1, 120), (9, 1, 1)], cmd 2 [(9, 1, 1), (10, 1, 119)],
   cmd 3 [(8, 1, 1)], cmd 3 [(8, 1, 2)], cmd 4 [(8, 1, 2), (16, 2, 0x7FF)], cmd 4 [(8, 1, 3)], cmd 4 [(8, 1, 4)], cmd 5 [(8, 1, 31), (12, 4, 0xFFFFF), (16, 4, 1), (20, 2, 4095), (22, 2, 1)],
   cmd 5 [(8, 1, 32)], cmd 5 [(12, 4, 0x100000)], cmd 5 [(12, 4, 0xFFFFF), (16, 4, 2)], cmd 5 [(20, 2, 4096)], cmd 5 [(20, 2, 4095), (22, 2, 2)]]
def portCmds : List (Nat × Packet) :=
  [cmd 0x0101 [(8, 1, 3), (12, 4, 1)], cmd 0x0102 [(8, 1, 3), (9, 1, 1), (12, 2, 478), (14, 2, 2)], cmd 0x0103 [(8, 1, 3), (9, 1, 1), (10, 1, 64), (12, 2, 1024)], cmd 0x0103 [(8, 1, 3), (9, 1, 1), (10, 1, 1), (12, 2, 2)],
   cmd 0x0104 [(8, 1, 3), (9, 1, 1), (16, 4, 1)], cmd 0x0105 [(8, 1, 3), (9, 1, 1), (12, 4, 5)], cmd 0x0107 [(8, 1, 3), (9, 1, 1), (10, 1, 15)]]
def etherCmds : List (Nat × Packet) :=
  [cmd 0x0108 [(8, 1, 3), (9, 1, 1), (10, 1, 15), (11, 1, 1)], cmd 0x0109 [(8, 1, 3), (9, 1, 1), (10, 2, 511), (12, 1, 1)], cmd 0x010C [(8, 1, 3), (9, 1, 1), (12, 4, 1)]]
def pronounCmds : List (Nat × Packet) :=
  [cmd 0x0201 [(8, 4, 5), (16, 8, 0x5000)], cmd 0x0202 [(8, 4, 5)], cmd 0x0203 [(8, 4, 5), (12, 1, 0x3F), (13, 1, 7), (14, 1, 15), (15, 1, 1), (16, 4, 1)], cmd 0x0204 [(8, 4, 5), (12, 1, 1), (16, 8, 0x8000000000000100)],
   cmd 0x0205 [(8, 4, 5)], cmd 0x0206 [(8, 4, 5)], cmd 0x0207 [(8, 4, 5), (12, 1, 1)], cmd 0x0208 [(8, 4, 5)], cmd 0x0209 [(8, 4, 5), (16, 8, 0x5000)], cmd 0x0202 [(8, 4, 0xFFFFF)], cmd 0x0201 [(8, 4, 20), (16, 8, 0x5000)]]
def queueCmds : List (Nat × Packet) :=
  [cmd 0x0301 [], cmd 0x0301 [(12, 1, 1)], cmd 0x0302 [(16, 8, 0x5000), (24, 4, 0x1000)], cmd 0x0303 [], cmd 0x0304 [(8, 4, 8388608)], cmd 0x0304 [(8, 4, 8454144)], cmd 0x0401 [(8, 2, 4095), (10, 1, 16), (12, 2, 2047), (16, 8, 0x10000)],
   cmd 0x0401 [(8, 2, 4096), (10, 1, 4)], cmd 0x0401 [(10, 1, 3)], cmd 0x0402 [(8, 2, 3)], cmd 0x0403 [(8, 2, 3)], cmd 0x0701 [(8, 2, 1023), (10, 2, 2047), (12, 1, 1)], cmd 0x0701 [(8, 2, 1024)],
   cmd 0x0702 [(8, 1, 63), (9, 1, 0x40), (10, 1, 0xF0)], cmd 0x0702 [(8, 1, 64)]]
def securityCmds : List (Nat × Packet) :=
  [cmd 0x0501 [(8, 2, 4095), (16, 8, 0x5000), (24, 2, 68)], cmd 0x0502 [(8, 2, 4095)], cmd 0x0502 [(8, 2, 4096)], cmd 0x0503 [(8, 2, 7)], cmd 0x0504 [(8, 1, 4)], cmd 0x0504 [(8, 1, 2), (16, 8, 0x5000), (24, 2, 336)],
   cmd 0x0601 [(12, 1, 1)], cmd 0x0602 [], cmd 0x0603 [(8, 1, 1)], cmd 0x0603 [(8, 1, 2)], cmd 0x0603 [(8, 1, 3)], cmd 0x0604 [], cmd 0x0605 [], cmd 0x0801 [(8, 4, 511)], cmd 0x0801 [(8, 4, 512)],
   cmd 0x0802 [(16, 8, 100000)], cmd 0x0802 [(16, 8, 99999)], cmd 0x0803 [(8, 4, 64), (16, 8, 0x5000), (24, 4, 64)]]
/-- every check of an admin command: it may start, an undefined opcode, the ROM in service, a stray byte -/
theorem witness_AdminChecks :
    mayStart (adm (cmd 3 [(8, 1, 1)]).2) 0x40 (cmd 3 [(8, 1, 1)]).2 = true ∧ mayStart hostOn 0x40 (cmd 3 [(8, 1, 1)]).2 = false ∧ 0x0999 ∉ adminOps ∧
    strayByte (cmd 3 [(8, 1, 1), (63, 1, 1)]).2 (admNamed 3 (cmd 3 [(8, 1, 1), (63, 1, 1)]).2) = some 63 ∧ isVf 0x48 = true ∧ 3 ∉ vfOps ∧ 3 ∉ fencedOps ∧
    isFenced { hostOn with tw := { hostOn.tw with state := 6 } } = true := by decide +kernel
theorem witness_AdminDeviceCommands : ∀ e ∈ deviceCmds, Starts (adm e.2) 0x40 e.2 e.1 := by unfold Starts; decide +kernel
def servedPort (prof : BitVec 2) : State :=
  setPort (setQ hostOn 3 { profile := prof, portEn := 0xF, arrange := if prof = 1 then 2 else 0 }) 3 1 { state := 4, rate := 4, width := 2, ep := { bucketEn := true, bucketShift := 1 } }
theorem witness_AdminPortCommands :
    (∀ e ∈ portCmds.drop 1, PortCmd (adm e.2 (servedPort 1)) 0x40 e.2 e.1 1) ∧ (∀ e ∈ etherCmds, PortCmd (adm e.2 (servedPort 2)) 0x40 e.2 e.1 2) ∧
    (∀ e ∈ [cmd 0x0101 [(8, 1, 3), (12, 4, 1)], cmd 0x010A [(17, 1, 1), (60, 4, 0x100005)], cmd 0x010B [(8, 4, 4)]], Starts (adm e.2 (servedPort 1)) 0x40 e.2 e.1) := by
  unfold PortCmd PortThere Starts; decide +kernel
def aRecord : List Byte := [0, 3, 2, 1, 0xFF, 0xFF, 0xFF, 0xFF, 3, 0] ++ List.replicate 12 0 ++ [0x40] ++ List.replicate 105 0
def recordAt (r : Pron) : State :=
  let s := setP hostOn 5 { r with hostFn := 0x40, affinity := 1, statusQueue := 3 }
  { s with mem := { s.mem with host := putBytes s.mem.host 0x5000 aRecord }
           hp := { s.hp with sqs := [(3, { owner := 0x40, base := 0x9000, log2 := 4, vec := 2, prod := 0, cons := 0, phase := true, full := false })] } }
def aRecordImage : RecImage := { bits := BitVec.ofNat 1024 (ofLE aRecord) }
/-- each command on pronoun 5, and a record that BIND takes -/
theorem witness_AdminPronounCommands :
    (∀ e ∈ pronounCmds, PronCmd (adm e.2 (recordAt { state := .idle })) 0x40 e.2 e.1) ∧ (∀ e ∈ pronounCmds, PronCmd (adm e.2 (recordAt {})) 0x40 e.2 e.1) ∧
    (getBytes (recordAt {}).mem.host 0x5000 128 = aRecord ∧ imStray aRecordImage = none ∧ imAllowed (recordAt {}) 0x40 20 aRecordImage = true ∧ imRange aRecordImage = none ∧
      (getSq (recordAt {}) (imSq aRecordImage).toNat).any (fun q => !(bindConflict (recordAt {}) 20 aRecordImage q)) = true) ∧
    iovaBad 0x5000 64 = false ∧ iovaBad 0x5001 64 = true ∧ hostFault (recordAt {}) 0x5000 128 = none := by
  unfold PronCmd Starts; decide +kernel
def aSave : Save := { seq := 1, cause := 1, paired := false, peerLost := false, clauses := [], lost := [], tick := 0, limit := 1 }
def saved : State := { hostOn with nv := { hostOn.nv with areaA := .valid aSave }, fs := { hostOn.fs with pendingSave := some (0, aSave) } }
theorem witness_AdminQueueCommands :
    (∀ e ∈ queueCmds, Starts (adm e.2 saved) 0x40 e.2 e.1) ∧ saveReads saved 0 aSave = true ∧ saved.fs.replay = none ∧ saved.fs.window = [] ∧
    sqAllowed (recordAt {}) 0x40 3 = true ∧ (getSq (recordAt {}) 3).isSome = true ∧ sqAllowed saved 0x40 4095 = true ∧ 2047 < vecCount 0x40 ∧ masterLegal 0x40 = true ∧
    bindLegal 0x40 0xF0 = true ∧ (getMbx saved 63).locked = false := by unfold Starts; decide +kernel
theorem witness_AdminSecurityTwinTests :
    (∀ e ∈ securityCmds, Starts (adm e.2) 0x40 e.2 e.1) ∧ keyNamed hostOn 4095 = false ∧ getKey hostOn 4095 = none ∧ lcState hostOn ≠ 4 ∧ hostOn.sec.lockout = false ∧ mayPair hostOn = true ∧
    testReady hostOn 0 = true ∧ hostOn.lk.test = none ∧ iovaBad 0x5000 1 = false := by unfold Starts; decide +kernel

/-! ### The twin -/

def twinAt (link : BitVec 2) (st : BitVec 4) : State := { hostOn with tw := { hostOn.tw with link := link, state := st, before := 0, fencing := 0 } }
def launching (mine acked : Bool) : State := { twinAt 2 3 with tw := { (twinAt 2 3).tw with launches := [{ action := 2, tick := 500, mine := mine, acked := acked }], aligned := true } }
/-- every state of TWIN_STATE with the link active and down, a launch of either part, and flits at the ends of the replay buffer -/
theorem witness_TwinJoinsAndLaunches :
    (∀ st ∈ [0, 1, 2, 3, 4, 5, 6, 7], ∀ l ∈ [0, 1, 2], (twinAt (BitVec.ofNat 2 l) (BitVec.ofNat 4 st)).tw.state.toNat = st ∧ (twinAt (BitVec.ofNat 2 l) (BitVec.ofNat 4 st)).tw.link.toNat = l) ∧
    pairKey (twinAt 2 1) = none ∧ (twinAt 2 1).tw.hello = [] ∧ getLaunch (launching true false) 2 = some { action := 2, tick := 500, mine := true } ∧
    ((launching true false).tw.launches.find? fun l => l.mine && !l.acked && l.tick == 500) = some { action := 2, tick := 500, mine := true } ∧
    launchFits (twinAt 2 3) 9 0 = false ∧ flitGood { seq := 0, null := true, crc := 0 } = false ∧ (∀ m ∈ (twinAt 2 2).tw.txq, m.type ≠ 0x20) ∧ (twinAt 2 2).tw.restBulk = [] := by decide +kernel
def replayAt : State := { twinAt 2 3 with tw := { (twinAt 2 3).tw with replay := [{ seq := 0xFFF }, { seq := 0 }], rxSeq := 5, txSeq := 1 } }
theorem witness_TwinMessagesAndFences :
    replayAt.tw.link = 2 ∧ replayAt.tw.replay.length = 2 ∧ ((0 : BitVec 12) - 0xFFF + 1).toNat = 2 ∧ ((0xFFE : BitVec 12) - 0xFFF + 1).toNat = 0 ∧ ((5 : BitVec 12) - 4).toNat ≤ 2048 ∧
    2048 < ((5 : BitVec 12) - 6).toNat ∧ isTwinMessage 0x05 false = true ∧ isTwinMessage 0x7F false = false ∧ quadsPowered replayAt = true ∧ logicRuns replayAt = true ∧
    replayAt.pwr.sleep = .awake ∧ replayAt.rst.booted = true ∧ replayAt.tw.id = false ∧ shadowRoom replayAt (parseMirror true []) = true ∧ replayAt.tw.txq = [] ∧ replayAt.tw.restCtl = [] ∧ replayAt.tw.restBulk = [] ∧ replayAt.tw.shadowWait = [] ∧
    (mbxAt { bound with sender := 0x90, full := true }).evt.mbx ≠ [] ∧ (getMbx (mbxAt { bound with sender := 0x90 }) 63).sender = 0x90 := by decide +kernel

/-! ### Power, resets, security, faults -/

def dieAt (y : Hu) : State := { hostOn with hu := y }
theorem witness_HoldupDie :
    (∀ y ∈ [({ on := true, linkOk := true, gate := 1 } : Hu), { on := true, linkOk := true, gate := 2, checking := true }, { on := true, linkOk := true, gate := 2, failLine := true }, { on := true, charging := true }, { on := false }],
      (dieAt y).hu = y ∧ (dieAt y).pwr.drain = none ∧ (dieAt y).rst.held = false ∧ (dieAt y).rst.fwReady = true ∧ (dieAt y).pwr.sleep = .awake) ∧
    (26 : BitVec 12).toNat < 27 ∧ 27 ≤ (27 : BitVec 12).toNat ∧ hvFail {} ≤ hvOk {} ∧ vTarget {} ≠ 0 := by decide +kernel
def drainingAt (k : Option ResetKind) (failed : Bool) : State := { hostOn with pwr := { hostOn.pwr with drain := some { cause := 3, save := none, reset := k }, failed := failed } }
theorem witness_ResetsAndBoot :
    (hostOn.rst.held = false ∧ hostOn.pwr.drain = none ∧ hostOn.rst.fwReady = true) ∧ (State.reset.rst.held = false ∧ State.reset.rst.fwReady = false) ∧
    (splitAt.hp.split = true ∧ splitAt.pins.perst0 = false ∧ splitAt.pins.perst1 = false) ∧ (isFn 0x40 = true ∧ isFn 0x47 = false ∧ hostReaches hostOn 0x40 = true ∧ hostOn.pwr.sleep ≠ .deep ∧ hostOn.pwr.held = []) ∧
    (controlRuns { hostOn with rst := { hostOn.rst with wdog := 100 } } = true ∧ ({ hostOn with rst := { hostOn.rst with wdog := 100 } } : State).rst.wdog ≠ 0) ∧
    ((drainingAt (some .resetN) false).pwr.drain = some { cause := 3, save := none, reset := some .resetN } ∧ (drainingAt none true).pwr.failed = true ∧ mayReturn (drainingAt none true) = false) ∧
    (State.reset.rst.booted = false ∧ State.reset.pins.testHold = false) ∧ (131 : BitVec 9).toInt < 132 ∧ (120 : BitVec 9).toInt ≤ 120 := by decide +kernel
theorem witness_KeysNonceAndTap :
    boundaryOpen hostOn = true ∧ hostOn.rst.held = false ∧ hostOn.sec.bankDue = none ∧ controlRuns hostOn = true ∧
    (let s : State := { hostOn with sec := { hostOn.sec with vault := [(7, { use := 1, key := 0, count := 2 ^ 20, reserved := 2 ^ 20 + 2 ^ 19 })] } }
     ∃ e ∈ s.sec.vault, e.2.reserved ≤ e.2.count + 2 ^ 19) ∧
    ({ hostOn with sec := { hostOn.sec with bankDue := some [] } } : State).sec.bankDue = some [] := by decide +kernel
def debugAt (lv : BitVec 2) : State := { hostOn with sec := { hostOn.sec with level := lv, tap := { hostOn.sec.tap with ir := 0x10 } } }
theorem witness_DebugMailbox :
    (∀ lv ∈ [0, 1, 2], mailboxOn (debugAt (BitVec.ofNat 2 lv)) = true ∧ (debugAt (BitVec.ofNat 2 lv)).sec.level.toNat = lv) ∧ mailboxOn hostOn = false ∧
    ({ debugAt 0 with sec := { (debugAt 0).sec with chal := some (7, 2) } } : State).sec.chal = some (7, 2) ∧ levelReach (lcState hostOn) 2 = true ∧
    regAsleep (debugAt 2) 0x10820 = false ∧ dbgHidden 0x10820 = false ∧ dbgAddrBad 0x8000000000000100 256 256 = false ∧ dbgAddrBad 0x8000000000000100 257 256 = true ∧
    dbgAddrBad 0x8000000000000100 240 240 = false ∧ dbgProtected 0x8000000000000100 240 true = false ∧ dramPoisoned (debugAt 2) 0x100 256 = false := by decide +kernel
theorem witness_FaultsFencesRetirements :
    slotFenced hostOn 511 = false ∧ hostOn.flt.engines.contains 31 = false ∧ (getMv hostOn 7).fenced = false ∧ quadFenced hostOn 31 = false ∧ hostOn.flt.banks.contains 7 = false ∧
    correctable 0 = true ∧ hasGranule 0 = true ∧ correctable 13 = false ∧ isRetired hostOn 0 0 8191 = false ∧ hostOn.flt.tracker.length < 256 ∧ 1 < hostOn.flt.threshold.toNat ∧
    hostOn.nv.lc0 = hostOn.nv.lc1 ∧ (retireRange 3).1 ≠ 0 ∧ hostOn.flt.logBuf = [] := by decide +kernel
/-- slot 511 is the last that can be fenced (14 R437) -/
theorem test_fence_slot_range : next? (exec (.fenceSlot 511) hostOn) (fun t => slotFenced t 511 && t.evt.icPend.getLsbD 288) = true := by decide +kernel

/-! ### The block as a whole -/

theorem witness_StepKeepsSound : State.reset.sound :=
  ⟨by decide +kernel, by decide +kernel, by decide +kernel, by decide +kernel, by decide +kernel, by decide +kernel, fun _ h => nomatch h⟩
theorem witness_IdleStepTicks : up.pending = [] ∧ ticksRun up = true ∧ correctsTick up = false ∧
    ticksRun { up with rst := { up.rst with held := true } } = false ∧ next? (step up) (fun t => t.dev.tick == 1) = true := by decide +kernel
theorem witness_MemoryReadsWhatWasWritten : tabCanon emptyByte [(0, (1 : Byte)), (2, 3)] ∧ getBytes (putBytes [(0, (1 : Byte)), (2, 3)] 1 [9, 0]) 0 4 = [1, 9, 0, 0] := by decide +kernel
theorem test_step_takes_front : next? (step { up with pending := [.inhibitDisarm 0, .fenceSlot 1] }) (fun t => t.pending == [.fenceSlot 1]) = true := by decide +kernel

end Sys2Proof.Tests
end

section
/-!
PROOFS. What single registers do on an access (O43): what a pulse, a rejected write and a message of Malid Link change, which
register an offset reaches for which master, and the registers the statement names.
-/

namespace Sys2Proof.Machine

/-! ### A pulse and a rejected write (01 R6, 09 R295, 10 R304, R317) -/

theorem getLsbD_setBit_same {w : Nat} (v : BitVec w) {i : Nat} (h : i < w) : (setBit v i true).getLsbD i = true := by
  have hbit : (BitVec.ofNat w (2 ^ i)).getLsbD i = true := by
    rw [BitVec.getLsbD_ofNat, Nat.testBit_two_pow_self, decide_eq_true h, Bool.and_self]
  rw [setBit, if_pos rfl, BitVec.getLsbD_or, hbit, Bool.or_true]

theorem exitL1_what (s : State) (m : Master) : ∃ h, exitL1 s m = { s with hp := h } := by
  unfold exitL1
  split <;> exact ⟨_, rfl⟩

theorem sendMsg_what (s : State) (m : Master) (n : Nat) : ∃ h o, sendMsg s m n = { s with hp := h, out := o } := by
  unfold sendMsg
  obtain ⟨h, e⟩ := exitL1_what (setVec s m n { getVec s m n with pending := 0, timing := false, pba := false }) m
  dsimp only
  rw [e]
  exact ⟨h, _, rfl⟩

theorem fallDue_what (s : State) (m : Master) (n : Nat) : ∃ h o, fallDue s m n = { s with hp := h, out := o } := by
  unfold fallDue
  dsimp only
  split
  · split <;> exact ⟨_, _, rfl⟩
  · split
    · exact ⟨_, _, rfl⟩
    · split
      · exact ⟨_, _, rfl⟩
      · exact sendMsg_what s m n

theorem evalVec_what (s : State) (m : Master) (n : Nat) : ∃ h o, evalVec s m n = { s with hp := h, out := o } := by
  unfold evalVec
  dsimp only
  split
  · exact fallDue_what s m n
  · exact ⟨_, _, rfl⟩

/-- A moderation event reaches the host port and what it sends, nothing else. -/
theorem countEvent_what (s : State) (m : Master) (n : Nat) : ∃ h o, countEvent s m n = { s with hp := h, out := o } := by
  unfold countEvent
  exact evalVec_what (setVec s m n _) m n

/-- An occurrence makes its source pending, and besides reaches only what its route to a host vector does. -/
theorem occur_what (s : State) {n : Nat} (hn : n < 1024) :
    ∃ h e o, occur s n = { s with hp := h, evt := e, out := o } ∧ e.icPend.getLsbD n = true := by
  have hpend : (setBit s.evt.icPend n true).getLsbD n = true := getLsbD_setBit_same _ hn
  unfold occur
  dsimp only
  split
  · next m v _ =>
    obtain ⟨h, o, e⟩ := countEvent_what (icEval { s with evt := { s.evt with icPend := setBit s.evt.icPend n true } }) m v
    exact ⟨h, _, o, e, hpend⟩
  · exact ⟨_, _, _, rfl, hpend⟩

theorem raiseInputs_what (s : State) (b : BitVec 16) (ns : List Nat) : ∃ e, raiseInputs s b ns = { s with evt := e } := by
  unfold raiseInputs
  dsimp only
  split <;> exact ⟨_, rfl⟩

theorem pulse_what (s : State) {n : Nat} (hn : n < 1024) :
    ∃ h e o, pulse s n = { s with hp := h, evt := e, out := o } ∧ e.icPend.getLsbD n = true := by
  obtain ⟨x, hx⟩ := raiseInputs_what s (gpioLevels s) [n]
  unfold pulse
  rw [hx]
  exact occur_what _ hn

/-- `reject` is what `Rejected` says of it. -/
theorem rejected_reject (s : State) (b : Nat) : Rejected b s (reject s b) := by
  obtain ⟨h, e, o, hp, hpend⟩ := pulse_what { s with dev := { s.dev with wrj := setBit s.dev.wrj b true } } (n := 1023) (by decide)
  unfold reject
  rw [hp]
  exact ⟨rfl, hpend, rfl⟩

/-! ### Messages of Malid Link (11 R336, R337) -/

/-- What sending can change: the messages that wait, the flits that await acknowledgement, and what went out. -/
def OnlySends (s t : State) : Prop :=
  ∃ n r q c b o, t = { s with tw := { s.tw with txSeq := n, replay := r, txq := q, restCtl := c, restBulk := b }, out := o }

theorem OnlySends.refl (s : State) : OnlySends s s := ⟨_, _, _, _, _, _, rfl⟩

theorem OnlySends.trans {s t u : State} (h : OnlySends s t) (h' : OnlySends t u) : OnlySends s u := by
  obtain ⟨_, _, _, _, _, _, rfl⟩ := h
  obtain ⟨_, _, _, _, _, _, rfl⟩ := h'
  exact ⟨_, _, _, _, _, _, rfl⟩

theorem setRest_onlySends (s : State) (bulk : Bool) (l : List Byte) : OnlySends s (setRest s bulk l) := by
  cases bulk <;> exact ⟨_, _, _, _, _, _, rfl⟩

theorem sendFlit_onlySends (s : State) (bulk : Bool) (l : List Byte) : OnlySends s (sendFlit s bulk l) :=
  ⟨_, _, _, _, _, _, rfl⟩

theorem fillFlit_onlySends (bulk : Bool) (f : Nat) (s : State) : OnlySends s (fillFlit bulk f s) := by
  induction f generalizing s with
  | zero => exact .refl s
  | succ f ih =>
    rw [fillFlit]
    split
    · exact .refl s
    · split
      · exact .refl s
      · next m q _ =>
        have htake : OnlySends s { s with tw := { s.tw with txq := q } } := ⟨_, _, _, _, _, _, rfl⟩
        exact (htake.trans (setRest_onlySends _ _ _)).trans (ih _)

theorem sendClass_onlySends (s : State) (bulk : Bool) : OnlySends s (sendClass s bulk) :=
  ((fillFlit_onlySends bulk 16 s).trans (setRest_onlySends _ _ _)).trans (sendFlit_onlySends _ _ _)

theorem pumpFlits_onlySends (f : Nat) (s : State) : OnlySends s (pumpFlits f s) := by
  induction f generalizing s with
  | zero => exact .refl s
  | succ f ih =>
    rw [pumpFlits]
    split
    · exact (sendClass_onlySends s false).trans (ih _)
    · split
      · exact (sendClass_onlySends s true).trans (ih _)
      · exact .refl s

theorem twinSend_onlySends (s : State) (m : TwinMsg) : OnlySends s (twinSend s m) := by
  have hq : OnlySends s { s with tw := { s.tw with txq := s.tw.txq ++ [m] } } := ⟨_, _, _, _, _, _, rfl⟩
  unfold twinSend twinPump
  split
  · exact hq
  · exact hq.trans (pumpFlits_onlySends _ _)

theorem copyLines_onlySends (s : State) (l : List Nat) : OnlySends s (copyLines s l) := by
  unfold copyLines
  induction l generalizing s with
  | nil => exact .refl s
  | cons x l ih => exact (twinSend_onlySends s _).trans (ih _)


/-! ### Tables and words -/

/-- of two writes of one key the second alone is seen, the first being no default -/
theorem tset_tset_new {α : Type} [DecidableEq α] {d v : α} (k : Nat) (w : α) (t : Tab α) (h : v ≠ d) :
    tset d k w (tset d k v t) = tset d k w t := by
  induction t with
  | nil => simp [tset, h]
  | cons e t ih =>
    obtain ⟨k', v'⟩ := e
    rcases Nat.lt_trichotomy k k' with hk | rfl | hk
    · simp [tset, h, hk]
    · simp [tset, h]
    · have hlt : ¬ k < k' := by omega
      have hne : k ≠ k' := by omega
      simp only [tset, if_neg hlt, if_neg hne, ih]

@[simp] theorem low32_toNat (w : Word) : low32 w.toNat = w := by
  rw [low32, Nat.mod_eq_of_lt w.isLt, BitVec.ofNat_toNat, BitVec.setWidth_eq]

theorem low32_extract (v : Dword) : low32 v.toNat = v.extractLsb' 0 32 := by
  apply BitVec.eq_of_toNat_eq
  simp only [low32, BitVec.toNat_ofNat, BitVec.extractLsb'_toNat, Nat.shiftRight_zero, Nat.mod_mod]

theorem low32_extract_high (v : Dword) : low32 (v.toNat / 2 ^ 32) = v.extractLsb' 32 32 := by
  apply BitVec.eq_of_toNat_eq
  simp only [low32, BitVec.toNat_ofNat, BitVec.extractLsb'_toNat, Nat.shiftRight_eq_div_pow, Nat.mod_mod]

theorem bitsAt_zero {w : Nat} (v : BitVec w) (len : Nat) : bitsAt v 0 len = v.toNat % 2 ^ len := by
  rw [bitsAt, Nat.pow_zero, Nat.div_one]

/-! ### Who reaches a register, and which (01 R4, Table 9-2) -/

theorem exec_registerWrite_control (off : BitVec 22) (v : Word) (s : State) :
    exec (.registerWrite 0 off v) s = .next (regWrite s 0 off.toNat v) := rfl

theorem exec_registerWrite_twin (off : BitVec 22) (v : Word) (s : State) (h : s.tw.link = 2) :
    exec (.registerWrite 0x90 off v) s = .next (twinWrite s off.toNat v) := by
  show Host.Outcome.next (if s.tw.link == 2 then twinWrite s off.toNat v else s) = _
  rw [if_pos (beq_iff_eq.mpr h)]

theorem exec_registerWrite_debug (off : BitVec 22) (v : Word) (s : State) (h : s.sec.level ≠ 2) :
    exec (.registerWrite 0xF0 off v) s = .next s := by
  show Host.Outcome.next (if s.sec.level == 2 then regWrite s 0xF0 off.toNat v else s) = _
  rw [if_neg (by simpa using h)]

/-- Outside the mailbox windows the twin's write of a register is rejected in its block (11 R339, log 38). -/
theorem twinWrite_outside {s : State} {off b : Nat} (v : Word) (hm : inMailboxes off = false) (hb : blockOf off = some b) :
    twinWrite s off v = reject s b := by
  simp [twinWrite, hm, hb]

theorem twinRead_outside (s : State) {off : Nat} (hm : inMailboxes off = false) (ht : inTwin off = false) :
    twinRead s off = ro s 0 := by
  simp [twinRead, hm, ht]

/-- The offsets from 0x170000 on are reserved: a write changes nothing. -/
theorem regWrite_reserved (s : State) (who : Master) {off : Nat} (v : Word) (h : 0x170000 ≤ off) : regWrite s who off v = s := by
  unfold regWrite
  -- an aligned offset passes the test of every block
  by_cases h4 : off % 4 = 0
  · rw [if_neg (not_not_intro h4)]
    iterate 17 rw [if_neg (by omega)]
  · rw [if_pos h4]

/-- `Qq_CFG` is the first register of its quad's block (Table 9-2). -/
theorem regWrite_quadCfg (s : State) (who : Master) {q : Nat} (v : Word) (h : q < 32) :
    regWrite s who (0x80000 + 0x4000 * q) v = quadCfgWrite s q v := by
  have hblock : regWrite s who (0x80000 + 0x4000 * q) v = writeQ s (0x4000 * q) v := by
    unfold regWrite
    iterate 10 rw [if_neg (by omega)]
    rw [if_pos (by omega), Nat.add_sub_cancel_left]
  have hq : 0x4000 * q / 0x4000 = q := by omega
  have hr : 0x4000 * q % 0x4000 = 0 := by omega
  rw [hblock, writeQ]
  simp [hq, hr]

theorem regRead_mover (s : State) (who : Master) {o : Nat} (h : o < 0x2000) (h4 : o % 4 = 0) :
    regRead s who (0x10000 + o) = readMv s (who == 0xF0) o := by
  unfold regRead
  dsimp only
  iterate 6 rw [if_neg (by omega)]
  rw [if_pos (by omega), Nat.add_sub_cancel_left]

/-- the read of `MVm_CHECKS` (Table 6-10) -/
theorem readMv_checks (s : State) (dbg : Bool) {m : Nat} (h : m < 8) :
    readMv s dbg (0x100 * m + 0x14) = rc s dbg (getMv s m).checks.toNat fun s => modMv s m fun x => { x with checks := 0 } := by
  have hm : (0x100 * m + 0x14) / 0x100 = m := by omega
  have hr : (0x100 * m + 0x14) % 0x100 = 0x14 := by omega
  unfold readMv
  rw [if_pos (by omega)]
  simp only [hm, hr]

theorem regWrite_twinCtl (s : State) (who : Master) (v : Word) :
    regWrite s who 0x120010 v = if v.getLsbD 0 then handback s else s := by
  have hblock : regWrite s who 0x120010 v = writeTwin s 0x10 v := by
    unfold regWrite
    iterate 13 rw [if_neg (by decide)]
    exact if_pos (by decide)
  exact hblock.trans rfl

/-! ### `MV_CFG` (06 Table 6-10) -/

theorem toNat_mvCfgOff : (0x10820 : BitVec 22).toNat = 0x10820 := by decide

/-- WINDOW takes any value but 0. -/
theorem regWrite_mvCfg (s : State) (who : Master) (v : Word) : regWrite s who 0x10820 v =
    if v.toNat % 16 = 0 then reject s 5 else { s with mv := { s.mv with window := v.extractLsb' 0 4 } } := by
  have hblock : regWrite s who 0x10820 v = writeMv s 0x820 v := by
    unfold regWrite
    iterate 6 rw [if_neg (by decide)]
    exact if_pos (by decide)
  have hfield : writeMv s 0x820 v =
      if bitsAt v 0 4 = 0 then reject s 5 else { s with mv := { s.mv with window := v.extractLsb' 0 4 } } := rfl
  have hbits : bitsAt v 0 4 = v.toNat % 16 := bitsAt_zero v 4
  rw [hblock, hfield, hbits]

/-! ### `Qq_CFG` (08 R234, R235) -/

/-- A quad with no port enabled takes no port up or down when none is named. -/
theorem applyPortEn_none {s : State} {q : Nat} (h : (getQ s q).portEn = 0) : applyPortEn s q 0 = setQ s q (getQ s q) := by
  have hsame : { getQ s q with portEn := 0 } = getQ s q := by rw [← h]
  have hbits (p : Nat) : (0 : BitVec 4).getLsbD p = false := BitVec.getLsbD_zero
  unfold applyPortEn
  simp only [h, hsame, hbits]
  rfl

theorem sameCfg_self (x : Quad) : sameCfg x x = true := by simp [sameCfg]

theorem cfgFields_of_sameCfg {x : Quad} {v : Word} (h : sameCfg x (cfgFields x v) = true) : cfgFields x v = x := by
  simp only [sameCfg, Bool.and_eq_true, beq_iff_eq] at h
  obtain ⟨⟨⟨⟨hp, ha⟩, hf⟩, hr⟩, ht⟩ := h
  have hset : cfgFields x v = { x with
      profile := (cfgFields x v).profile, arrange := (cfgFields x v).arrange, fec := (cfgFields x v).fec
      rxInv := (cfgFields x v).rxInv, txInv := (cfgFields x v).txInv } := rfl
  rw [hset, ← hp, ← ha, ← hf, ← hr, ← ht]

/-- A quad that is not in use takes a row of Table 8-2 whole. -/
theorem cfgAfter_of_comboLegal {x : Quad} {v : Word} (h : comboLegal (cfgFields x v) = true) :
    cfgAfter x true v = cfgFields x v := by
  unfold cfgAfter
  dsimp only
  by_cases hs : sameCfg x (cfgFields x v) = true
  · rw [if_pos hs, cfgFields_of_sameCfg hs]
  · rw [if_neg hs, if_neg (by decide), if_pos h]

theorem quadCfgWrite_fenced {s : State} {q : Nat} (v : Word) (h : quadFenced s q = true) : quadCfgWrite s q v = reject s 9 := by
  rw [quadCfgWrite, if_pos h]

/-- An idle quad in service takes a legal combination whole; a write that names no port leaves all of them off. -/
theorem quadCfgWrite_idle {s : State} {q : Nat} {v : Word} (hf : quadFenced s q = false) (hp : (getQ s q).portEn = 0)
    (hb : quadBound s q = false) (hv : v.extractLsb' 0 2 ≠ 0) (hen : v.extractLsb' 8 4 = 0)
    (hl : comboLegal (cfgFields (getQ s q) v) = true) : quadCfgWrite s q v = setQ s q (cfgFields (getQ s q) v) := by
  have hne : cfgFields (getQ s q) v ≠ {} := fun e => hv (congrArg Quad.profile e)
  have hread : getQ (setQ s q (cfgFields (getQ s q) v)) q = cfgFields (getQ s q) v := tget_tset_new _ _ hne
  have hports : applyPortEn (setQ s q (cfgFields (getQ s q) v)) q 0#4 = setQ s q (cfgFields (getQ s q) v) :=
    (applyPortEn_none (by rw [hread]; exact hp)).trans (by rw [hread, setQ, setQ, tset_tset_new _ _ _ hne])
  unfold quadCfgWrite
  simp [hf, hp, hb, hen, cfgAfter_of_comboLegal hl, hports, sameCfg_self]

theorem exec_quadConfigWrite_control (q : BitVec 5) (v : Word) (s : State) :
    exec (.quadConfigWrite 0 q v) s = .next (quadCfgWrite s q.toNat v) := by
  have hoff : (BitVec.ofNat 22 (0x80000 + 0x4000 * q.toNat)).toNat = 0x80000 + 0x4000 * q.toNat := by
    rw [BitVec.toNat_ofNat]; omega
  show exec (.registerWrite 0 (BitVec.ofNat 22 (0x80000 + 0x4000 * q.toNat)) v) s = _
  rw [exec_registerWrite_control, hoff, regWrite_quadCfg s 0 v q.isLt]

/-! ### `TWIN_CTL` (11 R362) -/

theorem exec_twHandback_control (v : Word) (s : State) :
    exec (.twHandback 0 v) s = .next (if v.getLsbD 0 then handback s else s) := by
  have hoff : (0x120010 : BitVec 22).toNat = 0x120010 := by decide
  show exec (.registerWrite 0 0x120010 v) s = _
  rw [exec_registerWrite_control, hoff, regWrite_twinCtl]

/-- Outside PAIRED, or with nothing taken over, a hand-back is rejected (log 38). -/
theorem handback_refused {s : State} (h : s.tw.state ≠ 3 ∨ s.tw.tookOver = false) : handback s = reject s 12 := by
  have hbad : (s.tw.state != 3 || !s.tw.tookOver) = true := by simpa using h
  rw [handback, hbad, if_pos (by simp)]

/-- A hand-back that may begin marks itself and queues the lines of the region taken over. -/
theorem handback_begins {s : State} (hst : s.tw.state = 3) (hto : s.tw.tookOver = true) (hh : s.tw.handing = false)
    (hb : boundIn s s.tw.id = false) (hw : (s.fs.window.any fun c => inTaken s c.prn) = false) :
    handback s = copyLines { s with tw := { s.tw with handing := true } } (regionLines s true) := by
  simp [handback, hst, hto, hh, hb, hw]

/-! ### Reads (01 R4, R12) -/

theorem exec_counterReadClear_control (off : BitVec 22) (s : State) :
    exec (.counterReadClear 0 off) s = .next (emit (regRead s 0 off.toNat).2 (.value 0 (regRead s 0 off.toNat).1)) := rfl

/-- From OBSERVE on the debug port reads what is not hidden from it (13 R417). -/
theorem exec_counterReadClear_debug {off : BitVec 22} {s : State} (hl : s.sec.level ≠ 0) (hh : dbgHidden off.toNat = false) :
    exec (.counterReadClear 0xF0 off) s = .next (emit (regRead s 0xF0 off.toNat).2 (.value 0xF0 (regRead s 0xF0 off.toNat).1)) := by
  show Host.Outcome.next (if s.sec.level == 0 || dbgHidden off.toNat then s
    else emit (regRead s 0xF0 off.toNat).2 (.value 0xF0 (regRead s 0xF0 off.toNat).1)) = _
  rw [if_neg (by simpa [hh] using hl)]

/-- the offset of `MVm_CHECKS` as the statement writes it -/
theorem toNat_checksOff (m : BitVec 3) : (BitVec.ofNat 22 (0x10014 + 0x100 * m.toNat)).toNat = 0x10000 + (0x100 * m.toNat + 0x14) := by
  rw [BitVec.toNat_ofNat]; omega

/-- The counter clears on a read by any master but the debug port. -/
theorem regRead_checks (s : State) (who : Master) (m : BitVec 3) :
    regRead s who (BitVec.ofNat 22 (0x10014 + 0x100 * m.toNat)).toNat =
      ((getMv s m.toNat).checks, if who == 0xF0 then s else setMv s m.toNat { getMv s m.toNat with checks := 0 }) := by
  rw [toNat_checksOff, regRead_mover s who (by omega) (by omega), readMv_checks s _ m.isLt, rc, low32_toNat]
  rfl

theorem dbgHidden_checks (m : BitVec 3) : dbgHidden (BitVec.ofNat 22 (0x10014 + 0x100 * m.toNat)).toNat = false := by
  rw [toNat_checksOff]
  simp only [dbgHidden, inMailboxes, Bool.or_eq_false_iff, Bool.and_eq_false_iff, decide_eq_false_iff_not]
  omega

theorem exec_timeTickLoRead_lo (s : State) : exec (.timeTickLoRead 0 0) s = .next { s with
    dev := { s.dev with hiCap := tset 0 4 (s.dev.tick.extractLsb' 32 32) s.dev.hiCap }
    out := s.out ++ [.value 0 (s.dev.tick.extractLsb' 0 32)] } := by
  rw [← low32_extract, ← low32_extract_high]
  rfl

/-! ### Requests of the twin (11 R339) -/

theorem toLE_ro_zero (s : State) : toLE 4 (ro s 0).1.toNat = [0, 0, 0, 0] := by
  show toLE 4 (low32 0).toNat = _; decide

theorem exec_twRegReq_down {s : State} (h : s.tw.link ≠ 2) (param : Dword) (body : List Byte) : exec (.twRegReq param body) s = .next s := by
  show execTwRegReq param body s = _
  rw [execTwRegReq, onLink, if_neg (by simpa using h)]

theorem exec_twRegReq_write {s : State} {param : Dword} (body : List Byte) (h : s.tw.link = 2) (hw : param.getLsbD 32 = true) :
    exec (.twRegReq param body) s = .next (twinSend (twinWrite s (bitsAt param 0 22) (low32 (ofLE (body.take 4))))
      { type := 0x0B, param := param, body := [0, 0, 0, 0] }) := by
  show execTwRegReq param body s = _
  simp only [execTwRegReq, onLink, h, hw, BEq.rfl, if_true]

theorem exec_twRegReq_read {s : State} {param : Dword} (body : List Byte) (h : s.tw.link = 2) (hr : param.getLsbD 32 = false) :
    exec (.twRegReq param body) s = .next (twinSend (twinRead s (bitsAt param 0 22)).2
      { type := 0x0B, param := param, body := toLE 4 (twinRead s (bitsAt param 0 22)).1.toNat }) := by
  show execTwRegReq param body s = _
  simp only [execTwRegReq, onLink, h, hr, BEq.rfl, if_true, Bool.false_eq_true, if_false]

/-! ### The statement -/

/-- Settles O43: each clause by the rule of its register's block. -/
theorem registerAccesses : Obligations.RegisterAccesses := by
  unfold Obligations.RegisterAccesses
  intro s v
  refine ⟨?window, ?windowZero, ?clearRejects, ?reserved, ?twin, ?debug, ?quad, ?checks, ?tickLow, ?tickHigh, ?request,
    ?linkDown, ?noHandback, ?badHandback, ?handback⟩
  case window =>
    intro hv
    rw [exec_registerWrite_control, toNat_mvCfgOff, regWrite_mvCfg, if_neg hv]
  case windowZero =>
    intro hv
    rw [exec_registerWrite_control, toNat_mvCfgOff, regWrite_mvCfg, if_pos hv]
    exact ⟨_, rfl, rejected_reject s 5⟩
  case clearRejects => rfl
  case reserved =>
    intro off h _
    rw [exec_registerWrite_control, regWrite_reserved s 0 v h]
  case twin =>
    intro off b hl hm hb
    rw [exec_registerWrite_twin off v s hl, twinWrite_outside v hm hb]
    exact ⟨_, rfl, rejected_reject s b⟩
  case debug =>
    intro off h
    exact exec_registerWrite_debug off v s h
  case quad =>
    intro q
    refine ⟨fun hf => ?_, fun hf hp hb hv hen hl => ?_⟩
    · rw [exec_quadConfigWrite_control, quadCfgWrite_fenced v hf]
      exact ⟨_, rfl, rejected_reject s 9⟩
    · have hmode : v.extractLsb' 0 2 ≠ 0 := fun e => hv (by simpa using congrArg BitVec.toNat e)
      have hports : v.extractLsb' 8 4 = 0 := BitVec.eq_of_toNat_eq (by simpa [Nat.shiftRight_eq_div_pow] using hen)
      have hlegal : comboLegal (cfgFields (getQ s q.toNat) v) = true := by
        simpa [comboLegal, cfgFields, Nat.shiftRight_eq_div_pow] using hl
      rw [exec_quadConfigWrite_control, quadCfgWrite_idle hf hp hb hmode hports hlegal]
      rfl
  case checks =>
    intro m
    refine ⟨?_, fun hl => ?_⟩
    · rw [exec_counterReadClear_control, regRead_checks]
      rfl
    · rw [exec_counterReadClear_debug hl (dbgHidden_checks m), regRead_checks]
      rfl
  case tickLow => exact exec_timeTickLoRead_lo s
  case tickHigh => rfl
  case request =>
    intro param body off answer hl ht hm
    have hoff : bitsAt param 0 22 = off := bitsAt_zero param 22
    refine ⟨fun hr => ?_, fun b hw hb => ⟨_, rejected_reject s b, ?_⟩⟩
    · rw [exec_twRegReq_read body hl hr, hoff, twinRead_outside s hm ht, toLE_ro_zero]
      rfl
    · rw [exec_twRegReq_write body hl hw, hoff, twinWrite_outside _ hm hb]
  case linkDown => exact exec_twRegReq_down
  case noHandback =>
    intro h
    rw [exec_twHandback_control, h, if_neg Bool.false_ne_true]
  case badHandback =>
    intro h hs
    rw [exec_twHandback_control, h, if_pos rfl, handback_refused hs]
    exact ⟨_, rfl, rejected_reject s 12⟩
  case handback =>
    intro h hst hto hh hb hw
    rw [exec_twHandback_control, h, if_pos rfl, handback_begins hst hto hh hb hw]
    obtain ⟨_, _, _, _, _, _, e⟩ := copyLines_onlySends { s with tw := { s.tw with handing := true } } (regionLines s true)
    rw [e]
    exact ⟨_, rfl, rfl, rfl⟩

end Sys2Proof.Machine
end

section
/-!
PROOFS. Memory (O7): a table in canonical form is what it reads, and bytes written are read back.
-/

namespace Sys2Proof.Machine

/-! ### A canonical table is what it reads (01 R13 to R15) -/

theorem tget_below {α : Type} {d : α} {k : Nat} {t : Tab α} (h : ∀ e ∈ t, k < e.1) : tget d t k = d := by
  induction t with
  | nil => rfl
  | cons e t ih =>
    have hne : k ≠ e.1 := Nat.ne_of_lt (h e List.mem_cons_self)
    rw [tget, if_neg hne]
    exact ih fun e he => h e (List.mem_cons_of_mem _ he)

/-- A canonical table lists exactly what it reads apart from the default. -/
theorem mem_iff_tget {α : Type} {d : α} {t : Tab α} (h : tabCanon d t) (e : Nat × α) :
    e ∈ t ↔ tget d t e.1 = e.2 ∧ e.2 ≠ d := by
  obtain ⟨k, v⟩ := e
  induction t with
  | nil => exact ⟨fun hm => absurd hm List.not_mem_nil, fun hv => absurd hv.1.symm hv.2⟩
  | cons e' t ih =>
    obtain ⟨k', v'⟩ := e'
    obtain ⟨hkeys, hvals⟩ := h
    obtain ⟨hlow, hkeys⟩ := List.pairwise_cons.mp hkeys
    obtain ⟨hv', hvals⟩ := List.forall_mem_cons.mp hvals
    have ih := ih ⟨hkeys, hvals⟩
    by_cases hk : k = k'
    · subst hk
      have hnot : (k, v) ∉ t := fun hm => Nat.lt_irrefl k (hlow _ hm)
      simp only [List.mem_cons, Prod.mk.injEq, true_and, hnot, or_false, tget, if_true]
      exact ⟨fun hv => ⟨hv.symm, hv ▸ hv'⟩, fun hv => hv.1.symm⟩
    · simpa [tget, hk] using ih

theorem nodup_of_tabCanon {α : Type} {d : α} {t : Tab α} (h : tabCanon d t) : t.Nodup :=
  h.1.imp fun hlt heq => Nat.ne_of_lt hlt (congrArg Prod.fst heq)

/-- Canonical tables that read alike are the same data. -/
theorem tabCanon_ext {α : Type} {d : α} {t t' : Tab α} (h : tabCanon d t) (h' : tabCanon d t')
    (hread : ∀ k, tget d t k = tget d t' k) : t = t' := by
  have hmem (e : Nat × α) : e ∈ t ↔ e ∈ t' := by rw [mem_iff_tget h, mem_iff_tget h', hread]
  have hperm : t.Perm t' := (List.perm_ext_iff_of_nodup (nodup_of_tabCanon h) (nodup_of_tabCanon h')).mpr hmem
  exact hperm.eq_of_pairwise (fun _ _ _ _ hlt hgt => absurd hgt (Nat.lt_asymm hlt)) h.1 h'.1

/-! ### Bytes written are read back -/

theorem getBytes_eq_map (t : Tab Byte) (a n : Nat) : getBytes t a n = (List.range n).map fun i => tget emptyByte t (a + i) := by
  induction n generalizing a with
  | zero => rfl
  | succ n ih =>
    rw [getBytes, ih, List.range_succ_eq_map, List.map_cons, List.map_map]
    congr 2
    funext i
    rw [Function.comp_apply, Nat.succ_eq_add_one, Nat.add_assoc, Nat.add_comm 1]

theorem getBytes_putBytes (l : List Byte) (a : Nat) {t : Tab Byte} (h : tabCanon emptyByte t) :
    getBytes (putBytes t a l) a l.length = l := by
  rw [getBytes_eq_map]
  refine List.ext_getElem (by simp) fun i _ hi => ?_
  rw [List.getElem_map, List.getElem_range, tget_putBytes_same l a i h hi]

/-- Settles O7: a table is the set of bytes it reads apart from the empty ones, and a write reads back byte by byte. -/
theorem memoryReadsWhatWasWritten : Obligations.MemoryReadsWhatWasWritten := by
  intro m a l h
  exact ⟨putBytes_canon l a h, getBytes_putBytes l a h, fun b hb => tget_putBytes_other l a b m hb,
    fun m' h' hread => tabCanon_ext h' h hread⟩

end Sys2Proof.Machine
end

section
/-!
PROOFS. The tick of an empty queue (O2): what events alone change, and that a tick changes besides them only the count and an
entry to STANDBY.
-/

namespace Sys2Proof.Machine

/-! ### What events alone change -/

/-- What an event's reports can change: the host port, the event fabric, what went out, the fault log and its store, and what the
part drives at its GPIO pins. -/
def OnlyReports (s t : State) : Prop :=
  ∃ h e o f n g p, t = { s with hp := h, evt := e, out := o, flt := f, nv := n, pwr := { s.pwr with gpioOut := g, pulses := p } }

theorem OnlyReports.refl (s : State) : OnlyReports s s := ⟨_, _, _, _, _, _, _, rfl⟩

theorem OnlyReports.trans {s t u : State} (h : OnlyReports s t) (h' : OnlyReports t u) : OnlyReports s u := by
  obtain ⟨_, _, _, _, _, _, _, rfl⟩ := h
  obtain ⟨_, _, _, _, _, _, _, rfl⟩ := h'
  exact ⟨_, _, _, _, _, _, _, rfl⟩

/-- A list worked off step by step changes only what each step may. -/
theorem foldl_onlyReports {α : Type} {f : State → α → State} (s : State) (l : List α)
    (h : ∀ t, ∀ a ∈ l, OnlyReports t (f t a)) : OnlyReports s (l.foldl f s) :=
  List.foldlRecOn l f (.refl s) fun t ht a ha => ht.trans (h t a ha)

theorem raiseInputs_onlyReports (s : State) (before : BitVec 16) (ns : List Nat) : OnlyReports s (raiseInputs s before ns) := by
  obtain ⟨_, e⟩ := raiseInputs_what s before ns
  exact ⟨_, _, _, _, _, _, _, e⟩

theorem occur_onlyReports (s : State) {n : Nat} (hn : n < 1024) : OnlyReports s (occur s n) := by
  obtain ⟨_, _, _, e, _⟩ := occur_what s hn
  exact ⟨_, _, _, _, _, _, _, e⟩

theorem pulse_onlyReports (s : State) {n : Nat} (hn : n < 1024) : OnlyReports s (pulse s n) :=
  (raiseInputs_onlyReports s _ _).trans (occur_onlyReports _ hn)

theorem icCloseWindows_onlyReports (s : State) : OnlyReports s (icCloseWindows s) := ⟨_, _, _, _, _, _, _, rfl⟩

/-! ### The log (14 R444) -/

theorem logWrite_onlyReports (s : State) (e : LogEntry) : OnlyReports s (logWrite s e) := by
  have hput (n : Nv) : OnlyReports s { s with nv := n } := ⟨_, _, _, _, _, _, _, rfl⟩
  unfold logWrite
  dsimp only
  split
  · exact (hput _).trans (pulse_onlyReports _ (by decide))
  · exact hput _

theorem logFlush_onlyReports (s : State) : OnlyReports s (logFlush s) := by
  have hclear : OnlyReports s { s with flt := { s.flt with logBuf := [] } } := ⟨_, _, _, _, _, _, _, rfl⟩
  exact hclear.trans (foldl_onlyReports _ _ fun t e _ => logWrite_onlyReports t e)

theorem logTick_onlyReports (s : State) : OnlyReports s (logTick s) := by
  unfold logTick
  split
  · exact logFlush_onlyReports s
  · exact .refl s

/-! ### Pulses at pins (10 R309, 16 R467) -/

theorem withPins_onlyReports {s : State} {f : State → State} (h : OnlyReports s (f s)) : OnlyReports s (withPins s f) := by
  refine (h.trans (raiseInputs_onlyReports _ _ _)).trans (foldl_onlyReports _ _ fun t n hn => occur_onlyReports t ?_)
  obtain ⟨i, hi, rfl⟩ := List.mem_map.mp hn
  have hpin : i < 16 := List.mem_range.mp (List.mem_filter.mp hi).1
  omega

theorem pulsesTick_onlyReports (s : State) : OnlyReports s (pulsesTick s) := by
  refine foldl_onlyReports s _ fun t e _ => ?_
  have hcount (p : Tab Nat) : OnlyReports t { t with pwr := { t.pwr with pulses := p } } := ⟨_, _, _, _, _, _, _, rfl⟩
  dsimp only
  split
  · exact (hcount _).trans (withPins_onlyReports ⟨_, _, _, _, _, _, _, rfl⟩)
  · exact hcount _

/-! ### An entry to STANDBY (12 R370) -/

/-- an entry to STANDBY is under way and the logic runs: this tick is its commit cycle -/
def commitDue (s : State) : Bool := s.pwr.sleep == .entering && s.pwr.light && logicRuns s
/-- the mark that a wake source came since the last tick is cleared (12 R372) -/
def clearWoke (s : State) : State := { s with pwr := { s.pwr with woke := false } }

theorem standbyTick_eq (s : State) : standbyTick s = if commitDue s then commitStandby (clearWoke s) else clearWoke s := by
  have hclear : (if s.pwr.woke then clearWoke s else s) = clearWoke s := by
    split
    · rfl
    · next h => rw [clearWoke, ← eq_false_of_ne_true h]
  show (let u := if s.pwr.woke then clearWoke s else s; if commitDue u then commitStandby u else u) = _
  rw [hclear]
  rfl

/-- The root PLL runs on through an entry to STANDBY (01 R11). -/
theorem ticksRun_standbyTick (s : State) : ticksRun (standbyTick s) = ticksRun s := by
  rw [standbyTick_eq]
  split
  · next h =>
    have hsleep : s.pwr.sleep = .entering := by
      simp only [commitDue, Bool.and_eq_true, beq_iff_eq] at h
      exact h.1.1
    show (s.rst.booted && !s.rst.held && Sleep.standby != .deep) = ticksRun s
    rw [ticksRun, hsleep]
    rfl
  · rfl

/-! ### A tick of an empty queue (01 R12; log entries 1 and 70) -/

/-- What a tick does apart from the reports of its events: TICK_COUNT advances while the root PLL runs, and an entry to STANDBY
commits. -/
def tickCore (s : State) : State :=
  { s with
    dev := { s.dev with tick := if ticksRun s then s.dev.tick + BitVec.ofNat 64 (tickStep s) else s.dev.tick }
    tw := { s.tw with slew := if ticksRun s then (if correctsTick s then 0 else min 64 (s.tw.slew + 1)) else s.tw.slew }
    ce := if commitDue s then { s.ce with icache := [] } else s.ce
    pwr := { s.pwr with
      woke := false
      sleep := if commitDue s then .standby else s.pwr.sleep
      light := if commitDue s then false else s.pwr.light } }

theorem OnlyReports.tickCore {s t : State} (h : OnlyReports s t) : OnlyReports (tickCore s) (tickCore t) := by
  obtain ⟨_, _, _, _, _, _, _, rfl⟩ := h
  exact ⟨_, _, _, _, _, _, _, rfl⟩

theorem standbyTick_of_stands {s : State} (h : ticksRun s = false) : standbyTick s = tickCore s := by
  rw [standbyTick_eq, tickCore, h]
  cases commitDue s <;> rfl

theorem countTick_standbyTick {s : State} (h : ticksRun s = true) : countTick (standbyTick s) = tickCore s := by
  rw [standbyTick_eq, tickCore, h]
  cases commitDue s <;> rfl

theorem idleTick_onlyReports (s : State) : OnlyReports (tickCore s) (idleTick s) := by
  have hpulses := (pulsesTick_onlyReports s).tickCore
  unfold idleTick
  dsimp only
  rw [ticksRun_standbyTick]
  split
  · next h =>
    have hcount (u : State) : OnlyReports (countTick u) (countTick (icCloseWindows u)) := ⟨_, _, _, _, _, _, _, rfl⟩
    rw [← countTick_standbyTick h] at hpulses
    exact (hpulses.trans (hcount _)).trans (logTick_onlyReports _)
  · next h =>
    rw [standbyTick_of_stands (eq_false_of_ne_true h)]
    exact hpulses

theorem step_of_empty {s : State} (h : s.pending = []) : step s = .next (idleTick s) := by
  rw [step, h]

theorem tickCore_tick_correcting {s : State} (hr : ticksRun s = true) (hc : correctsTick s = true) :
    (tickCore s).dev.tick = s.dev.tick + (if 0 < s.tw.theta then 2 else 0) := by
  rw [tickCore, tickStep, hr, hc, if_pos rfl, if_pos rfl]
  split <;> rfl

theorem tickCore_tick_counting {s : State} (hr : ticksRun s = true) (hc : correctsTick s = false) :
    (tickCore s).dev.tick = s.dev.tick + 1 := by
  rw [tickCore, tickStep, hr, hc]
  rfl

theorem tickCore_tick_standing {s : State} (hr : ticksRun s = false) : (tickCore s).dev.tick = s.dev.tick := by
  rw [tickCore, hr]
  rfl

/-- Settles O2: an idle step is the tick of `tickCore`, and beside it changes only what the reports of events reach. -/
theorem idleStepTicks : Obligations.IdleStepTicks := by
  intro s hempty
  refine ⟨idleTick s, step_of_empty hempty, ?_⟩
  obtain ⟨_, _, _, _, _, _, _, e⟩ := idleTick_onlyReports s
  rw [e]
  refine ⟨hempty, tickCore_tick_counting, tickCore_tick_standing, tickCore_tick_correcting,
    rfl, rfl, rfl, rfl, rfl, rfl, rfl, rfl, rfl, rfl, rfl, rfl, rfl, rfl, fun hc => ?commits, fun hc => ?waits⟩
  case commits => exact ⟨if_pos hc, if_pos hc⟩
  case waits =>
    have hno : ¬ commitDue s = true := Bool.eq_false_iff.mp hc
    exact ⟨if_neg hno, if_neg hno⟩

end Sys2Proof.Machine
end

section
/-!
PROOFS. The host's windows on the part's memory (O42): a request the part answers awake, doorbell words, and accesses of BAR0 and
BAR2.
-/

namespace Sys2Proof.Machine

/-! ### A request the part answers awake (12 R375) -/

/-- What the host does to its own memory reaches nothing of the part. -/
theorem hostStores_what (s : State) (l : List HostStore) :
    ∃ h f, hostStores s l = { s with mem := { s.mem with host := h, hostFaults := f } } := by
  unfold hostStores
  induction l generalizing s with
  | nil => exact ⟨_, _, rfl⟩
  | cons x l ih =>
    obtain ⟨h, f, e⟩ := ih (hostStore s x)
    rw [List.foldl_cons, e]
    cases x <;> exact ⟨_, _, rfl⟩

@[simp] theorem hostStores_pwr (s : State) (l : List HostStore) : (hostStores s l).pwr = s.pwr := by
  obtain ⟨_, _, e⟩ := hostStores_what s l
  rw [e]
@[simp] theorem hostStores_sched (s : State) (l : List HostStore) : (hostStores s l).sched = s.sched := by
  obtain ⟨_, _, e⟩ := hostStores_what s l
  rw [e]
@[simp] theorem hostStores_dram (s : State) (l : List HostStore) : (hostStores s l).mem.dram = s.mem.dram := by
  obtain ⟨_, _, e⟩ := hostStores_what s l
  rw [e]
@[simp] theorem hostStores_poison (s : State) (l : List HostStore) : (hostStores s l).mem.poison = s.mem.poison := by
  obtain ⟨_, _, e⟩ := hostStores_what s l
  rw [e]
@[simp] theorem hostStores_tw (s : State) (l : List HostStore) : (hostStores s l).tw = s.tw := by
  obtain ⟨_, _, e⟩ := hostStores_what s l
  rw [e]

@[simp] theorem getP_hostStores (s : State) (l : List HostStore) (n : Nat) : getP (hostStores s l) n = getP s n := by
  rw [getP, hostStores_sched, getP]
@[simp] theorem isFenced_hostStores (s : State) (l : List HostStore) : isFenced (hostStores s l) = isFenced s := by
  rw [isFenced, hostStores_tw, isFenced]

theorem HostUp.hostStores {s : State} {m : Master} (h : HostUp s m) (l : List HostStore) : HostUp (hostStores s l) m := by
  obtain ⟨_, _, e⟩ := hostStores_what s l
  rw [e]
  exact h

theorem exitL1_of_L0 {s : State} {m : Master} (h : (fnLink s m).l1 = false) : exitL1 s m = s := by
  have hlink (l : HLink) (hl : l.l1 = false) : { l with l1 := false } = l := by rw [← hl]
  unfold fnLink at h
  unfold exitL1
  split at h
  · next hs => rw [if_pos hs, hlink _ h]
  · next hs => rw [if_neg hs, hlink _ h]

theorem afterWake_of_none_held {s : State} (h : s.pwr.held = []) : afterWake s = s := by
  simp [afterWake, h]

theorem sleepSource_awake {s : State} (bit : Nat) (h : s.pwr.sleep = .awake) (hw : s.pwr.woke = false) : sleepSource s bit = s := by
  simp [sleepSource, h, hw]

/-- A part that is up does what is asked, and nothing more where no request is held. -/
theorem hostRequest_up {s : State} {m : Master} {r : HostReq} (h : HostUp s m) (hheld : (hostDoes m r s).pwr.held = []) :
    hostRequest s m r = hostDoes m r s := by
  obtain ⟨hreach, hlink, _, hawake, _, _, _⟩ := h
  unfold hostRequest
  simp [exitL1_of_L0 hlink, hreach, hawake, afterWake_of_none_held hheld]

/-! ### Counters that clear on a read (00, 14 R443) -/

theorem satInc_below {w : Word} (h : w.toNat < 2 ^ 32 - 2) : satInc w = w + 1 := by
  have hne : w ≠ BitVec.allOnes 32 := fun e => by rw [e, BitVec.toNat_allOnes] at h; omega
  rw [satInc, if_neg hne]
  rfl

/-- A counter two or more below its maximum counts without a pulse. -/
theorem rcPulse_below {w : Word} {s : State} (h : w.toNat < 2 ^ 32 - 2) : rcPulse w s = s := by
  have hne : w + 1 ≠ BitVec.allOnes 32 := fun e => by
    have := congrArg BitVec.toNat e
    rw [BitVec.toNat_allOnes, BitVec.toNat_add] at this
    have : (1 : Word).toNat = 1 := rfl
    omega
  rw [rcPulse, if_neg hne]

/-! ### Words as bytes -/

@[simp] theorem length_toLE (n v : Nat) : (toLE n v).length = n := by
  induction n generalizing v with
  | zero => rfl
  | succ n ih => rw [toLE, List.length_cons, ih]

theorem ofLE_toLE (n v : Nat) : ofLE (toLE n v) = v % 256 ^ n := by
  induction n generalizing v with
  | zero => rw [toLE, ofLE, Nat.pow_zero, Nat.mod_one]
  | succ n ih =>
    have hbyte : (BitVec.ofNat 8 (v % 256)).toNat = v % 256 := by rw [BitVec.toNat_ofNat]; omega
    rw [toLE, ofLE, ih, hbyte, Nat.pow_succ', Nat.mod_mul]

theorem low32_ofLE_toLE (v : Nat) : low32 (ofLE (toLE 4 v)) = low32 v := by
  rw [ofLE_toLE, low32, low32, Nat.mod_mod_of_dvd v (by decide)]

/-! ### Doorbells (03 R69 to R72, 09 R284) -/

/-- what a doorbell write does: its words in order where it is aligned, else a discarded write -/
def doorbellEffect (s : State) (m : Master) (off : Nat) (l : List Byte) : State :=
  if dbAligned off l.length then ((List.range (l.length / 4)).map (wordAt l)).foldl (dbWord m) s else dbWriteBad s

theorem doorbellOp_up {s : State} {m : Master} {off : Nat} {l : List Byte} (h : HostUp s m) (hoff : isVf m = true → off < 4096)
    (hpwr : (doorbellEffect s m off l).pwr = s.pwr) : doorbellOp s m off l = doorbellEffect s m off l := by
  obtain ⟨_, _, hmem, hawake, hwoke, _, hfw⟩ := h
  have hpage : (isVf m && decide (4096 ≤ off)) = false := by
    cases hv : isVf m with
    | false => rfl
    | true => simpa using hoff hv
  have hstay : sleepSource (doorbellEffect s m off l) 9 = doorbellEffect s m off l :=
    sleepSource_awake 9 (hpwr ▸ hawake) (hpwr ▸ hwoke)
  have hsplit : doorbellOp s m off l = sleepSource (doorbellEffect s m off l) 9 := by
    unfold doorbellOp doorbellEffect
    rw [hfw, hmem, hpage]
    cases dbAligned off l.length <;> rfl
  exact hsplit.trans hstay

theorem exec_doorbellWrite_up {s : State} {fn : Master} {off : BitVec 20} {l : List Byte} {env : List HostStore} {t : State}
    (h : HostUp s fn) (hoff : isVf fn = true → off.toNat < 4096) (ht : doorbellEffect (hostStores s env) fn off.toNat l = t)
    (hpwr : t.pwr = s.pwr) : exec (.doorbellWrite fn off l env) s = .next t := by
  subst ht
  have hup : HostUp (hostStores s env) fn := h.hostStores env
  have hkeep : (doorbellEffect (hostStores s env) fn off.toNat l).pwr = (hostStores s env).pwr := by rw [hpwr, hostStores_pwr]
  have hop : hostDoes fn (.doorbell off.toNat l) (hostStores s env) = _ := doorbellOp_up hup hoff hkeep
  obtain ⟨_, _, _, _, _, hheld, _⟩ := h
  have hreq := hostRequest_up (r := .doorbell off.toNat l) hup (by rw [hop, hpwr, hheld])
  exact congrArg _ (hreq.trans hop)

theorem dbWriteBad_counts {s : State} (h : s.sched.dbRejected.toNat < 2 ^ 32 - 2) :
    dbWriteBad s = { s with sched := { s.sched with dbRejected := s.sched.dbRejected + 1, dbReject := true } } := by
  rw [dbWriteBad, rcPulse_below h, satInc_below h]

theorem countIgnored_counts {s : State} (h : s.sched.dbIgnored.toNat < 2 ^ 32 - 2) :
    countIgnored s = { s with sched := { s.sched with dbIgnored := s.sched.dbIgnored + 1 } } := by
  rw [countIgnored, rcPulse_below h, satInc_below h]

/-- A write of one word acts as that word. -/
theorem doorbellEffect_word {s : State} (m : Master) {off : Nat} {l : List Byte} (hlen : l.length = 4) (hoff : off % 4 = 0)
    (hawake : s.pwr.sleep = .awake) : doorbellEffect s m off l = wordActs m s (low32 (ofLE l)) := by
  have hgood : dbAligned off 4 = true := by simp [dbAligned, hoff]
  have hword : wordAt l 0 = low32 (ofLE l) := by
    rw [wordAt, Nat.mul_zero, List.drop_zero, List.take_of_length_le (Nat.le_of_eq hlen)]
  rw [doorbellEffect, hlen, hgood, if_pos rfl]
  show dbWord m s (wordAt l 0) = _
  rw [hword, dbWord, hawake]
  rfl

theorem wordActs_zero (m : Master) (s : State) : wordActs m s 0 = s := by
  simp [wordActs, doorbellWord]

/-- the word of START for pronoun `n` (03 Table 3-7) -/
def startWord (n : Nat) : Word := low32 (n + 2 ^ 22)

/-- Only the bits that name the pronoun and START are set. -/
theorem startWord_fields {n : Nat} (h : n < 2 ^ 20) : bitsAt (startWord n) 0 20 = n ∧ bitsAt (startWord n) 20 2 = 0 ∧
    bitsAt (startWord n) 22 2 = 1 ∧ bitsAt (startWord n) 24 8 = 0 := by
  have hval : (startWord n).toNat = n + 2 ^ 22 := by rw [startWord, low32, BitVec.toNat_ofNat]; omega
  simp only [bitsAt, hval]
  omega

/-- A START word in an unfenced part is judged by the pronoun it names. -/
theorem wordActs_start {s : State} (m : Master) {n : Nat} (h0 : 0 < n) (hn : n < 2 ^ 20) (hf : isFenced s = false) :
    wordActs m s (startWord n) = if !(isBound (getP s n)) || (getP s n).hostFn != m then countIgnored s
      else let r := startOp s n (getP s n).startAddr; if r.2 then countIgnored r.1 else r.1 := by
  obtain ⟨hname, hzero, hverb, htop⟩ := startWord_fields hn
  have hword : startWord n ≠ 0#32 := fun e => by rw [e] at hname; exact Nat.ne_of_lt h0 hname
  have hne : n ≠ 0 := Nat.ne_of_gt h0
  simp [wordActs, hf, doorbellWord, hword, hname, hzero, hverb, htop, hne]

theorem startAt_what (s : State) (n : Nat) (a : Dword) (cause : BitVec 3) : ∃ r q c t, startAt s n a cause =
    { s with sched := { s.sched with recs := r, runq := q, cache := c, table := t } } := by
  unfold startAt toQueued
  obtain ⟨c, t, e⟩ := modP_what s n fun p => { p with ccwAddr := a, loops := [], startPending := false, pendStart := 0 }
  rw [e]
  obtain ⟨c', t', e'⟩ := modP_what { s with sched := { s.sched with recs := _, cache := c, table := t } } n fun p =>
    { p with state := .queued, starts := if p.state == .checked then p.starts else wrapInc p.starts, wakeCause := cause }
  rw [e']
  obtain ⟨q, c'', t'', e''⟩ := enqueue_what { s with sched := { s.sched with recs := _, cache := c', table := t' } } n
  exact ⟨_, q, c'', t'', e''⟩

@[simp] theorem startAt_pwr (s : State) (n : Nat) (a : Dword) (cause : BitVec 3) : (startAt s n a cause).pwr = s.pwr := by
  obtain ⟨_, _, _, _, e⟩ := startAt_what s n a cause
  rw [e]

theorem startOp_idle {s : State} {n : Nat} (a : Dword) (h : (getP s n).state = .idle) : startOp s n a = (startAt s n a 5, false) := by
  rw [startOp, h]

/-! ### A register read leaves every held request waiting (01 R4, Table 9-2) -/

/-- The read answers in a state that holds the same requests. -/
def ReadKeeps (s : State) (r : Rd) : Prop := r.2.pwr.held = s.pwr.held

theorem readKeeps_ro (s : State) (n : Nat) : ReadKeeps s (ro s n) := rfl
theorem readKeeps_lo (s : State) (off n : Nat) : ReadKeeps s (lo s off n) := rfl
theorem readKeeps_hi (s : State) (off : Nat) : ReadKeeps s (hi s off) := rfl
theorem readKeeps_rc {s : State} (dbg : Bool) (n : Nat) {clear : State → State} (h : (clear s).pwr.held = s.pwr.held) :
    ReadKeeps s (rc s dbg n clear) := by
  cases dbg
  · exact h
  · rfl

theorem readKeeps_ite {c : Prop} [Decidable c] {s : State} {a b : Rd} (ha : ReadKeeps s a) (hb : ReadKeeps s b) :
    ReadKeeps s (if c then a else b) := by
  split
  · exact ha
  · exact hb

theorem readKeeps_dev (s : State) (o : Nat) : ReadKeeps s (readDev s o) := by
  unfold readDev
  split <;> rfl

theorem readKeeps_sched (s : State) (dbg : Bool) (o : Nat) : ReadKeeps s (readSched s dbg o) := by
  unfold readSched
  split <;> cases dbg <;> rfl

theorem readKeeps_cls (s : State) (dbg : Bool) (o : Nat) : ReadKeeps s (readCls s dbg o) := by
  unfold readCls
  split
  case h_7 => exact readKeeps_ite (readKeeps_rc dbg _ rfl) (readKeeps_ro s 0)
  all_goals cases dbg <;> rfl

theorem readKeeps_fs (s : State) (dbg : Bool) (o : Nat) : ReadKeeps s (readFs s dbg o) := by
  unfold readFs
  split <;> cases dbg <;> rfl

theorem readKeeps_hp (s : State) (o : Nat) : ReadKeeps s (readHp s o) :=
  readKeeps_ite (readKeeps_ro s _) (readKeeps_ite (readKeeps_ro s _) (readKeeps_ro s _))

theorem readKeeps_mv (s : State) (dbg : Bool) (o : Nat) : ReadKeeps s (readMv s dbg o) := by
  refine readKeeps_ite ?_ (readKeeps_ite (readKeeps_ro s _) (readKeeps_ite (readKeeps_ro s _) (readKeeps_ro s _)))
  dsimp only
  split <;> cases dbg <;> rfl

theorem readKeeps_xf (s : State) (o : Nat) : ReadKeeps s (readXf s o) := by
  refine readKeeps_ite (readKeeps_ro s _) ?_
  dsimp only
  split <;> rfl

theorem readKeeps_arb (s : State) (dbg : Bool) (o : Nat) : ReadKeeps s (readArb s dbg o) := by
  refine readKeeps_ite (readKeeps_ro s _) (readKeeps_ite (readKeeps_ro s _) ?_)
  split <;> cases dbg <;> rfl

theorem readKeeps_ce (s : State) (dbg : Bool) (o : Nat) : ReadKeeps s (readCe s dbg o) :=
  readKeeps_ite (readKeeps_ro s _) (readKeeps_ite (readKeeps_rc dbg _ rfl) (readKeeps_ro s _))

theorem readKeeps_ctr (s : State) (dbg : Bool) (q p i : Nat) (high : Bool) (off : Nat) :
    ReadKeeps s (readCtr s dbg q p i high off) := by
  refine readKeeps_ite (readKeeps_ite (readKeeps_hi s _) (readKeeps_ro s _)) ?_
  dsimp only
  cases dbg <;> split <;> rfl

theorem readKeeps_q (s : State) (dbg : Bool) (o : Nat) : ReadKeeps s (readQ s dbg o) := by
  refine readKeeps_ite (readKeeps_ro s _) (readKeeps_ite (readKeeps_ro s _) (readKeeps_ite (readKeeps_ctr s dbg _ _ _ _ _) ?_))
  split <;> rfl

theorem readKeeps_ecl (s : State) (o : Nat) : ReadKeeps s (readEcl s o) :=
  readKeeps_ite (readKeeps_ro s _) (readKeeps_ro s _)

theorem clearPend_pwr (s : State) (v : Word) : (clearPend s v).pwr = s.pwr := by
  unfold clearPend
  split <;> rfl

theorem readKeeps_ic (s : State) (o : Nat) : ReadKeeps s (readIc s o) := by
  refine readKeeps_ite (readKeeps_ro s _) (readKeeps_ite (readKeeps_ro s _) (readKeeps_ite (readKeeps_ro s _) ?_))
  split
  · exact congrArg Pwr.held (clearPend_pwr _ _)
  · exact congrArg Pwr.held (clearPend_pwr _ _)
  · rfl
  · rfl

theorem readKeeps_cap (s : State) (dbg : Bool) (k r off : Nat) : ReadKeeps s (readCap s dbg k r off) := by
  unfold readCap
  dsimp only
  split <;> cases dbg <;> rfl

theorem readKeeps_evt (s : State) (who : Master) (dbg : Bool) (o : Nat) : ReadKeeps s (readEvt s who dbg o) := by
  refine readKeeps_ite (readKeeps_ro s _) (readKeeps_ite (readKeeps_cap s dbg _ _ _)
    (readKeeps_ite (readKeeps_ite (readKeeps_ic s o) (readKeeps_ro s _))
      (readKeeps_ite (readKeeps_ro s _) (readKeeps_ite (readKeeps_ro s _) ?_))))
  split <;> cases dbg <;> rfl

theorem readKeeps_twin (s : State) (dbg : Bool) (o : Nat) : ReadKeeps s (readTwin s dbg o) := by
  refine readKeeps_ite (readKeeps_ro s _) (readKeeps_ite (readKeeps_rc dbg _ rfl) ?_)
  split <;> rfl

theorem readKeeps_pwr (s : State) (dbg : Bool) (o : Nat) : ReadKeeps s (readPwr s dbg o) := by
  unfold readPwr
  split <;> cases dbg <;> rfl

theorem readKeeps_sec (s : State) (o : Nat) : ReadKeeps s (readSec s o) := by
  refine readKeeps_ite (readKeeps_ro s _) (readKeeps_ite (readKeeps_ro s _) ?_)
  split <;> rfl

theorem readKeeps_flt (s : State) (dbg : Bool) (o : Nat) : ReadKeeps s (readFlt s dbg o) := by
  refine readKeeps_ite (readKeeps_ro s _) ?_
  split <;> cases dbg <;> rfl

theorem readKeeps_rst (s : State) (dbg : Bool) (o : Nat) : ReadKeeps s (readRst s dbg o) := by
  unfold readRst
  dsimp only
  split <;> cases dbg <;> rfl

theorem readKeeps_reg (s : State) (who : Master) (off : Nat) : ReadKeeps s (regRead s who off) := by
  exact
    readKeeps_ite (readKeeps_ro _ _) <|
    readKeeps_ite (readKeeps_dev _ _) <|
    readKeeps_ite (readKeeps_sched _ _ _) <|
    readKeeps_ite (readKeeps_cls _ _ _) <|
    readKeeps_ite (readKeeps_fs _ _ _) <|
    readKeeps_ite (readKeeps_hp _ _) <|
    readKeeps_ite (readKeeps_mv _ _ _) <|
    readKeeps_ite (readKeeps_xf _ _) <|
    readKeeps_ite (readKeeps_arb _ _ _) <|
    readKeeps_ite (readKeeps_ce _ _ _) <|
    readKeeps_ite (readKeeps_q _ _ _) <|
    readKeeps_ite (readKeeps_ecl _ _) <|
    readKeeps_ite (readKeeps_evt _ _ _ _) <|
    readKeeps_ite (readKeeps_twin _ _ _) <|
    readKeeps_ite (readKeeps_pwr _ _ _) <|
    readKeeps_ite (readKeeps_sec _ _) <|
    readKeeps_ite (readKeeps_flt _ _ _) <|
    readKeeps_ite (readKeeps_rst _ _ _) <|
    readKeeps_ro _ _

/-! ### BAR0 (09 R281) -/

theorem exec_bar0Access_up {s : State} {fn : Master} {a : BarAccess} {env : List HostStore} (h : HostUp s fn)
    (hheld : (bar0Op (hostStores s env) fn a).pwr.held = []) :
    exec (.bar0Access fn a env) s = .next (bar0Op (hostStores s env) fn a) :=
  congrArg _ (hostRequest_up (r := .bar0 a) (h.hostStores env) hheld)

theorem bar0Op_bad {s : State} {m : Master} {a : BarAccess} (h : accessGood m a.off.toNat a.len.toNat = false) :
    bar0Op s m a = unsupported s m := by
  simp [bar0Op, h]

/-- A word of a PF's BAR0 below its function-local block is a register of the part. -/
theorem bar0Op_register {s : State} {m : Master} {a : BarAccess} (hpf : isPf m = true) (hmem : memoryOn s m = true)
    (hfw : s.rst.fwReady = true) (hread : a.write = false) (hlen : a.len = 4) (halign : a.off.toNat % 4 = 0)
    (hoff : a.off.toNat < 0x3E0000) : bar0Op s m a =
      emit (regRead s m a.off.toNat).2 (.completion m true (toLE 4 (regRead s m a.off.toNat).1.toNat) false) := by
  have hvf : isVf m = false := by
    rcases (by simpa [isPf] using hpf : m = 0x40 ∨ m = 0x41) with rfl | rfl <;> decide
  have hgood : accessGood m a.off.toNat 4 = true := by
    have hin : a.off.toNat + 4 ≤ 0x400000 := by omega
    simp [accessGood, halign, bar0Size, hpf, hin]
  have hreg : bar0Read s m a.off.toNat = regRead s m a.off.toNat := by
    have hlocal : hfOffset m a.off.toNat = none := by
      rw [hfOffset, hvf, if_neg (by decide), if_neg (by omega)]
    rw [bar0Read, hfw, hlocal]
    rfl
  have hlen' : a.len.toNat = 4 := congrArg BitVec.toNat hlen
  rw [bar0Op, hlen', hgood, hmem, hread]
  show emit (bar0Read s m a.off.toNat).2 (.completion m true (toLE 4 (bar0Read s m a.off.toNat).1.toNat ++ []) false) = _
  rw [List.append_nil, hreg]

/-! ### BAR2 (09 R282, 01 R15, 03 R59) -/

theorem bar2Op_pwr (s : State) (m : Master) (a : BarAccess) : (bar2Op s m a).pwr = s.pwr := by
  unfold bar2Op
  dsimp only
  split
  · rfl
  · split
    · split <;> rfl
    · rfl

theorem exec_bar2Access_up {s : State} {fn : Master} {a : BarAccess} {env : List HostStore} (h : HostUp s fn) :
    exec (.bar2Access fn a env) s = .next (bar2Op (hostStores s env) fn a) := by
  have hup : HostUp (hostStores s env) fn := h.hostStores env
  obtain ⟨_, _, _, _, _, hheld, _⟩ := h
  have hkeep : (hostDoes fn (.bar2 a) (hostStores s env)).pwr.held = [] := by
    show (bar2Op (hostStores s env) fn a).pwr.held = []
    rw [bar2Op_pwr, hostStores_pwr, hheld]
  exact congrArg _ (hostRequest_up (r := .bar2 a) hup hkeep)


theorem bar2Op_gone {s : State} {a : BarAccess} (m : Master) (h : dramSize < a.off.toNat + a.len.toNat) : bar2Op s m a = unsupported s m := by
  have hgone : bar2Gone s a.off.toNat a.len.toNat = true := by simp [bar2Gone, h]
  simp [bar2Op, hgone]

/-- A PF's access of usable DRAM outside the pronoun tables; CTM takes no write. -/
theorem bar2Op_there {s : State} {m : Master} {a : BarAccess} (h : HostUp s m) (hpf : isPf m = true)
    (hin : a.off.toNat + a.len.toNat ≤ dramSize)
    (hout : s.sched.configured = false ∨ overlaps a.off.toNat a.len.toNat (prnStart s) prnTablesLen = false) : bar2Op s m a =
      if a.write then (if overlaps a.off.toNat a.len.toNat (ctmStart s) (ctmBytes s) then unsupported s m
        else writeDram s a.off.toNat (padTo a.len.toNat a.data))
      else emit s (.completion m true (getBytes s.mem.dram a.off.toNat a.len.toNat) (dramPoisoned s a.off.toNat a.len.toNat)) := by
  obtain ⟨_, _, hmem, _, _, _, hfw⟩ := h
  have hgone : bar2Gone s a.off.toNat a.len.toNat = false := by
    have hsize : ¬ dramSize < a.off.toNat + a.len.toNat := Nat.not_lt.mpr hin
    rcases hout with hc | ho
    · simp [bar2Gone, hsize, hc]
    · simp [bar2Gone, hsize, ho]
  simp [bar2Op, hpf, hmem, hfw, hgone]

/-! ### The statement -/

/-- Settles O42: on a part that is up each access is one operation on what the host left, and nothing wakes or is held by it. -/
theorem hostMemoryWindows : Obligations.HostMemoryWindows := by
  unfold Obligations.HostMemoryWindows
  intro s fn env hup s1
  have hup1 : HostUp s1 fn := hup.hostStores env
  obtain ⟨_, _, _, hawake, _, hheld, _⟩ := hup1
  have hsched : s1.sched = s.sched := hostStores_sched s env
  have hpwr : s1.pwr = s.pwr := hostStores_pwr s env
  refine ⟨fun off l hoff => ⟨?misaligned, ?zero, ?start, ?ignored⟩, ?bar0Bad, ?bar0Read, ?bar2⟩
  case misaligned =>
    intro hbad hcount
    refine exec_doorbellWrite_up hup hoff ?_ hpwr
    rw [doorbellEffect, hbad, if_neg Bool.false_ne_true]
    exact (dbWriteBad_counts (hsched.symm ▸ hcount)).trans (by rw [hsched])
  case zero =>
    rintro rfl hz
    refine exec_doorbellWrite_up hup hoff ?_ hpwr
    rw [doorbellEffect_word fn rfl hz hawake]
    exact wordActs_zero fn s1
  case start =>
    rintro n h0 hn rfl hz hfence hidle hown
    have hrec : getP s1 n = getP s n := getP_hostStores s env n
    have hmine : (!(isBound (getP s n)) || (getP s n).hostFn != fn) = false := by simp [isBound, hidle, hown]
    refine exec_doorbellWrite_up hup hoff ?_ ((startAt_pwr s1 n _ 5).trans hpwr)
    rw [doorbellEffect_word fn (length_toLE 4 _) hz hawake, low32_ofLE_toLE, ← startWord,
      wordActs_start fn h0 hn ((isFenced_hostStores s env).trans hfence), hrec, startOp_idle _ (hrec ▸ hidle), hmine]
    rfl
  case ignored =>
    rintro n h0 hn rfl hz hfence hother hcount
    have hrec : getP s1 n = getP s n := getP_hostStores s env n
    refine exec_doorbellWrite_up hup hoff ?_ hpwr
    rw [doorbellEffect_word fn (length_toLE 4 _) hz hawake, low32_ofLE_toLE, ← startWord,
      wordActs_start fn h0 hn ((isFenced_hostStores s env).trans hfence), hrec, if_pos (by simpa [isBound] using hother),
      countIgnored_counts (hsched.symm ▸ hcount), hsched]
  case bar0Bad =>
    intro a hbad
    have hop : bar0Op s1 fn a = unsupported s1 fn := bar0Op_bad hbad
    rw [exec_bar0Access_up hup (by rw [hop]; exact hheld), hop]
    rfl
  case bar0Read =>
    intro a hpf hread hlen halign hoff
    obtain ⟨_, _, hmem, _, _, _, hfw⟩ := hup.hostStores env
    have hop : bar0Op s1 fn a = _ := bar0Op_register hpf hmem hfw hread hlen halign hoff
    have hkeep : (bar0Op s1 fn a).pwr.held = [] := by
      rw [hop]
      exact (readKeeps_reg s1 fn a.off.toNat).trans hheld
    rw [exec_bar0Access_up hup hkeep, hop]
  case bar2 =>
    intro a
    rw [exec_bar2Access_up hup]
    refine ⟨fun hpf hin hout => ?_, fun hbig => congrArg _ (bar2Op_gone fn hbig)⟩
    have hstarts : prnStart s1 = prnStart s ∧ ctmStart s1 = ctmStart s ∧ ctmBytes s1 = ctmBytes s := by
      rw [prnStart, ctmStart, ctmBytes, hsched]
      exact ⟨rfl, rfl, rfl⟩
    obtain ⟨hprn, hctm, hctmLen⟩ := hstarts
    have hdram : s1.mem.dram = s.mem.dram := hostStores_dram s env
    have hpoison (o n : Nat) : dramPoisoned s1 o n = dramPoisoned s o n := by rw [dramPoisoned, hostStores_poison, dramPoisoned]
    rw [bar2Op_there (hup.hostStores env) hpf hin (by rw [hsched, hprn]; exact hout), hctm, hctmLen]
    refine ⟨fun hr => ?read, fun hw hfree => ?write, fun hw hhit => ?refused⟩
    case read => rw [hr, if_neg Bool.false_ne_true, hdram, hpoison]
    case write => rw [hw, if_pos rfl, hfree, if_neg Bool.false_ne_true]
    case refused => rw [hw, if_pos rfl, hhit, if_pos rfl]

end Sys2Proof.Machine
end

section
/-!
PROOFS. Admin commands on pronouns (O47), the parts they share: what events and replies leave as it was, a command that starts, and
the checks every command on a pronoun makes.
-/

namespace Sys2Proof.Machine

/-! ### What events and replies leave (09 R286 to R289, R294 to R299; 14 R440) -/

theorem evalStranded_what (s : State) : ∃ h e o l, evalStranded s =
    { s with hp := h, evt := e, out := o, sched := { s.sched with stranded := l } } := by
  have hfold (l : List Nat) (u : State) : ∃ h e o, l.foldl (fun s _ => pulse s 297) u = { u with hp := h, evt := e, out := o } := by
    induction l generalizing u with
    | nil => exact ⟨_, _, _, rfl⟩
    | cons x l ih =>
      obtain ⟨_, _, _, hp, _⟩ := pulse_what u (n := 297) (by decide)
      obtain ⟨h, e, o, hl⟩ := ih (pulse u 297)
      rw [List.foldl_cons, hl, hp]
      exact ⟨h, e, o, rfl⟩
  unfold evalStranded
  dsimp only
  obtain ⟨h, e, o, hl⟩ := hfold _ _
  exact ⟨h, e, o, _, hl⟩

@[simp] theorem getP_evalStranded (s : State) (n : Nat) : getP (evalStranded s) n = getP s n := by
  obtain ⟨_, _, _, _, e⟩ := evalStranded_what s
  rw [e]; rfl
@[simp] theorem evalStranded_mem (s : State) : (evalStranded s).mem = s.mem := by
  obtain ⟨_, _, _, _, e⟩ := evalStranded_what s
  rw [e]
@[simp] theorem runq_evalStranded (s : State) (l : Nat) : runq (evalStranded s) l = runq s l := by
  obtain ⟨_, _, _, _, e⟩ := evalStranded_what s
  rw [e]; rfl

/-- What words and replies written for the host can change: memory, the host port, the event fabric, and what went out. -/
def OnlyTells (s t : State) : Prop := ∃ x h e o, t = { s with mem := x, hp := h, evt := e, out := o }

theorem OnlyTells.refl (s : State) : OnlyTells s s := ⟨_, _, _, _, rfl⟩

theorem OnlyTells.trans {s t u : State} (h : OnlyTells s t) (h' : OnlyTells t u) : OnlyTells s u := by
  obtain ⟨_, _, _, _, rfl⟩ := h
  obtain ⟨_, _, _, _, rfl⟩ := h'
  exact ⟨_, _, _, _, rfl⟩

theorem onlyTells_ite {c : Prop} [Decidable c] {s t u : State} (ht : OnlyTells s t) (hu : OnlyTells s u) :
    OnlyTells s (if c then t else u) := by
  split
  · exact ht
  · exact hu

theorem OnlyTells.getP {s t : State} (h : OnlyTells s t) (n : Nat) : getP t n = getP s n := by
  obtain ⟨_, _, _, _, rfl⟩ := h
  rfl

theorem countEvent_onlyTells (s : State) (m : Master) (n : Nat) : OnlyTells s (countEvent s m n) := by
  obtain ⟨_, _, e⟩ := countEvent_what s m n
  rw [e]
  exact ⟨_, _, _, _, rfl⟩

theorem fallDue_onlyTells (s : State) (m : Master) (n : Nat) : OnlyTells s (fallDue s m n) := by
  obtain ⟨_, _, e⟩ := fallDue_what s m n
  rw [e]
  exact ⟨_, _, _, _, rfl⟩

theorem pulse_onlyTells (s : State) {n : Nat} (hn : n < 1024) : OnlyTells s (pulse s n) := by
  obtain ⟨_, _, _, e, _⟩ := pulse_what s hn
  rw [e]
  exact ⟨_, _, _, _, rfl⟩

theorem setFunc_onlyTells (s : State) (m : Master) (f : Func) : OnlyTells s (setFunc s m f) := ⟨_, _, _, _, rfl⟩

theorem writeHostRaw_onlyTells (s : State) (o : Nat) (l : List Byte) : OnlyTells s (writeHostRaw s o l) := ⟨_, _, _, _, rfl⟩

theorem settleReady_onlyTells (s : State) (m : Master) : OnlyTells s (settleReady s m) := by
  unfold settleReady
  dsimp only
  split
  · exact .refl s
  · exact setFunc_onlyTells s m _

theorem putReply_onlyTells (s : State) (m : Master) (r : BitVec 256) : OnlyTells s (putReply s m r) := by
  unfold putReply
  dsimp only
  split
  · exact .refl s
  · split
    · exact ⟨_, _, _, _, rfl⟩
    · split
      · exact setFunc_onlyTells s m _
      · exact ((writeHostRaw_onlyTells s _ _).trans (setFunc_onlyTells _ m _)).trans (countEvent_onlyTells _ _ _)

theorem finishHeld_onlyTells (s : State) (why : HeldWhy) (st : Half) (r : BitVec 192) : OnlyTells s (finishHeld s why st r) := by
  have hheld (l : List Held) : OnlyTells s { s with hp := { s.hp with held := l } } := ⟨_, _, _, _, rfl⟩
  exact (hheld _).trans (List.foldlRecOn _ _ (.refl _) fun _ ht _ _ =>
    ht.trans ((putReply_onlyTells _ _ _).trans (settleReady_onlyTells _ _)))

/-- One status word reaches only its queue, the vector it counts on, and source 91 when the queue is full. -/
theorem sqWrite_onlyTells (s : State) (n : Nat) (w : BitVec 256) : OnlyTells s (sqWrite s n w) := by
  have hhost (a : Nat) (l : List Byte) : OnlyTells s (hostWrite s a l) := by
    unfold hostWrite
    split
    · exact .refl s
    · exact writeHostRaw_onlyTells s a l
  have hset (t : State) (q : SQueue) : OnlyTells t (setSq t n q) := ⟨_, _, _, _, rfl⟩
  have hword (a : Nat) (l : List Byte) (q : SQueue) (m : Master) (v : Nat) :
      OnlyTells s (countEvent (setSq (hostWrite s a l) n q) m v) :=
    ((hhost a l).trans (hset _ q)).trans (countEvent_onlyTells _ m v)
  unfold sqWrite
  split
  · exact .refl s
  · refine onlyTells_ite (.trans (.trans ?_ (pulse_onlyTells _ (by decide : 91 < 1024))) (fallDue_onlyTells _ _ _)) ?_
    · exact hword _ _ _ _ _
    · exact hword _ _ _ _ _

/-! ### A command starts (09 R286 to R288) -/

theorem Starts.enabled {s : State} {fn : Master} {p : Packet} {op : Nat} (h : Starts s fn p op) : (getFunc s fn).enable = true := by
  obtain ⟨hmay, _⟩ := h
  simp only [mayStart, hasWork, takesPackets, Bool.and_eq_true] at hmay
  obtain ⟨⟨⟨⟨⟨⟨_, ⟨⟨hen, _⟩, _⟩, _⟩, _⟩, _⟩, _⟩, _⟩, _⟩ := hmay
  exact hen

/-- A command that starts is answered by its own checks and effect. -/
theorem adm_starts {s : State} {fn : Master} {p : Packet} {op : Nat} {f : State → Ans} (h : Starts s fn p op) (hop : op ∈ adminOps) :
    adm op (admNamed op p) f fn p s = answerCmd fn p (f (takePacket s fn)) := by
  obtain ⟨hmay, hcode, hrom, hfence, hstray, hvf⟩ := h
  have hdefined : adminOps.contains op = true := List.contains_iff_mem.mpr hop
  have hserved : (s.rst.rom && op != 1) = false := by
    rcases hrom with hr | h1
    · rw [hr, Bool.false_and]
    · simp [h1]
  have hunfenced : (isFenced s && !(fencedOps.contains op)) = false := by
    rcases hfence with hf | hm
    · rw [hf, Bool.false_and]
    · simp [hm]
  have hmine : (isVf fn && !(vfOps.contains op)) = false := by
    cases hv : isVf fn with
    | false => rfl
    | true => simp [hvf hv]
  have hchecks : firstChecks (takePacket s fn) fn p (admNamed op p) f = f (takePacket s fn) := by
    have hrom' : (takePacket s fn).rst.rom = s.rst.rom := rfl
    have hfence' : isFenced (takePacket s fn) = isFenced s := rfl
    simp only [firstChecks, hcode, hdefined, hrom', hserved, hfence', hunfenced, hstray, hmine, Bool.not_true, Bool.false_eq_true,
      if_false]
  rw [adm, hmay, hcode, hchecks]
  simp

theorem exec_admBind {s : State} {fn : Master} {p : Packet} (h : Starts s fn p 0x0201) :
    exec (.admBind fn p) s = .next (answerCmd fn p (cmdBind fn p (takePacket s fn))) := congrArg _ (adm_starts h (by decide))
theorem exec_admUnbind {s : State} {fn : Master} {p : Packet} (h : Starts s fn p 0x0202) :
    exec (.admUnbind fn p) s = .next (answerCmd fn p (cmdUnbind fn p (takePacket s fn))) := congrArg _ (adm_starts h (by decide))
theorem exec_admModify {s : State} {fn : Master} {p : Packet} (h : Starts s fn p 0x0203) :
    exec (.admModify fn p) s = .next (answerCmd fn p (cmdModify fn p (takePacket s fn))) := congrArg _ (adm_starts h (by decide))
theorem exec_admStart {s : State} {fn : Master} {p : Packet} (h : Starts s fn p 0x0204) :
    exec (.admStart fn p) s = .next (answerCmd fn p (cmdStart fn p (takePacket s fn))) := congrArg _ (adm_starts h (by decide))
theorem exec_admHalt {s : State} {fn : Master} {p : Packet} (h : Starts s fn p 0x0205) :
    exec (.admHalt fn p) s = .next (answerCmd fn p (cmdHalt fn p (takePacket s fn))) := congrArg _ (adm_starts h (by decide))
theorem exec_admResume {s : State} {fn : Master} {p : Packet} (h : Starts s fn p 0x0206) :
    exec (.admResume fn p) s = .next (answerCmd fn p (cmdResume fn p (takePacket s fn))) := congrArg _ (adm_starts h (by decide))
theorem exec_admClear {s : State} {fn : Master} {p : Packet} (h : Starts s fn p 0x0207) :
    exec (.admClear fn p) s = .next (answerCmd fn p (cmdClear fn p (takePacket s fn))) := congrArg _ (adm_starts h (by decide))
theorem exec_admPronounReset {s : State} {fn : Master} {p : Packet} (h : Starts s fn p 0x0208) :
    exec (.admPronounReset fn p) s = .next (answerCmd fn p (cmdPronounReset fn p (takePacket s fn))) :=
  congrArg _ (adm_starts h (by decide))
theorem exec_admQuery {s : State} {fn : Master} {p : Packet} (h : Starts s fn p 0x0209) :
    exec (.admQuery fn p) s = .next (answerCmd fn p (cmdQuery fn p (takePacket s fn))) := congrArg _ (adm_starts h (by decide))

/-! ### Taking a packet changes the function's ring alone -/

/-- A function's settings but for its ring stand as the packet is taken. -/
theorem getFunc_takePacket {s : State} {fn : Master} (h : (getFunc s fn).enable = true) (m : Master) : ∃ l,
    getFunc (takePacket s fn) m = { getFunc s m with fetched := l } := by
  by_cases hm : m = fn
  · subst hm
    have hset : ({ getFunc s m with fetched := (getFunc s m).fetched.drop 1 } : Func) ≠ {} := fun e => by
      have := congrArg Func.enable e
      rw [show ({ getFunc s m with fetched := (getFunc s m).fetched.drop 1 } : Func).enable = true from h] at this
      exact absurd this (by decide)
    exact ⟨_, tget_tset_new _ _ hset⟩
  · exact ⟨_, getFunc_setFunc_other _ _ hm⟩

theorem enable_takePacket {s : State} {fn : Master} (h : (getFunc s fn).enable = true) (m : Master)
    (hm : (getFunc s m).enable = true) : (getFunc (takePacket s fn) m).enable = true := by
  obtain ⟨_, e⟩ := getFunc_takePacket h m
  rw [e]
  exact hm

@[simp] theorem getP_takePacket (s : State) (fn : Master) (n : Nat) : getP (takePacket s fn) n = getP s n := rfl

theorem inVfRange_takePacket {s : State} {fn : Master} (h : (getFunc s fn).enable = true) (vf : Master) (n : Nat) :
    inVfRange (takePacket s fn) vf n = inVfRange s vf n := by
  obtain ⟨l, e⟩ := getFunc_takePacket h vf
  simp only [inVfRange, e]

theorem prnAllowed_takePacket {s : State} {fn : Master} (h : (getFunc s fn).enable = true) (n : Nat) :
    prnAllowed (takePacket s fn) fn n = prnAllowed s fn n := by
  simp only [prnAllowed, inVfRange_takePacket h, getP_takePacket]

theorem imAllowed_takePacket {s : State} {fn : Master} (h : (getFunc s fn).enable = true) (n : Nat) (x : RecImage) :
    imAllowed (takePacket s fn) fn n x = imAllowed s fn n x := by
  have hsq : getSq (takePacket s fn) (imSq x).toNat = getSq s (imSq x).toNat := rfl
  simp only [imAllowed, inVfRange_takePacket h, hsq]

/-! ### The checks of a command on a pronoun (09 R290, R291) -/

/-- An answer as far as permission and the null pronoun decide it. -/
def ChecksPron (s : State) (fn : Master) (p : Packet) (a : Ans) : Prop :=
  (prnAllowed s fn (pkPrn p) = false → a = refuse s stDenied) ∧
  (prnAllowed s fn (pkPrn p) = true → pkPrn p = 0 → a = badField s 8)

theorem onPron_checks (s : State) (fn : Master) (p : Packet) (bad : Option Byte) (f : Nat → Ans) :
    ChecksPron s fn p (onPron fn p bad s f) := by
  refine ⟨fun h => ?_, fun h h0 => ?_⟩
  · simp [onPron, h]
  · simp [onPron, h0 ▸ h, h0]

theorem cmdBind_checks (s : State) (fn : Master) (p : Packet) : ChecksPron s fn p (cmdBind fn p s) := by
  refine ⟨fun h => ?_, fun h h0 => ?_⟩
  · simp [cmdBind, h]
  · simp [cmdBind, h0 ▸ h, h0]

theorem onPron_bad {s : State} {fn : Master} {p : Packet} {b : Byte} {f : Nat → Ans} (ha : prnAllowed s fn (pkPrn p) = true)
    (h0 : pkPrn p ≠ 0) : onPron fn p (some b) s f = badField s b := by
  simp [onPron, ha, h0]

theorem onPron_passed {s : State} {fn : Master} {p : Packet} {f : Nat → Ans} (ha : prnAllowed s fn (pkPrn p) = true)
    (h0 : pkPrn p ≠ 0) (hc : s.sched.configured = true) : onPron fn p none s f = f (pkPrn p) := by
  simp [onPron, ha, h0, configured, hc]

theorem PronCmd.passes {s : State} {fn : Master} {p : Packet} {op : Nat} (h : PronCmd s fn p op) (f : Nat → Ans) :
    onPron fn p none (takePacket s fn) f = f (pkPrn p) := by
  obtain ⟨hst, hallow, h0, hc⟩ := h
  exact onPron_passed ((prnAllowed_takePacket hst.enabled _).trans hallow) h0 hc

theorem PronCmd.badField {s : State} {fn : Master} {p : Packet} {op : Nat} (h : PronCmd s fn p op) (b : Byte) (f : Nat → Ans) :
    onPron fn p (some b) (takePacket s fn) f = badField (takePacket s fn) b := by
  obtain ⟨hst, hallow, h0, _⟩ := h
  exact onPron_bad ((prnAllowed_takePacket hst.enabled _).trans hallow) h0

/-! ### What an answer writes (09 R288, R290) -/

section
variable {s t : State} {c : Instr} {fn : Master} {p : Packet} {a : Ans}

theorem answers_done {res : BitVec 192} (he : exec c s = .next (answerCmd fn p a)) (ha : a = .done t res) :
    Answers (exec c s) t fn p 0 0 res := by
  rw [Answers, he, ha]
  rfl

theorem answers_no {st : Half} {field : Byte} {res : BitVec 192} (he : exec c s = .next (answerCmd fn p a))
    (ha : a = .no t st field res) : Answers (exec c s) t fn p st field res := by
  rw [Answers, he, ha]
  rfl

theorem exec_held (he : exec c s = .next (answerCmd fn p a)) (ha : a = .held t) : exec c s = .next t := by
  rw [he, ha]
  rfl

end

end Sys2Proof.Machine
end

section
/-!
PROOFS. What the parts of an unbinding leave as it was (O47): the pronoun's state and affinity, the commit window, the replies held
and the function's queue.
-/

namespace Sys2Proof.Machine

/-- What no part of an unbinding changes before the pronoun itself is unbound. -/
structure Spares (n : Nat) (fn : Master) (s t : State) : Prop where
  state : (getP s n).state ≠ .unbound → (getP t n).state = (getP s n).state
  affinity : (getP s n).state ≠ .unbound → (getP t n).affinity = (getP s n).affinity
  window : t.fs.window = s.fs.window
  held : t.hp.held = s.hp.held
  enabled : (getFunc s fn).enable = true → (getFunc t fn).enable = true

variable {n : Nat} {fn : Master} {s t u : State}

theorem Spares.refl (s : State) : Spares n fn s s := ⟨fun _ => rfl, fun _ => rfl, rfl, rfl, id⟩

theorem Spares.trans (h : Spares n fn s t) (h' : Spares n fn t u) : Spares n fn s u where
  state hb := (h'.state (h.state hb ▸ hb)).trans (h.state hb)
  affinity hb := (h'.affinity (h.state hb ▸ hb)).trans (h.affinity hb)
  window := h'.window.trans h.window
  held := h'.held.trans h.held
  enabled he := h'.enabled (h.enabled he)

/-- an update of anything else -/
theorem spares_of_eq (hrecs : t.sched.recs = s.sched.recs) (hwin : t.fs.window = s.fs.window) (hhp : t.hp = s.hp) : Spares n fn s t := by
  have hrec : getP t n = getP s n := by rw [getP, hrecs, getP]
  have hfunc : getFunc t fn = getFunc s fn := by rw [getFunc, hhp, getFunc]
  exact ⟨fun _ => by rw [hrec], fun _ => by rw [hrec], hwin, by rw [hhp], fun he => by rw [hfunc, he]⟩

theorem spares_ite {c : Prop} [Decidable c] (ht : Spares n fn s t) (hu : Spares n fn s u) : Spares n fn s (if c then t else u) := by
  split
  · exact ht
  · exact hu

theorem spares_foldl {α : Type} {f : State → α → State} (l : List α) (s : State) (h : ∀ t a, Spares n fn t (f t a)) :
    Spares n fn s (l.foldl f s) :=
  List.foldlRecOn l f (.refl s) fun t ht a _ => ht.trans (h t a)

/-- A bound pronoun's record keeps its state and affinity; what is stored elsewhere does not matter. -/
theorem setP_spares (m : Nat) (p : Pron) (hst : p.state = (getP s m).state) (haff : p.affinity = (getP s m).affinity) :
    Spares n fn s (setP s m p) := by
  have hread (hb : (getP s n).state ≠ .unbound) : getP (setP s m p) n = if n = m then p else getP s n := by
    split
    · next e =>
      subst e
      exact getP_setP_same s n p (hst ▸ hb)
    · next hne => exact getP_setP_other s p hne
  obtain ⟨_, _, e⟩ := setP_what s m p
  refine ⟨fun hb => ?_, fun hb => ?_, by rw [e], by rw [e], fun he => by rw [e]; exact he⟩
  · rw [hread hb]
    split
    · next e => rw [e, hst]
    · rfl
  · rw [hread hb]
    split
    · next e => rw [e, haff]
    · rfl

theorem modP_spares (m : Nat) {f : Pron → Pron} (hst : (f (getP s m)).state = (getP s m).state)
    (haff : (f (getP s m)).affinity = (getP s m).affinity) : Spares n fn s (modP s m f) :=
  setP_spares m _ hst haff

/-! ### Events at the host port (09 R294 to R299) -/

theorem setFunc_spares (m : Master) {f : Func} (h : f.enable = (getFunc s m).enable) : Spares n fn s (setFunc s m f) := by
  refine ⟨fun _ => rfl, fun _ => rfl, rfl, rfl, fun he => ?_⟩
  by_cases hm : fn = m
  · subst hm
    have hen : f.enable = true := h.trans he
    have hset : f ≠ {} := fun e => by rw [e] at hen; exact absurd hen (by decide)
    rw [show getFunc (setFunc s fn f) fn = f from tget_tset_new _ _ hset, hen]
  · rw [getFunc_setFunc_other s f hm, he]

theorem setVec_spares (m : Master) (k : Nat) (v : Vec) : Spares n fn s (setVec s m k v) := setFunc_spares m rfl

theorem exitL1_spares (m : Master) : Spares n fn s (exitL1 s m) := by
  unfold exitL1
  split <;> exact ⟨fun _ => rfl, fun _ => rfl, rfl, rfl, id⟩

theorem emit_spares (o : Out) : Spares n fn s (emit s o) := spares_of_eq rfl rfl rfl

theorem sendMsg_spares (m : Master) (k : Nat) : Spares n fn s (sendMsg s m k) :=
  ((setVec_spares m k _).trans (exitL1_spares m)).trans (emit_spares _)

theorem fallDue_spares (m : Master) (k : Nat) : Spares n fn s (fallDue s m k) := by
  refine spares_ite ?_ (spares_ite (.refl s) (spares_ite (setVec_spares m k _) (sendMsg_spares m k)))
  have hasleep : Spares n fn s (setFunc s m { getFunc s m with pendAtSleep := true }) := setFunc_spares m rfl
  exact spares_ite (hasleep.trans (emit_spares _)) hasleep

theorem countEvent_spares (m : Master) (k : Nat) : Spares n fn s (countEvent s m k) :=
  (setVec_spares m k _).trans (spares_ite (fallDue_spares m k) (.refl _))

theorem occur_spares (k : Nat) : Spares n fn s (occur s k) := by
  have hpend : Spares n fn s (icEval { s with evt := { s.evt with icPend := setBit s.evt.icPend k true } }) := spares_of_eq rfl rfl rfl
  unfold occur
  dsimp only
  split
  · exact hpend.trans (countEvent_spares _ _)
  · exact hpend

theorem pulse_spares (k : Nat) : Spares n fn s (pulse s k) := by
  obtain ⟨_, e⟩ := raiseInputs_what s (gpioLevels s) [k]
  have hraise : Spares n fn s (raiseInputs s (gpioLevels s) [k]) := by
    rw [e]
    exact spares_of_eq rfl rfl rfl
  exact hraise.trans (occur_spares k)

theorem rcPulse_spares (w : Word) : Spares n fn s (rcPulse w s) := spares_ite (pulse_spares 301) (.refl s)

/-! ### Frames and attentions (03 R67, 08 R260, R274) -/

theorem countBy_spares (q p i k : Nat) : Spares n fn s (countBy s q p i k) := by
  have hport (x : Port) : Spares n fn s (setPort s q p x) := spares_of_eq rfl rfl rfl
  exact ((hport _).trans (spares_ite (pulse_spares 301) (.refl _))).trans (spares_ite (pulse_spares _) (.refl _))

theorem count_spares (q p i : Nat) : Spares n fn s (count s q p i) := countBy_spares q p i 1

theorem sendPause_spares (q time : Nat) : Spares n fn s (sendPause s q time) :=
  spares_foldl _ s fun t _ => spares_ite ((emit_spares _).trans (count_spares _ _ _)) (.refl t)

theorem relieve_spares (q : Nat) : Spares n fn s (relieve s q) := by
  have hset (x : Quad) : Spares n fn s (setQ s q x) := spares_of_eq rfl rfl rfl
  exact spares_ite ((hset _).trans (sendPause_spares q 0)) (.refl s)

theorem dropFrames_spares (m : Nat) : Spares n fn s (dropFrames s m) := by
  have hset (t : State) (l : List RxFrame) : Spares n fn t (setRx t l) := spares_of_eq rfl rfl rfl
  exact ((spares_foldl _ s fun t _ => count_spares _ _ _).trans (hset _ _)).trans (spares_foldl _ _ fun t _ => relieve_spares _)

theorem dropAttentions_spares (m : Nat) : Spares n fn s (dropAttentions s m) :=
  (spares_foldl _ s fun t _ => spares_ite (count_spares _ _ _) (.refl t)).trans (modP_spares m rfl rfl)

/-! ### Locks broken, and the clauses their words doom (04 R101, R111, R121) -/

theorem enqueue_spares (m : Nat) : Spares n fn s (enqueue s m) := by
  obtain ⟨_, _, _, e⟩ := enqueue_what s m
  rw [e]
  exact spares_of_eq rfl rfl rfl

theorem releaseHold_spares (m : Nat) : Spares n fn s (releaseHold s m) := by
  have hlift : Spares n fn s (setP s m { getP s m with moverHold := false }) := setP_spares m _ rfl rfl
  exact spares_ite (hlift.trans (enqueue_spares m)) (.refl s)

theorem cancelWork_spares (b : Nat) : Spares n fn s (cancelWork s b) :=
  spares_foldl _ s fun _ _ => spares_of_eq rfl rfl rfl

theorem setPhase_spares (m : Nat) (ph : Phase) : Spares n fn s (setPhase s m ph) := modP_spares m rfl rfl

theorem cutCcw_spares (m : Nat) (x : Transfer) : Spares n fn s (cutCcw s m x) := by
  have hdel (o : DevOp) : Spares n fn s (delOp s o.id) := spares_of_eq rfl rfl rfl
  unfold cutCcw
  split
  · exact spares_ite ((hdel _).trans (setPhase_spares m _)) (setPhase_spares m _)
  · exact setPhase_spares m _

theorem doomWork_spares (c : Clause) : Spares n fn s (doomWork s c) := by
  have hfree := (cancelWork_spares (n := n) (fn := fn) (s := s) c.begin_).trans (releaseHold_spares c.prn)
  unfold doomWork
  dsimp only
  split
  · exact hfree.trans (cutCcw_spares _ _)
  · exact hfree

theorem doom_spares (b : Nat) (reason : Byte) (l : List Nat) : Spares n fn s (doom s b reason l) := by
  have hwait (t : State) (m : Nat) : Spares n fn t { t with fs := { t.fs with waiting := t.fs.waiting.filter fun w => w.prn != m } } :=
    spares_of_eq rfl rfl rfl
  have hmark (t : State) (f : Clause → Clause) : Spares n fn t (modClause t b f) := spares_of_eq rfl rfl rfl
  have hdrop (t : State) : Spares n fn t (dropClause t b) := spares_of_eq rfl rfl rfl
  unfold doom
  split
  · exact .refl s
  · next c _ =>
    have hwork : Spares n fn s _ := (doomWork_spares c).trans (hwait (doomWork s c) c.prn)
    exact spares_ite (.refl s) (hwork.trans (spares_ite (hmark _ _) ((hdrop _).trans (modP_spares _ rfl rfl))))

theorem OnlySends.spares (h : OnlySends s t) : Spares n fn s t := by
  obtain ⟨_, _, _, _, _, _, rfl⟩ := h
  exact spares_of_eq rfl rfl rfl

theorem ctmStore_spares (a : Nat) (bs : List Byte) : Spares n fn s (ctmStore s a bs) := by
  have hwrite : Spares n fn s (writeDram s (ctmPhys s a) bs) := spares_of_eq rfl rfl rfl
  have hline (t : State) (l : Nat) : Spares n fn t (twinLine t l) := spares_ite (twinSend_onlySends t _).spares (.refl t)
  exact (hwrite.trans (spares_foldl _ _ hline)).trans (spares_foldl _ _ fun t c => doom_spares _ _ _)

theorem ctmWriteOut_ok {a : Nat} {bs l : List Byte} (h : ctmWriteOut s a bs = .ok t l) : t = ctmStore s a bs := by
  unfold ctmWriteOut at h
  split at h
  · exact absurd h (by simp)
  · exact (CtmOut.ok.inj h).1.symm

theorem breakLock_spares (a owner : Nat) : Spares n fn s (breakLock s a owner) := by
  have hset : Spares n fn s (setLock s a owner true) := spares_of_eq rfl rfl rfl
  have hcls (t : State) (x : Cls) : Spares n fn t { t with cls := x } := spares_of_eq rfl rfl rfl
  have hcount (t : State) : Spares n fn t
      (rcPulse t.cls.lockBroken { t with cls := { t.cls with lockBroken := satInc t.cls.lockBroken } }) :=
    (hcls t _).trans (rcPulse_spares _)
  have hbroken : Spares n fn s _ := hset.trans (hcount (setLock s a owner true))
  unfold breakLock
  dsimp only
  split
  · next h =>
    rw [ctmWriteOut_ok h]
    exact hbroken.trans (ctmStore_spares _ _)
  · exact hbroken.trans (hcls _ _)

theorem breakLocks_spares (m : Nat) : Spares n fn s (breakLocks s m) :=
  spares_foldl _ s fun _ _ => breakLock_spares _ _

end Sys2Proof.Machine
end

section
/-!
PROOFS. Admin commands on pronouns (O47): what an unbinding, a halt and a reset leave, and each command of the statement.
-/

namespace Sys2Proof.Machine

/-- any record but the empty one reads as stored -/
theorem getP_setP_new (s : State) (n : Nat) {p : Pron} (h : p ≠ {}) : getP (setP s n p) n = p := by
  obtain ⟨_, _, e⟩ := setP_what s n p
  rw [e]
  exact tget_tset_new _ _ h

@[simp] theorem setP_mem (s : State) (n : Nat) (p : Pron) : (setP s n p).mem = s.mem := by
  obtain ⟨_, _, e⟩ := setP_what s n p
  rw [e]

@[simp] theorem setP_hp (s : State) (n : Nat) (p : Pron) : (setP s n p).hp = s.hp := by
  obtain ⟨_, _, e⟩ := setP_what s n p
  rw [e]
@[simp] theorem setP_cls (s : State) (n : Nat) (p : Pron) : (setP s n p).cls = s.cls := by
  obtain ⟨_, _, e⟩ := setP_what s n p
  rw [e]

theorem ne_empty_of_affinity {p : Pron} (h : p.affinity ≠ 0) : p ≠ {} := fun e => h (by rw [e])

theorem mem_held_hold (s : State) (fn : Master) (tag : Half) (why : HeldWhy) :
    { fn := fn, tag := tag, why := why } ∈ (hold s fn tag why).hp.held :=
  List.mem_append_right _ (List.mem_singleton.mpr rfl)

/-! ### UNBIND (03 R67) -/

/-- The record of a pronoun just unbound; an affinity that names an engine tells it from an empty one. -/
theorem getP_becomeUnbound {s : State} {n : Nat} (hb : (getP s n).state ≠ .unbound) (ha : (getP s n).affinity ≠ 0) :
    (getP (becomeUnbound s n) n).state = .unbound ∧ (getP (becomeUnbound s n) n).unbinding = true ∧
      (getP (becomeUnbound s n) n).affinity ≠ 0 := by
  have hkeep : Spares n 0 s (breakLocks (dropAttentions (dropFrames s n) n) n) :=
    ((dropFrames_spares n).trans (dropAttentions_spares n)).trans (breakLocks_spares n)
  have haff := hkeep.affinity hb ▸ ha
  have hread : getP (becomeUnbound s n) n = _ := getP_setP_new _ n (ne_empty_of_affinity haff)
  rw [hread]
  exact ⟨rfl, rfl, haff⟩

/-- The window, the replies held and the function's queue outlast an unbinding. -/
theorem becomeUnbound_keeps (s : State) (n : Nat) (fn : Master) : (becomeUnbound s n).fs.window = s.fs.window ∧
    (becomeUnbound s n).hp.held = s.hp.held ∧ ((getFunc s fn).enable = true → (getFunc (becomeUnbound s n) fn).enable = true) := by
  have hkeep : Spares n fn s (breakLocks (dropAttentions (dropFrames s n) n) n) :=
    ((dropFrames_spares n).trans (dropAttentions_spares n)).trans (breakLocks_spares n)
  obtain ⟨_, _, e⟩ := modP_what (breakLocks (dropAttentions (dropFrames s n) n) n) n fun p =>
    { p with state := .unbound, waitPending := 0, waitOverflow := 0, fin := none, fenceDue := none
             startPending := false, unbinding := true }
  rw [becomeUnbound, e]
  exact ⟨hkeep.window, hkeep.held, hkeep.enabled⟩

theorem finishUnbind_waits {s : State} {n : Nat} (h : ∃ z ∈ s.fs.window, z.prn = n) : finishUnbind s n = s := by
  have hany : (s.fs.window.any fun c => c.prn == n) = true := by simpa using h
  simp [finishUnbind, hany]

theorem finishUnbind_done {s : State} {n : Nat} (hu : (getP s n).unbinding = true) (h : ∀ z ∈ s.fs.window, z.prn ≠ n) :
    finishUnbind s n = finishHeld (setP s n { getP s n with unbinding := false }) (.unbind n) 0 0 := by
  have hany : (s.fs.window.any fun c => c.prn == n) = false := by simpa using h
  simp [finishUnbind, hu, hany]

/-- An unbinding done leaves an unbound record that is unbinding no more. -/
theorem getP_finishHeld_unbound {s : State} {n : Nat} (st : Half) (res : BitVec 192) (hst : (getP s n).state = .unbound)
    (ha : (getP s n).affinity ≠ 0) :
    let t := finishHeld (setP s n { getP s n with unbinding := false }) (.unbind n) st res
    (getP t n).state = .unbound ∧ (getP t n).unbinding = false := by
  intro t
  have hrec : getP t n = { getP s n with unbinding := false } :=
    ((finishHeld_onlyTells _ _ _ _).getP n).trans (getP_setP_new s n (ne_empty_of_affinity ha))
  rw [hrec]
  exact ⟨hst, rfl⟩

/-- The event of a pronoun with no engine holds back no reply. -/
theorem evalStranded_held (s : State) : (evalStranded s).hp.held = s.hp.held := by
  let told : State := { s with sched := { s.sched with stranded := (s.sched.recs.filter fun e => isStranded s e.2).map (·.1) } }
  have hkeep : Spares 0 0 told (evalStranded s) := spares_foldl _ told fun _ _ => pulse_spares 297
  exact hkeep.held

theorem settleReady_enabled {s : State} {m : Master} (h : (getFunc s m).enable = true) : settleReady s m = s := by
  simp [settleReady, h]

theorem enable_setFunc {s : State} {m : Master} {f : Func} (h : f.enable = true) : (getFunc (setFunc s m f) m).enable = true := by
  have hset : f ≠ {} := fun e => by rw [e] at h; exact absurd h (by decide)
  rw [show getFunc (setFunc s m f) m = f from tget_tset_new _ _ hset, h]

/-- A reply leaves its queue enabled. -/
theorem enable_reply {s : State} {m : Master} {tag st : Half} {field : Byte} {res : BitVec 192} (h : (getFunc s m).enable = true) :
    (getFunc (reply s m tag st field res) m).enable = true := by
  unfold reply putReply
  dsimp only
  split
  · exact h
  · split
    · exact h
    · split
      · exact enable_setFunc h
      · exact (countEvent_spares (n := 0) _ _).enabled (enable_setFunc h)

/-- A reply held alone is the one that is written. -/
theorem finishHeld_single {s : State} {m : Master} {tag : Half} {why : HeldWhy} {st : Half} {r : BitVec 192}
    (h : s.hp.held = [{ fn := m, tag := tag, why := why }]) (hen : (getFunc s m).enable = true) :
    finishHeld s why st r = reply { s with hp := { s.hp with held := [] } } m tag st 0 r := by
  have hreply := enable_reply (s := { s with hp := { s.hp with held := [] } }) (tag := tag) (st := st) (field := 0) (res := r) hen
  simp only [finishHeld, h, List.filter_cons, BEq.rfl, if_true, Bool.not_true, Bool.false_eq_true, if_false, List.filter_nil,
    List.foldl_cons, List.foldl_nil, settleReady_enabled hreply]

/-! ### HALT (03 R73, R74, Table 3-8) -/

theorem haltOp_ignored {s : State} {n : Nat} (h : (getP s n).state ∈ [PState.unbound, .idle, .checked, .halting]) :
    haltOp s n = (s, none) := by
  simp only [List.mem_cons, List.not_mem_nil, or_false] at h
  rcases h with h | h | h | h <;> rw [haltOp, h]

/-- the record as a halt that takes effect finds it: no start is pending -/
def startDropped (s : State) (n : Nat) : State := setP s n { getP s n with startPending := false, pendStart := 0 }

theorem haltOp_inside {s : State} {n : Nat} (h : (getP s n).state = .active ∨ ((getP s n).state = .queued ∧ insideCcw (getP s n) = true)) :
    haltOp s n = (modP (startDropped s n) n fun p => { p with state := .halting }, some 1) := by
  rcases h with h | ⟨h, hin⟩
  · simp only [haltOp, startDropped, h]
  · simp only [haltOp, startDropped, h, hin, if_true]

theorem haltOp_stands {s : State} {n : Nat} (h : (getP s n).state ∈ [PState.waiting, .parenthesis]) :
    haltOp s n = (haltAct (startDropped s n) n, some 0) := by
  simp only [List.mem_cons, List.not_mem_nil, or_false] at h
  rcases h with h | h <;> simp only [haltOp, startDropped, h]

theorem getP_startDropped {s : State} {n : Nat} (h : (getP s n).state ≠ .unbound) :
    getP (startDropped s n) n = { getP s n with startPending := false, pendStart := 0 } := getP_setP_same _ _ _ h

theorem abortClause_none {s : State} {n : Nat} (reason : Byte) (keep : Bool) (hc : clauseOf s n = none) (hr : (getP s n).rerun = none) :
    abortClause s n reason keep = (leaveWaits s n, none) := by
  have hc' : clauseOf (leaveWaits s n) n = none := hc
  have hr' : (getP (leaveWaits s n) n).rerun = none := hr
  simp only [abortClause, hc', hr']

/-- A word posted takes the pronoun's next SEQ, written or held (02 R54, R55, R57). -/
theorem getP_postBits {s : State} {n : Nat} (sq : Nat) (bits : BitVec 256) (h : (getP s n).state ≠ .unbound) :
    getP (postBits s n sq bits).1 n = { getP s n with seq := wrapInc (getP s n).seq } := by
  have hset : getP (setP s n { getP s n with seq := wrapInc (getP s n).seq }) n = _ := getP_setP_same s n _ h
  unfold postBits
  dsimp only
  split
  · exact ((sqWrite_onlyTells _ _ _).getP n).trans hset
  · exact hset

theorem afterPost_off {r : State × Bool} {n : Nat} (fin : Fin) (now : State → State) (h : onSlot r.1 n = false) :
    afterPost r n fin now = now r.1 := by
  simp [afterPost, h]

theorem onSlot_of_not_running {s : State} {n : Nat} (h : running (getP s n) = false) : onSlot s n = false := by
  rw [onSlot, h, Bool.false_and]

/-- With no start pending a pronoun that goes IDLE stays there. -/
theorem getP_enterIdle {s : State} {n : Nat} (h : (getP s n).startPending = false) : (getP (enterIdle s n) n).state = .idle ∧
    (getP (enterIdle s n) n).seq = (getP s n).seq ∧ (getP (enterIdle s n) n).loops = [] := by
  have hrec : getP (leaveAll s n) n = getP s n := by rw [leaveAll, getP_leaveSlot, getP_dequeue]
  have hidle : getP (toIdle (leaveAll s n) n) n = { getP s n with
      state := .idle, cur := none, script := none, tickets := [], loops := [], wait := none, moverHold := false, checkedBy := none
      again := false, rerun := none, fin := none, limitDue := none } := by
    unfold toIdle
    dsimp only
    rw [hrec, if_neg (Bool.eq_false_iff.mp h)]
    exact getP_setP_same _ _ _ PState.noConfusion
  have hsame : getP (enterIdle s n) n = getP (toIdle (leaveAll s n) n) n := by
    unfold enterIdle
    dsimp only
    split
    · exact (finishHeld_onlyTells _ _ _ _).getP n
    · rfl
  rw [hsame, hidle]
  exact ⟨rfl, rfl, rfl⟩

/-- A halt off the slot, with no clause to abort, posts one word and leaves the pronoun IDLE. -/
theorem getP_haltAct {s : State} {n : Nat} (hst : (getP s n).state ∈ [PState.waiting, .parenthesis])
    (hsp : (getP s n).startPending = false) (hc : clauseOf s n = none) (hr : (getP s n).rerun = none) :
    (getP (haltAct s n) n).state = .idle ∧ (getP (haltAct s n) n).seq = (getP s n).seq + 1 ∧ (getP (haltAct s n) n).loops = [] := by
  have hoff : (getP s n).state ≠ .unbound ∧ running (getP s n) = false := by
    simp only [List.mem_cons, List.not_mem_nil, or_false] at hst
    rcases hst with h | h <;> rw [running, h] <;> exact ⟨by decide, rfl⟩
  obtain ⟨hbound, hrun⟩ := hoff
  unfold haltAct
  rw [abortClause_none _ _ hc hr]
  dsimp only
  generalize hu : modP (leaveWaits s n) n _ = u
  have hrec : getP u n = { getP s n with loops := [], script := none, cur := none, wait := none, tickets := [] } := by
    rw [← hu]
    exact getP_modP_same _ _ _ hbound
  have hword (w : SWord) : getP (postDirect u n w).1 n = { getP u n with seq := wrapInc (getP u n).seq } :=
    getP_postBits _ _ (by rw [hrec]; exact hbound)
  rw [afterPost_off _ _ (onSlot_of_not_running (by rw [hword, hrec]; exact hrun))]
  obtain ⟨hidle, hseq, hloops⟩ := getP_enterIdle (s := (postDirect u n { kind := 0x09, ccw := (getP (leaveWaits s n) n).ccwAddr }).1)
    (n := n) (by rw [hword, hrec]; exact hsp)
  refine ⟨hidle, hseq.trans ?_, hloops⟩
  rw [hword, hrec]
  rfl

/-! ### START and RESUME (03 R72, Table 3-8) -/

theorem startOp_ignored {s : State} {n : Nat} (a : Dword) (h : (getP s n).state = .unbound ∨ (getP s n).state = .checked) :
    startOp s n a = (s, true) := by
  rcases h with h | h <;> rw [startOp, h]

theorem startOp_pends {s : State} {n : Nat} (a : Dword) (hb : isBound (getP s n) = true) (hc : (getP s n).state ≠ .checked)
    (hi : (getP s n).state ≠ .idle) : startOp s n a = (modP s n fun p => { p with startPending := true, pendStart := a }, false) := by
  have hu : (getP s n).state ≠ .unbound := by simpa [isBound] using hb
  unfold startOp
  split
  · next h => exact absurd h hu
  · next h => exact absurd h hc
  · next h => exact absurd h hi
  · rfl

theorem resumeOp_resumes {s : State} {n : Nat} (h : (getP s n).state = .parenthesis) (hm : (getP s n).moverHold = false) :
    resumeOp s n = (toQueued (setP s n { getP s n with again := true }) n 5, false) := by
  simp [resumeOp, h, hm]

theorem resumeOp_ignored {s : State} {n : Nat} (h : (getP s n).state ≠ .parenthesis ∨ (getP s n).moverHold = true) :
    resumeOp s n = (s, true) := by
  rcases h with h | h <;> simp [resumeOp, h]

/-! ### CLEAR (03 R76) -/

/-- A start from CHECKED is no start that STARTS counts. -/
theorem getP_startAt_checked {s : State} {n : Nat} {r : Pron} (a : Dword) (cause : BitVec 3) (hrec : getP s n = r)
    (h : r.state = .checked) : (getP (startAt s n a cause) n).state = .queued ∧ (getP (startAt s n a cause) n).starts = r.starts := by
  have hbound : r.state ≠ .unbound := by rw [h]; decide
  have hfirst : getP (modP s n fun p => { p with ccwAddr := a, loops := [], startPending := false, pendStart := 0 }) n =
      { r with ccwAddr := a, loops := [], startPending := false, pendStart := 0 } := by
    rw [← hrec]
    exact getP_modP_same _ _ _ (hrec ▸ hbound)
  unfold startAt toQueued
  rw [getP_enqueue, getP_modP_same _ _ _ PState.noConfusion, hfirst, h]
  exact ⟨rfl, rfl⟩

/-! ### RESET (03 R77) -/

theorem resetPron_waits {s : State} {n : Nat} (h : outstanding s n ≠ []) :
    resetPron s n = modP (dequeue (leaveWaits s n) n) n fun p => { p with resetting := true } := by
  have hwork : (outstanding (dequeue (leaveWaits s n) n) n).isEmpty = false := List.isEmpty_eq_false_iff.mpr h
  simp [resetPron, hwork]

theorem resetPron_now {s : State} {n : Nat} (h : outstanding s n = []) : resetPron s n = resetFinish (dequeue (leaveWaits s n) n) n := by
  have hwork : (outstanding (dequeue (leaveWaits s n) n) n).isEmpty = true := List.isEmpty_iff.mpr h
  simp [resetPron, hwork]

/-- Whatever the reset ended on its way, the pronoun is IDLE with nothing left of its chain. -/
theorem getP_resetFinish {s : State} {n : Nat} (h : (getP s n).unbinding = false) : ∃ q : Pron, getP (resetFinish s n) n =
    { q with state := .idle, startPending := false, pendStart := 0, moverHold := false, checkedBy := none, script := none
             cur := none, retryCount := 0, waitPending := 0, waitOverflow := 0, loops := [], tickets := [], fin := none, limitDue := none
             wait := none, rerun := none, again := false, resetting := false, checkKind := 0 } := by
  unfold resetFinish
  dsimp only
  rw [h, if_neg Bool.false_ne_true, (finishHeld_onlyTells _ _ _ _).getP n]
  split
  · rw [(finishHeld_onlyTells _ _ _ _).getP n, getP_modP_same _ _ _ PState.noConfusion]
    exact ⟨_, rfl⟩
  · rw [getP_modP_same _ _ _ PState.noConfusion]
    exact ⟨_, rfl⟩

/-! ### MODIFY and QUERY (03 R82, R87) -/

/-- A pronoun enqueued stands last on its level. -/
theorem runq_enqueue (s : State) (n : Nat) : (runq (enqueue s n) (getP s n).runLevel.toNat).getLast? = some n := by
  have htail (l : List Nat) : l ++ [n] ≠ [] := by simp
  unfold enqueue
  dsimp only
  obtain ⟨_, _, e⟩ := cachePut_what { dequeue s n with sched := { (dequeue s n).sched with
    runq := tset [] (getP (dequeue s n) n).runLevel.toNat (runq (dequeue s n) (getP (dequeue s n) n).runLevel.toNat ++ [n])
      (dequeue s n).sched.runq } } n false
  rw [e]
  show (tget [] (tset [] _ _ _) _).getLast? = _
  rw [getP_dequeue, tget_tset_new _ _ (htail _), List.getLast?_concat]

theorem length_recBytes (s : State) (n : Nat) : (recBytes s n).length = 128 := by
  unfold recBytes
  dsimp only
  repeat rw [List.length_append]
  repeat rw [length_toLE]
  rfl

end Sys2Proof.Machine
end

section
/-!
PROOFS. Admin commands on pronouns (O47): the statement, a command at a time.
-/

namespace Sys2Proof.Machine

/-- every command on a pronoun makes the checks they share -/
theorem pronounCommand_checks {s : State} {fn : Master} {p : Packet} {op : Nat} {c : Master → Packet → Instr} (hst : Starts s fn p op)
    (hrow : (op, c) ∈ [(0x0202, Instr.admUnbind), (0x0203, Instr.admModify), (0x0204, Instr.admStart), (0x0205, Instr.admHalt),
      (0x0206, Instr.admResume), (0x0207, Instr.admClear), (0x0208, Instr.admPronounReset), (0x0209, Instr.admQuery),
      (0x0201, Instr.admBind)]) :
    ∃ a, exec (c fn p) s = .next (answerCmd fn p a) ∧ ChecksPron (takePacket s fn) fn p a := by
  simp only [List.mem_cons, Prod.mk.injEq, List.not_mem_nil, or_false] at hrow
  rcases hrow with ⟨rfl, rfl⟩ | ⟨rfl, rfl⟩ | ⟨rfl, rfl⟩ | ⟨rfl, rfl⟩ | ⟨rfl, rfl⟩ | ⟨rfl, rfl⟩ | ⟨rfl, rfl⟩ | ⟨rfl, rfl⟩ | ⟨rfl, rfl⟩
  · exact ⟨_, exec_admUnbind hst, onPron_checks _ _ _ _ _⟩
  · exact ⟨_, exec_admModify hst, onPron_checks _ _ _ _ _⟩
  · exact ⟨_, exec_admStart hst, onPron_checks _ _ _ _ _⟩
  · exact ⟨_, exec_admHalt hst, onPron_checks _ _ _ _ _⟩
  · exact ⟨_, exec_admResume hst, onPron_checks _ _ _ _ _⟩
  · exact ⟨_, exec_admClear hst, onPron_checks _ _ _ _ _⟩
  · exact ⟨_, exec_admPronounReset hst, onPron_checks _ _ _ _ _⟩
  · exact ⟨_, exec_admQuery hst, onPron_checks _ _ _ _ _⟩
  · exact ⟨_, exec_admBind hst, cmdBind_checks _ _ _⟩

/-! ### BIND (03 R60 to R63) -/

section
variable {s : State} {fn : Master} {p : Packet}

theorem cmdBind_badAddress (ha : prnAllowed s fn (pkPrn p) = true) (h0 : pkPrn p ≠ 0) (hbad : iovaBad (pkIova p) 64 = true) :
    cmdBind fn p s = badField s 16 := by
  simp [cmdBind, ha, h0, hbad]

theorem cmdBind_hostError {d : Byte} (ha : prnAllowed s fn (pkPrn p) = true) (h0 : pkPrn p ≠ 0)
    (hgood : iovaBad (pkIova p) 64 = false) (hd : hostFault s (pkIova p) 128 = some d) : cmdBind fn p s = hostError s d := by
  simp [cmdBind, ha, h0, hgood, hostRead, hd]

theorem cmdBind_image (ha : prnAllowed s fn (pkPrn p) = true) (h0 : pkPrn p ≠ 0) (hgood : iovaBad (pkIova p) 64 = false)
    (hd : hostFault s (pkIova p) 128 = none) : cmdBind fn p s =
      bindImage fn (pkPrn p) { bits := BitVec.ofNat 1024 (ofLE (getBytes s.mem.host (pkIova p) 128)) } s := by
  simp [cmdBind, ha, h0, hgood, hostRead, hd]

variable {n i : Nat} {x : RecImage} {q : SQueue}

theorem bindImage_stray (hs : imStray x = some i) : bindImage fn n x s = badField s (imOffset i) := by
  simp [bindImage, hs]

theorem bindImage_denied (hs : imStray x = none) (ha : imAllowed s fn n x = false) : bindImage fn n x s = refuse s stDenied := by
  simp [bindImage, hs, ha]

theorem bindImage_range (hs : imStray x = none) (ha : imAllowed s fn n x = true) (hr : imRange x = some i) :
    bindImage fn n x s = badField s (imOffset i) := by
  simp [bindImage, hs, ha, hr]

theorem bindImage_noQueue (hs : imStray x = none) (ha : imAllowed s fn n x = true) (hr : imRange x = none)
    (hq : getSq s (imSq x).toNat = none) : bindImage fn n x s = refuse s stNotFound := by
  simp [bindImage, hs, ha, hr, hq]

theorem bindImage_unconfigured (hs : imStray x = none) (ha : imAllowed s fn n x = true) (hr : imRange x = none)
    (hq : getSq s (imSq x).toNat = some q) (hc : s.sched.configured = false) : bindImage fn n x s = refuse s stState := by
  simp [bindImage, hs, ha, hr, hq, hc]

theorem bindImage_conflict (hs : imStray x = none) (ha : imAllowed s fn n x = true) (hr : imRange x = none)
    (hq : getSq s (imSq x).toNat = some q) (hc : s.sched.configured = true) (hb : bindConflict s n x q = true) :
    bindImage fn n x s = refuse s stBinding := by
  simp [bindImage, hs, ha, hr, hq, hc, hb]

theorem bindImage_binds (hs : imStray x = none) (ha : imAllowed s fn n x = true) (hr : imRange x = none)
    (hq : getSq s (imSq x).toNat = some q) (hc : s.sched.configured = true) (hb : bindConflict s n x q = false) :
    bindImage fn n x s = .done (evalStranded (setP s n (boundRecord x))) 0 := by
  simp [bindImage, hs, ha, hr, hq, hc, hb]

end

/-! ### The other commands, past the checks they share (03 R67 to R87, Table 3-8) -/

section
variable {s : State} {fn : Master} {p : Packet}

theorem cmdUnbind_refused (h : PronCmd s fn p 0x0202) (hi : (getP s (pkPrn p)).state ≠ .idle) (hc : (getP s (pkPrn p)).state ≠ .checked) :
    cmdUnbind fn p (takePacket s fn) = refuse (takePacket s fn) stState := by
  have hst : ((getP s (pkPrn p)).state != .idle && (getP s (pkPrn p)).state != .checked) = true := by simp [hi, hc]
  rw [cmdUnbind, h.passes]
  exact if_pos hst

theorem cmdUnbind_unbinds (h : PronCmd s fn p 0x0202) (hst : (getP s (pkPrn p)).state = .idle ∨ (getP s (pkPrn p)).state = .checked) :
    cmdUnbind fn p (takePacket s fn) = .held (evalStranded (finishUnbind
      (becomeUnbound (hold (takePacket s fn) fn (admTag p) (.unbind (pkPrn p))) (pkPrn p)) (pkPrn p))) := by
  have hno : ¬ ((getP s (pkPrn p)).state != .idle && (getP s (pkPrn p)).state != .checked) = true := by
    rcases hst with e | e <;> rw [e] <;> decide
  rw [cmdUnbind, h.passes]
  exact if_neg hno

/-- What an unbinding leaves: it waits while the pronoun has an operation in the commit window, and its held reply is written when
it has none (03 R67). -/
theorem unbound_unbind {u : State} {n : Nat} (hb : (getP u n).state ≠ .unbound) (ha : (getP u n).affinity ≠ 0) :
    let t := evalStranded (finishUnbind (becomeUnbound u n) n)
    (getP t n).state = .unbound ∧
      ((∃ z ∈ u.fs.window, z.prn = n) → (getP t n).unbinding = true ∧ ∀ x ∈ u.hp.held, x ∈ t.hp.held) ∧
      ((∀ z ∈ u.fs.window, z.prn ≠ n) → (getP t n).unbinding = false ∧
        ∀ tag, u.hp.held = [{ fn := fn, tag := tag, why := .unbind n }] → (getFunc u fn).enable = true →
          ∃ v, t = evalStranded (reply v fn tag 0 0 0)) := by
  dsimp only
  obtain ⟨hstate, hunbinding, haffinity⟩ := getP_becomeUnbound hb ha
  obtain ⟨hwindow, hheld, henabled⟩ := becomeUnbound_keeps u n fn
  by_cases hw : ∃ z ∈ u.fs.window, z.prn = n
  · have hwaits : finishUnbind (becomeUnbound u n) n = becomeUnbound u n := finishUnbind_waits (by rw [hwindow]; exact hw)
    have hno : ¬ ∀ z ∈ u.fs.window, z.prn ≠ n := by simpa using hw
    rw [hwaits, getP_evalStranded, evalStranded_held]
    exact ⟨hstate, fun _ => ⟨hunbinding, fun _ => hheld.symm ▸ id⟩, fun h => absurd h hno⟩
  · have hno : ∀ z ∈ u.fs.window, z.prn ≠ n := by simpa using hw
    rw [finishUnbind_done hunbinding (by rw [hwindow]; exact hno), getP_evalStranded]
    obtain ⟨hst, hend⟩ := getP_finishHeld_unbound 0 0 hstate haffinity
    refine ⟨hst, fun h => absurd h hw, fun _ => ⟨hend, fun tag halone hen => ?_⟩⟩
    rw [finishHeld_single (by rw [setP_hp, hheld, halone]) (by rw [getFunc, setP_hp]; exact henabled hen)]
    exact ⟨_, rfl⟩

theorem cmdModify_badField {b : Byte} (h : PronCmd s fn p 0x0203) (hb : modifyRange p = some b) :
    cmdModify fn p (takePacket s fn) = badField (takePacket s fn) b := by
  rw [cmdModify, hb, h.badField]

theorem cmdModify_unbound (h : PronCmd s fn p 0x0203) (hr : modifyRange p = none) (hb : isBound (getP s (pkPrn p)) = false) :
    cmdModify fn p (takePacket s fn) = refuse (takePacket s fn) stState := by
  rw [cmdModify, hr, h.passes]
  simp [hb]

theorem cmdModify_fenced (h : PronCmd s fn p 0x0203) (hr : modifyRange p = none) (hb : isBound (getP s (pkPrn p)) = true)
    (hm : modBit p 3 = true) (hf : allFenced s (p.extractLsb' 128 32) = true) :
    cmdModify fn p (takePacket s fn) = refuse (takePacket s fn) stBinding := by
  have hf' : allFenced (takePacket s fn) (p.extractLsb' 128 32) = true := hf
  rw [cmdModify, hr, h.passes]
  simp [hb, hm, modified, hf']

/-- what MODIFY leaves: the record changed, and the pronoun at the tail of a new level -/
def afterModify (s : State) (p : Packet) (n : Nat) : State :=
  let r := getP s n
  let t := setP s n (modified p r)
  evalStranded (if (modified p r).runLevel != r.runLevel && inQueue s n then enqueue t n else t)

theorem getP_afterModify_same {n : Nat} (hb : (getP s n).state ≠ .unbound) : getP (afterModify s p n) n = modified p (getP s n) := by
  have hset : getP (setP s n (modified p (getP s n))) n = modified p (getP s n) := getP_setP_same s n _ hb
  unfold afterModify
  dsimp only
  rw [getP_evalStranded]
  split
  · rw [getP_enqueue, hset]
  · exact hset

theorem getP_afterModify_other {n j : Nat} (hj : j ≠ n) : getP (afterModify s p n) j = getP s j := by
  have hset : getP (setP s n (modified p (getP s n))) j = getP s j := getP_setP_other s _ hj
  unfold afterModify
  dsimp only
  rw [getP_evalStranded]
  split
  · rw [getP_enqueue, hset]
  · exact hset

theorem runq_afterModify {n : Nat} (hb : (getP s n).state ≠ .unbound) (hl : (modified p (getP s n)).runLevel ≠ (getP s n).runLevel)
    (hq : inQueue s n = true) : (runq (afterModify s p n) (modified p (getP s n)).runLevel.toNat).getLast? = some n := by
  have hset : getP (setP s n (modified p (getP s n))) n = modified p (getP s n) := getP_setP_same s n _ hb
  have hmoves : ((modified p (getP s n)).runLevel != (getP s n).runLevel && inQueue s n) = true := by simp [hl, hq]
  have htail := runq_enqueue (setP s n (modified p (getP s n))) n
  rw [hset] at htail
  unfold afterModify
  dsimp only
  rw [runq_evalStranded, if_pos hmoves]
  exact htail

theorem cmdModify_modifies (h : PronCmd s fn p 0x0203) (hr : modifyRange p = none) (hb : isBound (getP s (pkPrn p)) = true)
    (hf : modBit p 3 = false ∨ allFenced s (p.extractLsb' 128 32) = false) :
    cmdModify fn p (takePacket s fn) = .done (afterModify (takePacket s fn) p (pkPrn p)) 0 := by
  have hpart : (modBit p 3 && allFenced (takePacket s fn) (modified p (getP s (pkPrn p))).affinity) = false := by
    cases hm : modBit p 3 with
    | false => rfl
    | true =>
      have hf' : allFenced (takePacket s fn) (p.extractLsb' 128 32) = false := hf.resolve_left (by simp [hm])
      simp [modified, hm, hf']
  rw [cmdModify, hr, h.passes]
  simp only [getP_takePacket, hb, hpart, Bool.not_true, Bool.false_eq_true, if_false]
  rfl

theorem cmdStart_eq (h : PronCmd s fn p 0x0204) : cmdStart fn p (takePacket s fn) = unlessIgnored (takePacket s fn)
    (startOp (takePacket s fn) (pkPrn p) (if pkBit p 12 0 then p.extractLsb' 128 64 else (getP s (pkPrn p)).startAddr)) := by
  rw [cmdStart, h.passes]
  rfl

theorem cmdHalt_ignored (h : PronCmd s fn p 0x0205) (hst : (getP s (pkPrn p)).state ∈ [PState.unbound, .idle, .checked, .halting]) :
    cmdHalt fn p (takePacket s fn) = refuse (takePacket s fn) stState := by
  rw [cmdHalt, h.passes, haltOp_ignored (s := takePacket s fn) hst]

theorem cmdHalt_inside (h : PronCmd s fn p 0x0205)
    (hst : (getP s (pkPrn p)).state = .active ∨ ((getP s (pkPrn p)).state = .queued ∧ insideCcw (getP s (pkPrn p)) = true)) :
    cmdHalt fn p (takePacket s fn) = .held (hold (modP (startDropped (takePacket s fn) (pkPrn p)) (pkPrn p)
      fun r => { r with state := .halting }) fn (admTag p) (.halt (pkPrn p))) := by
  rw [cmdHalt, h.passes, haltOp_inside (s := takePacket s fn) hst]
  rfl

theorem cmdHalt_stands (h : PronCmd s fn p 0x0205) (hst : (getP s (pkPrn p)).state ∈ [PState.waiting, .parenthesis]) :
    cmdHalt fn p (takePacket s fn) = .done (haltAct (startDropped (takePacket s fn) (pkPrn p)) (pkPrn p)) 0 := by
  rw [cmdHalt, h.passes, haltOp_stands (s := takePacket s fn) hst]
  rfl

theorem cmdResume_eq (h : PronCmd s fn p 0x0206) :
    cmdResume fn p (takePacket s fn) = unlessIgnored (takePacket s fn) (resumeOp (takePacket s fn) (pkPrn p)) := by
  rw [cmdResume, h.passes]

theorem cmdClear_refused (h : PronCmd s fn p 0x0207) (hst : (getP s (pkPrn p)).state ≠ .checked) :
    cmdClear fn p (takePacket s fn) = refuse (takePacket s fn) stState := by
  have hne : ((getP s (pkPrn p)).state != .checked) = true := bne_iff_ne.mpr hst
  rw [cmdClear, h.passes]
  exact if_pos hne

/-- the record CLEAR leaves, but for its state -/
def cleared (r : Pron) : Pron := { r with checkKind := 0, retryCount := 0, waitOverflow := 0, loops := [] }

theorem cmdClear_clears (h : PronCmd s fn p 0x0207) (hst : (getP s (pkPrn p)).state = .checked) :
    cmdClear fn p (takePacket s fn) = .done (if pkBit p 12 0 then
        startAt (setP (takePacket s fn) (pkPrn p) (cleared (getP s (pkPrn p)))) (pkPrn p) (getP s (pkPrn p)).startAddr 5
      else setP (takePacket s fn) (pkPrn p) { cleared (getP s (pkPrn p)) with state := .idle }) 0 := by
  have hck : ¬ ((getP s (pkPrn p)).state != .checked) = true := by simpa using hst
  rw [cmdClear, h.passes]
  exact if_neg hck

theorem cmdPronounReset_unbound (h : PronCmd s fn p 0x0208) (hb : isBound (getP s (pkPrn p)) = false) :
    cmdPronounReset fn p (takePacket s fn) = refuse (takePacket s fn) stState := by
  have hno : (!(isBound (getP s (pkPrn p)))) = true := by rw [hb]; rfl
  rw [cmdPronounReset, h.passes]
  exact if_pos hno

theorem cmdPronounReset_resets (h : PronCmd s fn p 0x0208) (hb : isBound (getP s (pkPrn p)) = true) :
    cmdPronounReset fn p (takePacket s fn) = .held (resetPron (hold (takePacket s fn) fn (admTag p) (.reset (pkPrn p))) (pkPrn p)) := by
  have hyes : ¬ (!(isBound (getP s (pkPrn p)))) = true := by rw [hb]; decide
  rw [cmdPronounReset, h.passes]
  exact if_neg hyes

theorem cmdQuery_badAddress (h : PronCmd s fn p 0x0209) (hbad : iovaBad (pkIova p) 64 = true) :
    cmdQuery fn p (takePacket s fn) = badField (takePacket s fn) 16 := by
  rw [cmdQuery, hbad]
  exact h.badField 16 _

theorem cmdQuery_record (h : PronCmd s fn p 0x0209) (hgood : iovaBad (pkIova p) 64 = false)
    (hread : (slotOf s (pkPrn p)).isSome = true ∨ cached s (pkPrn p) = true ∨ copyBad s (pkPrn p) = false) :
    cmdQuery fn p (takePacket s fn) = hostPut (takePacket s fn) (pkIova p) (recBytes s (pkPrn p))
      (num192 (stateCode (getP s (pkPrn p)).state)) := by
  have hreads : ¬ ((slotOf s (pkPrn p)).isNone && !(cached s (pkPrn p)) && copyBad s (pkPrn p)) = true := by
    rcases hread with hs | hc | hb
    · simp [Option.isNone_eq_false_iff.mpr hs]
    · simp [hc]
    · simp [hb]
  rw [cmdQuery, hgood]
  refine (h.passes _).trans ?_
  have hthere : (if (slotOf (takePacket s fn) (pkPrn p)).isNone && !(cached (takePacket s fn) (pkPrn p)) && copyBad (takePacket s fn) (pkPrn p)
      then recordLost (takePacket s fn) (pkPrn p) else takePacket s fn) = takePacket s fn := if_neg hreads
  dsimp only
  rw [hthere]
  rfl

end

/-! ### The statement -/

/-- Settles O47: each command starts, passes the checks all of them make, and does what its operation does to the pronoun. -/
theorem adminPronounCommands : Obligations.AdminPronounCommands := by
  unfold Obligations.AdminPronounCommands
  intro s fn p s0 n r ans no holds others
  refine ⟨?checks, ?bind, ?unbind, ?modify, ?start, ?halt, ?resume, ?clear, ?reset, ?query⟩
  case checks =>
    intro op c hrow hst
    obtain ⟨a, he, hdenied, hnull⟩ := pronounCommand_checks hst hrow
    rw [prnAllowed_takePacket hst.enabled] at hdenied hnull
    exact ⟨fun h => answers_no he (hdenied h), fun h h0 => answers_no he (hnull h h0)⟩
  case bind =>
    intro hst hallow h0 c a im
    have hallow0 : prnAllowed s0 fn (pkPrn p) = true := (prnAllowed_takePacket hst.enabled _).trans hallow
    have him (b : Bool) (h : imAllowed s fn n im = b) : imAllowed s0 fn n im = b := (imAllowed_takePacket hst.enabled n im).trans h
    have he := exec_admBind hst
    refine ⟨fun hbad => answers_no he (cmdBind_badAddress hallow0 h0 hbad),
      fun d hgood hd => answers_no he (cmdBind_hostError hallow0 h0 hgood hd), fun hgood hd => ?_⟩
    have hrun : cmdBind fn p s0 = bindImage fn n im s0 := cmdBind_image hallow0 h0 hgood hd
    refine ⟨fun i hs => answers_no he (hrun.trans (bindImage_stray hs)),
      fun hs ha => answers_no he (hrun.trans (bindImage_denied hs (him _ ha))),
      fun i hs ha hr => answers_no he (hrun.trans (bindImage_range hs (him _ ha) hr)), fun hs ha hr => ?_⟩
    refine ⟨fun hq => answers_no he (hrun.trans (bindImage_noQueue hs (him _ ha) hr hq)),
      fun k hq hc => answers_no he (hrun.trans (bindImage_unconfigured hs (him _ ha) hr hq hc)),
      fun k hq hc hb => answers_no he (hrun.trans (bindImage_conflict hs (him _ ha) hr hq hc hb)), fun k hq hc hb => ?_⟩
    refine ⟨_, answers_done he (hrun.trans (bindImage_binds hs (him _ ha) hr hq hc hb)), ?_, fun j hj => ?_, ?_⟩
    · rw [getP_evalStranded]
      exact getP_setP_same s0 n _ PState.noConfusion
    · rw [getP_evalStranded]
      exact getP_setP_other s0 _ hj
    · rw [evalStranded_mem]
      exact setP_mem s0 n _
  case unbind =>
    intro h c
    have he := exec_admUnbind h.1
    refine ⟨fun hi hc => answers_no he (cmdUnbind_refused h hi hc), fun hst haff => ?_⟩
    have hbound : (getP s n).state ≠ .unbound := by
      have hst' : (getP s n).state = .idle ∨ (getP s n).state = .checked := hst
      rcases hst' with e | e <;> rw [e] <;> decide
    obtain ⟨hstate, hwaits, hdone⟩ := unbound_unbind (u := hold (takePacket s fn) fn (admTag p) (.unbind (pkPrn p))) (n := pkPrn p)
      (fn := fn) hbound haff
    refine ⟨_, exec_held he (cmdUnbind_unbinds h hst), hstate, fun hw => ?_, fun hw hnone => ?_⟩
    · obtain ⟨hunbinding, hheld⟩ := hwaits hw
      exact ⟨hunbinding, hheld _ (mem_held_hold (takePacket s fn) fn (admTag p) (.unbind (pkPrn p)))⟩
    · obtain ⟨hunbinding, hreply⟩ := hdone hw
      have halone : s0.hp.held = [] := hnone
      exact ⟨hunbinding, hreply (admTag p) (by rw [hold, halone]; rfl) (enable_takePacket h.1.enabled fn h.1.enabled)⟩
  case modify =>
    intro h c
    have he := exec_admModify h.1
    refine ⟨fun b hb => answers_no he (cmdModify_badField h hb), fun hr hb => answers_no he (cmdModify_unbound h hr hb),
      fun hr hb hm hf => answers_no he (cmdModify_fenced h hr hb hm hf), fun hr hb hf => ?_⟩
    have hbound : (getP s0 n).state ≠ .unbound := bne_iff_ne.mp hb
    exact ⟨_, answers_done he (cmdModify_modifies h hr hb hf), getP_afterModify_same hbound, fun j hj => getP_afterModify_other hj,
      fun hl hq => runq_afterModify hbound hl hq⟩
  case start =>
    intro h c a
    have he := exec_admStart h.1
    refine ⟨fun hbad => answers_no he ((cmdStart_eq h).trans ?_), fun hidle => answers_done he ((cmdStart_eq h).trans ?_),
      fun hb hc hi => answers_done he ((cmdStart_eq h).trans ?_)⟩
    · rw [startOp_ignored (s := s0) a hbad]; rfl
    · rw [startOp_idle (s := s0) a hidle]; rfl
    · rw [startOp_pends (s := s0) a hb hc hi]; rfl
  case halt =>
    intro h c
    have he := exec_admHalt h.1
    refine ⟨fun hst => answers_no he (cmdHalt_ignored h hst), fun hst => ?_, fun hst => ?_⟩
    · have hbound : (getP s0 n).state ≠ .unbound := by
        have hst' : (getP s0 n).state = .active ∨ ((getP s0 n).state = .queued ∧ insideCcw r = true) := hst
        rcases hst' with e | ⟨e, _⟩ <;> rw [e] <;> decide
      have hdropped : getP (startDropped s0 n) n = { r with startPending := false, pendStart := 0 } := getP_startDropped hbound
      refine ⟨_, exec_held he (cmdHalt_inside h hst), ?_, fun j hj => ?_, ?_⟩
      · exact mem_held_hold _ fn (admTag p) (.halt (pkPrn p))
      · exact (getP_modP_other (startDropped s0 n) _ hj).trans (getP_setP_other s0 _ hj)
      · refine (getP_modP_same (startDropped s0 n) n _ PState.noConfusion).trans ?_
        rw [hdropped]
    · refine ⟨_, answers_done he (cmdHalt_stands h hst), fun hc hr _ _ => ?_⟩
      have hbound : (getP s0 n).state ≠ .unbound := fun e => by
        rw [show r.state = _ from e] at hst
        exact absurd hst (by decide)
      have hdropped : getP (startDropped s0 n) n = { r with startPending := false, pendStart := 0 } := getP_startDropped hbound
      have hclause : clauseOf (startDropped s0 n) n = none := by
        rw [clauseOf, startDropped, setP_cls]
        exact hc
      have hdone := getP_haltAct (s := startDropped s0 n) (n := n) (by rw [hdropped]; exact hst) (by rw [hdropped]) hclause
        (by rw [hdropped]; exact hr)
      rw [hdropped] at hdone
      exact hdone
  case resume =>
    intro h c
    have he := exec_admResume h.1
    refine ⟨fun hst hm => answers_done he ((cmdResume_eq h).trans ?_), fun hbad => answers_no he ((cmdResume_eq h).trans ?_)⟩
    · rw [resumeOp_resumes (s := s0) hst hm]; rfl
    · rw [resumeOp_ignored (s := s0) hbad]; rfl
  case clear =>
    intro h c y
    have he := exec_admClear h.1
    refine ⟨fun hst => answers_no he (cmdClear_refused h hst), fun hst hbit => answers_done he ((cmdClear_clears h hst).trans ?_),
      fun hst hbit => ⟨answers_done he ((cmdClear_clears h hst).trans ?_), ?_⟩⟩
    · rw [hbit]; rfl
    · rw [hbit]; rfl
    · exact getP_startAt_checked (r := y) _ _ (getP_setP_same s0 n y (by rw [show y.state = _ from hst]; decide)) hst
  case reset =>
    intro h c
    have he := exec_admPronounReset h.1
    let u : State := hold s0 fn (admTag p) (.reset n)
    refine ⟨fun hb => answers_no he (cmdPronounReset_unbound h hb), fun hb hw => ?_, fun hb hw hu => ?_⟩
    · refine ⟨_, exec_held he ((cmdPronounReset_resets h hb).trans (congrArg _ (resetPron_waits (s := u) hw))), ?_, ?_⟩
      · have hbound : (getP s n).state ≠ .unbound := bne_iff_ne.mp hb
        rw [getP_modP_same (dequeue (leaveWaits u n) n) n (fun p => { p with resetting := true }) hbound]
      · show _ ∈ (setP (dequeue (leaveWaits u n) n) n _).hp.held
        rw [setP_hp]
        exact mem_held_hold s0 fn (admTag p) (.reset n)
    · refine ⟨_, exec_held he ((cmdPronounReset_resets h hb).trans (congrArg _ (resetPron_now (s := u) hw))), ?_⟩
      obtain ⟨q, e⟩ := getP_resetFinish (s := dequeue (leaveWaits u n) n) (n := n) hu
      rw [e]
      exact ⟨rfl, rfl, rfl, rfl, rfl, rfl⟩
  case query =>
    intro h c a
    have he := exec_admQuery h.1
    refine ⟨fun hbad => answers_no he (cmdQuery_badAddress h hbad), fun hgood hread => ?_⟩
    have hrun := cmdQuery_record h hgood hread
    refine ⟨fun hd => answers_done he (hrun.trans ?_), fun d hd => answers_no he (hrun.trans ?_)⟩
    · rw [hostPut, length_recBytes, show hostFault (takePacket s fn) (pkIova p) 128 = none from hd]
    · rw [hostPut, length_recBytes, show hostFault (takePacket s fn) (pkIova p) 128 = some d from hd]
      rfl

end Sys2Proof.Machine
end

section
/-!
PROOFS. What an instruction that issues on an engine leaves (07 R185, R196, R210, R225): the state it is given, what it leaves when
it executes, and what it leaves when it takes a trap into its script's handler.
-/

namespace Sys2Proof.Machine

variable {s : State} {k : BitVec 9} {w : Word} {key : Nat} {f : Effect'}

/-- What an instruction sees of the script it issues from, its budget and its slot's settings apart. -/
structure SeesScript (s : State) (k : BitVec 9) (x : Cx) : Prop where
  notControl : x.ctl = false
  pronoun : x.n = prnOf s (.engine k)
  regs : x.r = regsOf s (.engine k)

/-- The fetch of an instruction changes its engine and nothing else. -/
theorem fetched_what (s : State) (k : BitVec 9) : ∃ x, fetched s (.engine k) = { s with ce := x } := by
  unfold fetched
  dsimp only
  split
  · unfold cacheLine
    split <;> exact ⟨_, rfl⟩
  · exact ⟨_, rfl⟩

/-- what is left of a script's budget behind the instruction that issues (07 R213) -/
def charged (sc : Script) : Script := { sc with left := sc.left - (if sc.left = 0 then 0 else 1) }

theorem retires_ready {n : Nat} {sc : Script} (hr : scriptReady s k.toNat = some (n, sc)) (g : State → State) (h : Regs → Regs) :
    retires s (.engine k) g h = putScript (g (fetched s (.engine k))) n { charged sc with regs := h sc.regs, stall := none } := by
  simp only [retires, hr, charged]

theorem Issues.ready (h : Issues s w (.engine k)) :
    ∃ n sc, scriptReady s k.toNat = some (n, sc) ∧ prnOf s (.engine k) = n ∧ regsOf s (.engine k) = sc.regs ∧
      encLegal false sc.regs.crc.toNat sc.regs.inHandler false w = true := by
  obtain ⟨n, sc, hr, _, _, _, _, _, hlegal, _⟩ := h
  exact ⟨n, sc, hr, by simp [prnOf, hr], by simp [regsOf, hr], hlegal⟩

/-- An instruction that issues settles its effect, in the state with its word fetched, on its script charged for it. -/
theorem issue_settles {n : Nat} {sc : Script} (h : Issues s w (.engine k)) (hkey : rowKey false w = some key)
    (hr : scriptReady s k.toNat = some (n, sc)) :
    ∃ x, SeesScript s k x ∧ issue key (.engine k) w f s = .next
      (settleEff k.toNat n (charged sc) (f (fetched s (.engine k)) x w) (fetched s (.engine k))) := by
  obtain ⟨n', sc', hr', hdoom, hleft, hgood, hline, hword, hlegal, hexec⟩ := h
  obtain ⟨rfl, rfl⟩ := Prod.mk.inj (Option.some.inj (hr'.symm.trans hr))
  refine ⟨engineCx (fetched s (.engine k)) k.toNat n' sc', ⟨rfl, by simp [prnOf, hr, engineCx], by simp [regsOf, hr, engineCx]⟩, ?_⟩
  have hbudget : ¬ (sc'.left = 0 ∧ (!(inRep sc'.regs)) = true) := by
    rintro ⟨hzero, hrep⟩
    exact hleft.elim (· hzero) fun hin => by simp [hin] at hrep
  have hfetch : ¬ (!(codeGood s n' sc'.base sc'.regs.pc) || (!(lineCached s (engineOf k.toNat) (codeAddr sc'.base sc'.regs.pc)) &&
      codeBad s (codeAddr sc'.base sc'.regs.pc))) = true := by
    rcases hline with hin | hok
    · simp [hgood, hin]
    · simp [hgood, hok]
  have hsame : ¬ (codeWord s (engineOf k.toNat) (codeAddr sc'.base sc'.regs.pc) != w) = true := by simp [hword]
  have hdefined : ¬ ((some key).isNone || !true || !(encLegal false sc'.regs.crc.toNat sc'.regs.inHandler false w)) = true := by simp [hlegal]
  have hrow : ¬ ((some key).isSome && some key != some key) = true := by simp
  simp only [issue, issueEngine, hr, hdoom, hkey, if_neg hbudget, if_neg hrow, Option.isSome_none, Bool.false_eq_true, if_false]
  refine congrArg _ ((if_neg hfetch).trans ((if_neg hsame).trans ((if_neg hdefined).trans ((if_pos hexec).trans ?_))))
  simp only [fetched, hr, charged]

/-- Where an instruction executes, it leaves its own effect on the part and on its registers, the program counter moved on (07 R210). -/
theorem issue_retires {g : State → State} {h : Regs → Regs} (hi : Issues s w (.engine k)) (hkey : rowKey false w = some key)
    (hf : ∀ y x, SeesScript s k x → f { s with ce := y } x w = done (g { s with ce := y }) (h (regsOf s (.engine k)))) :
    issue key (.engine k) w f s = .next (retires s (.engine k) g fun r => nextPc (h r)) := by
  obtain ⟨n, sc, hr, _, hregs, _⟩ := hi.ready
  obtain ⟨x, hx, he⟩ := issue_settles (f := f) hi hkey hr
  obtain ⟨y, hy⟩ := fetched_what s k
  rw [he, retires_ready hr, hy, hf y x hx, hregs]
  rfl

/-- Where it takes a trap that a handler is set up for, it enters the handler (07 R225). -/
theorem issue_traps {cause : Byte} {v : Word} (hi : Issues s w (.engine k)) (hkey : rowKey false w = some key)
    (hcan : canTrap (regsOf s (.engine k))) (hf : ∀ y x, SeesScript s k x → f { s with ce := y } x w = .trap cause v) :
    issue key (.engine k) w f s = .next (traps s (.engine k) cause v) := by
  obtain ⟨n, sc, hr, _, hregs, _⟩ := hi.ready
  obtain ⟨x, hx, he⟩ := issue_settles (f := f) hi hkey hr
  obtain ⟨y, hy⟩ := fetched_what s k
  rw [hregs] at hcan
  obtain ⟨hth, hin⟩ := hcan
  have henters : (sc.regs.th != 0 && !sc.regs.inHandler) = true := by rw [hin, bne_iff_ne.mpr hth]; rfl
  rw [he, traps, retires_ready hr, hy, hf y x hx]
  simp only [settleEff, raise, trapRegs, charged, henters, if_true, id]

end Sys2Proof.Machine
end

section
/-!
PROOFS. LOCK and UNLOCK (O18): the registry and its mirror words, the two operations on them, and the instructions that perform them.
-/

namespace Sys2Proof.Machine

/-! ### The lines of a word (04 R101) -/

theorem linesOf_word {o : Nat} (h : o % 4 = 0) : linesOf o 4 = [o / 64] := by
  have hline : lineOf (o + 4 - 1) + 1 - lineOf o = 1 := by
    unfold lineOf
    omega
  rw [linesOf, hline, List.range_one, List.map_singleton, Nat.zero_add, lineOf]

/-- A word outside any clause is written where its line is not committed. -/
theorem ctmWriteOut_word {s : State} {o : Nat} {bs : List Byte} (ho : o % 4 = 0) (hlen : bs.length = 4)
    (hc : isCommitted s (o / 64) = false) : ctmWriteOut s o bs = .ok (ctmStore s o bs) [] := by
  rw [ctmWriteOut, hlen, linesOf_word ho, List.any_cons, hc]
  rfl

/-- An offset the pronoun sees aligned is aligned in the directory's numbering. -/
theorem ctmOff_aligned (s : State) (n : Nat) {a : Nat} (h : a % 4 = 0) : ctmOff s n a % 4 = 0 := by
  unfold ctmOff shadowOff
  split <;> omega

theorem ctmTrap_inside {s : State} {x : Cx} {a : Word} (hx : x.ctl = false) (ha : a.toNat % 4 = 0) (hin : a.toNat < ctmSizeFor s x.n) :
    ctmTrap s x a 4 = none := by
  have hlt : ¬ ctmSizeFor s x.n ≤ a.toNat := by omega
  simp [ctmTrap, ha, hx, hlt]

theorem ctmAt_engine {s : State} {x : Cx} {a : Word} (hx : x.ctl = false) : ctmAt s x a = ctmOff s x.n a.toNat := by
  simp [ctmAt, hx]

/-! ### LOCK and UNLOCK on the registry (04 R119, Table 4-9) -/

variable {s : State} {n o : Nat}

/-- the lock held, its word written -/
def lockTaken (s : State) (n o : Nat) (broken : Bool) : State :=
  ctmStore (setLock s o n broken) o (toLE 4 (lockWord n broken).toNat)

/-- the lock gone, its word cleared -/
def lockCleared (s : State) (o : Nat) : State := ctmStore (delLock s o) o [0, 0, 0, 0]

theorem lockWord_fields (n : Nat) (broken : Bool) :
    lockWord n broken = BitVec.ofNat 32 (n % 2 ^ 20 + (if broken then 2 ^ 30 else 0) + 2 ^ 31) := by
  cases broken <;> rfl

/-- The top bit of a lock word in memory is that of its last byte. -/
theorem heldBit_eq (t : Tab Byte) (a : Nat) : decide (2 ^ 31 ≤ ofLE (getBytes t a 4)) = (tget emptyByte t (a + 3)).getLsbD 7 := by
  have hbound (i : Nat) : (tget emptyByte t i).toNat < 256 := (tget emptyByte t i).isLt
  have h0 := hbound a
  have h1 := hbound (a + 1)
  have h2 := hbound (a + 1 + 1)
  have htop : (tget emptyByte t (a + 3)).getLsbD 7 = decide (128 ≤ (tget emptyByte t (a + 3)).toNat) :=
    (BitVec.msb_eq_getLsbD_last _).symm.trans (BitVec.msb_eq_decide _)
  have hlast : a + 1 + 1 + 1 = a + 3 := rfl
  rw [htop, decide_eq_decide]
  simp only [getBytes, ofLE, hlast]
  omega

theorem lockOp_free (ho : o % 4 = 0) (hc : isCommitted s (o / 64) = false) (hg : getLock s o = none)
    (hroom : s.cls.locks.length + retiredOf s 7 0 < 8192) :
    let held := (tget emptyByte s.mem.dram (ctmPhys s o + 3)).getLsbD 7
    lockOp s n o = some (lockTaken s n o held, true, held) := by
  intro held
  have hfull : ¬ decide (8192 ≤ s.cls.locks.length + retiredOf s 7 0) = true := by simp; omega
  have hc' : isCommitted (setLock s o n held) (o / 64) = false := hc
  simp only [lockOp, hg, if_neg hfull, heldBit_eq]
  rw [ctmWriteOut_word ho (length_toLE _ _) hc']
  rfl

theorem lockOp_full (hg : getLock s o = none) (hfull : 8192 ≤ s.cls.locks.length + retiredOf s 7 0) :
    lockOp s n o = some (pulse { s with cls := { s.cls with lockFull := true } } 94, false, false) := by
  simp only [lockOp, hg, decide_eq_true hfull, if_true]

/-- A broken lock, and one of one's own, is taken as it stands. -/
theorem lockOp_taken {m : Nat} {broken : Bool} (ho : o % 4 = 0) (hc : isCommitted s (o / 64) = false)
    (hg : getLock s o = some (m, broken)) (hmine : broken = true ∨ m = n) : lockOp s n o = some (lockTaken s n o broken, true, broken) := by
  have hc' : isCommitted (setLock s o n broken) (o / 64) = false := hc
  cases broken with
  | true =>
    simp only [lockOp, hg, if_true]
    rw [ctmWriteOut_word ho (length_toLE _ _) hc']
    rfl
  | false =>
    have hown : (m == n) = true := by simpa using hmine
    simp only [lockOp, hg, Bool.false_eq_true, if_false, hown, if_true]
    rw [ctmWriteOut_word ho (length_toLE _ _) hc']
    rfl

theorem lockOp_refused {m : Nat} (hg : getLock s o = some (m, false)) (hm : m ≠ n) : lockOp s n o = some (s, false, false) := by
  have hother : ¬ (m == n) = true := by simpa using hm
  simp only [lockOp, hg, Bool.false_eq_true, if_false, if_neg hother]

theorem unlockOp_owner {broken : Bool} (ho : o % 4 = 0) (hc : isCommitted s (o / 64) = false) (hg : getLock s o = some (n, broken)) :
    unlockOp s n o = some (lockCleared s o, true) := by
  have hc' : isCommitted (delLock s o) (o / 64) = false := hc
  simp only [unlockOp, hg, beq_self_eq_true, if_true]
  rw [ctmWriteOut_word ho rfl hc']
  rfl

theorem unlockOp_refused (hg : ∀ b, getLock s o ≠ some (n, b)) : unlockOp s n o = some (s, false) := by
  unfold unlockOp
  split
  · next m b hm =>
    have hother : ¬ (m == n) = true := fun e => hg b (by rw [hm, beq_iff_eq.mp e])
    rw [if_neg hother]
  · rfl

/-! ### The instructions (07 R197, R216) -/

variable {k : BitVec 9} {w : Word}

theorem rowKey_lock (h : opcOf w = 0x35#6) : rowKey false w = some 0x3500 := by simp [rowKey, h, opcodes]

theorem rowKey_unlock (h : opcOf w = 0x36#6) : rowKey false w = some 0x3600 := by simp [rowKey, h, opcodes]

/-- LOCK names two predicates, and neither is the constant p0. -/
theorem Issues.lockPredicates (hi : Issues s w (.engine k)) (h : opcOf w = 0x35#6) : pdOf w ≠ 0 ∧ (condOf w).toNat ≠ 0 := by
  obtain ⟨_, _, _, _, _, hlegal⟩ := hi.ready
  simp only [encLegal, h, BitVec.reduceToNat, Bool.not_false, Bool.true_and, Bool.and_eq_true, bne_iff_ne] at hlegal
  obtain ⟨⟨⟨hpd, hcond⟩, _⟩, _⟩ := hlegal
  exact ⟨hpd, fun e => hcond (BitVec.eq_of_toNat_eq e)⟩

theorem Issues.unlockPredicate (hi : Issues s w (.engine k)) (h : opcOf w = 0x36#6) : pdOf w ≠ 0 := by
  obtain ⟨_, _, _, _, _, hlegal⟩ := hi.ready
  simp only [encLegal, h, BitVec.reduceToNat, Bool.not_false, Bool.true_and, Bool.and_eq_true, bne_iff_ne] at hlegal
  obtain ⟨⟨hpd, _⟩, _⟩ := hlegal
  exact hpd

/-- the CTM offset in rs1 of LOCK and UNLOCK, and the same in the directory's numbering -/
def lockAddr (s : State) (k : BitVec 9) (w : Word) : Word := getG (regsOf s (.engine k)) (crs1Of w)
def lockOff (s : State) (k : BitVec 9) (w : Word) : Nat := ctmOff s (prnOf s (.engine k)) (lockAddr s k w).toNat

/-- The word that LOCK or UNLOCK names lies in the pronoun's CTM, aligned. -/
structure NamesWord (s : State) (k : BitVec 9) (w : Word) : Prop where
  aligned : (lockAddr s k w).toNat % 4 = 0
  inside : (lockAddr s k w).toNat < ctmSizeFor s (prnOf s (.engine k))

theorem NamesWord.aligned_off (h : NamesWord s k w) : lockOff s k w % 4 = 0 := ctmOff_aligned s _ h.aligned

theorem SeesScript.lockAddr {x : Cx} (hx : SeesScript s k x) : getG x.r (crs1Of w) = lockAddr s k w := by
  rw [hx.regs]
  rfl

/-- At a word it may name an instruction traps only for a clause of its pronoun. -/
theorem lockTrap_fetched {x : Cx} (hx : SeesScript s k x) (hw : NamesWord s k w) (y : Ce) :
    lockTrap { s with ce := y } x (lockAddr s k w) = if (clauseOf s (prnOf s (.engine k))).isSome then some 0x06 else none := by
  have hin : (lockAddr s k w).toNat < ctmSizeFor { s with ce := y } x.n := hx.pronoun ▸ hw.inside
  rw [lockTrap, ctmTrap_inside hx.notControl hw.aligned hin, hx.pronoun]
  rfl

theorem ctmAt_fetched {x : Cx} (hx : SeesScript s k x) (y : Ce) : ctmAt { s with ce := y } x (lockAddr s k w) = lockOff s k w := by
  rw [ctmAt_engine hx.notControl, hx.pronoun]
  rfl

/-- A LOCK that meets no trap retires with what the registry answers. -/
theorem exec_scLock {g : State → State} {acquired broken : Bool} (hi : Issues s w (.engine k)) (hop : opcOf w = 0x35#6)
    (hw : NamesWord s k w) (hcl : clauseOf s (prnOf s (.engine k)) = none)
    (hread : getLock s (lockOff s k w) ≠ none ∨ dramPoisoned s (ctmPhys s (lockOff s k w)) 4 = false)
    (hlock : ∀ y, lockOp { s with ce := y } (prnOf s (.engine k)) (lockOff s k w) = some (g { s with ce := y }, acquired, broken)) :
    exec (.scLock (.engine k) w) s = .next (retires s (.engine k) g fun r =>
      nextPc { r with p := setBit (setBit r.p (pdOf w) acquired) (condOf w).toNat broken }) := by
  obtain ⟨hpd, hcond⟩ := hi.lockPredicates hop
  have hok : ¬ ((getLock s (lockOff s k w)).isNone && dramPoisoned s (ctmPhys s (lockOff s k w)) 4) = true := by
    rcases hread with hheld | hgood
    · simp [hheld]
    · simp [hgood]
  refine issue_retires (f := effLock) (h := fun r => { r with p := setBit (setBit r.p (pdOf w) acquired) (condOf w).toNat broken })
    hi (rowKey_lock hop) fun y x hx => ?_
  have htrap := lockTrap_fetched hx hw y
  rw [hcl] at htrap
  simp only [effLock, hx.lockAddr, htrap, Option.isSome_none, Bool.false_eq_true, if_false, ctmAt_fetched hx y]
  refine (if_neg hok).trans ?_
  rw [hx.pronoun, hlock y, hx.regs]
  simp only [setPred, if_neg hpd, if_neg hcond]

/-- An UNLOCK that meets no trap retires with what the registry answers. -/
theorem exec_scUnlock {g : State → State} {released : Bool} (hi : Issues s w (.engine k)) (hop : opcOf w = 0x36#6)
    (hw : NamesWord s k w) (hcl : clauseOf s (prnOf s (.engine k)) = none)
    (hunlock : ∀ y, unlockOp { s with ce := y } (prnOf s (.engine k)) (lockOff s k w) = some (g { s with ce := y }, released)) :
    exec (.scUnlock (.engine k) w) s = .next (retires s (.engine k) g fun r => nextPc { r with p := setBit r.p (pdOf w) released }) := by
  refine issue_retires (f := effUnlock) (h := fun r => { r with p := setBit r.p (pdOf w) released }) hi (rowKey_unlock hop) fun y x hx => ?_
  have htrap := lockTrap_fetched hx hw y
  rw [hcl] at htrap
  simp only [effUnlock, hx.lockAddr, htrap, Option.isSome_none, Bool.false_eq_true, if_false, ctmAt_fetched hx y]
  rw [hx.pronoun, hunlock y, hx.regs]
  simp only [setPred, if_neg (hi.unlockPredicate hop)]

/-- With a clause of its pronoun open a LOCK takes the CLAUSE_LOCK trap. -/
theorem exec_scLock_clause (hi : Issues s w (.engine k)) (hop : opcOf w = 0x35#6) (hw : NamesWord s k w)
    (hcl : (clauseOf s (prnOf s (.engine k))).isSome = true) (hcan : canTrap (regsOf s (.engine k))) :
    exec (.scLock (.engine k) w) s = .next (traps s (.engine k) 0x06 (lockAddr s k w)) := by
  refine issue_traps (f := effLock) hi (rowKey_lock hop) hcan fun y x hx => ?_
  have htrap := lockTrap_fetched hx hw y
  rw [hcl] at htrap
  simp only [effLock, hx.lockAddr, htrap, if_true]

/-- So does an UNLOCK. -/
theorem exec_scUnlock_clause (hi : Issues s w (.engine k)) (hop : opcOf w = 0x36#6) (hw : NamesWord s k w)
    (hcl : (clauseOf s (prnOf s (.engine k))).isSome = true) (hcan : canTrap (regsOf s (.engine k))) :
    exec (.scUnlock (.engine k) w) s = .next (traps s (.engine k) 0x06 (lockAddr s k w)) := by
  refine issue_traps (f := effUnlock) hi (rowKey_unlock hop) hcan fun y x hx => ?_
  have htrap := lockTrap_fetched hx hw y
  rw [hcl] at htrap
  simp only [effUnlock, hx.lockAddr, htrap, if_true]

/-! ### The statement -/

/-- Settles O18: each outcome of the registry, carried through the instruction that asks for it. -/
theorem locksAndUnlocks : Obligations.LocksAndUnlocks := by
  unfold Obligations.LocksAndUnlocks
  intro s k w hi c n a o inside word takes ans locks free
  have htaken (u : State) (b : Bool) : lockTaken u n o b = takes b u := by
    rw [lockTaken, lockWord_fields]
    rfl
  have hword (hin : inside) : NamesWord s k w := ⟨hin.1, hin.2⟩
  refine ⟨fun hop hin hcl hcom => ?_, fun hop hin hcl => ⟨fun b hg hcom => ?_, fun hg => ?_⟩, fun hin hcl hcan => ⟨fun hop => ?_, fun hop => ?_⟩⟩
  · have ho : o % 4 = 0 := (hword hin).aligned_off
    refine ⟨fun hfree hroom => ?_, fun hfree hfull => ?_, fun m hg => ?_, fun hg => ?_, fun m hg hm => ?_⟩
    · refine exec_scLock hi hop (hword hin) hcl (.inr hfree.2) fun y => ?_
      rw [← htaken]
      exact lockOp_free ho hcom hfree.1 hroom
    · exact exec_scLock hi hop (hword hin) hcl (.inr hfree.2) fun y => lockOp_full hfree.1 hfull
    · refine exec_scLock hi hop (hword hin) hcl (.inl (Option.ne_none_iff_exists'.mpr ⟨_, hg⟩)) fun y => ?_
      rw [← htaken]
      exact lockOp_taken ho hcom hg (.inl rfl)
    · refine exec_scLock hi hop (hword hin) hcl (.inl (Option.ne_none_iff_exists'.mpr ⟨_, hg⟩)) fun y => ?_
      rw [← htaken]
      exact lockOp_taken ho hcom hg (.inr rfl)
    · exact exec_scLock hi hop (hword hin) hcl (.inl (Option.ne_none_iff_exists'.mpr ⟨_, hg⟩)) fun y => lockOp_refused hg hm
  · exact exec_scUnlock hi hop (hword hin) hcl fun y => unlockOp_owner (hword hin).aligned_off hcom hg
  · exact exec_scUnlock hi hop (hword hin) hcl fun y => unlockOp_refused hg
  · exact exec_scLock_clause hi hop (hword hin) hcl hcan
  · exact exec_scUnlock_clause hi hop (hword hin) hcl hcan

end Sys2Proof.Machine
end

section
/-!
PROOFS. The ends of a script's and a chain's waits (O21): a store tried again, a transfer accepted, a budget used up, and what a doom,
a conflict and a want of clause records held up.
-/

namespace Sys2Proof.Machine

variable {s : State}

/-- A record changed reads as changed, and nothing outside the scheduler is another for it. -/
theorem modP_sched {n : Nat} {f : Pron → Pron} (h : (f (getP s n)).state ≠ .unbound) :
    ∃ x, modP s n f = { s with sched := x } ∧ tget {} x.recs n = f (getP s n) := by
  obtain ⟨_, _, e⟩ := modP_what s n f
  exact ⟨_, e, tget_tset_new _ _ fun hd => h (congrArg Pron.state hd)⟩

/-! ### A store that waited (04 R100, R101) -/

/-- An instruction that waited is tried again, its pronoun running and neither doomed nor reset. -/
theorem retrySlot_retries {k n : Nat} {sc : Script} {w : Word} {pick : Stall → Option Word} (hslot : slotPron s k = some n)
    (hsc : (getP s n).script = some sc) (hpick : sc.stall.bind pick = some w) (hdoom : doomedRerun s n = none)
    (hreset : (getP s n).resetting = false) (hrun : running (getP s n) = true) :
    retrySlot s k pick = settleEff k n { sc with stall := none } (stalledEff w s (engineCx s k n { sc with stall := none }) w) s := by
  simp [retrySlot, hslot, getScript, hsc, hpick, hdoom, hreset, hrun]

/-- A store of a word outside any clause, its line not committed, takes effect. -/
theorem effCtmStore_outside {x : Cx} {w : Word} (hx : x.ctl = false) (hclause : openClause s x.n = none)
    (ha : (dataAddr x w).toNat % 4 = 0) (hin : (dataAddr x w).toNat < ctmSizeFor s x.n)
    (hc : isCommitted s (ctmOff s x.n (dataAddr x w).toNat / 64) = false) :
    effCtmStore 4 s x w = done (ctmStore s (ctmOff s x.n (dataAddr x w).toNat) (toLE 4 (getG x.r (rdOf w)).toNat)) x.r := by
  simp only [effCtmStore, ctmTrap_inside hx ha hin, hx, hclause, ctmAt_engine hx, Bool.false_eq_true, if_false]
  rw [ctmWriteOut_word (ctmOff_aligned s _ ha) (length_toLE _ _) hc]
  rfl

/-! ### A transfer accepted (06 R152, R153) -/

theorem mem_transfersOf_fillCtx {t : Transfer} (f : Nat) {x : Mover} (h : t ∈ transfersOf x) : t ∈ transfersOf (fillCtx f x) := by
  induction f generalizing x with
  | zero => exact h
  | succ f ih =>
    unfold fillCtx
    split
    · next u us k hq _ =>
      refine ih ?_
      have hleft : t ∈ (u :: us) ++ x.ctx.map (·.2) := hq ▸ h
      have hmoved : transfersOf { x with queue := us, ctx := x.ctx ++ [(k, u)] } = us ++ (x.ctx.map (·.2) ++ [u]) := by
        simp only [transfersOf, List.map_append, List.map_cons, List.map_nil]
      rw [hmoved]
      rcases List.mem_append.mp hleft with hqueue | hctx
      · rcases List.mem_cons.mp hqueue with rfl | hus
        · exact List.mem_append_right _ (List.mem_append_right _ (List.mem_singleton_self _))
        · exact List.mem_append_left _ hus
      · exact List.mem_append_right _ (List.mem_append_left _ hctx)
    · exact h

/-- A mover that has a transfer reads as stored. -/
theorem getMv_setMv_of_mem {m : Nat} {x : Mover} {t : Transfer} (h : t ∈ transfersOf x) : getMv (setMv s m x) m = x :=
  tget_tset_new _ _ fun e => by simp [e, transfersOf] at h

/-- A queue with room accepts a transfer: it changes the movers alone, and the mover has the transfer, numbered. -/
theorem acceptOn_room {m : Nat} (t : Transfer) (h : (getMv s m).queue.length < 1024) :
    ∃ v i, acceptOn s m t = some { s with mv := v } ∧ { t with id := i } ∈ transfersOf (getMv { s with mv := v } m) := by
  have hroom : ¬ 1024 ≤ (getMv s m).queue.length := by omega
  let x : Mover := { getMv s m with queue := (getMv s m).queue ++ [{ t with id := s.mv.nextId }] }
  have hx : { t with id := s.mv.nextId } ∈ transfersOf x := by simp [x, transfersOf]
  have hfill : { t with id := s.mv.nextId } ∈ transfersOf (fillCtx 64 x) := mem_transfersOf_fillCtx 64 hx
  let u : State := { s with mv := { s.mv with nextId := s.mv.nextId + 1 } }
  have hget : getMv (setMv u m x) m = x := getMv_setMv_of_mem hx
  refine ⟨(fillMv (setMv u m x) m).mv, s.mv.nextId, ?_, ?_⟩
  · rw [acceptOn]
    exact if_neg hroom
  · show _ ∈ transfersOf (getMv (setMv (setMv u m x) m (fillCtx 64 (getMv (setMv u m x) m))) m)
    rw [hget, getMv_setMv_of_mem hfill]
    exact hfill

/-- A data phase that a mover accepts is that mover's from then on (06 R153). -/
theorem accept_moving {k n m : Nat} {u : Cur} (t : Transfer) (hst : (getP s n).state ≠ .unbound) (hcur : (getP s n).cur = some u)
    (hpick : pickMover s (engineOf k) = some m) (hroom : (getMv s m).queue.length < 1024) :
    ∃ i, { accept s k n t id with sched := s.sched, mv := s.mv } = s ∧
      (getP (accept s k n t id) n).cur = some { u with phase := .moving, mover := some m } ∧
      { t with id := i } ∈ transfersOf (getMv (accept s k n t id) m) := by
  obtain ⟨v, i, hacc, hmem⟩ := acceptOn_room t hroom
  obtain ⟨h, hh, hrec⟩ := modP_sched (s := { s with mv := v }) (n := n)
    (f := fun p => { p with cur := p.cur.map fun c => { c with phase := .moving, mover := some m } }) hst
  have hrun : accept s k n t id = { s with mv := v, sched := h } := by
    simp only [accept, hpick, hacc, id]
    exact hh
  rw [hrun]
  exact ⟨i, rfl, (congrArg Pron.cur hrec).trans (by rw [show (getP { s with mv := v } n).cur = some u from hcur]; rfl), hmem⟩

theorem firstCcw_single {n : Nat} {u : Cur} {c : Ccw} (hcur : (getP s n).cur = some u) (hitems : u.items = [c]) : firstCcw (getP s n) = c := by
  simp [firstCcw, hcur, hitems]

/-- The data phase of a FILL is offered to a mover (06 R150). -/
theorem startData_fill {k n : Nat} {u : Cur} {c : Ccw} (hcur : (getP s n).cur = some u) (hitems : u.items = [c]) (hverb : c.verb = 0x25) :
    startData s k n = accept s k n (transferOf s k n [c] u.prof) id := by
  simp [startData, hcur, firstCcw_single hcur hitems, hitems, hverb]

theorem tTotal_fill {k n : Nat} {c : Ccw} (prof : Option Profile) (i : Nat) (hverb : c.verb = 0x25) :
    tTotal { transferOf s k n [c] prof with id := i } = c.count.toNat := by
  simp [tTotal, segsLen, transferOf, segOf, hverb]

/-! ### A budget used up (03 R78, 07 R194, R213) -/

/-- A script that is ready is that of the slot's pronoun. -/
theorem scriptReady_script {k n : Nat} {sc : Script} (h : scriptReady s k = some (n, sc)) : (getP s n).script = some sc := by
  unfold scriptReady at h
  split at h
  · exact absurd h (by simp)
  · next m _ =>
    dsimp only at h
    split at h
    · exact absurd h (by simp)
    · next sc' hsc =>
      split at h
      · obtain ⟨rfl, rfl⟩ := Prod.mk.inj (Option.some.inj h)
        exact hsc
      · exact absurd h (by simp)

/-- A pronoun that leaves its slot inside its script's CCW has its registers in its frame, and its record in the cache. -/
theorem saveFrame_leaveSlot_what {n : Nat} {sc : Script} (hsc : (getP s n).script = some sc) :
    ∃ x h, saveFrame (leaveSlot s n) n =
      { s with ce := x, sched := h, mem := (writeDram s (frameAt s n) (frameBytes sc.regs)).mem } := by
  obtain ⟨x, c, t, e⟩ := leaveSlot_what s n
  refine ⟨{ s.ce with slots := x }, { s.sched with cache := c, table := t }, ?_⟩
  simp only [saveFrame, getP_leaveSlot, hsc]
  rw [e]
  rfl

/-- An ACTIVE pronoun without budget is queued at the tail of its level. -/
theorem budgetOut_active {n : Nat} {sc : Script} (hst : (getP s n).state = .active) (hsc : (getP s n).script = some sc) :
    { budgetOut s n with sched := s.sched, ce := s.ce, mem := s.mem } = s ∧ getP (budgetOut s n) n = { getP s n with state := .queued } ∧
      (budgetOut s n).mem = (writeDram s (frameAt s n) (frameBytes sc.regs)).mem ∧
      ∃ l, runq (budgetOut s n) (getP s n).runLevel.toNat = l ++ [n] := by
  let p : Pron := { getP s n with state := .queued }
  let u : State := setP (saveFrame (leaveSlot s n) n) n p
  have hout : budgetOut s n = enqueue u n := by
    simp [budgetOut, hst, u, p]
  have hp : getP u n = p := getP_setP_same _ n p (by simp [p])
  have htail := runq_enqueue u n
  rw [hp] at htail
  have hu : ∃ x h, u = { s with ce := x, sched := h, mem := (writeDram s (frameAt s n) (frameBytes sc.regs)).mem } := by
    obtain ⟨_, _, hsave⟩ := saveFrame_leaveSlot_what hsc
    obtain ⟨_, _, hset⟩ := setP_what (saveFrame (leaveSlot s n) n) n p
    exact ⟨_, _, hset.trans (by rw [hsave])⟩
  obtain ⟨x, h, hu⟩ := hu
  obtain ⟨_, _, _, henq⟩ := enqueue_what u n
  rw [hout]
  clear_value u
  refine ⟨?_, ?_, ?_, List.getLast?_eq_some_iff.mp htail⟩
  · rw [henq, hu]
  · rw [getP_enqueue, hp]
  · rw [henq, hu]

/-! ### What a doom, a conflict and a want of clause records held up (04 R91, R99, R107, R113) -/

/-- Where no access waits for a doomed clause's entries, none is tried again. -/
theorem retryEntries_none (hslots : (s.sched.recs.all fun e => ((e.2.script.bind (·.stall)).bind pickEntries).isNone) = true)
    (hcp : s.cp.stall.bind pickEntries = none) : retryEntries s = s := by
  have hnone : s.sched.recs.filter (fun e => ((e.2.script.bind (·.stall)).bind pickEntries).isSome) = [] := by
    rw [List.filter_eq_nil_iff]
    intro e he
    simp [Option.isNone_iff_eq_none.mp (List.all_eq_true.mp hslots e he)]
  simp [retryEntries, hnone, retryCp, hcp, descending]

theorem execDoomEntriesReturned_returns {q : PrnNum} {c : Clause} (hc : clauseOf s q.toNat = some c) (hdoom : c.doom.isSome = true)
    (hslots : (s.sched.recs.all fun e => ((e.2.script.bind (·.stall)).bind pickEntries).isNone) = true)
    (hcp : s.cp.stall.bind pickEntries = none) :
    execDoomEntriesReturned q s = .next (modClause s c.begin_ fun c => { c with returned := true, effects := [], reads := [], writes := [] }) := by
  simp only [execDoomEntriesReturned, hc, hdoom, if_true]
  rw [retryEntries_none (s := modClause s c.begin_ _) hslots hcp]

/-- A re-run waits for no clause once those that doomed it have gone. -/
theorem rerunWaits_gone {p : Pron} {x : Rerun} (hx : p.rerun = some x) (hgone : (s.cls.clauses.all fun c => !(x.doomers.contains c.begin_)) = true) :
    rerunWaits s p = false := by
  have hany : (s.cls.clauses.any fun c => x.doomers.contains c.begin_) = false := by
    rw [List.any_eq_false]
    intro c hc
    simpa using List.all_eq_true.mp hgone c hc
  simp only [rerunWaits, hx, hany, Bool.and_false]

/-- A re-run whose doomers have gone forgets them. -/
theorem execConflictRerun_ready {q : PrnNum} {x : Rerun} (hbound : (getP s q.toNat).state ≠ .unbound) (hx : (getP s q.toNat).rerun = some x)
    (hcounted : x.counted = true) (hgone : (s.cls.clauses.all fun c => !(x.doomers.contains c.begin_)) = true) :
    ∃ h, execConflictRerun q s = .next { s with sched := h } ∧ (tget {} h.recs q.toNat).rerun = some { x with doomers := [] } := by
  obtain ⟨h, hh, hrec⟩ := modP_sched (s := s) (n := q.toNat)
    (f := fun p => { p with rerun := p.rerun.map fun x => if x.counted then { x with doomers := [] } else x }) hbound
  have hready : ¬ rerunWaits s (getP s q.toNat) = true := by rw [rerunWaits_gone hx hgone]; decide
  refine ⟨h, ?_, ?_⟩
  · rw [execConflictRerun, if_neg hready]
    exact congrArg _ hh
  · rw [hrec]
    simp [hx, hcounted]

/-- the clause records once a CLB that is no re-run has one of its own, the next in number (04 R90) -/
def clbOpened (s : State) (n : Nat) (c : Ccw) : Cls :=
  { s.cls with
    beginNext := s.cls.beginNext + 1
    clauses := s.cls.clauses ++ [{ begin_ := s.cls.beginNext, prn := n, clb := c.addr, count := c.count, loops := (getP s n).loops
                                   limit := (getP s n).retryLimit }] }

theorem openClb_opens {n : Nat} (c : Ccw) (hroom : s.cls.clauses.length < 512) (hr : (getP s n).rerun = none) :
    openClb s n c = some (modP { s with cls := clbOpened s n c } n fun p => { p with rerun := none, retryCount := 0 }) := by
  have hfree : ¬ 512 ≤ s.cls.clauses.length := by omega
  simp [openClb, hfree, hr, clbOpened]

/-- The CLB that waits goes on with its clause open, and waits no longer. -/
theorem execClbRecordWaitEnd_opens {n : Nat} (hwaiter : clbWaiter s 512 = some n) (hstaging : s.flt.staging = false)
    (hroom : s.cls.clauses.length < 512) (hbound : (getP s n).state ≠ .unbound) (hr : (getP s n).rerun = none) :
    ∃ h, execClbRecordWaitEnd s = .next { s with sched := h, cls := { clbOpened s n (firstCcw (getP s n)) with
        clbWait := s.cls.clbWait.filter (· != n) } } ∧
      (tget {} h.recs n).cur = (getP s n).cur.map fun c => { c with phase := .ready } := by
  obtain ⟨x, hx, hxrec⟩ := modP_sched (s := { s with cls := clbOpened s n (firstCcw (getP s n)) }) (n := n)
    (f := fun p => { p with rerun := none, retryCount := 0 }) hbound
  let v : State := { s with sched := x, cls := { clbOpened s n (firstCcw (getP s n)) with clbWait := s.cls.clbWait.filter (· != n) } }
  have hv : getP v n = { getP s n with rerun := none, retryCount := 0 } := hxrec
  obtain ⟨h, hh, hrec⟩ := modP_sched (s := v) (n := n) (f := fun p => { p with cur := p.cur.map fun c => { c with phase := .ready } })
    (by rw [hv]; exact hbound)
  refine ⟨h, ?_, by rw [hrec, hv]⟩
  simp only [execClbRecordWaitEnd, hwaiter, hstaging, Bool.false_eq_true, if_false, openClb_opens _ hroom hr, hx]
  exact congrArg Host.Outcome.next hh

/-! ### The statement -/

/-- Settles O21: what each waited for is there, and it goes on as if it had not waited. -/
theorem waitsEnd : Obligations.WaitsEnd := by
  unfold Obligations.WaitsEnd
  refine ⟨?store, ?issue, ?budget, ?entries, ?rerun, ?clb⟩
  case store =>
    intro s k w n sc hslot hsc hstall hop hdoom hreset hrun hclause a o ha hin hc
    have hpick : sc.stall.bind pickCommitted = some w := by rw [hstall]; rfl
    let x : Cx := engineCx s k.toNat n { sc with stall := none }
    have heff : stalledEff w = effCtmStore 4 := by simp [stalledEff, hop]
    have hstore := effCtmStore_outside (s := s) (x := x) (w := w) rfl hclause ha hin hc
    refine congrArg Host.Outcome.next ((retrySlot_retries hslot hsc hpick hdoom hreset hrun).trans ?_)
    rw [heff, hstore]
    rfl
  case issue =>
    intro s k n u c m hslot hst hcur hphase hitems hverb hdoom hpick hroom
    have hbound : (getP s n).state ≠ .unbound := by simp [hst]
    have hissue : ((getP s n).cur.map (·.phase)) == some .issue := by simp [hcur, hphase]
    have hrun : retryIssue s k.toNat = accept s k.toNat n (transferOf s k.toNat n [c] u.prof) id := by
      simp only [retryIssue, hslot, hissue, hdoom, if_true, Option.isSome_none, Bool.false_eq_true, if_false]
      exact startData_fill hcur hitems hverb
    obtain ⟨i, hframe, hmoving, hmem⟩ := accept_moving (transferOf s k.toNat n [c] u.prof) hbound hcur hpick hroom
    exact ⟨_, congrArg Host.Outcome.next hrun, hframe, by rw [hmoving]; rfl, _, hmem, rfl, tTotal_fill u.prof i hverb⟩
  case budget =>
    intro s k n sc hready hdoom hleft hrep hst
    have hsc := scriptReady_script hready
    obtain ⟨hframe, hp, hmem, l, htail⟩ := budgetOut_active hst hsc
    refine ⟨budgetOut s n, l, ?_, hframe, by rw [hp], hmem, htail, by rw [hp]; exact hsc⟩
    show execBudgetEnd k s = _
    simp [execBudgetEnd, hready, hdoom, hleft, hrep]
  case entries =>
    intro s q c hc hdoom _ hslots hcp
    exact execDoomEntriesReturned_returns hc hdoom hslots hcp
  case rerun =>
    intro s q x hbound hx hcounted hgone
    obtain ⟨h, hrun, hrerun⟩ := execConflictRerun_ready (bne_iff_ne.mp hbound) hx hcounted hgone
    exact ⟨_, hrun, rfl, hrerun, rerunWaits_gone hrerun (by simp)⟩
  case clb =>
    intro s n u hwaiter hstaging hroom hbound hcur hr
    obtain ⟨h, hrun, hrec⟩ := execClbRecordWaitEnd_opens hwaiter hstaging hroom (bne_iff_ne.mp hbound) hr
    have hgone : n ∉ s.cls.clbWait.filter (· != n) := by simp
    exact ⟨_, hrun, rfl, hrec.trans (by rw [hcur]; rfl), rfl, hgone, rfl⟩

end Sys2Proof.Machine
end

section
/-!
PROOFS. Full stops that take their number, and numbers reserved ahead (O34).
-/

namespace Sys2Proof.Machine

variable {s : State} {n : Nat} {c : Clause}

/-! ### A clause takes its number and commits (05 R124, R127) -/

/-- A number that is new to the window is that of the clause put last, alone. -/
theorem map_number_of_new {l : List NClause} {x : NClause} {k : Nat} {f : NClause → NClause}
    (hnew : (l.all fun y => y.number != k) = true) (hx : x.number = k) :
    ((l ++ [x]).map fun y => if y.number == k then f y else y) = l ++ [f x] := by
  have hrest : (l.map fun y => if y.number == k then f y else y) = l := by
    refine (List.map_congr_left fun y hy => if_neg ?_).trans l.map_id
    simpa using List.all_eq_true.mp hnew y hy
  rw [List.map_append, hrest, List.map_singleton, if_pos (beq_iff_eq.mpr hx)]

/-- a clause without effects as it enters the window, numbered -/
def nextClause (s : State) (n : Nat) (c : Clause) : NClause :=
  { number := s.fs.next, prn := n, hostFn := (getP s n).hostFn, staged := c.staged, sq := (getP s n).statusQueue.toNat
    clb := c.clb, binds := (getP s n).binds, effects := [] }

/-- the state once the clause stands in the window as `x` -/
def inWindow (s : State) (c : Clause) (x : NClause) : State :=
  { s with
    cls := (dropClause s c.begin_).cls
    fs := { s.fs with next := s.fs.next + 1, window := s.fs.window ++ [x] } }

theorem watermarkPulse_unset (h : s.fs.watermark = 0) (before : Nat) : watermarkPulse s before = s := if_neg (by simp [h])

/-- An unpaired part commits a clause as it numbers it. -/
theorem takeNumber_unpaired (ho : openClause s n = some c) (he : c.effects = []) (htw : s.tw.state = 0) (hwm : s.fs.watermark = 0) :
    takeNumber s n = commit (inWindow s c (nextClause s n c)) s.fs.next n := by
  let u : State := inWindow s c (nextClause s n c)
  have hpair : ¬ isPaired u = true := by simp [isPaired, u, inWindow, htw]
  have hjoin : ¬ (u.tw.state == 4) = true := by simp [u, inWindow, htw]
  have hmark : watermarkPulse u (winBytes s) = u := watermarkPulse_unset (s := u) hwm _
  simp only [takeNumber, ho, he, numberEffects]
  show (if isPaired (watermarkPulse u (winBytes s)) then _ else if (watermarkPulse u (winBytes s)).tw.state == 4 then _
    else commit (watermarkPulse u (winBytes s)) s.fs.next n) = _
  rw [hmark, if_neg hpair, if_neg hjoin]

/-- the state once the clause is committed, its pronoun's record apart -/
def numberTaken (s : State) (n : Nat) (c : Clause) (h : Sched) : State :=
  { inWindow s c { nextClause s n c with committed := true } with sched := h }

/-- A number new to the window commits the clause just put there, alone, and is its pronoun's last tag. -/
theorem commit_inWindow (hb : (getP s n).state ≠ .unbound) (hnew : (s.fs.window.all fun x => x.number != s.fs.next) = true) :
    ∃ h, commit (inWindow s c (nextClause s n c)) s.fs.next n = numberTaken s n c h ∧
      tget {} h.recs n = { getP s n with lastTag := BitVec.ofNat 48 (tagOf s.fs.next) } := by
  have hmod : modNum (inWindow s c (nextClause s n c)) s.fs.next (fun c => { c with committed := true }) =
      inWindow s c { nextClause s n c with committed := true } := by
    have hmap := map_number_of_new (x := nextClause s n c) (f := fun c => { c with committed := true }) hnew rfl
    exact congrArg (fun l => { inWindow s c (nextClause s n c) with fs := { s.fs with next := s.fs.next + 1, window := l } }) hmap
  obtain ⟨h, hh, hrec⟩ := modP_sched (s := inWindow s c { nextClause s n c with committed := true }) (n := n)
    (f := fun p => { p with lastTag := BitVec.ofNat 48 (tagOf s.fs.next) }) hb
  exact ⟨h, by rw [commit, hmod, hh, numberTaken], hrec⟩

/-! ### The chain goes on behind it (02 R25) -/

/-- At a boundary where nothing is due a running pronoun goes on with its next CCW. -/
theorem boundary_goesOn {a : Dword} (hst : (getP s n).state = .active) (hf : (getP s n).fenceDue = none) (hr : (getP s n).rerun = none)
    (hc : clauseOf s n = none) :
    ∃ h, boundary s n a = { s with sched := h } ∧
      tget {} h.recs n = { getP s n with ccwAddr := a, cur := none, again := false, fin := none } := by
  obtain ⟨h, hh, hrec⟩ := modP_sched (s := s) (n := n) (f := fun p => { p with ccwAddr := a, cur := none, again := false, fin := none })
    (by simp [hst])
  have hget : getP { s with sched := h } n = _ := hrec
  have hclause : clauseOf { s with sched := h } n = none := hc
  refine ⟨h, ?_, hrec⟩
  simp only [boundary, hh, hget, doomedRerun, hclause, hf, hr, hst]
  rfl

/-- Without the clause that was its pronoun's alone, the pronoun has none. -/
theorem clauseOf_dropClause_only (h : (s.cls.clauses.filter fun x => x.prn == n) = [c]) :
    clauseOf (dropClause s c.begin_) n = none := by
  refine List.find?_eq_none.mpr ?_
  intro x hx hprn
  obtain ⟨hmem, hbegin⟩ := List.mem_filter.mp hx
  have hone : x ∈ s.cls.clauses.filter fun x => x.prn == n := List.mem_filter.mpr ⟨hmem, hprn⟩
  rw [h, List.mem_singleton] at hone
  simp [hone] at hbegin

/-- The oldest full stop that waits is admitted where its clause may take a number (R131). -/
theorem admitOne_admits {w : FsWait} {ws : List FsWait} (hw : s.fs.waiting = w :: ws) (ho : openClause s w.prn = some c)
    (hcan : canNumber s = true) (hfits : fits s c = true) :
    admitOne s = runFin (takeNumber { s with fs := { s.fs with waiting := ws } } w.prn) w.prn w.fin := by
  simp [admitOne, hw, ho, hcan, hfits]

/-! ### The statement -/

/-- Settles O34: the clause takes the next number and is committed, and its chain goes on; the record is written at the mark. -/
theorem fullStopNumbers : Obligations.FullStopNumbers := by
  unfold Obligations.FullStopNumbers
  refine ⟨?numbers, ?reserve⟩
  case numbers =>
    intro s w ws c hw ho _ hcan hfits he htw hwm hst hfence hrerun hone a hfin hnew
    let u : State := { s with fs := { s.fs with waiting := ws } }
    have hbound : (getP u w.prn).state ≠ .unbound := by rw [show getP u w.prn = getP s w.prn from rfl, hst]; decide
    obtain ⟨h, hcommit, hrec⟩ := commit_inWindow (s := u) (c := c) hbound hnew
    have htake := (takeNumber_unpaired (s := u) ho he htw hwm).trans hcommit
    have hclause : clauseOf (numberTaken u w.prn c h) w.prn = none := clauseOf_dropClause_only (s := u) hone
    have hread : getP (numberTaken u w.prn c h) w.prn = _ := hrec
    obtain ⟨h', hgo, hrec'⟩ := boundary_goesOn (a := a) (s := numberTaken u w.prn c h) (n := w.prn) (by rw [hread]; exact hst)
      (by rw [hread]; exact hfence) (by rw [hread]; exact hrerun) hclause
    rw [hread] at hrec'
    have hrun : exec .fullStopAdmit s = .next { numberTaken u w.prn c h with sched := h' } := by
      refine congrArg Host.Outcome.next ((admitOne_admits hw ho hcan hfits).trans ?_)
      rw [htake, hfin]
      exact hgo
    exact ⟨_, { nextClause u w.prn c with committed := true }, hrun, rfl, rfl, rfl, rfl, rfl, rfl, rfl, hclause,
      congrArg Pron.lastTag hrec', congrArg Pron.ccwAddr hrec', rfl, rfl⟩
  case reserve =>
    intro s
    refine ⟨fun hdue => ?_, fun hnot => ?_⟩
    · exact congrArg Host.Outcome.next (if_pos (decide_eq_true hdue))
    · exact congrArg Host.Outcome.next (if_neg (by simp; omega))

end Sys2Proof.Machine
end

section
/-!
PROOFS. The release pipeline issues the effects of the oldest clause in order (O35).
-/

namespace Sys2Proof.Machine

variable {s : State} {c : NClause} {cs : List NClause} {e : Effect} {es : List Effect}

/-! ### The next effect (05 R132) -/

theorem nextEffect_first (hc : c.effects = e :: es) (he : e.state = .pending) : nextEffect (c :: cs) = some (c, 0) := by
  simp [nextEffect, hc, he, List.findIdx?_cons]

/-- A pipeline that nothing holds issues the first effect of the oldest clause. -/
theorem releaseNext_issues (hwin : s.fs.window = c :: cs) (hc : c.effects = e :: es) (he : e.state = .pending)
    (hcom : c.committed = true) (hstop : s.fs.stopped = false) (hfence : isFenced s = false) (hbar : s.fs.barHold = none) :
    releaseNext s = finishReissue (issueEffect s c 0 e) := by
  simp [releaseNext, hstop, hfence, hbar, hwin, nextEffect_first hc he, hcom, hc]

theorem finishReissue_idle (hr : s.fs.replay = none) (ht : s.tw.taking = false) : finishReissue s = s := by
  simp [finishReissue, hr, ht]

/-! ### An effect is done (05 R133, R134) -/

/-- the clause with its first effect done -/
def firstDone (c : NClause) (e : Effect) (es : List Effect) : NClause := { c with effects := { e with state := .done } :: es }

/-- A clause is not released before its last effect is done. -/
theorem clauseReleased_waits {n : Nat} (hget : getNum s n = some c) (h : (c.effects.all fun e => e.state == .done) = false) :
    clauseReleased s n = s := by
  simp only [clauseReleased, hget, h, Bool.false_eq_true, if_false]

/-- A clause of which effects are left stays in the window with the effect done. -/
theorem effectDone_first (hwin : s.fs.window = c :: cs) (hc : c.effects = e :: es) (hbar : s.fs.barHold = none)
    (hleft : es ≠ []) (hpend : (es.all fun x => x.state == .pending) = true) (hnum : ((c :: cs).map (·.number)).Nodup) :
    effectDone s c.number 0 = { s with fs := { s.fs with window := firstDone c e es :: cs } } := by
  have hrest : (cs.map fun x => if x.number == c.number then modEffect 0 (fun e => { e with state := .done }) x else x) = cs := by
    refine (List.map_congr_left fun x hx => if_neg ?_).trans cs.map_id
    rw [List.map_cons, List.nodup_cons] at hnum
    obtain ⟨hnew, _⟩ := hnum
    intro h
    exact hnew (List.mem_map.mpr ⟨x, hx, beq_iff_eq.mp h⟩)
  have hmod : modNum s c.number (modEffect 0 fun e => { e with state := .done }) =
      { s with fs := { s.fs with window := firstDone c e es :: cs } } := by
    rw [modNum, hwin, List.map_cons, hrest]
    simp [modEffect, hc, firstDone]
  have hundone : ((firstDone c e es).effects.all fun e => e.state == .done) = false := by
    obtain ⟨x, xs, rfl⟩ := List.exists_cons_of_ne_nil hleft
    simp only [List.all_cons, Bool.and_eq_true, beq_iff_eq] at hpend
    simp [firstDone, hpend.1]
  have hget : getNum { s with fs := { s.fs with window := firstDone c e es :: cs } } c.number = some (firstDone c e es) := by
    simp [getNum, firstDone]
  have hopen : ¬ (s.fs.barHold == some (c.number, 0)) = true := by simp [hbar]
  rw [effectDone, hmod]
  dsimp only
  rw [if_neg hopen]
  exact clauseReleased_waits hget hundone

/-! ### Effects at their targets (05 Table 5-1) -/

theorem issueEffect_host {a : Dword} (hbody : e.body = .host a) (hbad : e.bad = false) (hbar : e.bar = false)
    (hcan : canIssue s c.hostFn = true) (hok : hostFault s (offOf a) e.data.length = none) :
    issueEffect s c 0 e = effectDone (writeHostRaw s (offOf a) e.data) c.number 0 := by
  simp [issueEffect, hbody, hbad, hbar, hcan, hostWrite, hok]

theorem issueEffect_ctm {a : Dword} (hbody : e.body = .ctm a) (hbad : e.bad = false) :
    issueEffect s c 0 e =
      effectDone (twinLine (writeDram s (ctmPhys s (64 * lineOf (offOf a))) e.data) (lineOf (offOf a))) c.number 0 := by
  simp [issueEffect, hbody, hbad]

theorem twinLine_onlySends (s : State) (l : Nat) : OnlySends s (twinLine s l) := by
  unfold twinLine
  split
  · exact twinSend_onlySends s _
  · exact .refl s

/-- A signal to a source above the mailboxes' is one occurrence of it. -/
theorem issueEffect_signal {m : Byte} {v : Dword} {ce : BitVec 5} (hbody : e.body = .signal m v ce) (hbad : e.bad = false) (hm : m = 0)
    (hv : 512 ≤ v.toNat % 1024) : issueEffect s c 0 e = effectDone (pulse s (v.toNat % 1024)) c.number 0 := by
  have hpost : ¬ (96 ≤ v.toNat % 1024 ∧ v.toNat % 1024 ≤ 159) := by omega
  have hack : ¬ (160 ≤ v.toNat % 1024 ∧ v.toNat % 1024 ≤ 223) := by omega
  simp [issueEffect, hbody, hbad, applySignal, hm, hpost, hack]

/-- An occurrence adds its source to those pending, and reaches beside them only the host port and what went out. -/
theorem pulse_pends (s : State) (n : Nat) :
    ∃ h e o, pulse s n = { s with hp := h, evt := e, out := o } ∧ e.icPend = setBit s.evt.icPend n true := by
  have hraise : ∃ e, raiseInputs s (gpioLevels s) [n] = { s with evt := e } ∧ e.icPend = s.evt.icPend := by
    unfold raiseInputs
    dsimp only
    split <;> exact ⟨_, rfl, rfl⟩
  obtain ⟨x, hx, hpend⟩ := hraise
  unfold pulse
  rw [hx, ← hpend]
  unfold occur
  dsimp only
  split
  · next m v _ =>
    obtain ⟨h, o, e⟩ := countEvent_what (icEval { s with evt := { x with icPend := setBit x.icPend n true } }) m v
    exact ⟨h, _, o, e, rfl⟩
  · exact ⟨_, _, _, rfl, rfl⟩

/-! ### The statement -/

/-- Settles O35: each effect reaches its target, and is the first of its clause to be done. -/
theorem releaseIssuesInOrder : Obligations.ReleaseIssuesInOrder := by
  unfold Obligations.ReleaseIssuesInOrder
  intro s c cs e es hwin hc he hbad hbar hcom hstop hhold hfence hreplay htaking hleft hpend hnum done
  have hissue : exec .releaseIssue s = .next (finishReissue (issueEffect s c 0 e)) :=
    congrArg Host.Outcome.next (releaseNext_issues hwin hc he hcom hstop hfence hhold)
  rw [hwin] at hnum
  have hdone {t : State} (h : issueEffect s c 0 e = effectDone t c.number 0) (hfs : t.fs = s.fs) (htw : t.tw.taking = false) :
      exec .releaseIssue s = .next { t with fs := { t.fs with window := done } } := by
    have hidle : finishReissue { t with fs := { t.fs with window := done } } = { t with fs := { t.fs with window := done } } :=
      finishReissue_idle (by rw [← hreplay, ← hfs]) htw
    rw [hissue, h, effectDone_first (hfs ▸ hwin) hc (hfs ▸ hhold) hleft hpend hnum]
    exact congrArg Host.Outcome.next hidle
  refine ⟨fun a hbody hcan hok => ?_, fun a hbody _ => ?_, fun m v ce hbody hm hv => ?_⟩
  · exact hdone (issueEffect_host hbody hbad hbar hcan hok) rfl htaking
  · have hsend := twinLine_onlySends (writeDram s (ctmPhys s (64 * lineOf (offOf a))) e.data) (lineOf (offOf a))
    obtain ⟨_, _, _, _, _, _, hline⟩ := hsend
    have h := issueEffect_ctm (s := s) (c := c) hbody hbad
    rw [hline] at h
    exact ⟨_, hdone h rfl htaking, rfl, rfl⟩
  · obtain ⟨x, y, o, hpulse, hbit⟩ := pulse_pends s (v.toNat % 1024)
    have h := issueEffect_signal (s := s) (c := c) hbody hbad hm hv
    rw [hpulse] at h
    exact ⟨_, hdone h rfl htaking, rfl, hbit⟩

end Sys2Proof.Machine
end

section
/-!
PROOFS. Admin commands on saves, status queues, event routes and mailboxes (O48): a replay's clauses in the window, and what each
command makes of its packet.
-/

namespace Sys2Proof.Machine

/-! ### What the words of a replay leave (05 R146 step 2) -/

theorem OnlyTells.fs {s t : State} (h : OnlyTells s t) : t.fs = s.fs := by
  obtain ⟨_, _, _, _, rfl⟩ := h
  rfl

theorem rcPulse_onlyTells (w : Word) (s : State) : OnlyTells s (rcPulse w s) :=
  onlyTells_ite (pulse_onlyTells s (by decide)) (.refl s)

@[simp] theorem setP_fs (s : State) (n : Nat) (p : Pron) : (setP s n p).fs = s.fs := by
  obtain ⟨_, _, e⟩ := setP_what s n p
  rw [e]

theorem postBits_fs (s : State) (n sq : Nat) (bits : BitVec 256) : (postBits s n sq bits).1.fs = s.fs := by
  unfold postBits
  dsimp only
  split
  · exact (sqWrite_onlyTells _ _ _).fs.trans (setP_fs s n _)
  · exact setP_fs s n _

theorem postLost_window (r : State × Nat) (e : Nat × Dword) : (postLost r e).1.fs.window = r.1.fs.window := by
  unfold postLost
  dsimp only
  split
  · exact congrArg Fs.window (postBits_fs _ _ _ _)
  · exact (congrArg Fs.window (rcPulse_onlyTells _ _).fs).trans rfl

theorem foldl_postLost_window (l : List (Nat × Dword)) (r : State × Nat) : (l.foldl postLost r).1.fs.window = r.1.fs.window :=
  List.foldlRecOn l postLost (motive := fun t => t.1.fs.window = r.1.fs.window) rfl fun t ht e _ => (postLost_window t e).trans ht

/-! ### A replay's clauses in the window (05 R146 step 3) -/

theorem mem_insertClause {x c : NClause} {l : List NClause} : x ∈ insertClause c l ↔ x = c ∨ x ∈ l := by
  induction l with
  | nil => simp [insertClause]
  | cons y l ih =>
    unfold insertClause
    split
    · simp
    · simp [ih, or_left_comm]

theorem watermarkPulse_onlyTells (s : State) (n : Nat) : OnlyTells s (watermarkPulse s n) :=
  onlyTells_ite (pulse_onlyTells s (by decide)) (.refl s)

theorem mem_window_loadClauses {s : State} {x : NClause} {l : List NClause} :
    x ∈ (loadClauses s l).fs.window ↔ (∃ c ∈ l, x = { c with committed := true }) ∨ x ∈ s.fs.window := by
  have hfold (w : List NClause) : x ∈ l.foldl (fun w c => insertClause { c with committed := true } w) w ↔
      (∃ c ∈ l, x = { c with committed := true }) ∨ x ∈ w := by
    induction l generalizing w with
    | nil => simp
    | cons c l ih =>
      simp only [List.foldl_cons, ih, mem_insertClause, List.mem_cons, exists_eq_or_imp]
      exact or_left_comm.trans or_assoc.symm
  rw [loadClauses, (watermarkPulse_onlyTells _ _).fs]
  exact hfold _

/-- a saved clause as it is released again -/
def loadedAgain (c : NClause) : NClause :=
  { c with committed := true, replayed := true, peer := false, effects := c.effects.map reissued }

/-- the clauses of a save that a takeover by the twin has not dropped -/
def keptClauses (s : State) (v : Save) : List NClause := v.clauses.filter fun c => !(dropsClause s c)

/-- the state in which the replay of a save begins -/
def replayBegun (s : State) (fn : Master) (p : Packet) (v : Save) : State :=
  let keep := keptClauses s v
  let r := v.lost.foldl postLost (s, 0)
  let t := hold (loadClauses r.1 (keep.map fun c => { c with replayed := true, peer := false, effects := c.effects.map reissued }))
    fn (admTag p) .replay
  { t with fs := { t.fs with replay := some (fn, admTag p, keep.length, v.clauses.length - keep.length, r.2) } }

section
variable {s : State} {fn : Master} {p : Packet} {v : Save}

theorem mem_window_replayBegun {x : NClause} :
    x ∈ (replayBegun s fn p v).fs.window ↔ x ∈ (keptClauses s v).map loadedAgain ∨ x ∈ s.fs.window := by
  have hload := mem_window_loadClauses (s := (v.lost.foldl postLost (s, 0)).1) (x := x) (l := (keptClauses s v).map fun c =>
    { c with replayed := true, peer := false, effects := c.effects.map reissued })
  rw [foldl_postLost_window] at hload
  refine Iff.trans hload (or_congr_left ⟨?_, fun hx => ?_⟩)
  · rintro ⟨c, hc, rfl⟩
    obtain ⟨y, hy, rfl⟩ := List.mem_map.mp hc
    exact List.mem_map.mpr ⟨y, hy, rfl⟩
  · obtain ⟨y, hy, rfl⟩ := List.mem_map.mp hx
    exact ⟨_, List.mem_map_of_mem hy, rfl⟩

theorem replay_replayBegun : ∃ w, (replayBegun s fn p v).fs.replay =
    some (fn, admTag p, (keptClauses s v).length, v.clauses.length - (keptClauses s v).length, w) := ⟨_, rfl⟩

theorem held_replayBegun : { fn := fn, tag := admTag p, why := .replay } ∈ (replayBegun s fn p v).hp.held := mem_held_hold _ _ _ _

end

/-! ### A replay ends once all it released again is issued (05 R146 steps 4, 5) -/

theorem allIssued_of_subset {l l' : List NClause} (h : l ⊆ l') (ha : allIssued l' = true) : allIssued l = true :=
  List.all_eq_true.mpr fun x hx => List.all_eq_true.mp ha x (h hx)

/-- The end of a takeover of which every effect is issued (11 R358 step 6). -/
def takeoverDone (s : State) : State :=
  if s.tw.taking && allIssued (s.fs.window.filter (·.peer)) then
    pulse { s with
      fs := { s.fs with takeHold := false }
      tw := { s.tw with taking := false, shadow := [], shadowWait := [], places := [] } } 235
  else s

/-- It leaves the window, a replay and the save it reads, and the replies held. -/
theorem takeoverDone_keeps (s : State) : (takeoverDone s).fs.window = s.fs.window ∧ (takeoverDone s).fs.replay = s.fs.replay ∧
    (takeoverDone s).fs.pendingSave = s.fs.pendingSave ∧ (takeoverDone s).hp.held = s.hp.held := by
  unfold takeoverDone
  split
  · rw [(pulse_onlyTells _ (by decide : 235 < 1024)).fs]
    exact ⟨rfl, rfl, rfl, (pulse_spares (n := 0) (fn := 0) 235).held⟩
  · exact ⟨rfl, rfl, rfl, rfl⟩

/-- The marker of a save consumed is written, and the save is pending no more. -/
theorem consumeSave_fs (s : State) : (consumeSave s).fs = { s.fs with pendingSave := none } := by
  unfold consumeSave putSave
  dsimp only
  split <;> rfl

/-- The end of a replay of which every effect is issued (R146 step 4). -/
def replayDone (s : State) : State :=
  match s.fs.replay with
  | some (_, _, k, d, w) =>
    if allIssued (s.fs.window.filter fun c => c.replayed && !c.peer) then
      finishHeld (consumeSave { s with fs := { s.fs with replay := none } }) .replay 0 (BitVec.ofNat 192 (k + d * 2 ^ 32 + w * 2 ^ 64))
    else s
  | none => s

theorem finishReissue_eq (s : State) : finishReissue s = takeoverDone (replayDone s) := rfl

section
variable {s : State} {fn : Master} {tag : Half} {k d w : Nat}

/-- A replay with effects to issue goes on. -/
theorem replayDone_waits (hr : s.fs.replay = some (fn, tag, k, d, w))
    (hleft : allIssued (s.fs.window.filter fun c => c.replayed && !c.peer) = false) : replayDone s = s := by
  simp only [replayDone, hr, hleft, Bool.false_eq_true, if_false]

/-- A replay with none left is over, its save consumed. -/
theorem replayDone_ends (hr : s.fs.replay = some (fn, tag, k, d, w))
    (hall : allIssued (s.fs.window.filter fun c => c.replayed && !c.peer) = true) :
    (replayDone s).fs.pendingSave = none ∧ (replayDone s).fs.replay = none := by
  simp only [replayDone, hr, hall, if_true]
  rw [(finishHeld_onlyTells _ _ _ _).fs, consumeSave_fs]
  exact ⟨rfl, rfl⟩

end

section
variable {s : State} {fn : Master} {p : Packet} {v : Save}

/-- A replay with effects to issue waits for them, its clauses in the window and its reply held. -/
theorem replayBegun_waits (h : allIssued ((keptClauses s v).map loadedAgain) = false) :
    let t := finishReissue (replayBegun s fn p v)
    { fn := fn, tag := admTag p, why := .replay } ∈ t.hp.held ∧
      (∃ w, t.fs.replay = some (fn, admTag p, (keptClauses s v).length, v.clauses.length - (keptClauses s v).length, w)) ∧
      ∀ x ∈ keptClauses s v, loadedAgain x ∈ t.fs.window := by
  have hleft : allIssued ((replayBegun s fn p v).fs.window.filter fun c => c.replayed && !c.peer) = false := by
    refine Bool.eq_false_iff.mpr fun hall => Bool.eq_false_iff.mp h (allIssued_of_subset (fun x hx => ?_) hall)
    obtain ⟨c, _, rfl⟩ := List.mem_map.mp hx
    exact List.mem_filter.mpr ⟨mem_window_replayBegun.mpr (.inl hx), rfl⟩
  obtain ⟨w, hbegun⟩ := replay_replayBegun (s := s) (fn := fn) (p := p) (v := v)
  obtain ⟨hwin, hreplay, _, hheld⟩ := takeoverDone_keeps (replayBegun s fn p v)
  dsimp only
  rw [finishReissue_eq, replayDone_waits hbegun hleft, hwin, hreplay, hheld]
  exact ⟨held_replayBegun, ⟨w, hbegun⟩, fun x hx => mem_window_replayBegun.mpr (.inl (List.mem_map_of_mem hx))⟩

/-- A replay into an empty window, with no effect to issue, is over at once. -/
theorem replayBegun_ends (hwin : s.fs.window = []) (h : allIssued ((keptClauses s v).map loadedAgain) = true) :
    (finishReissue (replayBegun s fn p v)).fs.pendingSave = none ∧ (finishReissue (replayBegun s fn p v)).fs.replay = none := by
  have hall : allIssued ((replayBegun s fn p v).fs.window.filter fun c => c.replayed && !c.peer) = true := by
    refine allIssued_of_subset (fun x hx => ?_) h
    obtain ⟨hmem, _⟩ := List.mem_filter.mp hx
    exact (mem_window_replayBegun.mp hmem).resolve_right (by simp [hwin])
  obtain ⟨w, hbegun⟩ := replay_replayBegun (s := s) (fn := fn) (p := p) (v := v)
  obtain ⟨_, hreplay, hsave, _⟩ := takeoverDone_keeps (replayDone (replayBegun s fn p v))
  obtain ⟨hsave', hreplay'⟩ := replayDone_ends hbegun hall
  exact ⟨hsave.trans hsave', hreplay.trans hreplay'⟩

end

/-! ### Commands on saves (05 R144 to R147) -/

section
variable {s : State} {fn : Master} {p : Packet} {v : Save} {area : Nat}

theorem exec_admReplay (h : Starts s fn p 0x0301) :
    exec (.admReplay fn p) s = .next (answerCmd fn p (cmdReplay fn p (takePacket s fn))) := congrArg _ (adm_starts h (by decide))
theorem exec_admExportSaved (h : Starts s fn p 0x0302) :
    exec (.admExportSaved fn p) s = .next (answerCmd fn p (cmdExportSaved p (takePacket s fn))) := congrArg _ (adm_starts h (by decide))
theorem exec_admDiscardSaved (h : Starts s fn p 0x0303) :
    exec (.admDiscardSaved fn p) s = .next (answerCmd fn p (cmdDiscardSaved (takePacket s fn))) := congrArg _ (adm_starts h (by decide))
theorem exec_admClauseTune (h : Starts s fn p 0x0304) :
    exec (.admClauseTune fn p) s = .next (answerCmd fn p (cmdClauseTune p (takePacket s fn))) := congrArg _ (adm_starts h (by decide))

theorem cmdReplay_refused (h : s.sched.configured = false ∨ s.fs.pendingSave = none ∨ s.fs.replay.isSome = true) :
    cmdReplay fn p s = refuse s stState := by
  unfold cmdReplay configured
  split
  · next hc =>
    split
    · rfl
    · next hsave => exact if_pos ((h.resolve_left (by simp [hc])).resolve_left (by simp [hsave]))
  · rfl

/-- A save pending that no replay reads yet: whether it still reads, whether it may be replayed alone, and whether each clause's
pronoun is bound as it was. -/
theorem cmdReplay_pending (hc : s.sched.configured = true) (hp : s.fs.pendingSave = some (area, v)) (hr : s.fs.replay = none) :
    cmdReplay fn p s =
      if saveReads s area v = false then saveFails s
      else if v.paired && !(pkBit p 12 0) && !s.tw.joined then refuse s stState
      else match (keptClauses s v).find? fun c => !(clauseBound s false c) with
        | some c => clauseConflict s c
        | none => .held (finishReissue (replayBegun s fn p v)) := by
  simp only [cmdReplay, configured, hc, hp, hr, if_true, Option.isSome_none, Bool.false_eq_true, if_false, Bool.not_eq_true']
  rfl

theorem cmdExportSaved_badAddress (h : iovaBad (pkIova p) 64 = true) : cmdExportSaved p s = badField s 16 := if_pos h

theorem cmdExportSaved_none (h : iovaBad (pkIova p) 64 = false) (hp : s.fs.pendingSave = none) :
    cmdExportSaved p s = refuse s stState := by
  simp [cmdExportSaved, h, hp]

theorem cmdExportSaved_reads (h : iovaBad (pkIova p) 64 = false) (hp : s.fs.pendingSave = some (area, v))
    (hread : saveReads s area v = true) : cmdExportSaved p s =
      if pkF p 24 4 < (exportBytes v).length then .no s stResource 0 (num192 (exportBytes v).length)
      else hostPut s (pkIova p) (exportBytes v) (num192 (exportBytes v).length) := by
  simp [cmdExportSaved, h, hp, hread]

theorem hostPut_writes {a : Nat} {l : List Byte} {r : BitVec 192} (h : hostFault s a l.length = none) :
    hostPut s a l r = .done (writeHostRaw s a l) r := by
  rw [hostPut, h]

theorem hostPut_fails {a : Nat} {l : List Byte} {r : BitVec 192} {d : Byte} (h : hostFault s a l.length = some d) :
    hostPut s a l r = hostError s d := by
  rw [hostPut, h]

theorem cmdDiscardSaved_refused (h : s.fs.pendingSave = none ∨ s.fs.replay.isSome = true) : cmdDiscardSaved s = refuse s stState :=
  if_pos (by rcases h with h | h <;> simp [h])

theorem cmdDiscardSaved_discards (hp : s.fs.pendingSave.isSome = true) (hr : s.fs.replay = none) :
    cmdDiscardSaved s = .done (consumeSave s) 0 := if_neg (by simp [hr, Option.isSome_iff_ne_none.mp hp])

theorem cmdClauseTune_range (h : pkF p 8 4 % 65536 ≠ 0 ∨ 8388608 < pkF p 8 4) : cmdClauseTune p s = badField s 8 := if_pos h

theorem cmdClauseTune_inRange (hm : pkF p 8 4 % 65536 = 0) (hle : pkF p 8 4 ≤ 8388608) : cmdClauseTune p s =
    if s.sched.configured then .done { s with fs := { s.fs with watermark := BitVec.ofNat 32 (pkF p 8 4) } } 0 else refuse s stState :=
  if_neg (by omega)

end

/-! ### Commands on status queues (09 R292, Table 9-10) -/

section
variable {s : State} {fn : Master} {p : Packet}

theorem exec_admSqCreate (h : Starts s fn p 0x0401) :
    exec (.admSqCreate fn p) s = .next (answerCmd fn p (cmdSqCreate fn p (takePacket s fn))) := congrArg _ (adm_starts h (by decide))
theorem exec_admSqDelete (h : Starts s fn p 0x0402) :
    exec (.admSqDelete fn p) s = .next (answerCmd fn p (cmdSqDelete fn p (takePacket s fn))) := congrArg _ (adm_starts h (by decide))
theorem exec_admSqQuery (h : Starts s fn p 0x0403) :
    exec (.admSqQuery fn p) s = .next (answerCmd fn p (cmdSqQuery fn p (takePacket s fn))) := congrArg _ (adm_starts h (by decide))

theorem sqAllowed_takePacket (h : (getFunc s fn).enable = true) (n : Nat) : sqAllowed (takePacket s fn) fn n = sqAllowed s fn n := by
  obtain ⟨l, e⟩ := getFunc_takePacket h fn
  have hsq : getSq (takePacket s fn) n = getSq s n := rfl
  simp only [sqAllowed, e, hsq]

/-- the function may name the queue and the vector of the packet -/
def mayCreate (s : State) (fn : Master) (p : Packet) : Bool :=
  sqAllowed s fn (pkF p 8 2) && !(isVf fn && decide (vecCount fn ≤ pkF p 12 2))

theorem createDenied_eq : (!(sqAllowed s fn (pkF p 8 2)) || vecDenied fn (pkF p 12 2)) = !(mayCreate s fn p) := by
  rw [mayCreate, Bool.not_and, Bool.not_not]
  rfl

theorem cmdSqCreate_denied (h : mayCreate s fn p = false) : cmdSqCreate fn p s = refuse s stDenied :=
  if_pos (by rw [createDenied_eq, h]; rfl)

/-- A creation permitted judges its fields in the order of their bytes, then whether the queue is there. -/
theorem cmdSqCreate_allowed (h : mayCreate s fn p = true) : cmdSqCreate fn p s =
    if 4096 ≤ pkF p 8 2 then badField s 8
    else if pkF p 10 1 < 4 ∨ 16 < pkF p 10 1 then badField s 10
    else if vecCount fn ≤ pkF p 12 2 then badField s 12
    else if iovaBad (pkIova p) (min (32 * 2 ^ pkF p 10 1) 4096) then badField s 16
    else if (getSq s (pkF p 8 2)).isSome then refuse s stState
    else .done (setSq s (pkF p 8 2) { owner := fn, base := BitVec.ofNat 64 (pkIova p), log2 := pkF p 10 1, vec := pkF p 12 2
                                      prod := 0, cons := 0, phase := true, full := false }) 0 :=
  if_neg (by rw [createDenied_eq, h]; decide)

variable {f : Nat → SQueue → Ans}

theorem onSq_denied (h : sqAllowed s fn (pkF p 8 2) = false) : onSq fn p s f = refuse s stDenied := by
  simp [onSq, h]

theorem onSq_range (h : sqAllowed s fn (pkF p 8 2) = true) (hn : 4096 ≤ pkF p 8 2) : onSq fn p s f = badField s 8 := by
  simp [onSq, h, hn]

theorem onSq_absent (h : sqAllowed s fn (pkF p 8 2) = true) (hn : pkF p 8 2 < 4096) (hq : getSq s (pkF p 8 2) = none) :
    onSq fn p s f = refuse s stNotFound := by
  simp [onSq, h, Nat.not_le.mpr hn, hq]

theorem onSq_found {q : SQueue} (h : sqAllowed s fn (pkF p 8 2) = true) (hn : pkF p 8 2 < 4096)
    (hq : getSq s (pkF p 8 2) = some q) : onSq fn p s f = f (pkF p 8 2) q := by
  simp [onSq, h, Nat.not_le.mpr hn, hq]

/-- the two commands on a queue that exists make the checks they share -/
theorem queueCommand_onSq {op : Nat} {c : Master → Packet → Instr}
    (hrow : (op, c) ∈ [(0x0402, Instr.admSqDelete), (0x0403, Instr.admSqQuery)]) (hst : Starts s fn p op) : ∃ f, exec (c fn p) s = .next (answerCmd fn p (onSq fn p (takePacket s fn) f)) := by
  simp only [List.mem_cons, Prod.mk.injEq, List.not_mem_nil, or_false] at hrow
  rcases hrow with ⟨rfl, rfl⟩ | ⟨rfl, rfl⟩
  · exact ⟨_, exec_admSqDelete hst⟩
  · exact ⟨_, exec_admSqQuery hst⟩

end

/-! ### Event routes and mailboxes (10 R304, R324) -/

section
variable {s : State} {fn : Master} {p : Packet}

theorem exec_admEventRoute (h : Starts s fn p 0x0701) :
    exec (.admEventRoute fn p) s = .next (answerCmd fn p (cmdEventRoute fn p (takePacket s fn))) := congrArg _ (adm_starts h (by decide))
theorem exec_admMbxBind (h : Starts s fn p 0x0702) :
    exec (.admMbxBind fn p) s = .next (answerCmd fn p (cmdMbxBind p (takePacket s fn))) := congrArg _ (adm_starts h (by decide))

/-- a VF routes the sources of its own mailboxes to its own vectors only (09 R291) -/
def mayRoute (s : State) (fn : Master) (p : Packet) : Prop :=
  isVf fn = false ∨ (ownMailSource s fn (pkF p 8 2) = true ∧ pkF p 10 2 < vecCount fn)

theorem routeDenied_iff : ((isVf fn && !(ownMailSource s fn (pkF p 8 2))) || vecDenied fn (pkF p 10 2)) = true ↔ ¬ mayRoute s fn p := by
  unfold mayRoute vecDenied
  cases isVf fn <;> cases ownMailSource s fn (pkF p 8 2) <;> simp

theorem cmdEventRoute_denied (h : ¬ mayRoute s fn p) : cmdEventRoute fn p s = refuse s stDenied := if_pos (routeDenied_iff.mpr h)

/-- the routes with the source's set as the packet says, or gone -/
def routesAfter (s : State) (fn : Master) (p : Packet) : List (Nat × Master × Nat) :=
  let l := s.hp.routes.filter fun r => r.1 != pkF p 8 2
  if pkBit p 12 0 then l ++ [(pkF p 8 2, fn, pkF p 10 2)] else l

/-- A route permitted judges the source, the vector, and whether the source is another function's. -/
theorem cmdEventRoute_allowed (h : mayRoute s fn p) : cmdEventRoute fn p s =
    if 1024 ≤ pkF p 8 2 then badField s 8
    else if vecCount fn ≤ pkF p 10 2 then badField s 10
    else if (s.hp.routes.any fun r => r.1 == pkF p 8 2 && r.2.1 != fn) then refuse s stBinding
    else .done { s with hp := { s.hp with routes := routesAfter s fn p } } 0 :=
  if_neg fun hd => routeDenied_iff.mp hd h

theorem cmdMbxBind_mailbox (h : 63 < pkF p 8 1) : cmdMbxBind p s = badField s 8 := if_pos h

theorem cmdMbxBind_sender (h : pkF p 8 1 ≤ 63) (ha : masterLegal (p.extractLsb' 72 8) = false) : cmdMbxBind p s = badField s 9 := by
  simp [cmdMbxBind, Nat.not_lt.mpr h, ha]

theorem cmdMbxBind_receiver (h : pkF p 8 1 ≤ 63) (ha : masterLegal (p.extractLsb' 72 8) = true)
    (hb : bindLegal (p.extractLsb' 72 8) (p.extractLsb' 80 8) = false) : cmdMbxBind p s = badField s 10 := by
  simp [cmdMbxBind, Nat.not_lt.mpr h, ha, hb]

theorem masterLegal_of_bindLegal {a b : Master} (h : bindLegal a b = true) : masterLegal a = true := by
  simp only [bindLegal, Bool.and_eq_true] at h
  exact h.1.2

theorem cmdMbxBind_legal (h : pkF p 8 1 ≤ 63) (hb : bindLegal (p.extractLsb' 72 8) (p.extractLsb' 80 8) = true) : cmdMbxBind p s =
    if (getMbx s (pkF p 8 1)).locked then refuse s stState
    else .done (mbxBindOp s (pkF p 8 1) (p.extractLsb' 72 8) (p.extractLsb' 80 8) true) 0 := by
  simp [cmdMbxBind, Nat.not_lt.mpr h, masterLegal_of_bindLegal hb, hb]

end

/-! ### The statement -/

/-- Settles O48: each command starts, judges its packet in the order of its checks, and does what its operation does. -/
theorem adminQueueCommands : Obligations.AdminQueueCommands := by
  unfold Obligations.AdminQueueCommands
  intro s fn p s0 ans no
  refine ⟨?replay, ?copyOut, ?discard, ?tune, ?queues, ?route, ?mailbox⟩
  case replay =>
    intro hst c
    have he := exec_admReplay hst
    refine ⟨fun h => answers_no he (cmdReplay_refused h), fun area v hc hp hr => ?_⟩
    intro keep bad again
    have hrun := cmdReplay_pending (s := s0) (fn := fn) (p := p) hc hp hr
    have hreads (hread : saveReads s area v = true) : cmdReplay fn p s0 = _ :=
      hrun.trans (if_neg (Bool.not_eq_false _ ▸ hread))
    refine ⟨fun hread => answers_no he (hrun.trans (if_pos hread)),
      fun hread hpair hforce hjoin => answers_no he ((hreads hread).trans (if_pos ?_)), fun hread hmay => ?_⟩
    · simp [hpair, hforce, show s0.tw.joined = false from hjoin]
    · have hmay' : ¬ (v.paired && !(pkBit p 12 0) && !s0.tw.joined) = true := by
        rcases hmay with h | h | h <;> simp [h, show s0.tw.joined = s.tw.joined from rfl]
      have hjudge := (hreads hread).trans (if_neg hmay')
      have hfind {b : Option NClause} (h : bad = b) : (keptClauses s0 v).find? (fun c => !(clauseBound s0 false c)) = b := h
      refine ⟨fun x hx => ?_, fun hbad hleft => ?_, fun hbad hall hwin _ => ?_⟩
      · exact answers_no he (hjudge.trans (by rw [hfind hx]; rfl))
      · exact ⟨_, exec_held he (hjudge.trans (by rw [hfind hbad])), replayBegun_waits (s := s0) (v := v) hleft⟩
      · exact ⟨_, exec_held he (hjudge.trans (by rw [hfind hbad])), replayBegun_ends (s := s0) (v := v) hwin hall⟩
  case copyOut =>
    intro hst c a
    have he := exec_admExportSaved hst
    refine ⟨fun hbad => answers_no he (cmdExportSaved_badAddress hbad), fun hgood hp => answers_no he (cmdExportSaved_none hgood hp),
      fun area v hgood hp hread => ?_⟩
    intro l
    have hrun := cmdExportSaved_reads (s := s0) hgood hp hread
    refine ⟨fun hlong => answers_no he (hrun.trans (if_pos hlong)), fun hfits hok => ?_, fun d hfits hd => ?_⟩
    · exact answers_done he ((hrun.trans (if_neg (Nat.not_lt.mpr hfits))).trans (hostPut_writes hok))
    · exact answers_no he ((hrun.trans (if_neg (Nat.not_lt.mpr hfits))).trans (hostPut_fails hd))
  case discard =>
    intro hst c
    have he := exec_admDiscardSaved hst
    exact ⟨fun h => answers_no he (cmdDiscardSaved_refused h), fun hp hr => answers_done he (cmdDiscardSaved_discards hp hr)⟩
  case tune =>
    intro hst c w
    have he := exec_admClauseTune hst
    refine ⟨fun h => answers_no he (cmdClauseTune_range h), fun hm hle => ⟨fun hc => ?_, fun hc => ?_⟩⟩
    · exact answers_no he ((cmdClauseTune_inRange hm hle).trans (if_neg (Bool.not_eq_true _ ▸ hc)))
    · exact answers_done he ((cmdClauseTune_inRange hm hle).trans (if_pos hc))
  case queues =>
    intro n lg vec a
    have hallowed {b : Bool} {op : Nat} (hst : Starts s fn p op) (h : sqAllowed s fn n = b) : sqAllowed s0 fn n = b :=
      (sqAllowed_takePacket hst.enabled n).trans h
    refine ⟨fun hst => ?create, fun op c hrow hst => ?both, fun y hok hn hq => ⟨fun hst => ?delete, fun hst => ?query⟩⟩
    case create =>
      intro c ok size
      have he := exec_admSqCreate hst
      have hmay {b : Bool} (h : ok = b) : mayCreate s0 fn p = b := by
        rw [mayCreate, sqAllowed_takePacket hst.enabled]
        exact h
      have hpermit (h : ok = true) : cmdSqCreate fn p s0 = _ := cmdSqCreate_allowed (hmay h)
      have hnumber (h : ok = true) (hn : n < 4096) : cmdSqCreate fn p s0 = _ := (hpermit h).trans (if_neg (Nat.not_le.mpr hn))
      have hlength (h : ok = true) (hn : n < 4096) (hsize : size) : cmdSqCreate fn p s0 = _ :=
        (hnumber h hn).trans (if_neg (show ¬ (lg < 4 ∨ 16 < lg) by omega))
      have hvector (h : ok = true) (hn : n < 4096) (hsize : size) (hv : vec < vecCount fn) : cmdSqCreate fn p s0 = _ :=
        (hlength h hn hsize).trans (if_neg (Nat.not_le.mpr hv))
      refine ⟨fun h => answers_no he (cmdSqCreate_denied (hmay h)), fun h hn => answers_no he ((hpermit h).trans (if_pos hn)),
        fun h hn hsize => answers_no he ((hnumber h hn).trans (if_pos (show lg < 4 ∨ 16 < lg by omega))),
        fun h hn hsize hv => answers_no he ((hlength h hn hsize).trans (if_pos hv)),
        fun h hn hsize hv ha => answers_no he ((hvector h hn hsize hv).trans (if_pos ha)), fun h hn hsize hv ha => ?_⟩
      have haddress := (hvector h hn hsize hv).trans (if_neg (Bool.not_eq_true _ ▸ ha))
      refine ⟨fun hq => answers_no he (haddress.trans (if_pos hq)), fun hq => answers_done he (haddress.trans (if_neg ?_))⟩
      simp [show getSq s0 (pkF p 8 2) = none from hq]
    case both =>
      obtain ⟨f, he⟩ := queueCommand_onSq hrow hst
      exact ⟨fun h => answers_no he (onSq_denied (hallowed hst h)), fun h hn => answers_no he (onSq_range (hallowed hst h) hn),
        fun h hn hq => answers_no he (onSq_absent (hallowed hst h) hn hq)⟩
    case delete =>
      have hrun {f : Nat → SQueue → Ans} : onSq fn p s0 f = f n y := onSq_found (hallowed hst hok) hn hq
      refine ⟨fun hused => answers_no (exec_admSqDelete hst) (hrun.trans (if_pos ?_)),
        fun hfree => answers_done (exec_admSqDelete hst) (hrun.trans (if_neg ?_))⟩
      · show (s.sched.recs.any fun e => isBound e.2 && e.2.statusQueue.toNat == n) = true
        simpa using hused
      · show ¬ (s.sched.recs.any fun e => isBound e.2 && e.2.statusQueue.toNat == n) = true
        simpa using hfree
    case query => exact answers_done (exec_admSqQuery hst) (onSq_found (hallowed hst hok) hn hq)
  case route =>
    intro hst c n v ok l
    have he := exec_admEventRoute hst
    have hpermit (h : ok) : cmdEventRoute fn p s0 = _ := cmdEventRoute_allowed h
    have hsource (h : ok) (hn : n < 1024) : cmdEventRoute fn p s0 = _ := (hpermit h).trans (if_neg (Nat.not_le.mpr hn))
    have hvector (h : ok) (hn : n < 1024) (hv : v < vecCount fn) : cmdEventRoute fn p s0 = _ :=
      (hsource h hn).trans (if_neg (Nat.not_le.mpr hv))
    have hother : (s.hp.routes.any fun r => r.1 == n && r.2.1 != fn) = true ↔ ∃ r ∈ s.hp.routes, r.1 = n ∧ r.2.1 ≠ fn := by simp
    refine ⟨fun h => answers_no he (cmdEventRoute_denied h), fun h hn => answers_no he ((hpermit h).trans (if_pos hn)),
      fun h hn hv => answers_no he ((hsource h hn).trans (if_pos hv)),
      fun h hn hv hr => answers_no he ((hvector h hn hv).trans (if_pos (hother.mpr hr))), fun h hn hv hown => ?_⟩
    refine answers_done he ((hvector h hn hv).trans (if_neg fun hany => ?_))
    obtain ⟨r, hr, hsrc, hfn⟩ := hother.mp hany
    exact hfn (hown r hr hsrc)
  case mailbox =>
    intro hst c m a b
    have he := exec_admMbxBind hst
    refine ⟨fun h => answers_no he (cmdMbxBind_mailbox h), fun h ha => answers_no he (cmdMbxBind_sender h ha),
      fun h ha hb => answers_no he (cmdMbxBind_receiver h ha hb), fun h hb hl => ?_, fun h hb hl => ?_⟩
    · exact answers_no he ((cmdMbxBind_legal h hb).trans (if_pos hl))
    · exact answers_done he ((cmdMbxBind_legal h hb).trans (if_neg (Bool.not_eq_true _ ▸ hl)))

end Sys2Proof.Machine
end

section
/-!
PROOFS. The arbiters (O39): a grant cut off at the hold limit, an input marked as starved, and two requesters swapped in a map that
is held as empty where it is the default.
-/

namespace Sys2Proof.Machine

/-! ### Inputs and maps (06 R181, R182) -/

theorem length_arbDefault (a : Nat) : (arbDefault a).length = arbInputs a := by
  by_cases h7 : a ≤ 7
  · simp [arbDefault, arbInputs, h7]
  · by_cases h9 : a = 9
    · subst h9; decide
    · simp [arbDefault, h7, h9]

theorem arbMap_ne_nil {a : Nat} (x : Arb) (h : 0 < arbInputs a) : arbMap a x ≠ [] := by
  unfold arbMap
  split
  · exact List.ne_nil_of_length_pos (length_arbDefault a ▸ h)
  · next hmap => simpa using hmap

/-- A map is held as empty where it is the default, and reads as it was given. -/
theorem arbMap_stored {a : Nat} {l : List Nat} (x : Arb) (h : l ≠ []) :
    arbMap a { x with map := if l == arbDefault a then [] else l } = l := by
  by_cases hd : l = arbDefault a
  · simp [arbMap, ← hd]
  · simp [arbMap, hd, h]

theorem swapAt_ne_nil {l : List Nat} (i j : Nat) (h : l ≠ []) : swapAt l i j ≠ [] := by
  simpa [swapAt] using h

/-! ### The rows (06 R179, R182, R183) -/

variable {s : State} {a i : BitVec 5}

/-- The grant of an input with a requester is cut off where that requester is of the data class. -/
theorem exec_arbCutoff_mapped {r : Nat} (h : (arbMap a.toNat (getArb s a.toNat))[i.toNat]? = some r) :
    exec (.arbCutoff a i) s = .next (if arbData a.toNat r then rcPulse (getArb s a.toNat).cutoffs
      (setArb s a.toNat { getArb s a.toNat with cutoff := true, cutoffs := satInc (getArb s a.toNat).cutoffs }) else s) := by
  show execArbCutoff a i s = _
  rw [execArbCutoff]
  simp only [h]

theorem starveSource_lt (a : BitVec 5) : (if a = 19 then 328 else 72 + a.toNat) < 1024 := by
  split <;> omega

/-- A request past STARVE marks its input and makes the arbiter's source pending. -/
theorem exec_arbStarve_marks (hs : (getArb s a.toNat).starve ≠ 0) (hi : i.toNat < arbInputs a.toNat) :
    exec (.arbStarve a i) s = .next (pulse (setArb s a.toNat
      { getArb s a.toNat with starved := setBit (getArb s a.toNat).starved i.toNat true })
      (if a = 19 then 328 else 72 + a.toNat)) := by
  have hsource : (a = 19) = (a.toNat = 19) := by rw [← BitVec.toNat_inj]; rfl
  simp only [hsource]
  exact if_pos (by simpa [hi] using hs)

theorem exec_arbStarve_off (hs : (getArb s a.toNat).starve = 0) : exec (.arbStarve a i) s = .next s :=
  if_neg (by simp [hs])

theorem exec_arbSwap_reject {v : Word} (hn : 0 < arbInputs a.toNat)
    (h : arbInputs a.toNat ≤ v.toNat % 32 ∨ arbInputs a.toNat ≤ v.toNat / 256 % 32) :
    exec (.arbSwap a v) s = .next (reject s 7) := by
  have hi : bitsAt v 0 5 = v.toNat % 32 := bitsAt_zero v 5
  have hj : bitsAt v 8 5 = v.toNat / 256 % 32 := rfl
  show execArbSwap a v s = _
  simp [execArbSwap, Nat.ne_of_gt hn, hi, hj, h, blkArb]

theorem exec_arbSwap_swaps {v : Word} (hi : v.toNat % 32 < arbInputs a.toNat) (hj : v.toNat / 256 % 32 < arbInputs a.toNat) :
    let l := swapAt (arbMap a.toNat (getArb s a.toNat)) (v.toNat % 32) (v.toNat / 256 % 32)
    exec (.arbSwap a v) s = .next (setArb s a.toNat
      { getArb s a.toNat with map := if l == arbDefault a.toNat then [] else l }) := by
  have hvi : bitsAt v 0 5 = v.toNat % 32 := bitsAt_zero v 5
  have hvj : bitsAt v 8 5 = v.toNat / 256 % 32 := rfl
  have hn : arbInputs a.toNat ≠ 0 := by omega
  show execArbSwap a v s = _
  simp [execArbSwap, hn, hvi, hvj, Nat.not_le.mpr hi, Nat.not_le.mpr hj]

/-! ### The statement -/

/-- Settles O39: each row does what its guard allows, and a swapped map reads as swapped even where the default map is held as
empty. -/
theorem arbitersCutStarveAndSwap : Obligations.ArbitersCutStarveAndSwap := by
  unfold Obligations.ArbitersCutStarveAndSwap
  intro s a i j v x n vi vj
  refine ⟨fun r hr => ⟨fun hdata hbelow => ?_, fun hdata => ?_⟩, fun hs hi => ?_, exec_arbStarve_off, fun hi hj => ?_,
    fun hn hout => ⟨_, exec_arbSwap_reject hn hout, rejected_reject s 7⟩⟩
  · rw [exec_arbCutoff_mapped hr, if_pos hdata, rcPulse_below hbelow, satInc_below hbelow]
  · rw [exec_arbCutoff_mapped hr, hdata]
    rfl
  · obtain ⟨h, e, o, hp, hpend⟩ := pulse_what
      (setArb s a.toNat { x with starved := setBit x.starved i.toNat true }) (starveSource_lt a)
    exact ⟨_, exec_arbStarve_marks hs hi, by rw [hp], by rw [hp]; exact hpend, by rw [hp]; rfl⟩
  · have hmap : arbMap a.toNat x ≠ [] := arbMap_ne_nil x (by omega)
    exact ⟨_, exec_arbSwap_swaps hi hj, rfl, arbMap_stored x (swapAt_ne_nil vi vj hmap)⟩

end Sys2Proof.Machine
end

section
/-!
PROOFS. The turns of a mover and the read-backs of barred requests (O37): the rotation reaches the one context in use, what a turn
fetches and writes, and what the end of a request leaves.
-/

namespace Sys2Proof.Machine

/-! ### Turns pass over contexts with nothing to do (06 R156) -/

variable {s : State} {m k : Nat} {p : Transfer}

/-- A rotation visits every context. -/
theorem mem_rotation (last : Nat) (h : k < 64) : k ∈ rotation last :=
  List.mem_map.mpr ⟨(k + 63 - last % 64) % 64, List.mem_range.mpr (by omega), by omega⟩

theorem ctxAt_single_same {x : Mover} (h : x.ctx = [(k, p)]) : ctxAt x k = some p := by
  simp [ctxAt, aget, h]

theorem ctxAt_single_other {x : Mover} {j : Nat} (h : x.ctx = [(k, p)]) (hj : j ≠ k) : ctxAt x j = none := by
  simp [ctxAt, aget, h, hj.symm]

theorem ctxAt_empty {x : Mover} (h : x.ctx = []) (j : Nat) : ctxAt x j = none := by
  rw [ctxAt, h]
  rfl

theorem readRotate_pass {l : List Nat} (h : ∀ k ∈ l, ∀ p, ctxAt (getMv s m) k = some p → readTurn s m k p = none) :
    readRotate s m l = s := by
  induction l with
  | nil => rfl
  | cons k l ih =>
    have hl := ih fun j hj => h j (List.mem_cons_of_mem _ hj)
    unfold readRotate
    split
    · exact hl
    · next p hp => rw [h k List.mem_cons_self p hp]; exact hl

theorem writeRotate_pass {l : List Nat} (h : ∀ k ∈ l, ∀ p, ctxAt (getMv s m) k = some p → writeTurn s m k p = none) :
    writeRotate s m l = s := by
  induction l with
  | nil => rfl
  | cons k l ih =>
    have hl := ih fun j hj => h j (List.mem_cons_of_mem _ hj)
    unfold writeRotate
    split
    · exact hl
    · next p hp => rw [h k List.mem_cons_self p hp]; exact hl

/-- The one context in use has its turn, wherever the rotation stands. -/
theorem readRotate_single {u : State} {l : List Nat} (hx : (getMv s m).ctx = [(k, p)]) (hk : k ∈ l)
    (h : readTurn s m k p = some u) : readRotate s m l = modMv u m fun x => { x with rlast := k } := by
  induction l with
  | nil => nomatch hk
  | cons j l ih =>
    unfold readRotate
    by_cases hj : j = k
    · rw [hj, ctxAt_single_same hx]
      simp only [h]
    · rw [ctxAt_single_other hx hj]
      exact ih ((List.mem_cons.mp hk).resolve_left (Ne.symm hj))

theorem writeRotate_single {u : State} {l : List Nat} (hx : (getMv s m).ctx = [(k, p)]) (hk : k ∈ l)
    (h : writeTurn s m k p = some u) : writeRotate s m l = modMv u m fun x => { x with wlast := k } := by
  induction l with
  | nil => nomatch hk
  | cons j l ih =>
    unfold writeRotate
    by_cases hj : j = k
    · rw [hj, ctxAt_single_same hx]
      simp only [h]
    · rw [ctxAt_single_other hx hj]
      exact ih ((List.mem_cons.mp hk).resolve_left (Ne.symm hj))

theorem exec_moverReadTurn_stopped {m : BitVec 3} (h : moverRuns s m.toNat = false) : exec (.moverReadTurn m) s = .next s :=
  congrArg Host.Outcome.next (if_neg (by simp [h]))

theorem exec_moverWriteTurn_stopped {m : BitVec 3} (h : moverRuns s m.toNat = false) : exec (.moverWriteTurn m) s = .next s :=
  congrArg Host.Outcome.next (if_neg (by simp [h]))

theorem exec_moverReadTurn_runs {m : BitVec 3} (h : moverRuns s m.toNat = true) :
    exec (.moverReadTurn m) s = .next (readRotate s m.toNat (rotation (getMv s m.toNat).rlast)) :=
  congrArg Host.Outcome.next (if_pos h)

theorem exec_moverWriteTurn_runs {m : BitVec 3} (h : moverRuns s m.toNat = true) :
    exec (.moverWriteTurn m) s = .next (writeRotate s m.toNat (rotation (getMv s m.toNat).wlast)) :=
  congrArg Host.Outcome.next (if_pos h)

/-- A read turn in which every context is passed over changes nothing. -/
theorem exec_moverReadTurn_pass {m : BitVec 3} (h : ∀ k p, ctxAt (getMv s m.toNat) k = some p → readTurn s m.toNat k p = none) :
    exec (.moverReadTurn m) s = .next s := by
  cases hrun : moverRuns s m.toNat
  · exact exec_moverReadTurn_stopped hrun
  · rw [exec_moverReadTurn_runs hrun, readRotate_pass fun k _ => h k]

theorem exec_moverWriteTurn_pass {m : BitVec 3} (h : ∀ k p, ctxAt (getMv s m.toNat) k = some p → writeTurn s m.toNat k p = none) :
    exec (.moverWriteTurn m) s = .next s := by
  cases hrun : moverRuns s m.toNat
  · exact exec_moverWriteTurn_stopped hrun
  · rw [exec_moverWriteTurn_runs hrun, writeRotate_pass fun k _ => h k]

/-! ### A mover's one context stored (06 R153) -/

/-- Of two writes of a mover's record the second alone is seen, where the first leaves a transfer in it. -/
theorem setMv_setMv_of_ctx {x y : Mover} (h : x.ctx ≠ []) : setMv (setMv s m x) m y = setMv s m y := by
  have htab : tset {} m y (tset {} m x s.mv.movers) = tset {} m y s.mv.movers :=
    tset_tset_new m y s.mv.movers fun e => h (by rw [e])
  simp only [setMv, htab]

theorem getMv_setMv_of_ctx {x : Mover} (h : x.ctx ≠ []) : getMv (setMv s m x) m = x :=
  tget_tset_new _ _ fun e => h (by rw [e])

/-- A transfer outside any clause is stored as it is. -/
theorem putCtx_single {q : Transfer} (hx : (getMv s m).ctx = [(k, p)]) (hq : q.clause = none) :
    putCtx s m k q = setMv s m { getMv s m with ctx := [(k, q)] } := by
  have hlive : markDead s q = q := by simp [markDead, hq]
  simp [putCtx, hlive, modMv, hx]

/-! ### A transfer of one piece of memory to memory (06 R155, R156) -/

/-- A MOVE with one segment, in ascending order, outside any clause, that goes on. -/
structure PlainMove (p : Transfer) (a b : Dword) (n : Nat) : Prop where
  segs : p.segs = [{ src := .mem a, dst := .mem b, len := n }]
  compare : p.compare = false
  xf : p.xf = none
  clause : p.clause = none
  arrival : p.arrival = false
  fault : p.fault = false

variable {a b : Dword} {n : Nat}

theorem PlainMove.tTotal (h : PlainMove p a b n) : tTotal p = n := by
  simp [Machine.tTotal, segsLen, h.segs]

theorem PlainMove.tOp (h : PlainMove p a b n) : tOp p = none := by
  simp [Machine.tOp, h.segs]

theorem PlainMove.liveClause (h : PlainMove p a b n) : liveClause s p = none := by
  simp [Machine.liveClause, h.clause]

theorem PlainMove.readOver (h : PlainMove p a b n) : readOver s p = false := by
  simp [Machine.readOver, h.tOp]

theorem PlainMove.wantsOther (h : PlainMove p a b n) : wantsOther p = none := by
  simp [Machine.wantsOther, h.compare]

theorem PlainMove.lineNext (h : PlainMove p a b n) (hseg : p.rseg = 0) : lineNext p = none := by
  simp [Machine.lineNext, hseg, h.segs, tableOf]

/-- One context alone is never short of pool blocks: WINDOW bounds it. -/
theorem windowRoom_single {x : Mover} (h : x.ctx = [(k, p)]) : windowRoom s x p = s.mv.window.toNat * 4096 - buffered p := by
  have hw : s.mv.window.toNat < 16 := s.mv.window.isLt
  simp only [windowRoom, h, List.map_cons, List.map_nil, List.sum_cons, List.sum_nil]
  omega

theorem PlainMove.readTurn (h : PlainMove p a b n) : readTurn s m k p = readTurn.readGo s m k p := by
  simp [Machine.readTurn, h.arrival, h.fault, h.xf]

theorem PlainMove.fetchTurn (h : PlainMove p a b n) (hseg : p.rseg = 0) (r : Nat) :
    fetchTurn s p r = if r < 1 then .pass s else fetchMain s p r := by
  simp [Machine.fetchTurn, h.wantsOther, h.lineNext hseg, h.compare]

/-- Without room nothing is fetched (06 R155). -/
theorem PlainMove.readTurn_full (h : PlainMove p a b n) (hseg : p.rseg = 0) (hroom : windowRoom s (getMv s m) p = 0) :
    Machine.readTurn s m k p = none := by
  simp [h.readTurn, readTurn.readGo, h.fetchTurn hseg, hroom]

theorem length_getBytes (t : Tab Byte) (o n : Nat) : (getBytes t o n).length = n := by
  rw [getBytes_eq_map, List.length_map, List.length_range]

/-- Bytes read of buffer DRAM or local memory are as many as asked for. -/
theorem length_of_readMem {prn : Nat} {l : List Byte} (hsp : spaceOf a = 8 ∨ spaceOf a = 0xA)
    (h : readMem s prn a n = .ok l) : l.length = n := by
  rcases hsp with hsp | hsp
  · simp only [readMem, hsp] at h
    split at h
    · cases h
    · cases h; exact length_getBytes _ _ _
  · simp only [readMem, hsp] at h
    cases h; exact length_getBytes _ _ _

theorem dataRead_local {l : List Byte} (hsp : spaceOf a = 8 ∨ spaceOf a = 0xA) (h : readMem s (tPrn p) a n = .ok l) :
    dataRead s p a n = .ok s l := by
  rcases hsp with hsp | hsp <;> simp only [dataRead, hsp, h]

/-- the transfer after a fetch of `l` at its read position -/
def fetchedOn (p : Transfer) (n : Nat) (l : List Byte) : Transfer :=
  { p with buf := p.buf ++ [{ seg := 0, off := p.roff, bytes := l }]
           rseg := if p.roff + l.length < n then 0 else 1
           roff := if p.roff + l.length < n then p.roff + l.length else 0 }

theorem PlainMove.fetchMain (h : PlainMove p a b n) (hseg : p.rseg = 0) (hup : segDesc { src := .mem a, dst := .mem b, len := n } = false)
    {r : Nat} {l : List Byte} (hne : l ≠ [])
    (hread : dataRead s p (a + BitVec.ofNat 64 p.roff) (min (upTo4k (offOf (a + BitVec.ofNat 64 p.roff)) (n - p.roff)) r) = .ok s l) :
    fetchMain s p r = .got s (fetchedOn p n l) := by
  have hadv : advance (pushChunk p p.rseg p.roff l) n l.length = fetchedOn p n l := by
    by_cases hmore : p.roff + l.length < n
    · simp only [advance, pushChunk, fetchedOn, hseg, hmore, if_true]
    · simp only [advance, pushChunk, fetchedOn, hseg, hmore, if_false]
  have hempty : l.isEmpty = false := by simpa using hne
  simp only [Machine.fetchMain, hseg, h.segs, List.getElem?_cons_zero, h.xf, hup, Option.isNone_none, Bool.and_false,
    Bool.false_eq_true, if_false, hread, hempty]
  rw [← hadv, hseg]

theorem PlainMove.readTurn_fetches (h : PlainMove p a b n) (hseg : p.rseg = 0) (hx : (getMv s m).ctx = [(k, p)])
    {l : List Byte} (hroom : 0 < windowRoom s (getMv s m) p)
    (hfetch : Machine.fetchMain s p (windowRoom s (getMv s m) p) = .got s (fetchedOn p n l)) :
    Machine.readTurn s m k p = some (setMv s m { getMv s m with ctx := [(k, fetchedOn p n l)] }) := by
  have hput : putCtx s m k (fetchedOn p n l) = _ := putCtx_single hx h.clause
  rw [h.readTurn, readTurn.readGo, h.fetchTurn hseg, if_neg (by omega), hfetch, ← hput]

theorem modMv_setMv_of_ctx {x : Mover} (f : Mover → Mover) (h : x.ctx ≠ []) : modMv (setMv s m x) m f = setMv s m (f x) := by
  rw [modMv, getMv_setMv_of_ctx h, setMv_setMv_of_ctx h]

/-! ### The end of a request of the control processor (06 R158, 07 R220) -/

/-- what a request's end leaves: its ticket with the result, and OUT with the bytes moved -/
def requestDone (s : State) (tk blk moved : Nat) (e : TEnd) : State :=
  { s with mem := { s.mem with tcm := putBytes s.mem.tcm (blk + 24) (toLE 4 moved) }
           cp := { s.cp with tickets := tset .free tk (.done e.result e.detail) s.cp.tickets } }

theorem resumeCpMovwt_none {c : Cp} (h : c.stall = none) : resumeCpMovwt c = c := by
  simp [resumeCpMovwt, h]

theorem requestEnd_firmware {tk blk : Nat} (e : TEnd) (ho : p.origin = .firmware tk blk) (hcmp : p.compare = false)
    (hbusy : tget .free s.cp.tickets tk = .busy p.id) (hstall : s.cp.stall = none) :
    requestEnd s p e = requestDone s tk blk p.moved e := by
  have hmark : markTicket s.cp.tickets tk p.id e.result e.detail = tset .free tk (.done e.result e.detail) s.cp.tickets :=
    if_pos (beq_iff_eq.mpr hbusy)
  simp only [requestEnd, ho, hcmp, writeOut, writeTcm, Bool.false_and, Bool.false_eq_true, if_false, hmark, requestDone]
  rw [resumeCpMovwt_none (by exact hstall)]

/-- A transfer that leaves its mover lets a waiting one in: only the movers change (06 R153). -/
theorem fillMv_dropCtx_what (s : State) (m k : Nat) : ∃ v, fillMv (dropCtx s m k) m = { s with mv := v } := ⟨_, rfl⟩

/-- The request that ends leaves its result in its ticket. -/
theorem tget_requestDone (s : State) (tk blk moved : Nat) (e : TEnd) :
    tget .free (requestDone s tk blk moved e).cp.tickets tk = .done e.result e.detail :=
  tget_tset_new _ _ Ticket.noConfusion

section
variable {tk blk : Nat} (ho : p.origin = .firmware tk blk) (hcmp : p.compare = false)
  (hbusy : tget .free s.cp.tickets tk = .busy p.id) (hstall : s.cp.stall = none)
include ho hcmp hbusy hstall

theorem transferEnd_firmware (e : TEnd) : ∃ v, transferEnd s m k p e = requestDone { s with mv := v } tk blk p.moved e := by
  obtain ⟨v, hv⟩ := fillMv_dropCtx_what s m k
  refine ⟨v, ?_⟩
  simp only [transferEnd, ho, hv]
  exact requestEnd_firmware e ho hcmp hbusy hstall

theorem transferStops_firmware (chan det : Byte) (e : TEnd) (resid : Option Word) :
    ∃ v, transferStops s m k p chan det e resid = requestDone { s with mv := v } tk blk p.moved e := by
  obtain ⟨v, hv⟩ := fillMv_dropCtx_what s m k
  refine ⟨v, ?_⟩
  simp only [transferStops, ho, hv]
  exact requestEnd_firmware e ho hcmp hbusy hstall

end

/-! ### A write turn (06 R156, R158) -/

/-- the transfer after a write of what is buffered, `n` bytes -/
def writtenOut (p : Transfer) (n : Nat) : Transfer := { p with buf := [], moved := p.moved + n }

theorem PlainMove.writeTurn (h : PlainMove p a b n) {off : Nat} {l : List Byte} (hbuf : p.buf = [{ seg := 0, off := off, bytes := l }])
    (hmore : p.moved < n) (hsp : spaceOf (b + BitVec.ofNat 64 off) = 8) :
    Machine.writeTurn s m k p =
      some (afterPut (writeDram s (offOf (b + BitVec.ofNat 64 off)) l) m k (writtenOut p l.length) .on) := by
  have hwork : workOf s p = .chunk { seg := 0, off := off, bytes := l } := by
    simp [workOf, h.arrival, h.tTotal, h.readOver, h.xf, hbuf, h.compare, elemPartial, h.segs, Nat.ne_of_lt hmore]
  have hput : destWrite s p 0 (.mem b) off l =
      { s := writeDram s (offOf (b + BitVec.ofNat 64 off)) l, t := p, n := l.length, stop := .on } := by
    simp only [destWrite, dataWrite, hsp]
  have heat : eatChunk p l.length = writtenOut p l.length := by
    simp [eatChunk, hbuf, writtenOut]
  simp [Machine.writeTurn, hwork, h.compare, h.xf, h.segs, hput, heat]

/-- A transfer with bytes left goes on in its context. -/
theorem PlainMove.afterPut_more (h : PlainMove p a b n) (hx : (getMv s m).ctx = [(k, p)]) {j : Nat} (hmore : p.moved + j < n) :
    afterPut s m k (writtenOut p j) .on = setMv s m { getMv s m with ctx := [(k, writtenOut p j)] } := by
  have hleft : ¬ (writtenOut p j).moved = Machine.tTotal (writtenOut p j) := by
    rw [show Machine.tTotal (writtenOut p j) = n from h.tTotal]
    exact Nat.ne_of_lt hmore
  rw [← putCtx_single hx (show (writtenOut p j).clause = none from h.clause)]
  simp [afterPut, hleft]

/-- The last byte written ends the transfer, where its destination is not host memory. -/
theorem PlainMove.afterPut_last (h : PlainMove p a b n) {j : Nat} (hlast : p.moved + j = n) (hsp : spaceOf b = 8) :
    afterPut s m k (writtenOut p j) .on = transferEnd s m k { writtenOut p j with runs := [] } {} := by
  have hall : (writtenOut p j).moved = Machine.tTotal (writtenOut p j) :=
    hlast.trans (show Machine.tTotal (writtenOut p j) = n from h.tTotal).symm
  have hafter : afterPut s m k (writtenOut p j) .on = lastByte s m k (writtenOut p j) := by
    simp [afterPut, hall]
  have hxf : (writtenOut p j).xf = none := h.xf
  have hclause : (writtenOut p j).clause = none := h.clause
  have hsegs : (writtenOut p j).segs = [{ src := .mem a, dst := .mem b, len := n }] := h.segs
  rw [hafter]
  simp [lastByte, recordWaits, awaitsHost, hxf, hclause, hsegs, hsp]

/-! ### The turns of a mover with one context in use -/

section
variable {m : BitVec 3} (hrun : moverRuns s m.toNat = true) (hx : (getMv s m.toNat).ctx = [(k, p)]) (hk : k < 64)
  (h : PlainMove p a b n)
include hrun hx hk h

theorem exec_moverReadTurn_fetches (hseg : p.rseg = 0) (hup : segDesc { src := .mem a, dst := .mem b, len := n } = false)
    {l : List Byte} (hleft : p.roff < n) (hsp : spaceOf (a + BitVec.ofNat 64 p.roff) = 8 ∨ spaceOf (a + BitVec.ofNat 64 p.roff) = 0xA)
    (hroom : 0 < windowRoom s (getMv s m.toNat) p)
    (hread : readMem s (tPrn p) (a + BitVec.ofNat 64 p.roff)
      (min (upTo4k (offOf (a + BitVec.ofNat 64 p.roff)) (n - p.roff)) (windowRoom s (getMv s m.toNat) p)) = .ok l) :
    exec (.moverReadTurn m) s = .next (setMv s m.toNat { getMv s m.toNat with rlast := k, ctx := [(k, fetchedOn p n l)] }) := by
  have hlen := length_of_readMem hsp hread
  have hsome : l ≠ [] := List.ne_nil_of_length_pos (by rw [upTo4k] at hlen; omega)
  have hturn := h.readTurn_fetches hseg hx hroom (h.fetchMain hseg hup hsome (dataRead_local hsp hread))
  rw [exec_moverReadTurn_runs hrun, readRotate_single hx (mem_rotation _ hk) hturn, modMv_setMv_of_ctx _ (List.cons_ne_nil _ _)]

theorem exec_moverWriteTurn_writes {off : Nat} {l : List Byte} (hbuf : p.buf = [{ seg := 0, off := off, bytes := l }])
    (hmore : p.moved < n) (hsp : spaceOf (b + BitVec.ofNat 64 off) = 8) :
    exec (.moverWriteTurn m) s = .next (modMv
      (afterPut (writeDram s (offOf (b + BitVec.ofNat 64 off)) l) m.toNat k (writtenOut p l.length) .on)
      m.toNat fun x => { x with wlast := k }) := by
  rw [exec_moverWriteTurn_runs hrun, writeRotate_single hx (mem_rotation _ hk) (h.writeTurn hbuf hmore hsp)]

theorem exec_moverWriteTurn_goesOn {off : Nat} {l : List Byte} (hbuf : p.buf = [{ seg := 0, off := off, bytes := l }])
    (hsome : l ≠ []) (hmore : p.moved + l.length < n) (hsp : spaceOf (b + BitVec.ofNat 64 off) = 8) :
    exec (.moverWriteTurn m) s = .next (setMv (writeDram s (offOf (b + BitVec.ofNat 64 off)) l) m.toNat
      { getMv s m.toNat with wlast := k, ctx := [(k, writtenOut p l.length)] }) := by
  have hlen : 0 < l.length := List.length_pos_iff.mpr hsome
  rw [exec_moverWriteTurn_writes hrun hx hk h hbuf (by omega) hsp,
    h.afterPut_more (s := writeDram s (offOf (b + BitVec.ofNat 64 off)) l) hx hmore, modMv_setMv_of_ctx _ (List.cons_ne_nil _ _)]
  rfl

/-- The turn that writes the last byte ends the request. -/
theorem exec_moverWriteTurn_ends {off tk blk : Nat} {l : List Byte} (hbuf : p.buf = [{ seg := 0, off := off, bytes := l }])
    (hsome : l ≠ []) (hlast : p.moved + l.length = n) (hsp : spaceOf (b + BitVec.ofNat 64 off) = 8) (hspb : spaceOf b = 8)
    (ho : p.origin = .firmware tk blk) (hbusy : tget .free s.cp.tickets tk = .busy p.id) (hstall : s.cp.stall = none) :
    ∃ v, exec (.moverWriteTurn m) s =
      .next { requestDone (writeDram s (offOf (b + BitVec.ofNat 64 off)) l) tk blk n {} with mv := v } := by
  have hlen : 0 < l.length := List.length_pos_iff.mpr hsome
  obtain ⟨v, hv⟩ := transferEnd_firmware (s := writeDram s (offOf (b + BitVec.ofNat 64 off)) l)
    (p := { writtenOut p l.length with runs := [] }) (m := m.toNat) (k := k) ho h.compare hbusy hstall {}
  rw [exec_moverWriteTurn_writes hrun hx hk h hbuf (by omega) hsp, h.afterPut_last hlast hspb, hv, ← hlast]
  exact ⟨_, rfl⟩

end

theorem exec_moverReadTurn_full {m : BitVec 3} (hx : (getMv s m.toNat).ctx = [(k, p)]) (h : PlainMove p a b n) (hseg : p.rseg = 0)
    (hroom : windowRoom s (getMv s m.toNat) p = 0) : exec (.moverReadTurn m) s = .next s := by
  refine exec_moverReadTurn_pass fun j q hq => ?_
  by_cases hj : j = k
  · rw [hj, ctxAt_single_same hx] at hq
    rw [← Option.some.inj hq]
    exact h.readTurn_full hseg hroom
  · rw [ctxAt_single_other hx hj] at hq
    nomatch hq

theorem exec_moverTurns_empty {m : BitVec 3} (h : (getMv s m.toNat).ctx = []) :
    exec (.moverReadTurn m) s = .next s ∧ exec (.moverWriteTurn m) s = .next s :=
  have hnone {k : Nat} {p : Transfer} (hp : ctxAt (getMv s m.toNat) k = some p) : False := nomatch (ctxAt_empty h k).symm.trans hp
  ⟨exec_moverReadTurn_pass fun _ _ hp => (hnone hp).elim, exec_moverWriteTurn_pass fun _ _ hp => (hnone hp).elim⟩

/-! ### Arrival reports (06 R161, R162) -/

section
variable {id : Word} (h : findTransfer s id.toNat = some (m, k, p)) (d : Byte)
include h

theorem exec_barrierReadbackDone_early (ha : p.arrival = false) : exec (.barrierReadbackDone (.transfer id) d) s = .next s := by
  show Host.Outcome.next (arrivalOf s id.toNat d) = _
  simp [arrivalOf, h, ha]

theorem exec_barrierReadbackDone_good (ha : p.arrival = true) :
    exec (.barrierReadbackDone (.transfer id) 0) s = .next (transferEnd s m k { p with arrival := false } {}) := by
  show Host.Outcome.next (arrivalOf s id.toNat 0) = _
  simp [arrivalOf, h, ha]

theorem exec_barrierReadbackDone_fails (ha : p.arrival = true) (hd : d ≠ 0) :
    exec (.barrierReadbackDone (.transfer id) d) s = .next (transferStops s m k p chanHost d { result := 2, detail := d } none) := by
  have hd' : ¬ d = 0#8 := hd
  show Host.Outcome.next (arrivalOf s id.toNat d) = _
  simp [arrivalOf, h, ha, hd']

end

theorem exec_barrierReadbackDone_unawaited (d : Byte) (h : s.fs.barHold = none) : exec (.barrierReadbackDone .release d) s = .next s := by
  show Host.Outcome.next (releaseArrival s d) = _
  rw [releaseArrival, h]

/-! ### The statement -/

/-- Settles O37: the one context in use has its turn wherever the rotation stands, a fetch is as long as asked for, and the
request that ends leaves its result in its ticket. -/
theorem moverTurnsAndReadbacks : Obligations.MoverTurnsAndReadbacks := by
  unfold Obligations.MoverTurnsAndReadbacks
  constructor
  case left =>
    intro s m x
    refine ⟨fun h => ⟨exec_moverReadTurn_stopped h, exec_moverWriteTurn_stopped h⟩, exec_moverTurns_empty, ?_⟩
    intro k p a b n hrun hx hk hsegs hcmp hxf hclause harr hfault hseg hup from_ room size
    have hp : PlainMove p a b n := ⟨hsegs, hcmp, hxf, hclause, harr, hfault⟩
    have hroom : windowRoom s (getMv s m.toNat) p = room := windowRoom_single hx
    refine ⟨fun l hleft hsp hread hpos => ?_, fun hfull => exec_moverReadTurn_full hx hp hseg (hroom.trans hfull), ?_⟩
    · have hlen : l.length = size := length_of_readMem hsp hread
      have hfetch := exec_moverReadTurn_fetches hrun hx hk hp hseg hup hleft hsp (hroom ▸ hpos) (by rw [hroom]; exact hread)
      rw [hfetch, fetchedOn, hlen]
    · intro off l hbuf hne hsp put
      refine ⟨fun hmore => exec_moverWriteTurn_goesOn hrun hx hk hp hbuf hne hmore hsp, fun tk blk hlast hspb ho hbusy hstall => ?_⟩
      obtain ⟨v, hv⟩ := exec_moverWriteTurn_ends hrun hx hk hp hbuf hne hlast hsp hspb ho hbusy hstall
      exact ⟨_, hv, tget_requestDone _ tk blk n {}, rfl, rfl⟩
  case right =>
    intro s id d m k p hfind
    refine ⟨exec_barrierReadbackDone_early hfind d, fun tk blk harr hcmp ho hbusy hstall => ?_, exec_barrierReadbackDone_unawaited d⟩
    by_cases hd : d = 0
    · subst hd
      obtain ⟨v, hv⟩ := transferEnd_firmware (p := { p with arrival := false }) (m := m) (k := k) ho hcmp hbusy hstall {}
      exact ⟨_, exec_barrierReadbackDone_good hfind harr, hv ▸ tget_requestDone _ tk blk _ _, by rw [hv]; rfl⟩
    · obtain ⟨v, hv⟩ := transferStops_firmware (m := m) (k := k) ho hcmp hbusy hstall chanHost d { result := 2, detail := d } none
      rw [if_neg hd]
      exact ⟨_, exec_barrierReadbackDone_fails hfind d harr hd, hv ▸ tget_requestDone _ tk blk _ _, by rw [hv]; rfl⟩

end Sys2Proof.Machine
end

section
/-!
PROOFS. Mover checks and restarts (O38) fail as stated on a table of movers that lists one number twice.
-/

namespace Sys2Proof.Machine

/-- a request of the control processor -/
def strayRequest : Transfer := { id := 0, origin := .firmware 0 0, master := 0, fn := 0, segs := [] }
/-- Mover 0 twice in the table: the record read has the request in its context 0 and is otherwise at its default; the one
below it had its context 5 served last. -/
def moverTwice : State := { State.reset with
  mv := { State.reset.mv with movers := [(0, { ctx := [(0, strayRequest)] }), (0, { rlast := 5 })] } }

/-- Refutes O38: the statement asks a canonical table of the records alone, and not of the movers. The check leaves the first
record of `moverTwice` at its default when it cancels the request, so that record leaves the table, and mover 0 then reads as the
second, whose RLAST is 5 and not the 63 that the check was to keep. -/
theorem not_moverChecksAndRestart : ¬ Obligations.MoverChecksAndRestart := by
  unfold Obligations.MoverChecksAndRestart
  intro h
  have hruns : moverRuns moverTwice 0 = true := by decide
  have hat : ctxAt (getMv moverTwice 0) 0 = some strayRequest := by decide
  have hfirmware : ∀ q ∈ transfersOf (getMv moverTwice 0), ∃ a b, q.origin = .firmware a b :=
    fun q hq => ⟨0, 0, by rw [List.mem_singleton.mp hq]; rfl⟩
  obtain ⟨t, hexec, hchecked, -⟩ := (h.1 moverTwice 0 0 .ecc false strayRequest).1 hruns nil_canon hat hfirmware
  have hstated : (getMv t 0).rlast = 63 := congrArg Mover.rlast hchecked
  have hmodel : (getMv t 0).rlast = 5 := by
    rw [← Host.Outcome.next.inj hexec]
    decide +kernel
  omega

end Sys2Proof.Machine
end

section
/-!
PROOFS. Admin rings, heads and moderation (O40) fail as stated where `HF_ADM_CFG.SIZE` is 0.
-/

namespace Sys2Proof.Machine

/-- PF0's admin queue in service with `HF_ADM_CFG.SIZE` = 0: each ring has one entry, at which its head and its tail stand. -/
def ringOfOne : State := { State.reset with
  hp := { State.reset.hp with
    funcs := [(0x40, { size := 0, enable := true, ready := true, bme := true, mse := true })]
    linkA := { rate := 1 } }
  rst := { State.reset.rst with fwReady := true } }

theorem ringOfOne_hostUp : HostUp ringOfOne 0x40 := by unfold HostUp; decide

/-- Refutes O40: the clause of a tail one past the head is stated for every SIZE, and not only for the 4 to 12 that HF_ADM_CFG
takes. In the ring of one entry that SIZE = 0 makes, the entry past the head is the head again: the tail write leaves the ring
empty, and no packet is fetched. -/
theorem not_ringsHeadsAndModeration : ¬ Obligations.RingsHeadsAndModeration := by
  unfold Obligations.RingsHeadsAndModeration
  intro h
  obtain ⟨-, -, -, -, -, hfetch, -⟩ := h.1 ringOfOne 0x40 0 [] ringOfOne_hostUp
  obtain ⟨t, hexec, -, -, -, -, hfetched⟩ := hfetch (by decide) (by decide) (by decide) (by decide) (by decide) (by decide) (by decide)
  have hstated : (getFunc t 0x40).fetched.length = 1 := by
    rw [hfetched]
    rfl
  have hmodel : (getFunc t 0x40).fetched = [] := by
    rw [← Host.Outcome.next.inj hexec]
    decide +kernel
  rw [hmodel] at hstated
  exact absurd hstated (by decide)

end Sys2Proof.Machine
end

section
/-!
PROOFS. The checks an admin command makes before its own (O44).
-/

namespace Sys2Proof.Machine

/-! ### Each command runs under the checks all commands share (09 R290) -/

/-- The command stands in the table of opcodes, and once its first checks are passed it does `f`. -/
def RunsChecked (op : Nat) (c : Master → Packet → Instr) (f : Master → Packet → State → Ans) : Prop :=
  op ∈ adminOps ∧ ∀ fn p s, exec (c fn p) s = .next (adm op (admNamed op p) (f fn p) fn p s)

theorem AdmRow.runsChecked {op : Nat} {c : Master → Packet → Instr} (h : AdmRow op c) : ∃ f, RunsChecked op c f := by
  have hrow {l : List (Nat × (Master → Packet → Instr))} (hl : ∀ r ∈ l, ∃ f, RunsChecked r.1 r.2 f) (h : (op, c) ∈ l) :
      ∃ f, RunsChecked op c f := hl _ h
  rcases h with h | h | h | ⟨rfl, _, rfl⟩
  · refine hrow ?_ h
    repeat refine List.forall_mem_cons.mpr ⟨⟨_, by decide, fun _ _ _ => rfl⟩, ?_⟩
    exact List.forall_mem_nil _
  · refine hrow ?_ h
    repeat refine List.forall_mem_cons.mpr ⟨⟨_, by decide, fun _ _ _ => rfl⟩, ?_⟩
    exact List.forall_mem_nil _
  · refine hrow ?_ h
    repeat refine List.forall_mem_cons.mpr ⟨⟨_, by decide, fun _ _ _ => rfl⟩, ?_⟩
    exact List.forall_mem_nil _
  · exact ⟨_, by decide, fun _ _ _ => rfl⟩

/-! ### What `adm` does with a packet (09 R287, R290) -/

section
variable {s : State} {fn : Master} {p : Packet} {op : Nat} {named : List (Nat × Nat)} {f : State → Ans}

theorem adm_waits (h : mayStart s fn p = false) : adm op named f fn p s = s := by
  simp [adm, h]

/-- A packet of another command leaves this one undone. -/
theorem adm_other (hop : pkF p 0 2 ≠ op) (hdef : pkF p 0 2 ∈ adminOps) : adm op named f fn p s = s := by
  have hdef' : adminOps.contains (pkF p 0 2) = true := List.contains_iff_mem.mpr hdef
  have hop' : (pkF p 0 2 != op) = true := bne_iff_ne.mpr hop
  rw [adm, hdef', hop', Bool.and_self, Bool.or_true, if_pos rfl]

theorem adm_taken (h : mayStart s fn p = true) (hop : pkF p 0 2 = op ∨ pkF p 0 2 ∉ adminOps) :
    adm op named f fn p s = answerCmd fn p (firstChecks (takePacket s fn) fn p named f) := by
  have hmine : (pkF p 0 2 != op && adminOps.contains (pkF p 0 2)) = false := by
    rcases hop with e | hno
    · rw [bne_eq_false_iff_eq.mpr e, Bool.false_and]
    · rw [Bool.eq_false_iff.mpr (hno ∘ List.contains_iff_mem.mp), Bool.and_false]
  rw [adm, hmine, h, Bool.not_true, Bool.or_self, if_neg Bool.false_ne_true]

/-! ### The checks in their order (09 R290, R291, 11 R356, 13 R406) -/

theorem firstChecks_undefined (h : pkF p 0 2 ∉ adminOps) : firstChecks s fn p named f = refuse s stInvalidOp :=
  if_pos (by simpa using h)

theorem opcode_defined (h : pkF p 0 2 ∈ adminOps) : ¬ (!(adminOps.contains (pkF p 0 2))) = true := by simpa using h

theorem opcode_served (h : s.rst.rom = false ∨ pkF p 0 2 = 1) : ¬ (s.rst.rom && pkF p 0 2 != 1) = true := by
  rcases h with e | e <;> simp [e]

theorem opcode_unfenced (h : isFenced s = false ∨ pkF p 0 2 ∈ fencedOps) :
    ¬ (isFenced s && !(fencedOps.contains (pkF p 0 2))) = true := by
  rcases h with e | e <;> simp [e]

theorem firstChecks_unserved (h : pkF p 0 2 ∈ adminOps) (hrom : s.rst.rom = true) (hop : pkF p 0 2 ≠ 1) :
    firstChecks s fn p named f = refuse s stState :=
  (if_neg (opcode_defined h)).trans (if_pos (by simp [hrom, hop]))

theorem firstChecks_fenced (h : pkF p 0 2 ∈ adminOps) (hs : s.rst.rom = false ∨ pkF p 0 2 = 1) (hf : isFenced s = true)
    (hop : pkF p 0 2 ∉ fencedOps) : firstChecks s fn p named f = refuse s stFenced :=
  (if_neg (opcode_defined h)).trans ((if_neg (opcode_served hs)).trans (if_pos (by simp [hf, hop])))

/-- the checks left for a command that is served and meets no fence: the bits it names, and a VF's commands -/
def lastChecks (s : State) (fn : Master) (p : Packet) (named : List (Nat × Nat)) (f : State → Ans) : Ans :=
  match strayByte p named with
  | some i => badField s (BitVec.ofNat 8 i)
  | none => if isVf fn && !(vfOps.contains (pkF p 0 2)) then refuse s stDenied else f s

theorem firstChecks_eq_lastChecks (h : pkF p 0 2 ∈ adminOps) (hs : s.rst.rom = false ∨ pkF p 0 2 = 1)
    (hf : isFenced s = false ∨ pkF p 0 2 ∈ fencedOps) : firstChecks s fn p named f = lastChecks s fn p named f :=
  (if_neg (opcode_defined h)).trans ((if_neg (opcode_served hs)).trans (if_neg (opcode_unfenced hf)))

theorem lastChecks_stray {i : Nat} (h : strayByte p named = some i) : lastChecks s fn p named f = badField s (BitVec.ofNat 8 i) := by
  rw [lastChecks, h]

theorem lastChecks_denied (h : strayByte p named = none) (hvf : isVf fn = true) (hop : pkF p 0 2 ∉ vfOps) :
    lastChecks s fn p named f = refuse s stDenied := by
  rw [lastChecks, h]
  exact if_pos (by simp [hvf, hop])

end

/-! ### The statement -/

/-- Settles O44: each check of the order, on the packet just taken. -/
theorem adminChecks : Obligations.AdminChecks := by
  unfold Obligations.AdminChecks
  intro op c hrow s fn p r no served unfenced
  obtain ⟨f, hdefined, hexec⟩ := hrow.runsChecked
  -- the answer of a packet that is taken
  have htaken {st : Half} {field : Byte} (hmay : mayStart s fn p = true) (hop : pkF p 0 2 = op ∨ pkF p 0 2 ∉ adminOps)
      (h : firstChecks (takePacket s fn) fn p (admNamed op p) (f fn p) = .no (takePacket s fn) st field 0) : no st field :=
    answers_no ((hexec fn p s).trans (congrArg _ (adm_taken hmay hop))) h
  refine ⟨fun h => ?_, fun hop hdef => ?_, fun hmay hundef => htaken hmay (.inr hundef) (firstChecks_undefined hundef),
    fun hmay hop => ?_⟩
  · exact (hexec fn p s).trans (congrArg _ (adm_waits h))
  · exact (hexec fn p s).trans (congrArg _ (adm_other hop hdef))
  · subst hop
    have hlast (hs : served) (hf : unfenced) : firstChecks (takePacket s fn) fn p (admNamed (pkF p 0 2) p) (f fn p) =
        lastChecks (takePacket s fn) fn p (admNamed (pkF p 0 2) p) (f fn p) := firstChecks_eq_lastChecks hdefined hs hf
    exact ⟨fun hrom hno => htaken hmay (.inl rfl) (firstChecks_unserved hdefined hrom hno),
      fun hs hf hno => htaken hmay (.inl rfl) (firstChecks_fenced hdefined hs hf hno),
      fun i hs hf hstray => htaken hmay (.inl rfl) ((hlast hs hf).trans (lastChecks_stray hstray)),
      fun hs hf hstray hvf hno => htaken hmay (.inl rfl) ((hlast hs hf).trans (lastChecks_denied hstray hvf hno))⟩

end Sys2Proof.Machine
end

section
/-!
PROOFS. What the events, words, replies and chain ends of a running part leave of its host port (O41, O45): the part's power, a SLEEP
command that waits, the sources that are pending, the links in L0, and a function's power state.
-/

namespace Sys2Proof.Machine

/-- From `s` to `t` the part stays in its power state, a held reply of SLEEP stays held, no source stops pending, a link in L0 stays
as it was, and a function that may issue requests, or is in D3hot, keeps its Bus Master Enable and its power state. -/
structure Steady (fn : Master) (s t : State) : Prop where
  pwr : t.pwr = s.pwr
  sleep : ∀ h ∈ s.hp.held, h.why = .sleep → h ∈ t.hp.held
  pend : ∀ n, s.evt.icPend.getLsbD n = true → t.evt.icPend.getLsbD n = true
  linkA : s.hp.linkA.l1 = false → t.hp.linkA = s.hp.linkA
  linkB : s.hp.linkB.l1 = false → t.hp.linkB = s.hp.linkB
  power : (getFunc s fn).bme = true ∨ (getFunc s fn).d3hot = true →
    (getFunc t fn).bme = (getFunc s fn).bme ∧ (getFunc t fn).d3hot = (getFunc s fn).d3hot

variable {fn m : Master} {s t u : State} {n k : Nat}

theorem Steady.refl (s : State) : Steady fn s s :=
  ⟨rfl, fun _ h _ => h, fun _ h => h, fun _ => rfl, fun _ => rfl, fun _ => ⟨rfl, rfl⟩⟩

theorem Steady.trans (h : Steady fn s t) (h' : Steady fn t u) : Steady fn s u where
  pwr := h'.pwr.trans h.pwr
  sleep x hx hw := h'.sleep x (h.sleep x hx hw) hw
  pend n hn := h'.pend n (h.pend n hn)
  linkA hl := (h'.linkA (by rw [h.linkA hl, hl])).trans (h.linkA hl)
  linkB hl := (h'.linkB (by rw [h.linkB hl, hl])).trans (h.linkB hl)
  power hp := by
    obtain ⟨hb, hd⟩ := h.power hp
    obtain ⟨hb', hd'⟩ := h'.power (by rwa [hb, hd])
    exact ⟨hb'.trans hb, hd'.trans hd⟩

theorem steady_ite {c : Prop} [Decidable c] (ht : Steady fn s t) (hu : Steady fn s u) : Steady fn s (if c then t else u) := by
  split
  · exact ht
  · exact hu

theorem steady_foldl {α : Type} {f : State → α → State} {l : List α} (h : Steady fn s t)
    (hf : ∀ v a, Steady fn s v → Steady fn s (f v a)) : Steady fn s (l.foldl f t) :=
  List.foldlRecOn l f h fun v hv a _ => hf v a hv

/-- an update of anything but the host port, the event fabric and the power; written field by field, so that unification finds the
state updated -/
theorem steady_upd {dev mem sched cls fs mv ce cp lk tw nv sec flt hu rst pins free out pending} (h : Steady fn s t) :
    Steady fn s ⟨dev, mem, t.hp, t.evt, sched, cls, fs, mv, ce, cp, lk, tw, nv, sec, flt, t.pwr, hu, rst, pins, free, out, pending⟩ :=
  h.trans ⟨rfl, fun _ h _ => h, fun _ h => h, fun _ => rfl, fun _ => rfl, fun _ => ⟨rfl, rfl⟩⟩

/-! ### The host port (09 R286, R294 to R299) -/

/-- a function's record rewritten with the settings it had -/
theorem setFunc_steady {f : Func} (hb : f.bme = (getFunc t m).bme) (hd : f.d3hot = (getFunc t m).d3hot) (h : Steady fn s t) :
    Steady fn s (setFunc t m f) := by
  refine h.trans ⟨rfl, fun _ h _ => h, fun _ h => h, fun _ => rfl, fun _ => rfl, fun hp => ?_⟩
  by_cases hm : fn = m
  · subst hm
    have hset : f ≠ {} := fun e => by
      rw [← hb, ← hd, e] at hp
      exact absurd hp (by decide)
    rw [show getFunc (setFunc t fn f) fn = f from tget_tset_new _ _ hset]
    exact ⟨hb, hd⟩
  · rw [getFunc_setFunc_other t f hm]
    exact ⟨rfl, rfl⟩

theorem setVec_steady {v : Vec} (h : Steady fn s t) : Steady fn s (setVec t m n v) := setFunc_steady rfl rfl h

theorem emit_steady {o : Out} (h : Steady fn s t) : Steady fn s (emit t o) := steady_upd h

theorem writeHostRaw_steady {l : List Byte} (h : Steady fn s t) : Steady fn s (writeHostRaw t n l) := steady_upd h

/-- another list of held replies, which keeps those of SLEEP -/
theorem held_steady {l : List Held} (hl : ∀ x ∈ t.hp.held, x.why = .sleep → x ∈ l) (h : Steady fn s t) :
    Steady fn s { t with hp := { t.hp with held := l } } :=
  h.trans ⟨rfl, hl, fun _ h => h, fun _ => rfl, fun _ => rfl, fun _ => ⟨rfl, rfl⟩⟩

theorem setSq_steady {q : SQueue} (h : Steady fn s t) : Steady fn s (setSq t n q) :=
  h.trans ⟨rfl, fun _ h _ => h, fun _ h => h, fun _ => rfl, fun _ => rfl, fun _ => ⟨rfl, rfl⟩⟩

theorem exitL1_steady (h : Steady fn s t) : Steady fn s (exitL1 t m) := by
  have hlink (l : HLink) (hl : l.l1 = false) : { l with l1 := false } = l := by rw [← hl]
  unfold exitL1
  split
  · exact h.trans ⟨rfl, fun _ h _ => h, fun _ h => h, fun _ => rfl, hlink _, fun _ => ⟨rfl, rfl⟩⟩
  · exact h.trans ⟨rfl, fun _ h _ => h, fun _ h => h, hlink _, fun _ => rfl, fun _ => ⟨rfl, rfl⟩⟩

theorem sendMsg_steady (h : Steady fn s t) : Steady fn s (sendMsg t m n) := emit_steady (exitL1_steady (setVec_steady h))

theorem sendPba_steady (h : Steady fn s t) : Steady fn s (sendPba t m n) := steady_ite (sendMsg_steady h) h

theorem sendPending_steady (h : Steady fn s t) : Steady fn s (sendPending m t n) :=
  steady_ite h (steady_ite h (steady_ite (setVec_steady h) (sendMsg_steady h)))

theorem sendAllPending_steady (h : Steady fn s t) : Steady fn s (sendAllPending t m) :=
  steady_foldl h fun _ _ hv => steady_foldl hv fun _ _ => sendPending_steady

theorem fallDue_steady (h : Steady fn s t) : Steady fn s (fallDue t m n) := by
  have hasleep : Steady fn s (setFunc t m { getFunc t m with pendAtSleep := true }) := setFunc_steady rfl rfl h
  exact steady_ite (steady_ite (emit_steady hasleep) hasleep) (steady_ite h (steady_ite (setVec_steady h) (sendMsg_steady h)))

theorem evalVec_steady (h : Steady fn s t) : Steady fn s (evalVec t m n) := steady_ite (fallDue_steady h) h

theorem countEvent_steady (h : Steady fn s t) : Steady fn s (countEvent t m n) := evalVec_steady (setVec_steady h)

/-! ### Sources (10 R304, R306, R317) -/

theorem getLsbD_setBit_pending {w : Nat} {v : BitVec w} {i : Nat} (h : v.getLsbD i = true) : (setBit v k true).getLsbD i = true := by
  rw [setBit, if_pos rfl, BitVec.getLsbD_or, h, Bool.true_or]

theorem occur_steady (h : Steady fn s t) : Steady fn s (occur t k) := by
  have hpend : Steady fn s (icEval { t with evt := { t.evt with icPend := setBit t.evt.icPend k true } }) :=
    h.trans ⟨rfl, fun _ h _ => h, fun _ => getLsbD_setBit_pending, fun _ => rfl, fun _ => rfl, fun _ => ⟨rfl, rfl⟩⟩
  unfold occur
  dsimp only
  split
  · exact countEvent_steady hpend
  · exact hpend

theorem pulse_steady (h : Steady fn s t) : Steady fn s (pulse t k) := by
  have hedges (l : List Nat) : Steady fn s { t with evt := { t.evt with edges := l } } :=
    h.trans ⟨rfl, fun _ h _ => h, fun _ h => h, fun _ => rfl, fun _ => rfl, fun _ => ⟨rfl, rfl⟩⟩
  exact occur_steady (steady_ite h (hedges _))

theorem rcPulse_steady {w : Word} (h : Steady fn s t) : Steady fn s (rcPulse w t) := steady_ite (pulse_steady h) h

/-! ### Replies (09 R285 to R288) -/

theorem settleReady_steady (h : Steady fn s t) : Steady fn s (settleReady t m) := steady_ite h (setFunc_steady rfl rfl h)

theorem putReply_steady {r : BitVec 256} (h : Steady fn s t) : Steady fn s (putReply t m r) := by
  have hfunc (a : Nat) (l : List Byte) : getFunc (writeHostRaw t a l) m = getFunc t m := rfl
  have hroom (x : Held) : Steady fn s { t with hp := { t.hp with held := t.hp.held ++ [x] } } :=
    held_steady (fun _ hx _ => List.mem_append_left _ hx) h
  refine steady_ite h (steady_ite (hroom _) ?_)
  dsimp only
  split
  · exact setFunc_steady rfl rfl h
  · exact countEvent_steady (setFunc_steady (by rw [hfunc]) (by rw [hfunc]) (writeHostRaw_steady h))

/-- the held replies of any command but SLEEP -/
theorem finishHeld_steady {why : HeldWhy} {st : Half} {r : BitVec 192} (hw : why ≠ .sleep) (h : Steady fn s t) :
    Steady fn s (finishHeld t why st r) := by
  have hkept : ∀ x ∈ t.hp.held, x.why = .sleep → x ∈ t.hp.held.filter fun h => !(h.why == why) := fun x hx hs =>
    List.mem_filter.mpr ⟨hx, by simpa [hs] using hw.symm⟩
  exact steady_foldl (held_steady hkept h) fun _ _ hv => settleReady_steady (putReply_steady hv)

theorem flushReplies_steady (h : Steady fn s t) : Steady fn s (flushReplies t m) := by
  refine settleReady_steady (steady_foldl (held_steady (fun x hx hs => ?_) h) fun v x hv => ?_)
  · refine List.mem_filter.mpr ⟨hx, ?_⟩
    simp [hs]
  · split
    · exact putReply_steady hv
    · exact hv

theorem fetchPackets_steady (h : Steady fn s t) : Steady fn s (fetchPackets m k t) := by
  induction k generalizing t with
  | zero => exact h
  | succ k ih =>
    rw [fetchPackets]
    refine steady_ite h ?_
    dsimp only
    split
    · exact setFunc_steady rfl rfl h
    · exact ih (setFunc_steady rfl rfl h)

/-! ### Records, queues and slots (03 R79, R84) -/

theorem setP_steady {p : Pron} (h : Steady fn s t) : Steady fn s (setP t n p) := by
  obtain ⟨_, _, e⟩ := setP_what t n p
  rw [e]
  exact steady_upd h

theorem modP_steady {f : Pron → Pron} (h : Steady fn s t) : Steady fn s (modP t n f) := setP_steady h

theorem setPhase_steady {ph : Phase} (h : Steady fn s t) : Steady fn s (setPhase t n ph) := modP_steady h

theorem enqueue_steady (h : Steady fn s t) : Steady fn s (enqueue t n) := by
  obtain ⟨_, _, _, e⟩ := enqueue_what t n
  rw [e]
  exact steady_upd h

theorem leaveAll_steady (h : Steady fn s t) : Steady fn s (leaveAll t n) := by
  have hout : Steady fn s (dequeue t n) := steady_upd h
  obtain ⟨_, _, _, e⟩ := leaveSlot_what (dequeue t n) n
  rw [leaveAll, e]
  exact steady_upd hout

theorem startAt_steady {a : Dword} {cause : BitVec 3} (h : Steady fn s t) : Steady fn s (startAt t n a cause) :=
  enqueue_steady (modP_steady (modP_steady h))

theorem toIdle_steady (h : Steady fn s t) : Steady fn s (toIdle t n) := steady_ite (startAt_steady (setP_steady h)) (setP_steady h)

theorem suspend_steady (h : Steady fn s t) : Steady fn s (suspend t n) := modP_steady (leaveAll_steady h)

theorem releaseHold_steady (h : Steady fn s t) : Steady fn s (releaseHold t n) := steady_ite (enqueue_steady (setP_steady h)) h

/-! ### Clauses, locks and the twin (04 R101, R111, R121, 11 R336) -/

theorem dropClause_steady (h : Steady fn s t) : Steady fn s (dropClause t n) := steady_upd h

theorem modClause_steady {f : Clause → Clause} (h : Steady fn s t) : Steady fn s (modClause t n f) := steady_upd h

theorem writeDram_steady {l : List Byte} (h : Steady fn s t) : Steady fn s (writeDram t n l) := steady_upd h

theorem delOp_steady (h : Steady fn s t) : Steady fn s (delOp t n) := steady_upd h

theorem modMv_steady {f : Mover → Mover} (h : Steady fn s t) : Steady fn s (modMv t n f) := steady_upd h

theorem countAbort_steady {r : Byte} (h : Steady fn s t) : Steady fn s (countAbort t r) := rcPulse_steady (steady_upd h)

theorem cancelWork_steady (h : Steady fn s t) : Steady fn s (cancelWork t n) := steady_foldl h fun _ _ => modMv_steady

/-- An abort ends the clause and its work, and counts (04 R121). -/
theorem abortClause_steady {r : Byte} {keep : Bool} (h : Steady fn s t) : Steady fn s (abortClause t n r keep).1 := by
  have hleft : Steady fn s (leaveWaits t n) := steady_upd h
  unfold abortClause
  dsimp only
  split
  · dsimp only
    exact modP_steady (countAbort_steady (dropClause_steady (cancelWork_steady hleft)))
  · split
    · split
      · dsimp only
        exact modP_steady hleft
      · dsimp only
        exact modP_steady (countAbort_steady hleft)
    · exact hleft

theorem cutCcw_steady {x : Transfer} (h : Steady fn s t) : Steady fn s (cutCcw t n x) := by
  unfold cutCcw
  split
  · exact steady_ite (setPhase_steady (delOp_steady h)) (setPhase_steady h)
  · exact setPhase_steady h

theorem doomWork_steady {c : Clause} (h : Steady fn s t) : Steady fn s (doomWork t c) := by
  have hfree := releaseHold_steady (n := c.prn) (cancelWork_steady (n := c.begin_) h)
  unfold doomWork
  dsimp only
  split
  · exact cutCcw_steady hfree
  · exact hfree

theorem doom_steady {r : Byte} {l : List Nat} (h : Steady fn s t) : Steady fn s (doom t n r l) := by
  unfold doom
  split
  · exact h
  · next c _ =>
    have hwork (v : State) (hv : Steady fn s v) (l : List FsWait) : Steady fn s { v with fs := { v.fs with waiting := l } } := steady_upd hv
    have hfree := hwork _ (doomWork_steady (c := c) h)
    exact steady_ite h (steady_ite (modClause_steady (hfree _)) (modP_steady (dropClause_steady (hfree _))))

theorem twinSend_steady {x : TwinMsg} (h : Steady fn s t) : Steady fn s (twinSend t x) := by
  obtain ⟨_, _, _, _, _, _, e⟩ := twinSend_onlySends t x
  rw [e]
  exact steady_upd h

theorem ctmStore_steady {l : List Byte} (h : Steady fn s t) : Steady fn s (ctmStore t n l) :=
  steady_foldl (steady_foldl (writeDram_steady h) fun _ _ hv => steady_ite (twinSend_steady hv) hv) fun _ _ => doom_steady

theorem breakLock_steady (h : Steady fn s t) : Steady fn s (breakLock t n k) := by
  have hcount (v : State) (hv : Steady fn s v) : Steady fn s
      (rcPulse v.cls.lockBroken { v with cls := { v.cls with lockBroken := satInc v.cls.lockBroken } }) := rcPulse_steady (steady_upd hv)
  have hbroken := hcount (setLock t n k true) (steady_upd h)
  unfold breakLock
  dsimp only
  split
  · next hout =>
    rw [ctmWriteOut_ok hout]
    exact ctmStore_steady hbroken
  · exact steady_upd hbroken

theorem breakLocks_steady (h : Steady fn s t) : Steady fn s (breakLocks t n) := steady_foldl h fun _ _ => breakLock_steady

/-! ### Status words (02 R54 to R57, 09 R293, R294) -/

theorem hostWrite_steady {l : List Byte} (h : Steady fn s t) : Steady fn s (hostWrite t n l) := by
  unfold hostWrite
  split
  · exact h
  · exact steady_upd h

theorem sqWrite_steady {w : BitVec 256} (h : Steady fn s t) : Steady fn s (sqWrite t n w) := by
  unfold sqWrite
  split
  · exact h
  · exact steady_ite (fallDue_steady (pulse_steady (countEvent_steady (setSq_steady (hostWrite_steady h)))))
      (countEvent_steady (setSq_steady (hostWrite_steady h)))

theorem postBits_steady {w : BitVec 256} (h : Steady fn s t) : Steady fn s (postBits t n k w).1 := by
  unfold postBits
  dsimp only
  split
  · exact sqWrite_steady (setP_steady h)
  · exact steady_upd (setP_steady h)

theorem postDirect_steady {w : SWord} (h : Steady fn s t) : Steady fn s (postDirect t n w).1 := postBits_steady h

theorem afterPost_steady {r : State × Bool} {fin : Fin} {now : State → State} (hnow : ∀ v, Steady fn s v → Steady fn s (now v))
    (h : Steady fn s r.1) : Steady fn s (afterPost r n fin now) := steady_ite (hnow _ h) (modP_steady h)

/-! ### How a pronoun's word ends its chain (03 R68, R72 to R74, R288) -/

theorem enterIdle_steady (h : Steady fn s t) : Steady fn s (enterIdle t n) :=
  steady_ite (finishHeld_steady HeldWhy.noConfusion (toIdle_steady (leaveAll_steady h))) (toIdle_steady (leaveAll_steady h))

theorem enterChecked_steady {kind : Byte} (h : Steady fn s t) : Steady fn s (enterChecked t n kind) :=
  steady_ite (finishHeld_steady HeldWhy.noConfusion (breakLocks_steady (modP_steady (leaveAll_steady h))))
    (breakLocks_steady (modP_steady (leaveAll_steady h)))

theorem haltAct_steady (h : Steady fn s t) : Steady fn s (haltAct t n) := by
  unfold haltAct
  exact afterPost_steady (fun _ => enterIdle_steady) (postDirect_steady (modP_steady (abortClause_steady h)))

theorem reportAbort_steady {a : Dword} {r : Byte} (h : Steady fn s t) : Steady fn s (reportAbort t n a r) :=
  afterPost_steady (fun _ => enterChecked_steady) (postDirect_steady (modP_steady h))

theorem fenceAct_steady {r : Byte} (h : Steady fn s t) : Steady fn s (fenceAct t n r) := by
  unfold fenceAct
  dsimp only
  have hu : Steady fn s (abortClause t n 0x0B false).1 := abortClause_steady h
  split
  · exact reportAbort_steady (modP_steady hu)
  · exact reportAbort_steady (modP_steady hu)
  · exact afterPost_steady (fun _ => enterChecked_steady) (postDirect_steady (modP_steady (modP_steady hu)))

theorem abortAct_steady {x : Rerun} (h : Steady fn s t) : Steady fn s (abortAct t n x) := by
  have hcount : Steady fn s (if x.counted then t else countAbort t x.reason) := steady_ite h (countAbort_steady h)
  exact steady_ite (haltAct_steady h) (steady_ite (modP_steady hcount) (steady_ite (reportAbort_steady hcount)
    (steady_ite (modP_steady hcount) (reportAbort_steady hcount))))

theorem boundary_steady {a : Dword} (h : Steady fn s t) : Steady fn s (boundary t n a) := by
  unfold boundary
  dsimp only
  split
  · exact fenceAct_steady (modP_steady h)
  · refine steady_ite (haltAct_steady (modP_steady h)) (abortAct_steady ?_)
    split
    · exact dropClause_steady (modP_steady h)
    · exact modP_steady h
  · exact steady_ite (haltAct_steady (modP_steady h)) (modP_steady h)

theorem runFin_steady {f : Fin} (h : Steady fn s t) : Steady fn s (runFin t n f) := by
  cases f with
  | notice par => exact steady_ite (steady_ite (haltAct_steady h) (suspend_steady h)) (modP_steady h)
  | goOn next => exact boundary_steady h
  | chainEnd => exact enterIdle_steady h
  | checked kind => exact enterChecked_steady h
  | halted => exact enterIdle_steady h
  | done =>
    rw [runFin]
    exact modP_steady h

/-! ### A function's return to service (09 R286, R297, R299) -/

theorem wordsOut_steady (h : Steady fn s t) : Steady fn s (wordsOut t n) := by
  refine steady_ite h ?_
  split
  · exact runFin_steady (modP_steady h)
  · exact h

theorem drainWords_steady (h : Steady fn s t) : Steady fn s (drainWords n k t) := by
  induction k generalizing t with
  | zero => exact h
  | succ k ih =>
    rw [drainWords]
    split
    · exact h
    · exact steady_ite (ih (wordsOut_steady (sqWrite_steady (steady_upd h)))) h

theorem drainQueue_steady (h : Steady fn s t) : Steady fn s (drainQueue t n) := by
  unfold drainQueue
  split
  · exact drainWords_steady h
  · exact h

theorem resumeFn_steady (h : Steady fn s t) : Steady fn s (resumeFn t m) :=
  fetchPackets_steady (flushReplies_steady (steady_foldl h fun _ _ => drainQueue_steady))

theorem busMasterOn_steady (h : Steady fn s t) : Steady fn s (busMasterOn t m) :=
  resumeFn_steady (steady_foldl h fun _ _ hv => sendPba_steady (evalVec_steady hv))

end Sys2Proof.Machine
end

section
/-!
PROOFS. D-states, configuration writes, ASPM and host links (O41).
-/

namespace Sys2Proof.Machine

/-! ### A request of the host that the part answers at once (09 R297 to R299, 12 R375) -/

/-- Requests of the host reach the function over a link in L0, the part is awake, and none is held. -/
structure Answering (s : State) (m : Master) : Prop where
  reached : hostReaches s m = true
  inL0 : (fnLink s m).l1 = false
  awake : s.pwr.sleep = .awake
  noneHeld : s.pwr.held = []

section
variable {s t : State} {m : Master} {w : CfgWrite}

theorem Answering.hostRequest_eq {r : HostReq} (h : Answering s m) (hpwr : (hostDoes m r s).pwr = s.pwr) :
    hostRequest s m r = hostDoes m r s := by
  obtain ⟨hreach, hlink, hawake, hheld⟩ := h
  unfold hostRequest
  simp [exitL1_of_L0 hlink, hreach, hawake, afterWake_of_none_held (hpwr ▸ hheld)]

theorem exec_configSpaceWrite_answered (h : Answering s m) (ht : configOp s m w = t) (hpwr : t.pwr = s.pwr) :
    exec (.configSpaceWrite m w) s = .next (emit t (.completion m true [] false)) := by
  subst ht
  exact congrArg _ (h.hostRequest_eq (r := .config w) hpwr)

theorem exec_d3hotEntry_answered {pf : Bool} (h : Answering s (if pf then 0x41 else 0x40))
    (hpwr : (d3Entry s (if pf then 0x41 else 0x40)).pwr = s.pwr) :
    exec (.d3hotEntry pf) s = .next (cfgDone (d3Entry s (if pf then 0x41 else 0x40)) (if pf then 0x41 else 0x40)) :=
  congrArg _ (h.hostRequest_eq (r := .power true) hpwr)

theorem exec_d0Entry_answered {pf : Bool} (h : Answering s (if pf then 0x41 else 0x40))
    (hpwr : (d0Entry s (if pf then 0x41 else 0x40)).pwr = s.pwr) :
    exec (.d0Entry pf) s = .next (cfgDone (d0Entry s (if pf then 0x41 else 0x40)) (if pf then 0x41 else 0x40)) :=
  congrArg _ (h.hostRequest_eq (r := .power false) hpwr)

end

/-! ### A function's record, read as it was written -/

/-- a record with a flag set that is clear at reset -/
theorem getFunc_setFunc_flagged {s : State} {m : Master} {f : Func} (flag : Func → Bool) (hf : flag f = true) (h0 : flag {} = false) :
    getFunc (setFunc s m f) m = f :=
  tget_tset_new _ _ fun e => by
    rw [e, h0] at hf
    exact Bool.noConfusion hf

/-! ### D3hot and D0 (09 R298, R299) -/

section
variable {s : State} {m : Master}

/-- the source of a PF's power state -/
def powerSource (m : Master) : Nat := if m == 0x40 then 320 else 321

theorem powerSource_lt (m : Master) : powerSource m < 1024 := by
  unfold powerSource
  split <;> decide

theorem powerSource_pf (pf : Bool) : powerSource (if pf then 0x41 else 0x40) = if pf then 321 else 320 := by
  cases pf <;> rfl

theorem d3Entry_again (h : (getFunc s m).d3hot = true) : d3Entry s m = s := if_pos h

theorem d0Entry_again (h : (getFunc s m).d3hot = false) : d0Entry s m = s := if_pos (by rw [h]; rfl)

theorem pend_pulse (s : State) {n : Nat} (h : n < 1024) : (pulse s n).evt.icPend.getLsbD n = true := by
  obtain ⟨_, _, _, e, hpend⟩ := pulse_what s h
  rw [e]
  exact hpend

/-- The messages that are due go first; then the PF is in D3hot, and its source pending. -/
theorem d3Entry_enters (h : (getFunc s m).d3hot = false) : (getFunc (d3Entry s m) m).d3hot = true ∧
    (d3Entry s m).evt.icPend.getLsbD (powerSource m) = true ∧ (d3Entry s m).pwr = s.pwr := by
  let u : State := modFunc (sendAllPending s m) m fun f => { f with d3hot := true }
  have hstep : d3Entry s m = pulse u (powerSource m) := if_neg (by rw [h]; decide)
  have hsent : Steady m s (sendAllPending s m) := sendAllPending_steady (.refl s)
  have hin : (getFunc u m).d3hot = true := congrArg Func.d3hot (getFunc_setFunc_flagged Func.d3hot rfl rfl)
  have hpulse : Steady m u (pulse u (powerSource m)) := pulse_steady (.refl u)
  rw [hstep]
  exact ⟨(hpulse.power (.inr hin)).2.trans hin, pend_pulse u (powerSource_lt m), hpulse.pwr.trans hsent.pwr⟩

/-- A PF that may issue requests in D0 is in D0 again, whatever its return lets through, and its source is pending. -/
theorem d0Entry_enters (h : (getFunc s m).d3hot = true) (hb : (getFunc s m).bme = true) : (getFunc (d0Entry s m) m).d3hot = false ∧
    (d0Entry s m).evt.icPend.getLsbD (powerSource m) = true ∧ (d0Entry s m).pwr = s.pwr := by
  let u : State := modFunc s m fun f => { f with d3hot := false }
  let sent : State := sendAllPending ((familyOf m).foldl (fun s k => (vecNums s k).foldl (fun s n => sendPba s k n) s) u) m
  let woken : State := (familyOf m).foldl (fun s k => modFunc s k fun f => { f with pendAtSleep := false }) sent
  have hstep : d0Entry s m = (familyOf m).foldl resumeFn (pulse woken (powerSource m)) := if_neg (by rw [h]; decide)
  have hread : getFunc u m = { getFunc s m with d3hot := false } := getFunc_setFunc_flagged Func.bme hb rfl
  have hbme : (getFunc u m).bme = true := hread ▸ hb
  have hd0 : (getFunc u m).d3hot = false := congrArg Func.d3hot hread
  have hsent : Steady m u sent := sendAllPending_steady (steady_foldl (.refl u) fun _ _ hv => steady_foldl hv fun _ _ => sendPba_steady)
  have hwoken : Steady m u (pulse woken (powerSource m)) := pulse_steady (steady_foldl hsent fun _ _ => setFunc_steady rfl rfl)
  have hresumed : Steady m (pulse woken (powerSource m)) ((familyOf m).foldl resumeFn (pulse woken (powerSource m))) :=
    steady_foldl (.refl _) fun _ _ => resumeFn_steady
  have hall := hwoken.trans hresumed
  rw [hstep]
  exact ⟨(hall.power (.inl hbme)).2.trans hd0, hresumed.pend _ (pend_pulse woken (powerSource_lt m)), hall.pwr⟩

end

/-! ### Configuration writes (Table 9-1, 09 R297) -/

section
variable {s : State} {m : Master}

/-- MSI-X Enable reaches no vector where the function has none that differs from reset. -/
theorem configOp_msix {mask : Bool} (h : (getFunc s m).vecs = []) :
    configOp s m (.msix true mask) = setFunc s m { getFunc s m with msixEn := true, fmask := mask } := by
  have hvecs : vecNums (setFunc s m { getFunc s m with msixEn := true, fmask := mask }) m = [] := by
    rw [vecNums, getFunc_setFunc_flagged Func.msixEn rfl rfl]
    exact congrArg (List.map Prod.fst) h
  exact congrArg (List.foldl _ _) hvecs

theorem configOp_sizes {pay read : BitVec 3} (hp : pay.toNat ≤ 2) (hr : read.toNat ≤ 5) :
    configOp s m (.sizes pay read) = setFunc s m { getFunc s m with mps := pay, mrrs := read } := by
  simp only [configOp, modFunc, Nat.not_lt.mpr hp, hr, if_true, if_false]

theorem configOp_vfEnable (h : isPf m = true) : configOp s m (.vfEnable true) = setFunc s m { getFunc s m with vfEnable := true } := by
  simp only [configOp, h, if_true, vfEnableWrite, Bool.not_true, Bool.and_false, Bool.false_eq_true, if_false]
  rfl

/-- Of a part whose one link is in L0, ASPM changes its own bit alone. -/
theorem configOp_aspm {on : Bool} (hs : s.hp.split = false) (hl : (fnLink s m).l1 = false) :
    configOp s m (.aspm on) = { s with hp := { s.hp with linkA := { s.hp.linkA with aspm := on } } } := by
  have hlink : s.hp.linkA.l1 = false := by simpa [fnLink, hs] using hl
  have hL0 : ({ s.hp.linkA with aspm := on, l1 := s.hp.linkA.l1 && on } : HLink) = { s.hp.linkA with aspm := on } := by
    rw [hlink, Bool.false_and, ← hlink]
  simp only [configOp, setLinkOf, hs, Bool.false_and, Bool.false_eq_true, if_false, hL0]

end

/-! ### Host links (09 R276, R277, R301) -/

section
variable {s : State} {rate : BitVec 3} {width : BitVec 5} {flit : Bool}

/-- what a link that is up lets through: every function it carries may issue requests again -/
def letThrough (s : State) : State := numFns.foldl (fun s m => if (fnLink s m).rate != 0 then busMasterOn s m else s) s

theorem letThrough_steady {fn : Master} (s : State) : Steady fn s (letThrough s) :=
  steady_foldl (.refl s) fun _ _ hv => steady_ite (busMasterOn_steady hv) hv

theorem exec_hostLinkUp_illegal {b : Bool} (h : hostLinkLegal s b rate width flit = false) :
    exec (.hostLinkUp b rate width flit) s = .next s := by
  show Host.Outcome.next (if _ then s else _) = _
  rw [h, Bool.not_false, Bool.or_true, if_pos rfl]

theorem exec_hostLinkUp_linkA (hheld : s.rst.held = false) (hboot : s.rst.booted = true) (hp : s.pins.perst0 = false)
    (h : hostLinkLegal s false rate width flit = true) : exec (.hostLinkUp false rate width flit) s = .next (letThrough
      { s with hp := { s.hp with linkA := { s.hp.linkA with rate := rate, width := width, flit := flit, l1 := false } } }) :=
  congrArg Host.Outcome.next (if_neg (by simp [hheld, hboot, hp, h]))

theorem exec_hostLinkUp_linkB (hheld : s.rst.held = false) (hboot : s.rst.booted = true) (hs : s.hp.split = true)
    (hp : s.pins.perst1 = false) (h : hostLinkLegal s true rate width flit = true) :
    exec (.hostLinkUp true rate width flit) s = .next (letThrough
      { s with hp := { s.hp with linkB := { s.hp.linkB with rate := rate, width := width, flit := flit, l1 := false } } }) :=
  congrArg Host.Outcome.next (if_neg (by simp [hheld, hboot, hs, hp, h]))

theorem exec_hostLinkDown_linkA (h : s.hp.linkA.rate ≠ 0) :
    exec (.hostLinkDown false) s = .next (pulse { s with hp := { s.hp with linkA := linkOff s.hp.linkA } } 325) :=
  congrArg Host.Outcome.next (if_neg (by simpa using h))

theorem exec_hostLinkDown_linkB (h : s.hp.linkB.rate ≠ 0) :
    exec (.hostLinkDown true) s = .next (pulse { s with hp := { s.hp with linkB := linkOff s.hp.linkB } } 326) :=
  congrArg Host.Outcome.next (if_neg (by simpa using h))

/-- A pulse reaches only the event fabric, the host port and what goes out. -/
theorem pulse_frame (s : State) {n : Nat} (h : n < 1024) : { pulse s n with evt := s.evt, hp := s.hp, out := s.out } = s := by
  obtain ⟨_, _, _, e, _⟩ := pulse_what s h
  rw [e]

end

/-! ### The statement -/

/-- Settles O41: a request the part answers does what its operation does, and what a PF's return or a trained link then lets through
is `Steady`. -/
theorem hostPowerAndLinks : Obligations.HostPowerAndLinks := by
  unfold Obligations.HostPowerAndLinks
  intro s
  refine ⟨?dstates, ?config, rfl, rfl, fun rate width flit hheld hboot => ?linkUp, fun h => ?linkADown, fun h => ?linkBDown⟩
  case dstates =>
    intro pf fn hreach hl hawake hheld
    have hup : Answering s fn := ⟨hreach, hl, hawake, hheld⟩
    rw [← powerSource_pf pf]
    refine ⟨fun h => ?_, fun h => ?_, fun h hb => ?_, fun h => ?_⟩
    · obtain ⟨hd3, hpend, hpwr⟩ := d3Entry_enters h
      exact ⟨_, exec_d3hotEntry_answered hup hpwr, hd3, hpend⟩
    · have hsame : d3Entry s fn = s := d3Entry_again h
      rw [exec_d3hotEntry_answered hup (congrArg State.pwr hsame), hsame]
      rfl
    · obtain ⟨hd0, hpend, hpwr⟩ := d0Entry_enters h hb
      exact ⟨_, exec_d0Entry_answered hup hpwr, hd0, hpend⟩
    · have hsame : d0Entry s fn = s := d0Entry_again h
      rw [exec_d0Entry_answered hup (congrArg State.pwr hsame), hsame]
      rfl
  case config =>
    intro fn hreach hl hawake hheld f sets
    have hup : Answering s fn := ⟨hreach, hl, hawake, hheld⟩
    have hset {w : CfgWrite} {t : State} (ht : configOp s fn w = t) (hpwr : t.pwr = s.pwr) : sets w t :=
      exec_configSpaceWrite_answered hup ht hpwr
    refine ⟨hset rfl rfl, fun hb => hset ?_ rfl, fun mask hv => hset (configOp_msix hv) rfl, fun on hpf => hset (if_pos hpf) rfl,
      fun on hpf => hset (if_pos hpf) rfl, fun on hpf => hset (if_pos hpf) rfl, fun pay read hp hr => hset (configOp_sizes hp hr) rfl,
      fun hpf => hset (configOp_vfEnable hpf) rfl, fun on hs => hset (configOp_aspm hs hl) rfl⟩
    -- Bus Master Enable set once more lets nothing through
    have hsame : ({ f with bme := true } : Func) = f := by rw [← hb]
    have hagain : ¬ (true && !f.bme) = true := by rw [hb]; decide
    exact (if_neg hagain).trans (congrArg (setFunc s fn) hsame)
  case linkUp =>
    refine ⟨fun hp hlegal => ⟨_, exec_hostLinkUp_linkA hheld hboot hp hlegal, ?_⟩,
      fun hs hp hlegal => ⟨_, exec_hostLinkUp_linkB hheld hboot hs hp hlegal, ?_⟩, fun b hillegal => exec_hostLinkUp_illegal hillegal⟩
    · exact (letThrough_steady (fn := 0) _).linkA rfl
    · exact (letThrough_steady (fn := 0) _).linkB rfl
  case linkADown =>
    let u : State := { s with hp := { s.hp with linkA := linkOff s.hp.linkA } }
    have hpulse : Steady 0 u (pulse u 325) := pulse_steady (.refl u)
    have hframe := pulse_frame u (n := 325) (by decide)
    refine ⟨_, exec_hostLinkDown_linkA h, congrArg HLink.rate (hpulse.linkA rfl), pend_pulse u (by decide), ?_⟩
    exact congrArg (fun v : State => { v with hp := s.hp }) hframe
  case linkBDown =>
    let u : State := { s with hp := { s.hp with linkB := linkOff s.hp.linkB } }
    have hpulse : Steady 0 u (pulse u 326) := pulse_steady (.refl u)
    have hframe := pulse_frame u (n := 326) (by decide)
    refine ⟨_, exec_hostLinkDown_linkB h, congrArg HLink.rate (hpulse.linkB rfl), pend_pulse u (by decide), ?_⟩
    exact congrArg (fun v : State => { v with hp := s.hp }) hframe

end Sys2Proof.Machine
end

section
/-!
PROOFS. What the fall of a port, and the ends of the device operations it brings, leave of the host port (O45): `Steady`, an operation
at a time.
-/

namespace Sys2Proof.Machine

variable {fn : Master} {s t u : State} {n k q p : Nat}

/-! ### Results that carry a state -/

def OptSteady (fn : Master) (s : State) (r : Option State) : Prop := ∀ t, r = some t → Steady fn s t

theorem optSteady_none : OptSteady fn s none := fun _ e => nomatch e
theorem optSteady_some (h : Steady fn s t) : OptSteady fn s (some t) := fun _ e => Option.some.inj e ▸ h
theorem steady_getD {r : Option State} (hr : OptSteady fn s r) (h : Steady fn s t) : Steady fn s (r.getD t) := by
  cases r with
  | none => exact h
  | some u => exact hr u rfl

def StagedSteady (fn : Master) (s : State) : Staged → Prop
  | .ok t => Steady fn s t
  | .lost t => Steady fn s t
  | .limit _ => True

theorem steady_of_ok {r : Staged} (e : r = .ok u) (h : StagedSteady fn s r) : Steady fn s u := by
  rw [e] at h
  exact h
theorem steady_of_lost {r : Staged} (e : r = .lost u) (h : StagedSteady fn s r) : Steady fn s u := by
  rw [e] at h
  exact h

theorem steady_ite_fst {α : Type} {c : Prop} [Decidable c] {a b : State × α} (ha : Steady fn s a.1) (hb : Steady fn s b.1) :
    Steady fn s (if c then a else b).1 := by
  split
  · exact ha
  · exact hb

/-! ### Ports and their counters (08 R243, R274) -/

theorem setPort_steady {x : Port} (h : Steady fn s t) : Steady fn s (setPort t q p x) := steady_upd h
theorem modPP_steady {f : PPort → PPort} (h : Steady fn s t) : Steady fn s (modPP t q p f) := setPort_steady h
theorem modEP_steady {f : EPort → EPort} (h : Steady fn s t) : Steady fn s (modEP t q p f) := setPort_steady h
theorem modKP_steady {f : KPort → KPort} (h : Steady fn s t) : Steady fn s (modKP t q p f) := setPort_steady h

theorem setLinkState_steady {st : BitVec 3} (h : Steady fn s t) : Steady fn s (setLinkState t q p st) :=
  steady_ite h (pulse_steady (setPort_steady h))

theorem count_steady (h : Steady fn s t) : Steady fn s (count t q p k) := by
  have hport (x : Port) : Steady fn s (setPort t q p x) := setPort_steady h
  exact steady_ite (pulse_steady (steady_ite (pulse_steady (hport _)) (hport _))) (steady_ite (pulse_steady (hport _)) (hport _))

theorem sendPause_steady (h : Steady fn s t) : Steady fn s (sendPause t q k) :=
  steady_foldl h fun _ _ hv => steady_ite (count_steady (emit_steady hv)) hv

theorem relieve_steady (h : Steady fn s t) : Steady fn s (relieve t q) := by
  have hset (x : Quad) : Steady fn s (setQ t q x) := steady_upd h
  exact steady_ite (sendPause_steady (hset _)) h

/-! ### Operations handed to devices (08 R243, R250, R256 to R262) -/

variable {o : DevOp}

theorem setOp_steady (h : Steady fn s t) : Steady fn s (setOp t o) := steady_upd h

theorem endOp_steady {dev det : Byte} (h : Steady fn s t) : Steady fn s (endOp t o dev det k) := by
  have hfree : Steady fn s (if keepsBuffer o then t else freePages t o) := steady_ite h (steady_ite h (modPP_steady h))
  have hended (x : DevOp) := setOp_steady (o := x) hfree
  exact steady_ite (steady_ite (count_steady (hended _)) (steady_ite (count_steady (hended _))
    (steady_ite (count_steady (hended _)) (hended _)))) (hended _)

theorem markUsed_steady {l : List Nat} (h : Steady fn s t) : Steady fn s (markUsed t q p l) := modPP_steady h

theorem withPages_steady {r : State × DevOp} (e : withPages t o n = some r) (h : Steady fn s t) : Steady fn s r.1 := by
  unfold withPages at e
  split at e
  · obtain rfl := Option.some.inj e
    exact h
  · obtain ⟨l, _, rfl⟩ := Option.map_eq_some_iff.mp e
    exact markUsed_steady h

theorem putPages_steady {gs : List Nat} {l : List Byte} (h : Steady fn s t) : Steady fn s (putPages t gs l) := by
  induction gs generalizing t l with
  | nil => exact h
  | cons g gs ih => exact ih (writeDram_steady h)

theorem nvSubmit_steady (h : Steady fn s t) : OptSteady fn s (nvSubmit t o) := by
  unfold nvSubmit
  dsimp only
  split
  · exact optSteady_none
  · split
    · exact optSteady_none
    · split
      · exact optSteady_none
      · next v w e =>
        have hv : Steady fn s v := withPages_steady e h
        refine optSteady_some (steady_ite ?_ (count_steady ?_)) <;>
        · refine emit_steady (setOp_steady (modPP_steady (writeDram_steady ?_)))
          split
          · exact writeDram_steady (putPages_steady hv)
          · exact putPages_steady hv

theorem ringPost_steady (h : Steady fn s t) : OptSteady fn s (ringPost t o) := by
  unfold ringPost
  dsimp only
  split
  · exact optSteady_none
  · split
    · exact optSteady_none
    · split
      · exact optSteady_none
      · next v w e =>
        have hv : Steady fn s v := withPages_steady e h
        exact optSteady_some (count_steady (emit_steady (steady_ite (count_steady (setOp_steady (modPP_steady (writeDram_steady hv))))
          (setOp_steady (modPP_steady (writeDram_steady hv))))))

theorem ringTake_steady (h : Steady fn s t) : Steady fn s (ringTake t o) := endOp_steady (modPP_steady h)

theorem ringSend_steady (h : Steady fn s t) : Steady fn s (ringSend t o) := by
  unfold ringSend
  dsimp only
  split <;> exact emit_steady (setOp_steady h)

theorem ringRequest_steady (h : Steady fn s t) : OptSteady fn s (ringRequest t o) := by
  intro u e
  obtain ⟨r, hr, rfl⟩ := Option.map_eq_some_iff.mp e
  exact steady_ite (ringTake_steady (withPages_steady hr h)) (ringSend_steady (withPages_steady hr h))

theorem startTx_steady (h : Steady fn s t) : Steady fn s (startTx t q p) := by
  refine steady_ite h ?_
  split
  · exact h
  · split
    · exact h
    · exact modEP_steady h

theorem ethQueue_steady {flow : Word} (h : Steady fn s t) : Steady fn s (ethQueue t o flow) :=
  startTx_steady (setOp_steady (modEP_steady h))

theorem kdlSendOne_steady {f : KdlFrame} (h : Steady fn s t) : Steady fn s (kdlSendOne t q p f) :=
  count_steady (emit_steady (modKP_steady h))

theorem kdlPumpList_steady {l : List Nat} {fs : List KdlFrame} (h : Steady fn s t) : Steady fn s (kdlPumpList q p t l fs) := by
  induction fs generalizing t l with
  | nil => exact h
  | cons f fs ih =>
    rw [kdlPumpList]
    exact steady_ite (ih (kdlSendOne_steady h)) (ih (modKP_steady h))

theorem kdlIssue_steady (h : Steady fn s t) : OptSteady fn s (kdlIssue t o) := by
  unfold kdlIssue
  dsimp only
  split
  · exact optSteady_none
  · exact optSteady_some (steady_ite (modKP_steady (modKP_steady (setOp_steady h)))
      (kdlPumpList_steady (modKP_steady (modKP_steady (modKP_steady (setOp_steady h))))))

theorem tryIssue_steady {flow : Word} (h : Steady fn s t) : Steady fn s (tryIssue t o flow) := by
  refine steady_ite h ?_
  split
  · exact steady_getD (nvSubmit_steady h) h
  · refine steady_getD ?_ h
    split
    · exact ringPost_steady h
    · exact ringRequest_steady h
  · exact ethQueue_steady h
  · exact steady_getD (kdlIssue_steady h) h

theorem dropOp_steady (h : Steady fn s t) : Steady fn s (dropOp t o) :=
  steady_ite (delOp_steady h) (steady_foldl (delOp_steady h) fun _ _ => tryIssue_steady)

theorem issueOp_steady {flow : Word} (h : Steady fn s t) : Steady fn s (issueOp t o flow).1 := by
  have hadd : Steady fn s (addOp t o).1 := steady_upd h
  unfold issueOp
  dsimp only
  split
  · exact endOp_steady hadd
  · exact tryIssue_steady hadd

theorem takeAppend_steady {b : BitVec 128} (h : Steady fn s t) : Steady fn s (takeAppend t b n).1 := by
  unfold takeAppend
  split
  · exact h
  · exact steady_ite (count_steady (modPP_steady h)) (modPP_steady h)

/-! ### Effects staged, numbered and released (04 R102 to R107, R116, 05 R124 to R137) -/

theorem stageRoom_steady {b need : Nat} (h : Steady fn s t) : Steady fn s (stageRoom t b need k) := by
  induction k generalizing t with
  | zero => exact h
  | succ k ih =>
    rw [stageRoom]
    refine steady_ite h ?_
    split
    · exact h
    · exact steady_ite (doom_steady h) (ih (doom_steady h))

theorem stage_steady {es : List Effect} {b nEff bytes ranges : Nat} (h : Steady fn s t) : StagedSteady fn s (stage t b es nEff bytes ranges) := by
  unfold stage
  split
  · exact h
  · split
    · exact h
    · split
      · trivial
      · dsimp only
        split
        · exact stageRoom_steady h
        · split
          · exact stageRoom_steady h
          · exact modClause_steady (stageRoom_steady h)

theorem stageWord_steady {b : Nat} {a : Dword} {w : SWord} (h : Steady fn s t) : StagedSteady fn s (stageWord t n b a w) :=
  stage_steady (setP_steady h)

theorem numberEffect_steady {b : BitVec 512} {e : Effect} (h : Steady fn s t) : Steady fn s (numberEffect b n t e).1 := by
  unfold numberEffect
  split
  · dsimp only
    split
    · exact takeAppend_steady h
    · exact h
  · exact h
  · exact h

theorem numberEffects_steady {b : BitVec 512} {es : List Effect} (h : Steady fn s t) : Steady fn s (numberEffects b n t es).1 := by
  induction es generalizing t with
  | nil => exact h
  | cons e es ih =>
    rw [numberEffects]
    exact ih (numberEffect_steady h)

theorem watermarkPulse_steady (h : Steady fn s t) : Steady fn s (watermarkPulse t n) := steady_ite (pulse_steady h) h

theorem modNum_steady {f : NClause → NClause} (h : Steady fn s t) : Steady fn s (modNum t n f) := steady_upd h

theorem takeNumber_steady (h : Steady fn s t) : Steady fn s (takeNumber t n) := by
  unfold takeNumber
  split
  · exact h
  · next c _ =>
    dsimp only
    have hwindow (v : State) (hv : Steady fn s v) (x : Nat) (l : List NClause) :
        Steady fn s { v with fs := { v.fs with next := x, window := l } } := steady_upd hv
    have hnumbered := fun x l => watermarkPulse_steady (n := winBytes t) (hwindow _ (dropClause_steady (n := c.begin_)
      (numberEffects_steady (b := (getP t n).binds) (n := tagOf t.fs.next) (es := c.effects) h)) x l)
    exact steady_ite (twinSend_steady (hnumbered _ _)) (steady_ite (hnumbered _ _) (modP_steady (modNum_steady (hnumbered _ _))))

theorem fullStop_steady {f : Fin} (h : Steady fn s t) : Steady fn s (fullStop t n f) := by
  unfold fullStop
  split
  · exact runFin_steady h
  · exact steady_ite (runFin_steady (takeNumber_steady h)) (steady_upd (modP_steady h))

/-! ### How a CCW ends (02 R22, R41 to R43, R49, 04 R121) -/

theorem programCheck_steady {code det : Byte} {r : Word} {a : Dword} (h : Steady fn s t) : Steady fn s (programCheck t n code det r a) :=
  afterPost_steady (fun _ => enterChecked_steady) (postDirect_steady (modP_steady (abortClause_steady h)))

theorem stopCondition_steady {dev chan det : Byte} {r : Word} {a : Dword} (h : Steady fn s t) :
    Steady fn s (stopCondition t n dev chan det r a) :=
  afterPost_steady (fun _ => enterChecked_steady) (postDirect_steady (modP_steady (abortClause_steady h)))

theorem chainGoes_steady {c : Ccw} {e : EndInfo} {f : Fin} (h : Steady fn s t) : Steady fn s (chainGoes t n c e f) := by
  unfold chainGoes
  dsimp only
  split
  · refine steady_ite (programCheck_steady h) ?_
    split
    · exact runFin_steady h
    · split
      · exact programCheck_steady h
      · next hs => exact boundary_steady (steady_of_lost hs (stageWord_steady h))
      · next hs =>
        have hstaged := steady_of_ok hs (stageWord_steady h)
        exact steady_ite (fullStop_steady hstaged) (runFin_steady hstaged)
  · split
    · exact runFin_steady h
    · exact afterPost_steady (fun _ => runFin_steady) (postDirect_steady h)

theorem endCcw_steady {e : EndInfo} (h : Steady fn s t) : Steady fn s (endCcw t n e) := by
  unfold endCcw
  dsimp only
  split
  · exact boundary_steady (modP_steady h)
  · exact chainGoes_steady (modP_steady h)

theorem opEnds_steady (h : Steady fn s t) : Steady fn s (opEnds t n o) := by
  unfold opEnds
  split
  · exact steady_ite (steady_ite (endCcw_steady (dropOp_steady h)) (stopCondition_steady (dropOp_steady h)))
      (stopCondition_steady (dropOp_steady h))
  · exact h

theorem readEnd_steady {dev : Byte} {got short : Nat} {long : Bool} (h : Steady fn s t) : Steady fn s (readEnd t n dev got long short) := by
  refine steady_ite (steady_ite (endCcw_steady h) (stopCondition_steady h)) (steady_ite ?_ (endCcw_steady h))
  split
  · exact endCcw_steady h
  · exact steady_ite (endCcw_steady h) (stopCondition_steady h)

theorem readDone_steady (h : Steady fn s t) : Steady fn s (readDone t n o k) := by
  unfold readDone
  split
  · exact steady_ite (readEnd_steady (dropOp_steady h)) (stopCondition_steady (dropOp_steady h))
  · exact h

/-! ### UNBIND and RESET that waited (03 R67, R77) -/

theorem finishUnbind_steady (h : Steady fn s t) : Steady fn s (finishUnbind t n) :=
  steady_ite (finishHeld_steady HeldWhy.noConfusion (setP_steady h)) h

theorem dropFrames_steady (h : Steady fn s t) : Steady fn s (dropFrames t n) := by
  have hset (v : State) (l : List RxFrame) (hv : Steady fn s v) : Steady fn s (setRx v l) := steady_upd hv
  exact steady_foldl (hset _ _ (steady_foldl h fun _ _ => count_steady)) fun _ _ => relieve_steady

theorem dropAttentions_steady (h : Steady fn s t) : Steady fn s (dropAttentions t n) :=
  modP_steady (steady_foldl h fun _ _ hv => steady_ite (count_steady hv) hv)

theorem becomeUnbound_steady (h : Steady fn s t) : Steady fn s (becomeUnbound t n) := by
  rw [becomeUnbound]
  exact modP_steady (breakLocks_steady (dropAttentions_steady (dropFrames_steady h)))

theorem resetFinish_steady (h : Steady fn s t) : Steady fn s (resetFinish t n) := by
  unfold resetFinish
  dsimp only
  generalize hv : modP (leaveAll _ _) n _ = v
  have hidle : Steady fn s v := hv ▸ modP_steady (leaveAll_steady (breakLocks_steady (postDirect_steady (abortClause_steady h))))
  have hend := fun r => finishHeld_steady (why := .reset n) (st := 0) (r := r) HeldWhy.noConfusion
    (steady_ite (c := ((getP t n).state == .halting) = true) (finishHeld_steady (why := .halt n) (st := 0) (r := 1) HeldWhy.noConfusion hidle) hidle)
  exact steady_ite (finishUnbind_steady (becomeUnbound_steady (steady_upd (hend _)))) (hend _)

theorem resetWaits_steady (h : Steady fn s t) : Steady fn s (resetWaits t n) := steady_ite (resetFinish_steady h) h

/-! ### How a transfer ends (06 R155 to R163) -/

variable {m : Nat} {x : Transfer}

theorem fillMv_dropCtx_steady (h : Steady fn s t) : Steady fn s (fillMv (dropCtx t m k) m) := modMv_steady (modMv_steady h)

theorem putCtx_steady (h : Steady fn s t) : Steady fn s (putCtx t m k x) := by
  unfold putCtx
  exact modMv_steady h

theorem writeOut_steady {w : Origin} (h : Steady fn s t) : Steady fn s (writeOut t w k) := by
  cases w with
  | ccw n => exact h
  | ticket n t b => exact steady_upd h
  | firmware t b => exact steady_upd h

theorem resumeEnding_steady (h : Steady fn s t) : Steady fn s (resumeEnding t n) := by
  unfold resumeEnding
  split
  · refine steady_ite ?_ h
    unfold scriptEnds
    split
    · exact h
    · exact endCcw_steady h
  · exact h

theorem requestEnd_steady {e : TEnd} (h : Steady fn s t) : Steady fn s (requestEnd t x e) := by
  have hcp (v : State) (c : Cp) (hv : Steady fn s v) : Steady fn s { v with cp := c } := steady_upd hv
  unfold requestEnd
  dsimp only
  split
  · exact resumeEnding_steady (releaseHold_steady (modP_steady (writeOut_steady h)))
  · exact hcp _ _ (writeOut_steady h)
  · exact writeOut_steady h

theorem limitMet_steady {det : Byte} (h : Steady fn s t) : Steady fn s (limitMet t n x det) :=
  steady_ite (programCheck_steady h) (requestEnd_steady (steady_ite (modP_steady h) h))

theorem dropOpOf_steady {id : Option Nat} (h : Steady fn s t) : Steady fn s (dropOpOf t id) := by
  unfold dropOpOf
  split
  · exact dropOp_steady h
  · exact h

theorem transferCheck_steady {code det result : Byte} (h : Steady fn s t) : Steady fn s (transferCheck t m k x code det result) := by
  have hfree : Steady fn s (fillMv (dropCtx t m k) m) := fillMv_dropCtx_steady h
  unfold transferCheck
  dsimp only
  split
  · exact resetWaits_steady (steady_ite (programCheck_steady (dropOpOf_steady hfree)) (dropOpOf_steady hfree))
  · exact resetWaits_steady (steady_ite (limitMet_steady hfree) (requestEnd_steady hfree))
  · exact requestEnd_steady hfree

theorem transferStops_steady {chan det : Byte} {e : TEnd} {r : Option Word} (h : Steady fn s t) :
    Steady fn s (transferStops t m k x chan det e r) := by
  have hfree : Steady fn s (fillMv (dropCtx t m k) m) := fillMv_dropCtx_steady h
  unfold transferStops
  dsimp only
  split
  · exact resetWaits_steady (steady_ite (stopCondition_steady (dropOpOf_steady hfree)) (dropOpOf_steady hfree))
  · exact resetWaits_steady (requestEnd_steady hfree)
  · exact requestEnd_steady hfree

theorem compareEnd_steady (h : Steady fn s t) : Steady fn s (compareEnd t n x) := by
  unfold compareEnd
  dsimp only
  split
  · exact endCcw_steady h
  · exact endCcw_steady h

/-- The bytes gathered for a device are staged in the clause, or go to it as an operation. -/
theorem handOp_steady (h : Steady fn s t) : Steady fn s (handOp t n x k) := by
  unfold handOp
  dsimp only
  refine steady_ite (programCheck_steady h) ?_
  split
  · split
    · exact endCcw_steady h
    · split
      · exact programCheck_steady h
      · next hs => exact endCcw_steady (steady_of_lost hs (stage_steady h))
      · next hs => exact endCcw_steady (steady_of_ok hs (stage_steady h))
  · generalize hv : setPhase _ n _ = v
    have happend (c : Prop) [Decidable c] (b : BitVec 128) (l : Nat) : Steady fn s (if c then takeAppend t b l else (t, 0)).1 :=
      steady_ite_fst (takeAppend_steady h) h
    have hissued : Steady fn s v := hv ▸ setPhase_steady (issueOp_steady (steady_ite (happend _ _ _) (markUsed_steady (happend _ _ _))))
    split
    · exact steady_ite (opEnds_steady hissued) hissued
    · exact hissued

theorem ccwDataEnd_steady (h : Steady fn s t) : Steady fn s (ccwDataEnd t n x) := by
  refine steady_ite h (steady_ite (compareEnd_steady h) ?_)
  split
  · exact handOp_steady h
  · split
    · split
      · exact steady_ite (readDone_steady h) (setPhase_steady h)
      · exact h
    · exact endCcw_steady h

theorem transferEnd_steady {e : TEnd} (h : Steady fn s t) : Steady fn s (transferEnd t m k x e) := by
  have hfree : Steady fn s (fillMv (dropCtx t m k) m) := fillMv_dropCtx_steady h
  unfold transferEnd
  dsimp only
  split
  · exact resetWaits_steady (ccwDataEnd_steady hfree)
  · exact resetWaits_steady (requestEnd_steady hfree)
  · exact requestEnd_steady hfree

theorem stageRuns_steady {b : Nat} {gs : List Nat} (h : Steady fn s t) : StagedSteady fn s (stageRuns t b x gs) := by
  induction gs generalizing t with
  | nil => exact h
  | cons g gs ih =>
    rw [stageRuns]
    split
    · next hs => exact ih (steady_of_ok hs (stage_steady h))
    · exact stage_steady h

theorem writeRecord_steady {f : Xform} {l : List Byte} (h : Steady fn s t) : StagedSteady fn s (writeRecord t x f l) := by
  unfold writeRecord
  split
  · split
    · exact stage_steady h
    · exact hostWrite_steady h
  · split
    · exact writeDram_steady h
    · exact steady_upd h

/-- what the last byte of a transfer stages in its clause -/
def lastRuns (s : State) (x : Transfer) : Staged :=
  match x.clause with
  | some b => stageRuns s b x ((x.runs.map (·.1)).eraseDups)
  | none => .ok s

theorem lastRuns_steady (h : Steady fn s t) : StagedSteady fn s (lastRuns t x) := by
  unfold lastRuns
  split
  · exact stageRuns_steady h
  · exact h

/-- the same, with the record of its transform -/
def lastStaged (s : State) (x : Transfer) : Staged :=
  match lastRuns s x, x.xf.map fun f => (f, xfFinish f) with
  | .ok s, some (f, r) => writeRecord s x f r.1
  | r, _ => r

theorem lastStaged_steady (h : Steady fn s t) : StagedSteady fn s (lastStaged t x) := by
  unfold lastStaged
  split
  · next hs _ => exact writeRecord_steady (steady_of_ok hs (lastRuns_steady h))
  · exact lastRuns_steady h

theorem lastByte_steady (h : Steady fn s t) : Steady fn s (lastByte t m k x) := by
  unfold lastByte
  dsimp only
  refine steady_ite (putCtx_steady h) ?_
  split
  · next hs => exact transferCheck_steady h
  · next hs => exact transferEnd_steady (steady_of_lost hs (lastStaged_steady h))
  · next hs =>
    have hok := steady_of_ok hs (lastStaged_steady h)
    refine steady_ite (transferStops_steady hok) (steady_ite ?_ (transferEnd_steady hok))
    split
    · exact setPhase_steady (putCtx_steady hok)
    · exact putCtx_steady hok

/-! ### How an effect is done (05 R134 to R138) -/

theorem sendReleased_steady (h : Steady fn s t) : Steady fn s (sendReleased t) := by
  have hmark (n : Nat) : Steady fn s { t with tw := { t.tw with sentMark := n } } := steady_upd h
  exact steady_ite (twinSend_steady (hmark _)) h

theorem writeMirrors_steady (h : Steady fn s t) : Steady fn s (writeMirrors t) :=
  steady_foldl (steady_upd h) fun _ _ => ctmStore_steady

theorem clauseReleased_steady (h : Steady fn s t) : Steady fn s (clauseReleased t n) := by
  have hwindow (l : List NClause) : Steady fn s { t with fs := { t.fs with window := l } } := steady_upd h
  unfold clauseReleased
  split
  · exact h
  · exact steady_ite (finishUnbind_steady (sendReleased_steady (writeMirrors_steady (hwindow _)))) h

theorem effectDone_steady (h : Steady fn s t) : Steady fn s (effectDone t n k) := by
  have hdone (v : State) (hv : Steady fn s v) : Steady fn s { v with fs := { v.fs with barHold := none } } := steady_upd hv
  exact clauseReleased_steady (steady_ite (hdone _ (modNum_steady h)) (modNum_steady h))

theorem releaseErrorWord_steady {c : NClause} {a : Dword} {dev chan det : Byte} (h : Steady fn s t) :
    Steady fn s (releaseErrorWord t c a dev chan det) := by
  have hcount (v : State) (hv : Steady fn s v) (w : Word) : Steady fn s { v with fs := { v.fs with relErrors := w } } := steady_upd hv
  exact pulse_steady (rcPulse_steady (hcount _ (postBits_steady h) _))

theorem effectOpEnd_steady {dev : Byte} (h : Steady fn s t) : Steady fn s (effectOpEnd t n k dev) := by
  refine steady_ite (effectDone_steady h) ?_
  unfold effectFailed
  split
  · exact h
  · exact effectDone_steady (releaseErrorWord_steady h)

/-! ### A port falls, and the part enters a sleep (08 R273, 12 R370, R376) -/

theorem afterOpEnd_steady (h : Steady fn s t) : Steady fn s (afterOpEnd t o) := by
  unfold afterOpEnd
  split
  · refine steady_ite (steady_ite (opEnds_steady h) (readDone_steady h)) ?_
    split
    · exact steady_ite (lastByte_steady h) h
    · exact h
  · split
    · exact effectOpEnd_steady (dropOp_steady h)
    · exact h
  · exact steady_ite (dropOp_steady h) h

theorem finishOp_steady {dev det : Byte} (h : Steady fn s t) : Steady fn s (finishOp t o dev det k) := by
  unfold finishOp
  dsimp only
  split
  · exact afterOpEnd_steady (endOp_steady h)
  · exact endOp_steady h

theorem portLeaves_steady {st : BitVec 3} {cause : BitVec 4} (h : Steady fn s t) : Steady fn s (portLeaves t q p st cause) := by
  have hdown (x : Port) : Steady fn s (setLinkState (setPort t q p x) q p st) := setLinkState_steady (setPort_steady h)
  exact steady_ite (steady_foldl (steady_ite (emit_steady (hdown _)) (hdown _)) fun _ _ => finishOp_steady)
    (steady_ite (emit_steady (hdown _)) (hdown _))

theorem quadsDown_steady {cause : BitVec 4} (h : Steady fn s t) : Steady fn s (quadsDown t cause) :=
  steady_foldl h fun _ _ hv => steady_foldl hv fun _ _ hw => steady_ite hw (portLeaves_steady hw)

theorem enterLow_steady (h : Steady fn s t) : Steady fn s (enterLow t) := by
  have hlink (v : State) (hv : Steady fn s v) : Steady fn s { v with tw := { v.tw with link := 0 } } := steady_upd hv
  exact hlink _ (steady_ite (pulse_steady (quadsDown_steady h)) (quadsDown_steady h))

end Sys2Proof.Machine
end

section
/-!
PROOFS. IDENTIFY, CONFIGURE, RESET_DEVICE, SLEEP and VF_CONFIG (O45).
-/

namespace Sys2Proof.Machine

section
variable {s : State} {fn : Master} {p : Packet}

theorem exec_admIdentify (h : Starts s fn p 0x0001) :
    exec (.admIdentify fn p) s = .next (answerCmd fn p (cmdIdentify fn (takePacket s fn))) := congrArg _ (adm_starts h (by decide))
theorem exec_admConfigure (h : Starts s fn p 0x0002) :
    exec (.admConfigure fn p) s = .next (answerCmd fn p (cmdConfigure p (takePacket s fn))) := congrArg _ (adm_starts h (by decide))
theorem exec_admResetDevice (h : Starts s fn p 0x0003) :
    exec (.admResetDevice fn p) s = .next (answerCmd fn p (cmdResetDevice fn p (takePacket s fn))) := congrArg _ (adm_starts h (by decide))
theorem exec_admSleep (h : Starts s fn p 0x0004) :
    exec (.admSleep fn p) s = .next (answerCmd fn p (cmdSleep fn p (takePacket s fn))) := congrArg _ (adm_starts h (by decide))
theorem exec_admVfConfig (h : Starts s fn p 0x0005) :
    exec (.admVfConfig fn p) s = .next (answerCmd fn p (cmdVfConfig fn p (takePacket s fn))) := congrArg _ (adm_starts h (by decide))

/-! ### IDENTIFY (09 R291, Table 9-9) -/

/-- the pronouns and status queues a function may use, as IDENTIFY tells them -/
def rangesTold (s : State) (fn : Master) : List Byte :=
  if isPf fn = true then toLE 4 1 ++ toLE 4 0xFFFFF ++ toLE 2 0 ++ toLE 2 4096
  else toLE 4 (getFunc s fn).prnFirst ++ toLE 4 (getFunc s fn).prnCount ++ toLE 2 (getFunc s fn).sqFirst ++ toLE 2 (getFunc s fn).sqCount

theorem cmdIdentify_eq : cmdIdentify fn s = .done s (num192 (ofLE (toLE 2 0x7128 ++
    [Sys2Proof.Config.stepping.setWidth 8, BitVec.ofNat 8 (lcState s)] ++ toLE 4 (if s.rst.rom = true then 0 else Sys2Proof.Config.firmwareVersion.toNat) ++
    [s.sched.ctmSize, BitVec.ofNat 8 (pwrState s), s.tw.state.setWidth 8, 0] ++ rangesTold s fn))) := by
  unfold cmdIdentify rangesTold
  cases isPf fn <;> simp only [Bool.false_eq_true, if_true, if_false, List.append_assoc]

theorem rangesTold_takePacket (h : (getFunc s fn).enable = true) : rangesTold (takePacket s fn) fn = rangesTold s fn := by
  obtain ⟨_, e⟩ := getFunc_takePacket h fn
  rw [rangesTold, e, rangesTold]

/-! ### CONFIGURE (15 R447, R448) -/

/-- the fields of CONFIGURE in range: CTM units, their base, and the base of the pronoun tables -/
def ConfigureGood (p : Packet) : Prop := 1 ≤ pkF p 9 1 ∧ pkF p 9 1 ≤ 16 ∧ pkF p 8 1 + pkF p 9 1 ≤ 120 ∧ pkF p 10 1 ≤ 118

theorem cmdConfigure_units (h : pkF p 9 1 = 0 ∨ 16 < pkF p 9 1) : cmdConfigure p s = badField s 9 := if_pos h

theorem cmdConfigure_ctmBase (h1 : 1 ≤ pkF p 9 1) (h16 : pkF p 9 1 ≤ 16) (h : 120 < pkF p 8 1 + pkF p 9 1) :
    cmdConfigure p s = badField s 8 := (if_neg (by omega)).trans (if_pos h)

theorem cmdConfigure_tableBase (h1 : 1 ≤ pkF p 9 1) (h16 : pkF p 9 1 ≤ 16) (hb : pkF p 8 1 + pkF p 9 1 ≤ 120) (h : 118 < pkF p 10 1) :
    cmdConfigure p s = badField s 10 := (if_neg (by omega)).trans ((if_neg (by omega)).trans (if_pos h))

/-- the state with CTM and tables placed -/
def placed (s : State) (p : Packet) : State :=
  { s with sched := { s.sched with configured := true, prnBase := BitVec.ofNat 7 (pkF p 10 1), prnLocked := true
                                   ctmBase := BitVec.ofNat 8 (pkF p 8 1), ctmSize := BitVec.ofNat 8 (pkF p 9 1) } }

theorem cmdConfigure_good (h : ConfigureGood p) : cmdConfigure p s =
    if s.sched.configured then refuse s stState
    else if overlaps (pkF p 8 1 * unit256) (pkF p 9 1 * unit256) (pkF p 10 1 * unit256) prnTablesLen then refuse s stBinding
    else .done (clearTable (placed s p)) 0 := by
  obtain ⟨h1, h16, hb, ht⟩ := h
  exact (if_neg (by omega)).trans ((if_neg (by omega)).trans (if_neg (by omega)))

/-- A table without the entries of some keys reads as before at every other key. -/
theorem tget_filter {α : Type} (d : α) (f : Nat → Bool) (t : Tab α) (k : Nat) :
    tget d (t.filter fun e => f e.1) k = if f k then tget d t k else d := by
  induction t with
  | nil => simp [tget]
  | cons e t ih =>
    obtain ⟨k', v⟩ := e
    by_cases hk : k = k'
    · subst hk
      cases hf : f k <;> simp [hf, tget, ih]
    · cases hf : f k' <;> simp [hf, tget, ih, hk]

theorem tget_clearTable (s : State) (k : Nat) : tget emptyByte (clearTable s).mem.dram k =
    if overlaps k 1 (prnStart s) unit256 then emptyByte else tget emptyByte s.mem.dram k := by
  refine (tget_filter emptyByte (fun k => !(overlaps k 1 (prnStart s) unit256)) s.mem.dram k).trans ?_
  cases overlaps k 1 (prnStart s) unit256 <;> rfl

theorem overlaps_byte {k a n : Nat} : overlaps k 1 a n = true ↔ a ≤ k ∧ k < a + n := by
  simp only [overlaps, Bool.and_eq_true, decide_eq_true_eq]
  omega

theorem prnStart_placed (h : ConfigureGood p) : prnStart (placed s p) = pkF p 10 1 * unit256 := by
  obtain ⟨_, _, _, ht⟩ := h
  show (BitVec.ofNat 7 (pkF p 10 1)).toNat * unit256 = _
  rw [BitVec.toNat_ofNat, Nat.mod_eq_of_lt (by omega)]

/-! ### RESET_DEVICE (09 Table 9-9) -/

theorem cmdResetDevice_resets (h : pkF p 8 1 = 1) :
    cmdResetDevice fn p s = .held (takeReset (reply s fn (admTag p) 0 0 0) .firmware 4) := if_pos h

theorem cmdResetDevice_refused (h : pkF p 8 1 ≠ 1) : cmdResetDevice fn p s = badField s 8 := if_neg h

/-! ### SLEEP (12 R369, R370, R376) -/

theorem cmdSleep_range (h2 : pkF p 8 1 ≠ 2) (h3 : pkF p 8 1 ≠ 3) : cmdSleep fn p s = badField s 8 := if_pos ⟨h2, h3⟩

theorem cmdSleep_refused (h : pkF p 8 1 = 2 ∨ pkF p 8 1 = 3) (hno : s.pwr.sleep ≠ .awake ∨ sleepReady s (pkF p 8 1 == 3) = false) :
    cmdSleep fn p s = refuse s stState := by
  refine (if_neg (by omega)).trans (if_pos ?_)
  rcases hno with e | e <;> simp [e]

/-- the state in which the part goes to sleep: SLEEP's reply is held, and the wake mask is the packet's -/
def sleepAsked (s : State) (fn : Master) (p : Packet) : State :=
  { hold s fn (admTag p) .sleep with pwr := { s.pwr with mask := p.extractLsb' 128 12 } }

theorem cmdSleep_enters (h : pkF p 8 1 = 2 ∨ pkF p 8 1 = 3) (ha : s.pwr.sleep = .awake) (hr : sleepReady s (pkF p 8 1 == 3) = true) :
    cmdSleep fn p s = .held (if pkF p 8 1 = 2 then enterStandby (sleepAsked s fn p) else enterDeep (sleepAsked s fn p)) :=
  (if_neg (by omega)).trans (if_neg (by simp [ha, hr]))

/-- The records held dirty in the cache are written to the table alone. -/
theorem flushCache_what (s : State) : ∃ x, flushCache s = { s with sched := x } := by
  have hfold (l : List Nat) : ∃ x, l.foldl (fun s n => { s with sched := { s.sched with table := tset {} n (getP s n) s.sched.table } }) s =
      { s with sched := x } :=
    List.foldlRecOn l _ (motive := fun u : State => ∃ x, u = { s with sched := x }) ⟨_, rfl⟩ fun u hu _ _ => by
      obtain ⟨_, rfl⟩ := hu
      exact ⟨_, rfl⟩
  obtain ⟨_, e⟩ := hfold ((s.sched.cache.map fun e => (e.2.filter (·.dirty)).map fun w => w.tag * 4096 + e.1).flatten)
  unfold flushCache
  dsimp only
  rw [e]
  exact ⟨_, rfl⟩

theorem writeImage_what (s : State) : ∃ m f, writeImage s = { s with mem := m, free := f } := by
  unfold writeImage writeDram
  dsimp only
  exact ⟨_, _, rfl⟩

/-- DEEP SLEEP's image, its records and its key bank reach memory, the record tables and the store, once ports and Malid Link are
down. -/
theorem enterDeep_what (s : State) : ∃ m x f v, enterDeep s = { enterLow s with
    mem := m, sched := x, free := f, nv := v, pwr := { (enterLow s).pwr with sleep := .entering, light := false } } := by
  unfold enterDeep
  generalize enterLow s = u
  obtain ⟨x, hx⟩ := flushCache_what u
  obtain ⟨_, _, hm⟩ := writeImage_what { u with sched := x }
  rw [hx, hm]
  dsimp only
  split
  · exact ⟨_, _, _, _, rfl⟩
  · exact ⟨_, _, _, _, rfl⟩

/-- What holds of a part that has begun to enter a sleep. -/
theorem sleepBegun (s : State) (fn : Master) (p : Packet) (standby : Prop) [Decidable standby] :
    let u := if standby then enterStandby (sleepAsked s fn p) else enterDeep (sleepAsked s fn p)
    u.pwr.sleep = .entering ∧ u.pwr.light = decide standby ∧ u.pwr.mask = p.extractLsb' 128 12 ∧ u.tw.link = 0 ∧
      ({ fn := fn, tag := admTag p, why := .sleep } : Held) ∈ u.hp.held := by
  have hlow : Steady fn (sleepAsked s fn p) (enterLow (sleepAsked s fn p)) := enterLow_steady (.refl _)
  have hmask : (enterLow (sleepAsked s fn p)).pwr.mask = p.extractLsb' 128 12 := congrArg Pwr.mask hlow.pwr
  have hdown : (enterLow (sleepAsked s fn p)).tw.link = 0 := rfl
  have hheld := hlow.sleep _ (mem_held_hold s fn (admTag p) .sleep) rfl
  dsimp only
  by_cases hst : standby
  · rw [if_pos hst, decide_eq_true hst]
    unfold enterStandby
    generalize enterLow (sleepAsked s fn p) = v at hmask hdown hheld
    exact ⟨rfl, rfl, hmask, hdown, hheld⟩
  · obtain ⟨_, _, _, _, e⟩ := enterDeep_what (sleepAsked s fn p)
    rw [if_neg hst, decide_eq_false hst, e]
    generalize enterLow (sleepAsked s fn p) = v at hmask hdown hheld
    exact ⟨rfl, rfl, hmask, hdown, hheld⟩

/-! ### VF_CONFIG (09 R291) -/

/-- the ranges of VF_CONFIG lie in the pronouns and status queues there are, and its VF is one of the PF's 32 -/
def VfConfigGood (p : Packet) : Prop :=
  pkF p 8 1 ≤ 31 ∧ pkF p 12 4 < 2 ^ 20 ∧ pkF p 12 4 + pkF p 16 4 ≤ 2 ^ 20 ∧ pkF p 20 2 < 4096 ∧ pkF p 20 2 + pkF p 22 2 ≤ 4096

/-- pronouns bound for the VF, or status queues of it, are in use -/
def VfInUse (s : State) (vf : Master) : Prop :=
  (∃ e ∈ s.sched.recs, isBound e.2 = true ∧ e.2.hostFn = vf) ∨ ∃ e ∈ s.hp.sqs, e.2.owner = vf

/-- another VF has a pronoun or a status queue of these ranges -/
def VfMeets (s : State) (vf : Master) (a n b m : Nat) : Prop :=
  ∃ v ∈ allVfs, v ≠ vf ∧ (rangesMeet a n (getFunc s v).prnFirst (getFunc s v).prnCount = true ∨
    rangesMeet b m (getFunc s v).sqFirst (getFunc s v).sqCount = true)

theorem cmdVfConfig_vf (h : 31 < pkF p 8 1) : cmdVfConfig fn p s = badField s 8 := if_pos h

theorem cmdVfConfig_prnFirst (hi : pkF p 8 1 ≤ 31) (h : 2 ^ 20 ≤ pkF p 12 4) : cmdVfConfig fn p s = badField s 12 :=
  (if_neg (by omega)).trans (if_pos h)

theorem cmdVfConfig_prnCount (hi : pkF p 8 1 ≤ 31) (ha : pkF p 12 4 < 2 ^ 20) (h : 2 ^ 20 < pkF p 12 4 + pkF p 16 4) :
    cmdVfConfig fn p s = badField s 16 := (if_neg (by omega)).trans ((if_neg (by omega)).trans (if_pos h))

theorem cmdVfConfig_sqFirst (hi : pkF p 8 1 ≤ 31) (ha : pkF p 12 4 < 2 ^ 20) (hn : pkF p 12 4 + pkF p 16 4 ≤ 2 ^ 20)
    (h : 4096 ≤ pkF p 20 2) : cmdVfConfig fn p s = badField s 20 :=
  (if_neg (by omega)).trans ((if_neg (by omega)).trans ((if_neg (by omega)).trans (if_pos h)))

theorem cmdVfConfig_sqCount (hi : pkF p 8 1 ≤ 31) (ha : pkF p 12 4 < 2 ^ 20) (hn : pkF p 12 4 + pkF p 16 4 ≤ 2 ^ 20)
    (hb : pkF p 20 2 < 4096) (h : 4096 < pkF p 20 2 + pkF p 22 2) : cmdVfConfig fn p s = badField s 22 :=
  (if_neg (by omega)).trans ((if_neg (by omega)).trans ((if_neg (by omega)).trans ((if_neg (by omega)).trans (if_pos h))))

theorem vfInUse_iff {vf : Master} : ((s.sched.recs.any fun e => isBound e.2 && e.2.hostFn == vf) || (s.hp.sqs.any fun q => q.2.owner == vf)) = true ↔
    VfInUse s vf := by
  simp only [Bool.or_eq_true, List.any_eq_true, Bool.and_eq_true, beq_iff_eq, VfInUse]

theorem vfMeets_iff {vf : Master} {a n b m : Nat} : (allVfs.any fun v => let f := getFunc s v
      v != vf && (rangesMeet a n f.prnFirst f.prnCount || rangesMeet b m f.sqFirst f.sqCount)) = true ↔ VfMeets s vf a n b m := by
  simp only [List.any_eq_true, Bool.and_eq_true, Bool.or_eq_true, bne_iff_ne, VfMeets]

/-- Fields in range: whether the VF is in use, then whether another VF has what it is to have. -/
theorem cmdVfConfig_good (h : VfConfigGood p) :
    let vf := vfOf fn (pkF p 8 1)
    (VfInUse s vf → cmdVfConfig fn p s = refuse s stState) ∧
    (¬ VfInUse s vf → VfMeets s vf (pkF p 12 4) (pkF p 16 4) (pkF p 20 2) (pkF p 22 2) → cmdVfConfig fn p s = refuse s stBinding) ∧
    (¬ VfInUse s vf → ¬ VfMeets s vf (pkF p 12 4) (pkF p 16 4) (pkF p 20 2) (pkF p 22 2) →
      cmdVfConfig fn p s = .done (modFunc s vf fun f =>
        { f with prnFirst := pkF p 12 4, prnCount := pkF p 16 4, sqFirst := pkF p 20 2, sqCount := pkF p 22 2 }) 0) := by
  obtain ⟨hi, ha, hn, hb, hm⟩ := h
  have hfields {x y : Ans} (hxy : x = y) : (if 31 < pkF p 8 1 then badField s 8
      else if 2 ^ 20 ≤ pkF p 12 4 then badField s 12
      else if 2 ^ 20 < pkF p 12 4 + pkF p 16 4 then badField s 16
      else if 4096 ≤ pkF p 20 2 then badField s 20
      else if 4096 < pkF p 20 2 + pkF p 22 2 then badField s 22 else x) = y := by
    rw [if_neg (by omega), if_neg (by omega), if_neg (by omega), if_neg (by omega), if_neg (by omega), hxy]
  refine ⟨fun huse => hfields (if_pos (vfInUse_iff.mpr huse)),
    fun hfree hmeet => hfields ((if_neg (mt vfInUse_iff.mp hfree)).trans (if_pos (vfMeets_iff.mpr hmeet))),
    fun hfree hapart => hfields ((if_neg (mt vfInUse_iff.mp hfree)).trans (if_neg (mt vfMeets_iff.mp hapart)))⟩

theorem vfMeets_takePacket (h : (getFunc s fn).enable = true) {vf : Master} {a n b m : Nat} :
    VfMeets (takePacket s fn) vf a n b m ↔ VfMeets s vf a n b m := by
  have hranges (v : Master) : (getFunc (takePacket s fn) v).prnFirst = (getFunc s v).prnFirst ∧
      (getFunc (takePacket s fn) v).prnCount = (getFunc s v).prnCount ∧ (getFunc (takePacket s fn) v).sqFirst = (getFunc s v).sqFirst ∧
      (getFunc (takePacket s fn) v).sqCount = (getFunc s v).sqCount := by
    obtain ⟨_, e⟩ := getFunc_takePacket h v
    rw [e]
    exact ⟨rfl, rfl, rfl, rfl⟩
  simp only [VfMeets, hranges]

theorem isVf_vfOf {i : Nat} (h : i ≤ 31) : isVf (vfOf fn i) = true := by
  have hnum : (vfOf fn i).toNat = (if fn == 0x40 then 0x48 else 0x68) + i := by
    rw [vfOf, BitVec.toNat_ofNat]
    split <;> omega
  rw [isVf, hnum]
  split <;> simp <;> omega

/-- A VF issues no VF_CONFIG, so that the VF configured is not the function that asks. -/
theorem vfOf_ne_asker (h : Starts s fn p 0x0005) {i : Nat} (hi : i ≤ 31) : vfOf fn i ≠ fn := by
  obtain ⟨_, _, _, _, _, hvf⟩ := h
  intro e
  have hasks : isVf fn = true := e ▸ isVf_vfOf hi
  exact absurd (hvf hasks) (by decide)

end

/-! ### The statement -/

/-- Settles O45: each command starts, judges its fields in order, and does what its operation does. -/
theorem adminDeviceCommands : Obligations.AdminDeviceCommands := by
  unfold Obligations.AdminDeviceCommands
  intro s fn p s0 f ans no
  refine ⟨?identify, ?configure, ?reset, ?sleep, ?vfConfig⟩
  case identify =>
    intro hst
    have he := exec_admIdentify hst
    have htold := rangesTold_takePacket hst.enabled
    refine answers_done he (cmdIdentify_eq.trans ?_)
    rw [htold]
    rfl
  case configure =>
    intro hst b n t good c
    have he := exec_admConfigure hst
    refine ⟨fun h => answers_no he (cmdConfigure_units h), fun h1 h16 h => answers_no he (cmdConfigure_ctmBase h1 h16 h),
      fun h1 h16 hb h => answers_no he (cmdConfigure_tableBase h1 h16 hb h), fun hgood hc => ?_, fun hgood hc ho => ?_,
      fun hgood hc ho => ?_⟩
    · exact answers_no he ((cmdConfigure_good hgood).trans (if_pos hc))
    · exact answers_no he ((cmdConfigure_good hgood).trans ((if_neg (ne_true_of_eq_false hc)).trans (if_pos ho)))
    · have hrun := (cmdConfigure_good (s := s0) hgood).trans ((if_neg (ne_true_of_eq_false hc)).trans (if_neg (ne_true_of_eq_false ho)))
      have hstart : prnStart (placed s0 p) = t * unit256 := prnStart_placed hgood
      have hread (a : Nat) := tget_clearTable (placed s0 p) a
      rw [hstart] at hread
      obtain ⟨h1, h16, hb, ht⟩ := hgood
      have hbase : (BitVec.ofNat 7 t).toNat = t := by rw [BitVec.toNat_ofNat]; exact Nat.mod_eq_of_lt (by omega)
      have hctm : (BitVec.ofNat 8 b).toNat = b := by rw [BitVec.toNat_ofNat]; exact Nat.mod_eq_of_lt (by omega)
      have hunits : (BitVec.ofNat 8 n).toNat = n := by rw [BitVec.toNat_ofNat]; exact Nat.mod_eq_of_lt (by omega)
      refine ⟨_, answers_done he hrun, rfl, hbase, rfl, hctm, hunits, fun _ => rfl, fun a hlo hhi => ?_, fun a hout => ?_, rfl, rfl⟩
      · exact (hread a).trans (if_pos (overlaps_byte.mpr ⟨hlo, hhi⟩))
      · exact (hread a).trans (if_neg fun hin => by
          obtain ⟨hlo, hhi⟩ := overlaps_byte.mp hin
          omega)
  case reset =>
    intro hst c
    have he := exec_admResetDevice hst
    exact ⟨fun h => exec_held he (cmdResetDevice_resets h), fun h => answers_no he (cmdResetDevice_refused h)⟩
  case sleep =>
    intro hst c st
    have he := exec_admSleep hst
    refine ⟨fun h2 h3 => answers_no he (cmdSleep_range h2 h3), fun h hno => answers_no he (cmdSleep_refused h hno), fun h ha hr => ?_⟩
    obtain ⟨hentering, hlight, hmask, hlink, hheld⟩ := sleepBegun s0 fn p (pkF p 8 1 = 2)
    exact ⟨_, exec_held he (cmdSleep_enters (s := s0) h ha hr), hentering, hlight, hmask, hlink, hheld⟩
  case vfConfig =>
    intro hst c i a n b m vf good inUse meets
    have he := exec_admVfConfig hst
    refine ⟨fun h => answers_no he (cmdVfConfig_vf h), fun hi h => answers_no he (cmdVfConfig_prnFirst hi h),
      fun hi ha h => answers_no he (cmdVfConfig_prnCount hi ha h), fun hi hn ha h => answers_no he (cmdVfConfig_sqFirst hi ha hn h),
      fun hi hn ha hb h => answers_no he (cmdVfConfig_sqCount hi ha hn hb h), fun hgood huse => ?_, fun hgood hfree hmeet => ?_,
      fun hgood hfree hapart => ?_⟩
    all_goals
      obtain ⟨hused, hmet, hset⟩ := cmdVfConfig_good (s := s0) (fn := fn) hgood
    · exact answers_no he (hused huse)
    · exact answers_no he (hmet hfree ((vfMeets_takePacket hst.enabled).mpr hmeet))
    · obtain ⟨hi, _⟩ := hgood
      have hother : getFunc s0 vf = getFunc s vf := getFunc_setFunc_other _ _ (vfOf_ne_asker hst hi)
      refine answers_done he ((hset hfree (mt (vfMeets_takePacket hst.enabled).mp hapart)).trans ?_)
      rw [modFunc, hother]

end Sys2Proof.Machine
end
